-- ==== Sys2Proof/Word.lean ====
section
/-! DEFINITION. The words of the Gethra LU8 command link and the names by which commands reach its records:
record numbers, valves, inputs and the lines a request travels on. -/

namespace Sys2Proof

/-- The eight data bits of a link character (spec 10, section 10.2). -/
abbrev Byte := BitVec 8
/-- A two-character integer: revisions, tags, setpoint versions. -/
abbrev Word16 := BitVec 16
/-- A four-character integer: litre totals, counters and stamps. -/
abbrev Word32 := BitVec 32

/-- Spot numbers 0 to 7 (R23). -/
abbrev SpotNo := Fin 8
/-- Vessel numbers 0 to 5 (R83). -/
abbrev VesselNo := Fin 6
/-- Compressor numbers 0 to 1 (R119). -/
abbrev CompNo := Fin 2
/-- Car slots 0 to 23 (R1). -/
abbrev SlotNo := Fin 24

/-- The two line pairs of the command link (R185). -/
inductive Line where
  | clocked
  | receive
  deriving DecidableEq, Repr

/-- How a request reaches the part: on the clocked lines, where select chooses the part, or on the receive line behind an
address character (R188). -/
inductive Via where
  | clocked
  | async (address : Byte)
  deriving DecidableEq, Repr

/-- The line pair a request travels on. -/
def Via.line : Via → Line
  | .clocked => .clocked
  | .async _ => .receive

/-- The four valves of a spot, in the order of the Valve name enumeration of spec 11, section 11.1. -/
inductive ValveName where
  | shutoff
  | liquid
  | vapour
  | vent
  deriving DecidableEq, Repr

/-- Compressor directions, and with them the two direction valves of a compressor (R119, R141). -/
inductive Direction where
  | push
  | draw
  deriving DecidableEq, Repr

/-- The partner direction. -/
def Direction.other : Direction → Direction
  | .push => .draw
  | .draw => .push

/-- The 36 valves of the siding (R141). -/
inductive ValveId where
  | spot (i : SpotNo) (v : ValveName)
  | direction (c : CompNo) (d : Direction)
  deriving DecidableEq, Repr

/-- The filtered inputs of the siding, one filter each (R152). -/
inductive Input where
  | openLimit (v : ValveId)
  | shutLimit (v : ValveId)
  | bond (i : SpotNo)
  | hose (i : SpotNo)
  | residual (i : SpotNo)
  | connectedButton (i : SpotNo)
  | stopButton (i : SpotNo)
  | clearButton (i : SpotNo)
  | trip (v : VesselNo)
  | run (c : CompNo)
  | faultInput (c : CompNo)
  deriving DecidableEq, Repr

/-- What one sample may deliver as ONE event: the two limits of one valve together, every other input by itself (R154). -/
inductive SampleGroup where
  | limits (v : ValveId)
  | bond (i : SpotNo)
  | hose (i : SpotNo)
  | residual (i : SpotNo)
  | connectedButton (i : SpotNo)
  | stopButton (i : SpotNo)
  | clearButton (i : SpotNo)
  | trip (v : VesselNo)
  | run (c : CompNo)
  | faultInput (c : CompNo)
  deriving DecidableEq, Repr

end Sys2Proof
end

