-- ==== Sys2Proof/Config.lean ====
section
/-! DEFINITION. What the silicon fixes (counts, the unit of time the model counts in, the part revision code) and the free
values: constants without a body for the values the spec does not state. -/

namespace Sys2Proof.Config

/-- The number of 10 ms periods in one second: timers count in input filter sample periods (spec 00, Numbers). -/
def ticksPerSecond : Nat := 100

/-- The lit and dark phases of a flashing HALT lamp, 0.5 s each, in 10 ms periods (R51). -/
def flashTicks : Nat := 50

/-- Orders a spot's queue holds at most (R56). -/
def queueDepth : Nat := 4

/-- The broadcast unit address (R188). -/
def broadcastAddress : Byte := 15

/-- The part revision code READ SIDING reports (R197). -/
def partRevision : Byte := 3

/-- How far a gauge stamp may lie behind the delivery counter, in litres (R88). -/
def stampWindow : Nat := 1000000

/-- The round limit of the arbiter's repetition within one event (R127, log entry 8). -/
def settleRounds : Nat := 256

/-- FREE VALUE (log entry 3): an order's delivered after a litre credited at 4,294,967,295. R54 gives the range and R66 the
increase, and no rule says what follows at the end of the range. -/
opaque orderDeliveredPastRange : Nat → Word32

/-- FREE VALUE (log entry 4): the order state character of a PLACE ORDER reply whose order has already left at that event. -/
opaque leftOrderState : Nat → Byte

/-- FREE VALUE (log entry 4): the position character of a PLACE ORDER reply whose order has already left at that event. -/
opaque leftOrderPosition : Nat → Byte

/-- FREE VALUE (log entry 5): the character of an enumerated value that the record does not hold. -/
opaque absentCharacter : Byte

/-- FREE VALUE (log entry 5): the litres of a quantity that the record does not hold. -/
opaque absentLitres : Nat

end Sys2Proof.Config
end

