-- ==== Sys2Proof/Syntax.lean ====
section
/-! DEFINITION. The commands of the block: one constructor per row of spec/opcode_table.json. Operands are raw: a request
carries its fields as they stand on the wire (spec 11, section 11.2), so that its owner judges them (R199). -/

namespace Sys2Proof

/-- The commands. Requests name the way they came (`via`); field events name the place they happen at. -/
inductive Instr where
  /-- PIN_RESET; the operand is the level of the three unit address straps at its release (R184). -/
  | pinReset (straps : BitVec 3)
  | announce (via : Via) (mark : List Byte) (grade : Byte) (load : Word32)
  | amend (via : Via) (slot issue : Byte) (expected : Word16) (mark : Option (List Byte)) (grade : Option Byte)
      (load : Option Word32) (hoses : Option Byte)
  | readCar (via : Via) (slot issue : Byte)
  | find (via : Via) (mark : List Byte)
  | listCars (via : Via)
  | release (via : Via) (slot issue : Byte) (expected : Word16)
  | spot (via : Via) (slot issue : Byte) (place : Byte)
  | unspot (via : Via) (place : Byte)
  | openSpot (via : Via) (place : Byte)
  | isolate (via : Via) (place : Byte)
  | isolateAll (via : Via)
  | clearHold (via : Via) (place : Byte) (reason : Byte)
  | resume (via : Via) (place : Byte)
  | strokeSpot (via : Via) (place : Byte)
  | readSpot (via : Via) (place : Byte)
  | placeOrder (via : Via) (place : Byte) (tag : Word16) (kind : Byte) (target : Option Word32) (vessel : Option Byte)
      (closeAfter : Byte)
  | trim (via : Via) (place : Byte) (tag : Word16) (target : Word32)
  | cancelOrder (via : Via) (place : Byte) (tag : Word16)
  | gauge (via : Via) (vessel : Byte) (free : Word32) (stamp : Word32)
  | setVesselService (via : Via) (vessel : Byte) (service : Byte)
  | readVessel (via : Via) (vessel : Byte)
  | clearCompressor (via : Via) (compressor : Byte)
  | readCompressor (via : Via) (compressor : Byte)
  | rearm (via : Via)
  /-- WRITE_PROFILE; `fields` are the characters of the section's layout (spec 11, section 11.4). -/
  | writeProfile (via : Via) (sec : Byte) (fields : List Byte)
  | readProfile (via : Via) (sec : Byte)
  | setLock (via : Via) (level : Byte)
  | stageSetpoints (via : Via) (flowHigh : Word16) (window : Byte) (stall recovery creep : Word16)
  | setpointHold (via : Via) (value : Byte)
  | commission (via : Via)
  | restartSiding (via : Via)
  | readSiding (via : Via)
  | takeChanges (via : Via)
  | fetch (via : Via)
  | unknownRequest (via : Via) (code : Byte)
  | requestForAnotherUnit (address : Byte) (code : Byte)
  /-- A body character received on a line pair (R190). -/
  | surplusCharacter (line : Line) (value : Byte)
  | selectDeasserted
  | receiveGapExpiry
  | framingFailure
  | flagsCharacterSent
  | replyTransmissionEnd
  | meterPulse (i : SpotNo)
  | litreEmitted (i : SpotNo)
  /-- INPUT_SAMPLE; `active` names the inputs whose raw level is active, `order` the groups whose filtered changes are taken
  first, in that order (R154 leaves the order open). -/
  | inputSample (active : List Input) (order : List SampleGroup)
  /-- LIMIT_CHANGE; the operands are the filtered open and shut limits of the valve after the event (R145). -/
  | limitChange (v : ValveId) (openActive shutActive : Bool)
  | bondLost (i : SpotNo)
  | bondActive (i : SpotNo)
  | hosePressureActive (i : SpotNo)
  | hosePressureInactive (i : SpotNo)
  | residualActive (i : SpotNo)
  | residualInactive (i : SpotNo)
  | pendantConnected (i : SpotNo)
  | pendantStop (i : SpotNo)
  | pendantClear (i : SpotNo)
  | vesselTripActive (v : VesselNo)
  | vesselTripInactive (v : VesselNo)
  | runFeedbackActive (c : CompNo)
  | runFeedbackLost (c : CompNo)
  | faultInputActive (c : CompNo)
  | faultInputInactive (c : CompNo)
  /-- ESD_INPUT_ACTIVE; the operand is the raw level after the change (R156), true for high. -/
  | esdInputActive (high : Bool)
  /-- ESD_INPUT_INACTIVE; the operand is the raw level after the change (R156), true for high. -/
  | esdInputInactive (high : Bool)
  | beat
  | autoRearm
  | pressureWaitExpiry (i : SpotNo)
  | pressureHoldExpiry (i : SpotNo)
  | bleedExpiry (i : SpotNo)
  | recoveryTimerExpiry (i : SpotNo)
  | stallExpiry (i : SpotNo)
  | rateWindowExpiry (i : SpotNo)
  | startTimerExpiry (c : CompNo)
  | runOnExpiry (c : CompNo)
  | proofRunExpiry (c : CompNo)
  /-- GUARD_EXPIRY; the operand names the direction valve whose shut-since mark reaches the dead-time (R122). -/
  | guardExpiry (c : CompNo) (partner : Direction)
  | strokeTimeExceeded (v : ValveId)
  | lampFlashPhase (i : SpotNo)
  | headCharacterReceived (line : Line) (code : Byte)
  deriving DecidableEq, Repr

end Sys2Proof
end

