-- ==== Sys2Proof/Machine/State.lean ====
section
/-! DEFINITION. The state of the Gethra LU8 as plain data, its reset, and the reasons a command can stop. -/

namespace Sys2Proof.Machine

/-- Car and vessel grades (spec 00, Names and identities). -/
inductive Grade where
  | propane
  | butane
  | mix
  deriving DecidableEq, Repr

/-- Car phases (R3). -/
inductive Phase where
  | announced
  | placed
  | unloading
  | served
  deriving DecidableEq, Repr

/-- Order kinds (R54). -/
inductive OrderKind where
  | liquid
  | recovery
  deriving DecidableEq, Repr

/-- End reasons in the order of R3 (R68). -/
inductive EndReason where
  | target
  | exhausted
  | trimmed
  | cut
  | cancelled
  | stopped
  | bond
  | flowHigh
  | creep
  | fault
  | restart
  | residual
  | recoveryTimeout
  deriving DecidableEq, Repr

/-- A car's last end record (R3). -/
structure LastEnd where
  tag : Word16
  kind : OrderKind
  reason : EndReason
  delivered : Word32
  deriving DecidableEq, Repr

/-- A car record (R3) but for its handle, which is the slot's number and issue. -/
structure Car where
  mark : List Byte
  grade : Grade
  load : Nat
  phase : Phase
  spot : Option SpotNo
  hoses : Bool
  delivered : Word32
  recovered : Bool
  lastEnd : Option LastEnd
  revision : Word16
  deriving DecidableEq, Repr

/-- A slot of the car table with its issue number (R1). -/
structure CarSlot where
  issue : Byte
  car : Option Car
  deriving DecidableEq, Repr

/-- A car handle (R2). -/
structure Handle where
  slot : SlotNo
  issue : Byte
  deriving DecidableEq, Repr

/-- A timer: STOPPED, or RUNNING with a remaining time in 10 ms periods. -/
inductive Timer where
  | stopped
  | running (left : Nat)
  deriving DecidableEq, Repr

/-- An input filter: its filtered state and its count (R152). -/
structure Filter where
  active : Bool
  count : Nat
  deriving DecidableEq, Repr

/-- What an owner wishes of a valve (R141). -/
inductive Command where
  | toOpen
  | toShut
  deriving DecidableEq, Repr

/-- Supervised valve states (R141). -/
inductive ValveState where
  | shut
  | movingOpen
  | opened
  | movingShut
  | fault
  deriving DecidableEq, Repr

/-- A valve record with the filters of its two limits (R141, R152). Its state is none until take-up. -/
structure Valve where
  command : Command
  supervised : Bool
  state : Option ValveState
  timer : Timer
  retest : Bool
  openLimit : Filter
  shutLimit : Filter
  deriving DecidableEq, Repr

/-- Spot states in the order of R23. -/
inductive SpotState where
  | vacant
  | spotted
  | proving
  | connected
  | staged
  | transfer
  | recovery
  | held
  | isolating
  | stroking
  | faulted
  deriving DecidableEq, Repr

/-- Spot steps (R23). -/
inductive SpotStep where
  | shutoffOpening
  | pressureWait
  | pressureHold
  | linesClosing
  | ventOpening
  | bleeding
  | ventClosing
  | stroking (v : ValveName) (closing : Bool)
  deriving DecidableEq, Repr

/-- Hold reasons (R35). -/
inductive HoldReason where
  | crewStop
  | vesselTrip
  | esd
  | compressor
  deriving DecidableEq, Repr

/-- A hold set: each reason present at most once (R35). -/
structure HoldSet where
  crewStop : Bool
  vesselTrip : Bool
  esd : Bool
  compressor : Bool
  deriving DecidableEq, Repr

/-- A spot's last fault: a reason, and for VALVE the valve's name (R23). -/
inductive SpotFault where
  | leak
  | bond
  | stopped
  | esd
  | restart
  | bleed
  | valve (v : ValveName)
  | pressure
  | creep
  | flowHigh
  deriving DecidableEq, Repr

/-- Order states (R54). -/
inductive OrderState where
  | queued
  | waiting
  | running
  | suspended
  | draining
  deriving DecidableEq, Repr

/-- The fields a LIQUID order has and a RECOVERY order lacks (R54). -/
structure Liquid where
  target : Nat
  vessel : VesselNo
  delivered : Word32
  deriving DecidableEq, Repr

/-- An order (R54); it is LIQUID when it has the liquid fields, RECOVERY otherwise. -/
structure Order where
  tag : Word16
  liquid : Option Liquid
  closeAfter : Bool
  state : OrderState
  reason : Option EndReason
  deriving DecidableEq, Repr

/-- The five setpoints (R177). -/
structure Setpoints where
  flowHigh : Nat
  window : Nat
  stall : Nat
  recovery : Nat
  creep : Nat
  deriving DecidableEq, Repr

/-- A spot controller's record (R23), its valves (R141), its meter state (R105) and the filters of its inputs (R152). -/
structure Spot where
  state : SpotState
  car : Option Handle
  holds : HoldSet
  step : Option SpotStep
  standing : Bool
  orders : List Order
  seat : Option CompNo
  active : Setpoints
  activeVersion : Word16
  creep : Nat
  fault : Option SpotFault
  timer : Timer
  recoveryTimer : Timer
  pulses : Nat
  stall : Timer
  window : Timer
  windowCount : Nat
  shutoff : Valve
  liquid : Valve
  vapour : Valve
  vent : Valve
  bond : Filter
  hose : Filter
  residual : Filter
  connectedButton : Filter
  stopButton : Filter
  clearButton : Filter
  deriving DecidableEq, Repr

/-- The HALT lamp's flash: lit or dark, and the time left of its phase (R51). -/
structure Flash where
  lit : Bool
  phase : Timer
  deriving DecidableEq, Repr

/-- Vessel service (R83). -/
inductive Service where
  | inService
  | outOfService
  deriving DecidableEq, Repr

/-- A reservation entry (R91). -/
structure Entry where
  spot : SpotNo
  tag : Word16
  remainder : Nat
  deriving DecidableEq, Repr

/-- A vessel record (R83) but for grade and capacity, which stand in the VESSELS section, and the inlet permissive output.
Its tripped field is the filtered state of its trip input (R99). -/
structure Vessel where
  service : Service
  trip : Filter
  gaugedFree : Nat
  stamp : Word32
  counter : Word32
  entries : List Entry
  deriving DecidableEq, Repr

/-- Compressor states (R119). -/
inductive CompState where
  | stopped
  | starting
  | running
  | runOn
  | reversing
  | proof
  | faulted
  deriving DecidableEq, Repr

/-- Compressor steps in the order of spec 11, section 11.1 (R119, R135). -/
inductive CompStep where
  | deadTime
  | valveOpening
  | runWait
  | valvesShutting
  | settling
  | pushStroke
  | drawStroke
  | proofRun
  | stopping
  deriving DecidableEq, Repr

/-- A compressor's last fault (R119). -/
inductive CompFault where
  | faultInput
  | runLost
  | startFailed
  | valve (d : Direction)
  deriving DecidableEq, Repr

/-- A compressor record with its direction valves, their shut-since marks (ages in 10 ms periods) and the filters of its
inputs (R119, R122, R152). `stroked` says whether the valve of a PUSH_STROKE or DRAW_STROKE step has arrived open in that
step: the model's own detail of the step (log entry 9). -/
structure Comp where
  state : CompState
  step : Option CompStep
  dir : Option Direction
  seated : List SpotNo
  turning : Option SpotNo
  fault : Option CompFault
  startOn : Bool
  startTimer : Timer
  runTimer : Timer
  push : Valve
  draw : Valve
  pushMark : Option Nat
  drawMark : Option Nat
  run : Filter
  faultInput : Filter
  stroked : Bool
  deriving DecidableEq, Repr

/-- A grant-queue entry (R126). -/
structure Grant where
  spot : SpotNo
  dir : Direction
  deriving DecidableEq, Repr

/-- The SITE section (R168); times in seconds. -/
structure Site where
  spots : Nat
  vessels : Nat
  compressors : Nat
  seats : Nat
  overAllowance : Nat
  startTime : Nat
  runOnTime : Nat
  proofTime : Nat
  bleedTime : Nat
  provingTime : Nat
  deriving DecidableEq, Repr

/-- One value for each valve class (R141). -/
structure PerClass (α : Type) where
  shutoff : α
  liquid : α
  vapour : α
  vent : α
  direction : α
  deriving DecidableEq, Repr

/-- The SPOTS section (R169). -/
structure SpotsSection where
  divisors : Vector Nat 8
  strokes : PerClass Nat
  deriving DecidableEq, Repr

/-- A vessel's grade and capacity (R169). -/
structure VesselData where
  grade : Grade
  capacity : Nat
  deriving DecidableEq, Repr

/-- The VESSELS section (R169). -/
structure VesselsSection where
  data : Vector VesselData 6
  deriving DecidableEq, Repr

/-- ESD polarity (R156). -/
inductive Polarity where
  | activeLow
  | activeHigh
  deriving DecidableEq, Repr

/-- Closed-drive settings (R149). -/
inductive ClosedDrive where
  | released
  | held
  deriving DecidableEq, Repr

/-- The filter N of each input class (R153). -/
structure FilterNs where
  limit : Nat
  bond : Nat
  hosePressure : Nat
  residual : Nat
  pendant : Nat
  vesselTrip : Nat
  compressor : Nat
  deriving DecidableEq, Repr

/-- The PROTECTION section (R170). -/
structure Protection where
  polarity : Polarity
  autoRearm : Bool
  rearmCount : Nat
  deadTime : Nat
  filters : FilterNs
  closed : PerClass ClosedDrive
  deriving DecidableEq, Repr

/-- The four profile sections; a section is valid when it is present (R166). -/
structure Profile where
  site : Option Site
  spots : Option SpotsSection
  vessels : Option VesselsSection
  protection : Option Protection
  deriving DecidableEq, Repr

/-- Siding states (R166). -/
inductive SidingState where
  | unconfigured
  | configured
  | commissioning
  | operating
  deriving DecidableEq, Repr

/-- The commissioning tests that have not ended (R166). -/
structure PendingTests where
  spots : List SpotNo
  comps : List CompNo
  deriving DecidableEq, Repr

/-- Reply statuses in the order of the status table of spec 00. -/
inductive Status where
  | done
  | unknown
  | range
  | noRecord
  | stale
  | duplicate
  | full
  | phase
  | state
  | occupied
  | queueFull
  | grade
  | service
  | allowance
  | ullage
  | reserved
  | notConfigured
  | notOperating
  | notQuiet
  | locked
  | once
  | fieldOff
  | esdActive
  | holdsRemain
  | noBond
  | noHoses
  | hosePressure
  | badStamp
  | nothing
  deriving DecidableEq, Repr

/-- A reply: its status and the characters of its body (R192, R200). -/
structure Reply where
  status : Status
  body : List Byte
  deriving DecidableEq, Repr

/-- Link forms (R184). -/
inductive LinkForm where
  | unlocked
  | clocked
  | asynchronous
  deriving DecidableEq, Repr

/-- What is known of a partial request's addressing (R184, R188). -/
inductive Addressing where
  | awaited
  | own
  | broadcast
  deriving DecidableEq, Repr

/-- A partial request: its code, its addressing and the body characters received so far, the address apart (R184). -/
structure PartialRequest where
  code : Byte
  addressing : Addressing
  chars : List Byte
  deriving DecidableEq, Repr

/-- A reply in the reply buffer with its surplus mark (R184). -/
structure BufferedReply where
  reply : Reply
  surplus : Bool
  deriving DecidableEq, Repr

/-- A reply on its way out: its surplus mark, the count of its characters sent, and its flags character once composed
(R184, R192, R193). -/
structure Outgoing where
  reply : Reply
  surplus : Bool
  sent : Nat
  flags : Option Byte
  deriving DecidableEq, Repr

/-- The link state of R184. `fetching` is the reply a FETCH is shifting out (R193); `answered` says that the request last
completed got a reply and no head character has come since, so that body characters are its surplus (R190). -/
structure Link where
  form : LinkForm
  unit : BitVec 3
  incoming : Option PartialRequest
  buffer : Option BufferedReply
  fetching : Option Outgoing
  sending : Option Outgoing
  answered : Bool
  discarded : Bool
  lateSurplus : Bool
  deriving DecidableEq, Repr

/-- The five change sets, bit k for object k (R195). -/
structure Changes where
  cars : BitVec 24
  spots : BitVec 8
  vessels : BitVec 6
  comps : BitVec 2
  siding : Bool
  deriving DecidableEq, Repr

/-- An order that has left its queue at the event under way. -/
structure Departed where
  spot : SpotNo
  order : Order
  deriving DecidableEq, Repr

/-- The model's own scratch of the event under way: the car records it has changed and the orders that have left at it, so
that a revision rises once for an event (R5) and the last end is the tail-most order's (R9); and the spots, vessels and
compressors that a rule of the event has changed, so that their flags are set although a later rule of the same event may
have changed them back (R195). Empty between events. -/
structure Scratch where
  touched : BitVec 24
  departed : List Departed
  spots : BitVec 8
  vessels : BitVec 6
  comps : BitVec 2
  deriving DecidableEq, Repr

/-- The state of the part. -/
structure State where
  cars : Vector CarSlot 24
  spots : Vector Spot 8
  vessels : Vector Vessel 6
  comps : Vector Comp 2
  grants : List Grant
  flashes : Vector Flash 8
  inlets : BitVec 6
  profile : Profile
  siding : SidingState
  staged : Setpoints
  stagedVersion : Word16
  setpointHold : Bool
  tests : PendingTests
  lockTaken : Bool
  lock : Nat
  fe : Bool
  rearmRun : Nat
  beatTimer : Timer
  esdHigh : Bool
  link : Link
  changes : Changes
  scratch : Scratch
  freeCount : Nat
  pending : List Instr
  deriving DecidableEq, Repr

/-- No command of this part faults: the spec gives every command an effect, and a request that is turned away gets its
status in a reply. -/
inductive Fault where
  deriving DecidableEq, Repr

/-- Reasons a command has no meaning yet. -/
inductive Refusal where
  /-- Raised by a command whose meaning is not written; safe: the model stops where the part goes on. -/
  | notModelled (mnemonic : String)
  deriving DecidableEq, Repr

/-- An input filter after pin reset (R152). -/
def Filter.reset : Filter := { active := false, count := 0 }

/-- A valve record after pin reset (R141). -/
def Valve.reset : Valve :=
  { command := .toShut, supervised := false, state := none, timer := .stopped, retest := false,
    openLimit := .reset, shutLimit := .reset }

/-- The default setpoint set (R177). -/
def Setpoints.default : Setpoints := { flowHigh := 600, window := 10, stall := 60, recovery := 3600, creep := 50 }

/-- The empty hold set. -/
def HoldSet.empty : HoldSet := { crewStop := false, vesselTrip := false, esd := false, compressor := false }

/-- A spot after pin reset (R23, R105). -/
def Spot.reset : Spot :=
  { state := .vacant, car := none, holds := .empty, step := none, standing := false, orders := [], seat := none,
    active := .default, activeVersion := 0, creep := 0, fault := none, timer := .stopped, recoveryTimer := .stopped,
    pulses := 0, stall := .stopped, window := .stopped, windowCount := 0,
    shutoff := .reset, liquid := .reset, vapour := .reset, vent := .reset,
    bond := .reset, hose := .reset, residual := .reset,
    connectedButton := .reset, stopButton := .reset, clearButton := .reset }

/-- A vessel after pin reset (R83). -/
def Vessel.reset : Vessel :=
  { service := .inService, trip := .reset, gaugedFree := 0, stamp := 0, counter := 0, entries := [] }

/-- A compressor after pin reset (R119). -/
def Comp.reset : Comp :=
  { state := .stopped, step := none, dir := none, seated := [], turning := none, fault := none, startOn := false,
    startTimer := .stopped, runTimer := .stopped, push := .reset, draw := .reset, pushMark := none, drawMark := none,
    run := .reset, faultInput := .reset, stroked := false }

/-- The command link after pin reset (R184). The unit address is sampled from the straps, an input: `State.reset` stands for
straps at 0 (DESIGN CHOICE, log entry 1). -/
def Link.reset : Link :=
  { form := .unlocked, unit := 0, incoming := none, buffer := none, fetching := none, sending := none,
    answered := false, discarded := false, lateSurplus := false }

/-- No change flag set. -/
def Changes.none : Changes := { cars := 0, spots := 0, vessels := 0, comps := 0, siding := false }

/-- The scratch between events. -/
def Scratch.empty : Scratch := { touched := 0, departed := [], spots := 0, vessels := 0, comps := 0 }

/-- The part right after pin reset (R1, R23, R56, R83, R119, R126, R157, R166, R184). The raw ESD level is an input: `reset`
stands for low (DESIGN CHOICE, log entry 2). The first beat comes 1 s later (R157). -/
def State.reset : State :=
  { cars := Vector.replicate 24 { issue := 0, car := none }
    spots := Vector.replicate 8 .reset
    vessels := Vector.replicate 6 .reset
    comps := Vector.replicate 2 .reset
    grants := []
    flashes := Vector.replicate 8 { lit := false, phase := .stopped }
    inlets := 0
    profile := { site := none, spots := none, vessels := none, protection := none }
    siding := .unconfigured
    staged := .default
    stagedVersion := 0
    setpointHold := false
    tests := { spots := [], comps := [] }
    lockTaken := false
    lock := 0
    fe := false
    rearmRun := 0
    beatTimer := .running Config.ticksPerSecond
    esdHigh := false
    link := .reset
    changes := .none
    scratch := .empty
    freeCount := 0
    pending := [] }

end Sys2Proof.Machine
end

