-- ==== Sys2Proof/Machine/Ops.lean ====
section
/-! DEFINITION. Named operations over the records: reading and changing one record, characters of an integer, the profile
values in force, and what is fitted. -/

namespace Sys2Proof.Machine

/-! ## Characters of an integer -/

/-- Two characters, most significant first (spec 11, section 11.1). -/
def chars16 (w : Word16) : List Byte := [w.extractLsb' 8 8, w.extractLsb' 0 8]

/-- Four characters, most significant first. -/
def chars32 (w : Word32) : List Byte :=
  [w.extractLsb' 24 8, w.extractLsb' 16 8, w.extractLsb' 8 8, w.extractLsb' 0 8]

/-- A one-character integer. -/
def nat8 (n : Nat) : List Byte := [BitVec.ofNat 8 n]

/-- A two-character integer. -/
def nat16 (n : Nat) : List Byte := chars16 (BitVec.ofNat 16 n)

/-- A four-character integer. -/
def nat32 (n : Nat) : List Byte := chars32 (BitVec.ofNat 32 n)

/-- yes/no and on/off characters. -/
def boolByte (b : Bool) : Byte := if b then 1 else 0

/-- A two-character integer from its characters. -/
def word16 (a b : Byte) : Word16 := a ++ b

/-- A four-character integer from its characters. -/
def word32 (a b c d : Byte) : Word32 := a ++ b ++ c ++ d

/-! ## Timers and filters -/

/-- A timer started at a number of seconds. -/
def Timer.seconds (n : Nat) : Timer := .running (n * Config.ticksPerSecond)

/-- The timer has run out: RUNNING with no time left. An expiry takes place only then (R117, log entry 7). -/
def Timer.isDue : Timer → Bool
  | .running 0 => true
  | .running (_ + 1) | .stopped => false

/-- Is the timer RUNNING. -/
def Timer.isRunning : Timer → Bool
  | .stopped => false
  | .running _ => true

/-- One 10 ms period of a timer (log entry 6). -/
def Timer.tick : Timer → Timer
  | .stopped => .stopped
  | .running n => .running (n - 1)

/-- A filter that has just taken a level (R152). -/
def Filter.at (level : Bool) : Filter := { active := level, count := 0 }

/-- One sample of a filter: the filter after it, and whether its filtered state has changed (R152). -/
def Filter.sample (n : Nat) (raw : Bool) (f : Filter) : Filter × Bool :=
  if raw = f.active then ({ f with count := 0 }, false)
  else if f.count + 1 ≥ n then (Filter.at raw, true)
  else ({ f with count := f.count + 1 }, false)

/-! ## The numbers of each kind of record -/

def allSpots : List SpotNo := [0, 1, 2, 3, 4, 5, 6, 7]
def allComps : List CompNo := [0, 1]
def allVessels : List VesselNo := [0, 1, 2, 3, 4, 5]
def allSlots : List SlotNo :=
  [0, 1, 2, 3, 4, 5, 6, 7, 8, 9, 10, 11, 12, 13, 14, 15, 16, 17, 18, 19, 20, 21, 22, 23]
def allValveNames : List ValveName := [.shutoff, .liquid, .vapour, .vent]
def allDirections : List Direction := [.push, .draw]

/-! ## Reading and changing one record -/

def State.carSlot (s : State) (k : SlotNo) : CarSlot := s.cars[k]
def State.spot (s : State) (i : SpotNo) : Spot := s.spots[i]
def State.vessel (s : State) (v : VesselNo) : Vessel := s.vessels[v]
def State.comp (s : State) (c : CompNo) : Comp := s.comps[c]
def State.flash (s : State) (i : SpotNo) : Flash := s.flashes[i]

def State.modSlot (k : SlotNo) (f : CarSlot → CarSlot) (s : State) : State :=
  { s with cars := s.cars.set k (f s.cars[k]) }

def State.modSpot (i : SpotNo) (f : Spot → Spot) (s : State) : State :=
  { s with spots := s.spots.set i (f s.spots[i]) }

def State.modVessel (v : VesselNo) (f : Vessel → Vessel) (s : State) : State :=
  { s with vessels := s.vessels.set v (f s.vessels[v]) }

def State.modComp (c : CompNo) (f : Comp → Comp) (s : State) : State :=
  { s with comps := s.comps.set c (f s.comps[c]) }

def State.modLink (f : Link → Link) (s : State) : State := { s with link := f s.link }

/-- A free value's number: the counter moves on at each use (log entry 3). -/
def State.useFree (s : State) : State := { s with freeCount := s.freeCount + 1 }

/-! ## Valves of a spot and of a compressor -/

def Spot.valve (sp : Spot) : ValveName → Valve
  | .shutoff => sp.shutoff
  | .liquid => sp.liquid
  | .vapour => sp.vapour
  | .vent => sp.vent

def Spot.setValve (n : ValveName) (v : Valve) (sp : Spot) : Spot :=
  match n with
  | .shutoff => { sp with shutoff := v }
  | .liquid => { sp with liquid := v }
  | .vapour => { sp with vapour := v }
  | .vent => { sp with vent := v }

def Comp.valve (c : Comp) : Direction → Valve
  | .push => c.push
  | .draw => c.draw

def Comp.mark (c : Comp) : Direction → Option Nat
  | .push => c.pushMark
  | .draw => c.drawMark

def Comp.setMark (d : Direction) (m : Option Nat) (c : Comp) : Comp :=
  match d with
  | .push => { c with pushMark := m }
  | .draw => { c with drawMark := m }

def Valve.isShut (v : Valve) : Bool := v.state == some .shut
def Valve.isOpen (v : Valve) : Bool := v.state == some .opened
def Valve.isFault (v : Valve) : Bool := v.state == some .fault

/-- Not SHUT in the sense of the meter block: MOVING_OPEN, OPEN or MOVING_SHUT (spec 05, section 5.2). -/
def Valve.passing (v : Valve) : Bool :=
  v.state == some .movingOpen || v.state == some .opened || v.state == some .movingShut

/-- A direction valve put back with its shut-since mark: set when the valve becomes SHUT, removed when it leaves SHUT
(R122). -/
def Comp.putValve (d : Direction) (v : Valve) (c : Comp) : Comp :=
  let old := c.valve d
  let c1 := match d with
    | .push => { c with push := v }
    | .draw => { c with draw := v }
  if v.isShut && !old.isShut then c1.setMark d (some 0)
  else if old.isShut && !v.isShut then c1.setMark d none
  else c1

/-! ## The profile values in force -/

/-- The PROTECTION values in force before the first valid write (R170). Their polarity is read by nothing: before that write
the input is judged active at both levels (R156). -/
def Protection.beforeWrite : Protection :=
  { polarity := .activeLow, autoRearm := false, rearmCount := 60, deadTime := 60
    filters := { limit := 16, bond := 16, hosePressure := 16, residual := 16, pendant := 16, vesselTrip := 16,
                 compressor := 16 }
    closed := { shutoff := .released, liquid := .released, vapour := .released, vent := .released,
                direction := .released } }

/-- The PROTECTION values in force (R170). -/
def State.protection (s : State) : Protection := s.profile.protection.getD .beforeWrite

/-- A SITE value, 0 while the section is not valid (no rule reads one then but READ PROFILE, R172). -/
def State.site (s : State) (f : Site → Nat) : Nat :=
  match s.profile.site with
  | some p => f p
  | none => 0

/-- R24: fitted spots. -/
def State.fittedSpot (s : State) (i : SpotNo) : Bool := decide (i.val < s.site (·.spots))

/-- R84: fitted vessels. -/
def State.fittedVessel (s : State) (v : VesselNo) : Bool :=
  s.profile.vessels.isSome && decide (v.val < s.site (·.vessels))

/-- R120: fitted compressors. -/
def State.fittedComp (s : State) (c : CompNo) : Bool := decide (c.val < s.site (·.compressors))

/-- A vessel's grade and capacity from the VESSELS section (R83, R169). -/
def State.vesselData (s : State) (v : VesselNo) : Option VesselData :=
  match s.profile.vessels with
  | some p => some p.data[v]
  | none => none

def PerClass.ofSpotValve {α : Type} (p : PerClass α) : ValveName → α
  | .shutoff => p.shutoff
  | .liquid => p.liquid
  | .vapour => p.vapour
  | .vent => p.vent

/-- A full stroke time of a spot valve's class (R144). -/
def State.strokeOf (s : State) (n : ValveName) : Timer :=
  match s.profile.spots with
  | some p => .seconds (p.strokes.ofSpotValve n)
  | none => .stopped

/-- A full stroke time of the direction valve class (R144). -/
def State.strokeOfDirection (s : State) : Timer :=
  match s.profile.spots with
  | some p => .seconds p.strokes.direction
  | none => .stopped

/-- A spot's meter divisor; none while the SPOTS section is not valid (R106). -/
def State.divisor (s : State) (i : SpotNo) : Option Nat :=
  match s.profile.spots with
  | some p => some p.divisors[i]
  | none => none

/-- Is the ESD input judged active at this raw level (R156). -/
def State.judgedActive (s : State) (high : Bool) : Bool :=
  match s.profile.protection with
  | none => true
  | some p => match p.polarity with
    | .activeLow => !high
    | .activeHigh => high

/-- Is the ESD input active (R156). -/
def State.esdActive (s : State) : Bool := s.judgedActive s.esdHigh

/-! ## Orders -/

def Order.kind (o : Order) : OrderKind := if o.liquid.isSome then .liquid else .recovery

/-- The head order (R55). -/
def Spot.head (sp : Spot) : Option Order := sp.orders.head?

def Spot.modHead (f : Order → Order) (sp : Spot) : Spot :=
  match sp.orders with
  | [] => sp
  | h :: rest => { sp with orders := f h :: rest }

/-- Change the order of one tag (tags are unique in a queue, R56). -/
def Spot.modOrder (tag : Word16) (f : Order → Order) (sp : Spot) : Spot :=
  { sp with orders := sp.orders.map fun o => if o.tag = tag then f o else o }

def Spot.hasTag (sp : Spot) (tag : Word16) : Bool := sp.orders.any fun o => o.tag == tag

def Spot.order (sp : Spot) (tag : Word16) : Option Order := sp.orders.find? fun o => o.tag == tag

/-- The spot's head is a LIQUID order into this vessel. -/
def Spot.feeds (sp : Spot) (v : VesselNo) : Bool :=
  match sp.head with
  | some h => match h.liquid with
    | some l => l.vessel == v
    | none => false
  | none => false

/-- The head stands in this state. -/
def Spot.headIs (sp : Spot) (st : OrderState) : Bool :=
  match sp.head with
  | some h => h.state == st
  | none => false

/-- R68: the natural end reasons. -/
def EndReason.natural : EndReason → Bool
  | .target | .exhausted | .trimmed | .cut | .residual | .recoveryTimeout => true
  | .cancelled | .stopped | .bond | .flowHigh | .creep | .fault | .restart => false

/-! ## Hold sets -/

def HoldSet.has (h : HoldSet) : HoldReason → Bool
  | .crewStop => h.crewStop
  | .vesselTrip => h.vesselTrip
  | .esd => h.esd
  | .compressor => h.compressor

def HoldSet.put (h : HoldSet) (r : HoldReason) (b : Bool) : HoldSet :=
  match r with
  | .crewStop => { h with crewStop := b }
  | .vesselTrip => { h with vesselTrip := b }
  | .esd => { h with esd := b }
  | .compressor => { h with compressor := b }

def HoldSet.isEmpty (h : HoldSet) : Bool := !(h.crewStop || h.vesselTrip || h.esd || h.compressor)

/-! ## Committed litres and car records -/

/-- An order's liquid remainder (R6); 0 for a RECOVERY or DRAINING order. -/
def Order.owed (o : Order) : Nat :=
  match o.liquid with
  | some l => if o.state = .draining then 0 else l.target - l.delivered.toNat
  | none => 0

/-- The car a slot holds. -/
def State.car (s : State) (k : SlotNo) : Option Car := (s.carSlot k).car

/-- R6: committed litres. -/
def State.committed (s : State) (c : Car) : Nat :=
  c.delivered.toNat + match c.spot with
    | some i => ((s.spot i).orders.map Order.owed).sum
    | none => 0

/-- Change a car record; the record counts as changed at this event (R5). -/
def State.modCar (k : SlotNo) (f : Car → Car) (s : State) : State :=
  let s1 := s.modSlot k fun sl => { sl with car := sl.car.map f }
  { s1 with scratch := { s1.scratch with touched := s1.scratch.touched ||| BitVec.twoPow 24 k } }

/-- Change the car bound to a spot, if there is one. -/
def State.modCarAt (i : SpotNo) (f : Car → Car) (s : State) : State :=
  match (s.spot i).car with
  | some h => s.modCar h.slot f
  | none => s

/-- Set a slot's change flag without a change of the record in it: creation and retirement (R5). -/
def State.flagSlot (k : SlotNo) (s : State) : State :=
  { s with changes := { s.changes with cars := s.changes.cars ||| BitVec.twoPow 24 k } }

/-- Set the siding's change flag (R195). -/
def State.flagSiding (s : State) : State := { s with changes := { s.changes with siding := true } }

/-- The event has changed spot `i`: its flag is set at the close (R55, R64, R195). -/
def State.touchSpot (i : SpotNo) (s : State) : State :=
  { s with scratch := { s.scratch with spots := s.scratch.spots ||| BitVec.twoPow 8 i } }

/-- The event has changed vessel `v`: its flag is set at the close (R71, R89, R195). -/
def State.touchVessel (v : VesselNo) (s : State) : State :=
  { s with scratch := { s.scratch with vessels := s.scratch.vessels ||| BitVec.twoPow 6 v } }

/-- The event has changed compressor `c`: its flag is set at the close (R128, R129, R195). -/
def State.touchComp (c : CompNo) (s : State) : State :=
  { s with scratch := { s.scratch with comps := s.scratch.comps ||| BitVec.twoPow 2 c } }

/-- The event has changed the grant queue: the flag of every fitted compressor is set at the close (R126). -/
def State.touchQueue (s : State) : State :=
  { s with scratch := { s.scratch with comps := s.scratch.comps ||| BitVec.ofFnLE fun c => s.fittedComp c } }

/-- Apply an operation to every spot in ascending order. -/
def eachSpot (f : SpotNo → State → State) (s : State) : State := allSpots.foldl (fun s i => f i s) s

/-- Apply an operation to every compressor in ascending order. -/
def eachComp (f : CompNo → State → State) (s : State) : State := allComps.foldl (fun s c => f c s) s

/-- Apply an operation to every fitted spot in ascending order. -/
def eachFittedSpot (f : SpotNo → State → State) (s : State) : State :=
  eachSpot (fun i s => if s.fittedSpot i then f i s else s) s

/-- Apply an operation to every fitted compressor in ascending order. -/
def eachFittedComp (f : CompNo → State → State) (s : State) : State :=
  eachComp (fun c s => if s.fittedComp c then f c s else s) s

end Sys2Proof.Machine
end

