-- ==== Sys2Proof/Machine/Flags.lean ====
section
/-! DEFINITION. What the host can observe of each record, the change sets that follow it (R195), and the close of an event:
the inlet permissives, the lamps, the last ends, the revisions and the change flags that the event's effects call for. -/

namespace Sys2Proof.Machine

/-! ## What READ SPOT, READ VESSEL, READ COMPRESSOR and READ SIDING report -/

/-- An order as READ SPOT reports it (R81). -/
structure OrderView where
  order : Order
  remainder : Option Nat
  deriving DecidableEq, Repr

/-- The values READ SPOT reports (R52), with whether the spot is fitted (R171). -/
structure SpotView where
  fitted : Bool
  state : SpotState
  step : Option SpotStep
  standing : Bool
  car : Option Handle
  holds : HoldSet
  seat : Option CompNo
  fault : Option SpotFault
  activeVersion : Word16
  creep : Nat
  bond : Bool
  hose : Bool
  residual : Bool
  shutoff : Option ValveState
  liquid : Option ValveState
  vapour : Option ValveState
  vent : Option ValveState
  orders : List OrderView
  deriving DecidableEq, Repr

/-- The values READ VESSEL reports (R103), but for the derived ones, with whether the vessel is fitted. -/
structure VesselView where
  fitted : Bool
  data : Option VesselData
  service : Service
  tripped : Bool
  gaugedFree : Nat
  stamp : Word32
  counter : Word32
  entries : List Entry
  inlet : Bool
  deriving DecidableEq, Repr

/-- The values READ COMPRESSOR reports (R139), with whether the compressor is fitted. -/
structure CompView where
  fitted : Bool
  state : CompState
  step : Option CompStep
  dir : Option Direction
  seats : Nat
  seated : List SpotNo
  turning : Option SpotNo
  fault : Option CompFault
  startOn : Bool
  run : Bool
  faultInput : Bool
  push : Option ValveState
  draw : Option ValveState
  grants : List Grant
  deriving DecidableEq, Repr

/-- The siding's values whose change sets the siding flag (R195), the form lock and accepted profile writes apart. -/
structure SidingView where
  siding : SidingState
  fe : Bool
  esdHigh : Bool
  lock : Nat
  lockTaken : Bool
  setpointHold : Bool
  stagedVersion : Word16
  deriving DecidableEq, Repr

/-- The reservation remainder of an order, absent when it has no entry (R54, R81). -/
def State.remainder (s : State) (i : SpotNo) (o : Order) : Option Nat :=
  match o.liquid with
  | some l => ((s.vessel l.vessel).entries.find? fun e => e.spot == i && e.tag == o.tag).map (·.remainder)
  | none => none

/-- R52. The switches of an unfitted spot are ignored (R24), so their changes are no changes of its view. -/
def State.spotView (s : State) (i : SpotNo) : SpotView :=
  let sp := s.spot i
  let fitted := s.fittedSpot i
  { fitted, state := sp.state, step := sp.step, standing := sp.standing, car := sp.car, holds := sp.holds,
    seat := sp.seat, fault := sp.fault, activeVersion := sp.activeVersion, creep := sp.creep
    bond := fitted && sp.bond.active, hose := fitted && sp.hose.active, residual := fitted && sp.residual.active
    shutoff := sp.shutoff.state, liquid := sp.liquid.state, vapour := sp.vapour.state, vent := sp.vent.state
    orders := sp.orders.map fun o => { order := o, remainder := s.remainder i o } }

/-- R103. -/
def State.vesselView (s : State) (v : VesselNo) : VesselView :=
  let r := s.vessel v
  { fitted := s.fittedVessel v, data := s.vesselData v, service := r.service, tripped := r.trip.active,
    gaugedFree := r.gaugedFree, stamp := r.stamp, counter := r.counter, entries := r.entries,
    inlet := s.inlets.getLsbD v }

/-- R139. The inputs of an unfitted compressor have no effect (R120), and the grant queue is reported for fitted ones. -/
def State.compView (s : State) (c : CompNo) : CompView :=
  let r := s.comp c
  let fitted := s.fittedComp c
  { fitted, state := r.state, step := r.step, dir := r.dir, seats := s.site (·.seats), seated := r.seated,
    turning := r.turning, fault := r.fault, startOn := r.startOn
    run := fitted && r.run.active, faultInput := fitted && r.faultInput.active
    push := r.push.state, draw := r.draw.state, grants := if fitted then s.grants else [] }

/-- R195, the siding's row. -/
def State.sidingView (s : State) : SidingView :=
  { siding := s.siding, fe := s.fe, esdHigh := s.esdHigh, lock := s.lock, lockTaken := s.lockTaken,
    setpointHold := s.setpointHold, stagedVersion := s.stagedVersion }

/-- R196: the attention line. -/
def Changes.attention (c : Changes) : Bool :=
  c.cars != 0 || c.spots != 0 || c.vessels != 0 || c.comps != 0 || c.siding

/-! ## Outputs kept at each event -/

/-- R102: the inlet permissive of a vessel. -/
def State.inletFor (s : State) (v : VesselNo) : Bool :=
  s.fittedVessel v && allSpots.any fun i => (s.spot i).feeds v && (s.spot i).liquid.passing

def State.refreshInlets (s : State) : State :=
  { s with inlets := BitVec.ofFnLE fun v => s.inletFor v }

/-- R51: the states in which HALT flashes. -/
def SpotState.flashes : SpotState → Bool
  | .proving | .isolating => true
  | .vacant | .spotted | .connected | .staged | .transfer | .recovery | .held | .stroking | .faulted => false

/-- R51: a flash starts lit at the event that enters the state, and a change between PROVING and ISOLATING restarts it. -/
def Flash.follow (before after : SpotState) (f : Flash) : Flash :=
  if after.flashes then
    if before = after then f else { lit := true, phase := .running Config.flashTicks }
  else { lit := false, phase := .stopped }

/-- R51: the FLOW lamp. -/
def State.flowLamp (s : State) (i : SpotNo) : Bool :=
  s.fittedSpot i && match (s.spot i).state with
    | .transfer | .recovery => true
    | _ => false

/-- R51: the HALT lamp. -/
def State.haltLamp (s : State) (i : SpotNo) : Bool :=
  s.fittedSpot i && match (s.spot i).state with
    | .held | .faulted => true
    | .proving | .isolating => (s.flash i).lit
    | _ => false

/-! ## The close of an event -/

/-- Where an order stood in the queue before the event; one placed at the event itself stands behind all of them. -/
def placeBefore (before : List Order) (o : Order) : Nat :=
  before.findIdx fun b => b.tag == o.tag

/-- R9: of the orders of one spot that have left at one event, the one nearest the tail. -/
def tailMost (before : List Order) : List Order → Option Order
  | [] => none
  | o :: rest => match tailMost before rest with
    | none => some o
    | some p => if placeBefore before o ≤ placeBefore before p then some p else some o

/-- R9: the last end record an order leaves. -/
def Order.lastEnd (o : Order) : LastEnd :=
  { tag := o.tag, kind := o.kind, reason := o.reason.getD .stopped
    delivered := match o.liquid with
      | some l => l.delivered
      | none => 0 }

/-- R9: the last end and recovered fields after the orders that have left spot `i` at this event. -/
def writeLastEnd (before : State) (i : SpotNo) (s : State) : State :=
  let left := (s.scratch.departed.filter fun d => d.spot = i).map (·.order)
  match tailMost (before.spot i).orders left with
  | none => s
  | some o => s.modCarAt i fun c =>
      { c with lastEnd := some o.lastEnd
               recovered := c.recovered || left.any fun p => p.reason == some .residual }

/-- R5: the revision of each record the event has changed rises by one, and its slot's flag is set. -/
def bumpRevisions (s : State) : State :=
  if s.scratch.touched = 0 then s
  else
    { s with
      cars := Vector.ofFn fun k =>
        if s.scratch.touched.getLsbD k then
          { s.cars[k] with car := s.cars[k].car.map fun c => { c with revision := c.revision + 1 } }
        else s.cars[k]
      changes := { s.changes with cars := s.changes.cars ||| s.scratch.touched } }

/-- R195: the flags of the objects whose reported values differ before and after, and of those that a rule of the event has
changed. -/
def raiseFlags (before : State) (s : State) : State :=
  { s with changes :=
    { s.changes with
      spots := s.changes.spots ||| s.scratch.spots ||| BitVec.ofFnLE fun i => decide (before.spotView i ≠ s.spotView i)
      vessels := s.changes.vessels ||| s.scratch.vessels |||
        BitVec.ofFnLE fun v => decide (before.vesselView v ≠ s.vesselView v)
      comps := s.changes.comps ||| s.scratch.comps ||| BitVec.ofFnLE fun c => decide (before.compView c ≠ s.compView c)
      siding := s.changes.siding || decide (before.sidingView ≠ s.sidingView) } }

def followLamps (before : State) (s : State) : State :=
  { s with flashes := Vector.ofFn fun i => (s.flashes[i]).follow (before.spot i).state (s.spot i).state }

/-- The scratch is empty between events. -/
def clearScratch (s : State) : State := { s with scratch := .empty }

/-- The close of an event that began in `before`. -/
def closeEvent (before : State) (s : State) : State :=
  clearScratch (raiseFlags before (followLamps before (bumpRevisions (eachSpot (writeLastEnd before) s.refreshInlets))))

/-- One event with its effects `f`. -/
def event (f : State → State) (s : State) : State := closeEvent s (f (clearScratch s))

end Sys2Proof.Machine
end

