-- ==== Sys2Proof/Machine/Layout.lean ====
section
/-! DEFINITION. The characters of replies: enumerations (spec 11, section 11.1), records and reply bodies (R200, section 11.3)
and the profile layouts (section 11.4). -/

namespace Sys2Proof.Machine.Layout

open Sys2Proof.Machine

/-! ## Enumerations: the position in the list, counting from 0 -/

def status : Status → Byte
  | .done => 0 | .unknown => 1 | .range => 2 | .noRecord => 3 | .stale => 4 | .duplicate => 5 | .full => 6
  | .phase => 7 | .state => 8 | .occupied => 9 | .queueFull => 10 | .grade => 11 | .service => 12 | .allowance => 13
  | .ullage => 14 | .reserved => 15 | .notConfigured => 16 | .notOperating => 17 | .notQuiet => 18 | .locked => 19
  | .once => 20 | .fieldOff => 21 | .esdActive => 22 | .holdsRemain => 23 | .noBond => 24 | .noHoses => 25
  | .hosePressure => 26 | .badStamp => 27 | .nothing => 28

def grade : Grade → Byte
  | .propane => 0 | .butane => 1 | .mix => 2

def phase : Phase → Byte
  | .announced => 0 | .placed => 1 | .unloading => 2 | .served => 3

def orderKind : OrderKind → Byte
  | .liquid => 0 | .recovery => 1

def orderState : OrderState → Byte
  | .queued => 0 | .waiting => 1 | .running => 2 | .suspended => 3 | .draining => 4

def endReason : EndReason → Byte
  | .target => 0 | .exhausted => 1 | .trimmed => 2 | .cut => 3 | .cancelled => 4 | .stopped => 5 | .bond => 6
  | .flowHigh => 7 | .creep => 8 | .fault => 9 | .restart => 10 | .residual => 11 | .recoveryTimeout => 12

def spotState : SpotState → Byte
  | .vacant => 0 | .spotted => 1 | .proving => 2 | .connected => 3 | .staged => 4 | .transfer => 5 | .recovery => 6
  | .held => 7 | .isolating => 8 | .stroking => 9 | .faulted => 10

def valveName : ValveName → Byte
  | .shutoff => 0 | .liquid => 1 | .vapour => 2 | .vent => 3

/-- PROVING steps 0 to 2, ISOLATING steps 4 to 7, STROKING 8 + 2 × valve + 0 for OPENING or 1 for CLOSING. -/
def spotStep : SpotStep → Byte
  | .shutoffOpening => 0 | .pressureWait => 1 | .pressureHold => 2
  | .linesClosing => 4 | .ventOpening => 5 | .bleeding => 6 | .ventClosing => 7
  | .stroking v closing => 8 + 2 * valveName v + boolByte closing

def valveState : Option ValveState → Byte
  | some .shut => 0 | some .movingOpen => 1 | some .opened => 2 | some .movingShut => 3 | some .fault => 4
  | none => Config.absentCharacter

/-- A spot's last fault: its reason, and its valve's name or 255. -/
def spotFault : SpotFault → List Byte
  | .leak => [0, 255] | .bond => [1, 255] | .stopped => [2, 255] | .esd => [3, 255] | .restart => [4, 255]
  | .bleed => [5, 255] | .valve v => [6, valveName v] | .pressure => [7, 255] | .creep => [8, 255] | .flowHigh => [9, 255]

/-- A set is one character; the bit of weight 2^k stands for member k. -/
def holdSet (h : HoldSet) : Byte :=
  boolByte h.crewStop + 2 * boolByte h.vesselTrip + 4 * boolByte h.esd + 8 * boolByte h.compressor

def service : Service → Byte
  | .inService => 0 | .outOfService => 1

def compState : CompState → Byte
  | .stopped => 0 | .starting => 1 | .running => 2 | .runOn => 3 | .reversing => 4 | .proof => 5 | .faulted => 6

def compStep : CompStep → Byte
  | .deadTime => 0 | .valveOpening => 1 | .runWait => 2 | .valvesShutting => 3 | .settling => 4 | .pushStroke => 5
  | .drawStroke => 6 | .proofRun => 7 | .stopping => 8

def direction : Direction → Byte
  | .push => 0 | .draw => 1

def compFault : CompFault → List Byte
  | .faultInput => [0, 255] | .runLost => [1, 255] | .startFailed => [2, 255] | .valve d => [3, direction d]

def sidingState : SidingState → Byte
  | .unconfigured => 0 | .configured => 1 | .commissioning => 2 | .operating => 3

def linkForm : LinkForm → Byte
  | .clocked => 0 | .asynchronous => 1
  | .unlocked => Config.absentCharacter

def polarity : Polarity → Byte
  | .activeLow => 0 | .activeHigh => 1

def closedDrive : ClosedDrive → Byte
  | .released => 0 | .held => 1

/-! ## Records -/

def byteOf (n : Nat) : Byte := BitVec.ofNat 8 n

/-- An optional field: a presence character, then the value when present. Section 11.1 lets any value but 0 stand for present; that
the part sends 1 is the model's choice (log entry 31). -/
def optional {α : Type} (f : α → List Byte) : Option α → List Byte
  | none => [0]
  | some a => 1 :: f a

/-- A text: a length character, then its characters. -/
def text (t : List Byte) : List Byte := byteOf t.length :: t

def handle (h : Handle) : List Byte := [byteOf h.slot.val, h.issue]

def lastEnd (e : LastEnd) : List Byte :=
  chars16 e.tag ++ [orderKind e.kind, endReason e.reason] ++ chars32 e.delivered

/-- The car record of section 11.3; `view` is the state and hold set of its spot, present when bound. -/
def car (h : Handle) (c : Car) (view : Option (SpotState × HoldSet)) : List Byte :=
  handle h ++ text c.mark ++ [grade c.grade] ++ nat32 c.load ++ [phase c.phase]
    ++ optional (fun i : SpotNo => [byteOf i.val]) c.spot ++ [boolByte c.hoses] ++ chars32 c.delivered
    ++ [boolByte c.recovered] ++ optional lastEnd c.lastEnd ++ chars16 c.revision
    ++ optional (fun p : SpotState × HoldSet => [spotState p.1, holdSet p.2]) view

def order (o : OrderView) : List Byte :=
  chars16 o.order.tag ++ [orderKind o.order.kind, orderState o.order.state, boolByte o.order.closeAfter]
    ++ (match o.order.liquid with
        | some l => nat32 l.target ++ [byteOf l.vessel.val] ++ chars32 l.delivered ++ optional nat32 o.remainder
        | none => [])
    ++ optional (fun r => [endReason r]) o.order.reason

def spot (i : SpotNo) (v : SpotView) : List Byte :=
  [byteOf i.val, spotState v.state] ++ optional (fun st => [spotStep st]) v.step ++ [boolByte v.standing]
    ++ optional handle v.car ++ [holdSet v.holds] ++ optional (fun c : CompNo => [byteOf c.val]) v.seat
    ++ optional spotFault v.fault ++ chars16 v.activeVersion ++ nat16 v.creep
    ++ [boolByte v.bond + 2 * boolByte v.hose + 4 * boolByte v.residual]
    ++ [valveState v.shutoff, valveState v.liquid, valveState v.vapour, valveState v.vent]
    ++ [byteOf v.orders.length] ++ v.orders.flatMap order

def entry (e : Entry) : List Byte := [byteOf e.spot.val] ++ chars16 e.tag ++ nat32 e.remainder

/-- The vessel record; `available`, `reserved` and `free` are the derived quantities of R86. -/
def vessel (n : VesselNo) (v : VesselView) (available reserved free : Nat) : List Byte :=
  [byteOf n.val]
    ++ (match v.data with
        | some d => [grade d.grade] ++ nat32 d.capacity
        | none => [Config.absentCharacter] ++ nat32 Config.absentLitres)
    ++ [service v.service, boolByte v.tripped] ++ nat32 v.gaugedFree ++ chars32 v.stamp ++ chars32 v.counter
    ++ nat32 available ++ nat32 reserved ++ nat32 free ++ [boolByte v.inlet, byteOf v.entries.length]
    ++ v.entries.flatMap entry

def grant (g : Grant) : List Byte := [byteOf g.spot.val, direction g.dir]

def comp (c : CompNo) (v : CompView) : List Byte :=
  [byteOf c.val, compState v.state] ++ optional (fun st => [compStep st]) v.step
    ++ optional (fun d => [direction d]) v.dir ++ [byteOf v.seats, byteOf v.seated.length]
    ++ v.seated.map (fun i => byteOf i.val) ++ optional (fun i : SpotNo => [byteOf i.val]) v.turning
    ++ optional compFault v.fault ++ [boolByte v.startOn, boolByte v.run + 2 * boolByte v.faultInput]
    ++ [valveState v.push, valveState v.draw] ++ [byteOf v.grants.length] ++ v.grants.flatMap grant

def siding (v : SidingView) (form : LinkForm) (unit : BitVec 3) : List Byte :=
  [sidingState v.siding, boolByte v.fe, boolByte v.esdHigh, byteOf v.lock, boolByte v.lockTaken, linkForm form,
   byteOf unit.toNat, boolByte v.setpointHold] ++ chars16 v.stagedVersion ++ [Config.partRevision]

/-- The five change sets: slot k at weight 2^(k mod 8) of character k div 8. -/
def changes (c : Changes) : List Byte :=
  [c.cars.extractLsb' 0 8, c.cars.extractLsb' 8 8, c.cars.extractLsb' 16 8, c.spots, c.vessels.setWidth 8,
   c.comps.setWidth 8, boolByte c.siding]

def setpoints (p : Setpoints) : List Byte :=
  nat16 p.flowHigh ++ nat8 p.window ++ nat16 p.stall ++ nat16 p.recovery ++ nat16 p.creep

/-! ## Profile sections -/

/-- SITE, 14 characters; 0 in every field before the section is valid (R172). -/
def siteSection : Option Site → List Byte
  | none => List.replicate 14 0
  | some p =>
    nat8 p.spots ++ nat8 p.vessels ++ nat8 p.compressors ++ nat8 p.seats ++ nat16 p.overAllowance ++ nat8 p.startTime
      ++ nat16 p.runOnTime ++ nat8 p.proofTime ++ nat16 p.bleedTime ++ nat16 p.provingTime

def perClass {α : Type} (f : α → Byte) (p : PerClass α) : List Byte :=
  [f p.shutoff, f p.liquid, f p.vapour, f p.vent, f p.direction]

/-- SPOTS, 21 characters. -/
def spotsSection : Option SpotsSection → List Byte
  | none => List.replicate 21 0
  | some p => p.divisors.toList.flatMap nat16 ++ perClass byteOf p.strokes

/-- VESSELS, 30 characters. -/
def vesselsSection : Option VesselsSection → List Byte
  | none => List.replicate 30 0
  | some p => p.data.toList.flatMap fun d => [grade d.grade] ++ nat32 d.capacity

/-- PROTECTION, 16 characters; the values of R170 before the section is valid. -/
def protectionSection (p : Protection) : List Byte :=
  [polarity p.polarity, boolByte p.autoRearm] ++ nat8 p.rearmCount ++ nat8 p.deadTime
    ++ [byteOf p.filters.limit, byteOf p.filters.bond, byteOf p.filters.hosePressure, byteOf p.filters.residual,
        byteOf p.filters.pendant, byteOf p.filters.vesselTrip, byteOf p.filters.compressor]
    ++ perClass closedDrive p.closed

end Sys2Proof.Machine.Layout
end

