-- ==== Sys2Proof/Machine/Operands.lean ====
section
/-! DEFINITION. Judging the raw operands of requests: handles, numbers of fitted records, marks, enumerated and yes/no
characters (R2, R4, R24, R85, R120, R199), and the fields of the profile sections and setpoints (R168 to R170, R177). -/

namespace Sys2Proof.Machine

/-- A reply with an empty body. -/
def Reply.bare (st : Status) : Reply := { status := st, body := [] }

/-- A DONE reply. -/
def Reply.ok (body : List Byte) : Reply := { status := .done, body }

/-- R200: SPOT, UNSPOT and the other DONE replies without a body. -/
def Reply.okBare : Reply := .bare .done

/-- R4: a capital letter. -/
def isLetter (b : Byte) : Bool := decide (65 ≤ b.toNat) && decide (b.toNat ≤ 90)

/-- R4: a digit. -/
def isDigit (b : Byte) : Bool := decide (48 ≤ b.toNat) && decide (b.toNat ≤ 57)

/-- R4: 2 to 10 characters A to Z and 0 to 9, a letter first. -/
def markOk (m : List Byte) : Bool :=
  decide (2 ≤ m.length) && decide (m.length ≤ 10) && m.all (fun b => isLetter b || isDigit b) &&
    match m with
    | b :: _ => isLetter b
    | [] => false

def gradeOf (b : Byte) : Option Grade :=
  match b.toNat with
  | 0 => some .propane
  | 1 => some .butane
  | 2 => some .mix
  | _ => none

/-- yes/no and on/off characters (R199). -/
def boolOf (b : Byte) : Option Bool :=
  match b.toNat with
  | 0 => some false
  | 1 => some true
  | _ => none

def holdReasonOf (b : Byte) : Option HoldReason :=
  match b.toNat with
  | 0 => some .crewStop
  | 1 => some .vesselTrip
  | 2 => some .esd
  | 3 => some .compressor
  | _ => none

def orderKindOf (b : Byte) : Option OrderKind :=
  match b.toNat with
  | 0 => some .liquid
  | 1 => some .recovery
  | _ => none

def serviceOf (b : Byte) : Option Service :=
  match b.toNat with
  | 0 => some .inService
  | 1 => some .outOfService
  | _ => none

/-- A declared load or order target in range (R3, R54). -/
def litresOk (n : Nat) : Bool := decide (1 ≤ n) && decide (n ≤ 200000)

/-- A number below a bound. -/
def finOf (n : Nat) (b : Byte) : Option (Fin n) := if h : b.toNat < n then some ⟨b.toNat, h⟩ else none

/-- R2: the slot and record a handle names, or the refusal. -/
def State.resolve (s : State) (slot issue : Byte) : Except Status (SlotNo × Car) :=
  match finOf 24 slot with
  | none => .error .range
  | some k =>
    match (s.carSlot k).car with
    | none => .error .noRecord
    | some c => if (s.carSlot k).issue = issue then .ok (k, c) else .error .noRecord

/-- R24: the fitted spot a request names, or the refusal. -/
def State.namedSpot (s : State) (b : Byte) : Except Status SpotNo :=
  if s.siding = .unconfigured then .error .notConfigured
  else match finOf 8 b with
    | none => .error .range
    | some i => if s.fittedSpot i then .ok i else .error .range

/-- R85: the fitted vessel a request names, or the refusal. -/
def State.namedVessel (s : State) (b : Byte) : Except Status VesselNo :=
  if s.siding = .unconfigured then .error .notConfigured
  else match finOf 6 b with
    | none => .error .range
    | some v => if s.fittedVessel v then .ok v else .error .range

/-- R120: the fitted compressor a request names, or the refusal. -/
def State.namedComp (s : State) (b : Byte) : Except Status CompNo :=
  if s.siding = .unconfigured then .error .notConfigured
  else match finOf 2 b with
    | none => .error .range
    | some c => if s.fittedComp c then .ok c else .error .range

/-- R4: the slot whose record holds this mark. -/
def State.holder (s : State) (mark : List Byte) : Option SlotNo :=
  allSlots.find? fun k => match s.car k with
    | some c => c.mark == mark
    | none => false

/-- R1: the lowest-numbered empty slot. -/
def State.emptySlot (s : State) : Option SlotNo := allSlots.find? fun k => (s.car k).isNone

/-! ## Profile sections and setpoints -/

def within (lo hi n : Nat) : Bool := decide (lo ≤ n) && decide (n ≤ hi)

/-- R168: a SITE section from its 14 characters, none when a field is out of range. -/
def siteOf : List Byte → Option Site
  | [sp, ve, co, se, oa1, oa0, st, ro1, ro0, pr, bl1, bl0, pv1, pv0] =>
    let p : Site :=
      { spots := sp.toNat, vessels := ve.toNat, compressors := co.toNat, seats := se.toNat
        overAllowance := (word16 oa1 oa0).toNat, startTime := st.toNat, runOnTime := (word16 ro1 ro0).toNat
        proofTime := pr.toNat, bleedTime := (word16 bl1 bl0).toNat, provingTime := (word16 pv1 pv0).toNat }
    if within 1 8 p.spots && within 1 6 p.vessels && within 1 2 p.compressors && within 1 3 p.seats
        && within 0 5000 p.overAllowance && within 2 120 p.startTime && within 0 600 p.runOnTime
        && within 5 60 p.proofTime && within 5 300 p.bleedTime && within 10 600 p.provingTime
    then some p else none
  | _ => none

/-- R169: a SPOTS section from its 21 characters. -/
def spotsOf : List Byte → Option SpotsSection
  | [a1, a0, b1, b0, c1, c0, d1, d0, e1, e0, f1, f0, g1, g0, h1, h0, so, li, va, ve, di] =>
    let p : SpotsSection :=
      { divisors := #v[(word16 a1 a0).toNat, (word16 b1 b0).toNat, (word16 c1 c0).toNat, (word16 d1 d0).toNat,
                       (word16 e1 e0).toNat, (word16 f1 f0).toNat, (word16 g1 g0).toNat, (word16 h1 h0).toNat]
        strokes := { shutoff := so.toNat, liquid := li.toNat, vapour := va.toNat, vent := ve.toNat,
                     direction := di.toNat } }
    if p.divisors.toList.all (within 1 1000) && within 1 120 p.strokes.shutoff && within 1 120 p.strokes.liquid
        && within 1 120 p.strokes.vapour && within 1 120 p.strokes.vent && within 1 120 p.strokes.direction
    then some p else none
  | _ => none

/-- One vessel's grade and capacity (R169). -/
def vesselDataOf (g c3 c2 c1 c0 : Byte) : Option VesselData :=
  match gradeOf g with
  | none => none
  | some grade =>
    let capacity := (word32 c3 c2 c1 c0).toNat
    if within 1000 4000000 capacity then some { grade, capacity } else none

/-- R169: a VESSELS section from its 30 characters. -/
def vesselsOf : List Byte → Option VesselsSection
  | [ga, a3, a2, a1, a0, gb, b3, b2, b1, b0, gc, c3, c2, c1, c0, gd, d3, d2, d1, d0, ge, e3, e2, e1, e0,
     gf, f3, f2, f1, f0] =>
    match vesselDataOf ga a3 a2 a1 a0, vesselDataOf gb b3 b2 b1 b0, vesselDataOf gc c3 c2 c1 c0,
          vesselDataOf gd d3 d2 d1 d0, vesselDataOf ge e3 e2 e1 e0, vesselDataOf gf f3 f2 f1 f0 with
    | some a, some b, some c, some d, some e, some f => some { data := #v[a, b, c, d, e, f] }
    | _, _, _, _, _, _ => none
  | _ => none

def polarityOf (b : Byte) : Option Polarity :=
  match b.toNat with
  | 0 => some .activeLow
  | 1 => some .activeHigh
  | _ => none

def closedOf (b : Byte) : Option ClosedDrive :=
  match b.toNat with
  | 0 => some .released
  | 1 => some .held
  | _ => none

def perClassOf (a b c d e : Byte) : Option (PerClass ClosedDrive) :=
  match closedOf a, closedOf b, closedOf c, closedOf d, closedOf e with
  | some shutoff, some liquid, some vapour, some vent, some direction =>
    some { shutoff, liquid, vapour, vent, direction }
  | _, _, _, _, _ => none

/-- R170: a PROTECTION section from its 16 characters. -/
def protectionOf : List Byte → Option Protection
  | [po, au, rc, dt, fl, fb, fh, fr, fp, ft, fc, ks, kl, kv, kn, kd] =>
    match polarityOf po, boolOf au, perClassOf ks kl kv kn kd with
    | some polarity, some autoRearm, some closed =>
      let f : FilterNs :=
        { limit := fl.toNat, bond := fb.toNat, hosePressure := fh.toNat, residual := fr.toNat, pendant := fp.toNat,
          vesselTrip := ft.toNat, compressor := fc.toNat }
      if within 1 60 rc.toNat && within 1 60 dt.toNat && within 1 16 f.limit && within 1 16 f.bond
          && within 1 16 f.hosePressure && within 1 16 f.residual && within 1 16 f.pendant && within 1 16 f.vesselTrip
          && within 1 16 f.compressor
      then some { polarity, autoRearm, rearmCount := rc.toNat, deadTime := dt.toNat, filters := f, closed }
      else none
    | _, _, _ => none
  | _ => none

/-- R177: a setpoint set in range. -/
def setpointsOf (flowHigh : Word16) (window : Byte) (stall recovery creep : Word16) : Option Setpoints :=
  let p : Setpoints :=
    { flowHigh := flowHigh.toNat, window := window.toNat, stall := stall.toNat, recovery := recovery.toNat
      creep := creep.toNat }
  if within 1 10000 p.flowHigh && within 1 60 p.window && within 5 600 p.stall && within 60 14400 p.recovery
      && within 1 1000 p.creep
  then some p else none

/-- The length of each section's layout (spec 11, section 11.4); no section above 3. -/
def sectionLength (sec : Byte) : Nat :=
  match sec.toNat with
  | 0 => 14
  | 1 => 21
  | 2 => 30
  | 3 => 16
  | _ => 0

end Sys2Proof.Machine
end

