-- ==== Sys2Proof/Machine/Valves.lean ====
section
/-! DEFINITION. The valve supervisor: effective positions, supervised movement, limits, take-up, retest and drives (R141 to
R151). A valve's arrivals are seen by its owner as the state it leaves here; the owner's work at them is in the owner's file. -/

namespace Sys2Proof.Machine

/-- R144: a valve moved toward its effective position. In the moving and resting states of that position nothing happens, so
this is the identity where the effective position has not changed. -/
def Valve.pursue (stroke : Timer) (eff : Bool) (v : Valve) : Valve :=
  if v.supervised then
    match v.state, eff with
    | some .shut, true => { v with state := some .movingOpen, timer := stroke }
    | some .movingOpen, false =>
      if v.shutLimit.active && !v.openLimit.active then { v with state := some .shut, timer := .stopped }
      else { v with state := some .movingShut, timer := stroke }
    | some .opened, false => { v with state := some .movingShut, timer := stroke }
    | some .movingShut, true =>
      if v.openLimit.active && !v.shutLimit.active then { v with state := some .opened, timer := .stopped }
      else { v with state := some .movingOpen, timer := stroke }
    | _, _ => v
  else v

/-- R146: the valve enters FAULT. -/
def Valve.enterFault (v : Valve) : Valve := { v with state := some .fault, timer := .stopped }

/-- A limit filter that stands at this level: the filter as it was when it stood there already (R152). -/
def Filter.take (level : Bool) (f : Filter) : Filter := if f.active = level then f else .at level

/-- R145, R154: the filtered limits become `o` (open) and `sh` (shut) at one event, judged on the pair as it stands after. A SHUT
valve whose open limit becomes active faults, also right after a command that brought it to SHUT at once: R155's third row says
otherwise of that case, and R145 and R154 are followed (log entry 36). -/
def Valve.onLimits (o sh : Bool) (v : Valve) : Valve :=
  let openMade := o && !v.openLimit.active
  let shutMade := sh && !v.shutLimit.active
  let v1 := { v with openLimit := v.openLimit.take o, shutLimit := v.shutLimit.take sh }
  if v.supervised then
    match v.state with
    | some .shut => if o || !sh then v1.enterFault else v1
    | some .opened => if sh || !o then v1.enterFault else v1
    | some .movingOpen =>
      if openMade then
        if sh then v1.enterFault else { v1 with state := some .opened, timer := .stopped }
      else v1
    | some .movingShut =>
      if shutMade then
        if o then v1.enterFault else { v1 with state := some .shut, timer := .stopped }
      else v1
    | some .fault => v1
    | none => v1
  else v1

/-- The table of R142: the state from the filtered limits as they stand. -/
def Valve.byLimits (stroke : Timer) (v : Valve) : Valve :=
  match v.shutLimit.active, v.openLimit.active with
  | true, false => { v with state := some .shut, timer := .stopped }
  | true, true => v.enterFault
  | false, _ => { v with state := some .movingShut, timer := stroke }

/-- R142: take-up; a valve that stood in FAULT keeps it. -/
def Valve.takeUp (stroke : Timer) (v : Valve) : Valve :=
  let v1 := { v with command := .toShut, supervised := true }
  if v.isFault then v1 else v1.byLimits stroke

/-- R142: the end of supervision; the state stays as it stood. -/
def Valve.release (v : Valve) : Valve := { v with command := .toShut, supervised := false, timer := .stopped }

/-- R150: a valve taken up for a stroke test; one not in FAULT keeps its state and is commanded SHUT. -/
def Valve.beginTest (stroke : Timer) (v : Valve) : Valve :=
  if v.isFault then { v with command := .toShut, retest := true }.byLimits stroke
  else { v with command := .toShut }

/-- R151: a retesting valve at the passing end. -/
def Valve.passTest (v : Valve) : Valve := { v with retest := false }

/-- R151: a retesting valve at any other end returns to FAULT. -/
def Valve.failTest (v : Valve) : Valve :=
  if v.retest then { v with retest := false }.enterFault else v

/-! ## Spot valves -/

/-- R143: the effective position of a spot's valve, true for OPEN; a FAULTED spot holds its valves at the off-state. -/
def Spot.effective (fe : Bool) (sp : Spot) (n : ValveName) : Bool :=
  (sp.valve n).command == .toOpen && fe && sp.state != .faulted && !(sp.valve n).isFault

def pursueSpot (i : SpotNo) (n : ValveName) (s : State) : State :=
  s.modSpot i fun sp => sp.setValve n ((sp.valve n).pursue (s.strokeOf n) (sp.effective s.fe n))

/-- An owner's command to one of its valves (R143, R144). -/
def commandSpot (i : SpotNo) (n : ValveName) (c : Command) (s : State) : State :=
  pursueSpot i n (s.modSpot i fun sp => sp.setValve n { sp.valve n with command := c })

/-- Every valve of the spot worked out afresh (R143). -/
def pursueSpotAll (i : SpotNo) (s : State) : State := allValveNames.foldl (fun s n => pursueSpot i n s) s

/-- The liquid, vapour and shutoff valves commanded SHUT (R43). -/
def shutLines (i : SpotNo) (s : State) : State :=
  commandSpot i .shutoff .toShut (commandSpot i .vapour .toShut (commandSpot i .liquid .toShut s))

/-- All four valves commanded SHUT (R46, R160). -/
def shutAll (i : SpotNo) (s : State) : State := commandSpot i .vent .toShut (shutLines i s)

/-- R43: the three line valves stand SHUT. -/
def Spot.linesShut (sp : Spot) : Bool := sp.liquid.isShut && sp.vapour.isShut && sp.shutoff.isShut

/-- The four valves of a spot changed by one function. -/
def Spot.mapValves (f : Valve → Valve) (sp : Spot) : Spot :=
  { sp with shutoff := f sp.shutoff, liquid := f sp.liquid, vapour := f sp.vapour, vent := f sp.vent }

/-! ## Direction valves -/

/-- R143: the effective position of a direction valve; a FAULTED compressor holds its valves at the off-state. -/
def Comp.effective (fe : Bool) (k : Comp) (d : Direction) : Bool :=
  (k.valve d).command == .toOpen && fe && k.state != .faulted && !(k.valve d).isFault

def pursueDir (c : CompNo) (d : Direction) (s : State) : State :=
  s.modComp c fun k => k.putValve d ((k.valve d).pursue s.strokeOfDirection (k.effective s.fe d))

/-- An owner's command to one of its direction valves (R143, R144). -/
def commandDir (c : CompNo) (d : Direction) (cmd : Command) (s : State) : State :=
  pursueDir c d (s.modComp c fun k => k.putValve d { k.valve d with command := cmd })

/-- Both direction valves commanded SHUT. -/
def shutDirs (c : CompNo) (s : State) : State := commandDir c .draw .toShut (commandDir c .push .toShut s)

/-- Both direction valves worked out afresh (R143). -/
def pursueDirAll (c : CompNo) (s : State) : State := pursueDir c .draw (pursueDir c .push s)

/-- Both direction valves changed by one function, with their marks (R122). -/
def Comp.mapValves (f : Valve → Valve) (k : Comp) : Comp :=
  (k.putValve .push (f k.push)).putValve .draw (f (k.putValve .push (f k.push)).draw)

/-! ## Drives -/

def drivesClosed : ClosedDrive → Bool
  | .released => false
  | .held => true

/-- R148: the shut drive of a valve at an effective position of SHUT. -/
def Valve.shutDriveWhenShut (off : Bool) (closed : ClosedDrive) (v : Valve) : Bool :=
  if off || v.isFault || !v.supervised then drivesClosed closed
  else if v.state = some .movingShut then true
  else drivesClosed closed

/-- R148: the open drive of a valve; an unsupervised valve stands at the off-state. -/
def State.openDrive (s : State) : ValveId → Bool
  | .spot i n => ((s.spot i).valve n).supervised && (s.spot i).effective s.fe n
  | .direction c d => ((s.comp c).valve d).supervised && (s.comp c).effective s.fe d

/-- R148: the shut drive of a valve. -/
def State.shutDrive (s : State) (id : ValveId) : Bool :=
  if s.openDrive id then false
  else match id with
    | .spot i n =>
      ((s.spot i).valve n).shutDriveWhenShut (!s.fe || (s.spot i).state == .faulted)
        (s.protection.closed.ofSpotValve n)
    | .direction c d =>
      ((s.comp c).valve d).shutDriveWhenShut (!s.fe || (s.comp c).state == .faulted) s.protection.closed.direction

end Sys2Proof.Machine
end

