-- ==== Sys2Proof/Machine/Compressors.lean ====
section
/-! DEFINITION. The compressor controllers (R119 to R125, R130, R131, R135, R137) and the seats they hold (R128); taking and
leaving the grant queue (R126). What a compressor's fault does at its spots is in Spots.lean. -/

namespace Sys2Proof.Machine

/-- R180: a test has ended; the last one brings a COMMISSIONING siding to OPERATING. -/
def settleTests (s : State) : State :=
  if s.siding = .commissioning ∧ s.tests.spots = [] ∧ s.tests.comps = [] then { s with siding := .operating } else s

def endCompTest (c : CompNo) (s : State) : State :=
  settleTests { s with tests := { s.tests with comps := s.tests.comps.filter (· ≠ c) } }

def endSpotTest (i : SpotNo) (s : State) : State :=
  settleTests { s with tests := { s.tests with spots := s.tests.spots.filter (· ≠ i) } }

/-- R122: the valve stands SHUT and its mark is at least the dead-time old. -/
def Comp.provenShut (deadTime : Nat) (d : Direction) (k : Comp) : Bool :=
  (k.valve d).isShut && match k.mark d with
    | some age => decide (deadTime * Config.ticksPerSecond ≤ age)
    | none => false

/-- R122: the direction valve a compressor is waiting to open. -/
def Comp.awaits (k : Comp) : Option Direction :=
  match k.state, k.step with
  | .starting, some .deadTime => k.dir
  | .reversing, some .deadTime => k.dir
  | .proof, some .pushStroke =>
    if !k.stroked && k.push.isShut && k.push.command == .toShut then some .push else none
  | .proof, some .drawStroke =>
    if !k.stroked && k.draw.isShut && k.draw.command == .toShut then some .draw else none
  | .proof, some .runWait =>
    if !k.startOn && k.push.isShut && k.push.command == .toShut then some .push else none
  | _, _ => none

/-- R125: a compressor stops. -/
def stopComp (c : CompNo) (s : State) : State :=
  shutDirs c (s.modComp c fun k =>
    { k with state := .stopped, step := none, dir := none, startOn := false, startTimer := .stopped,
             runTimer := .stopped, stroked := false })

/-- R125: entry to RUN_ON; with a run-on time of 0 s the compressor passes through it. -/
def enterRunOn (c : CompNo) (s : State) : State :=
  if s.site (·.runOnTime) = 0 then stopComp c s
  else s.modComp c fun k =>
    { k with state := .runOn, step := none, startTimer := .stopped, runTimer := .seconds (s.site (·.runOnTime)) }

/-- R123, R131: the direction valve has arrived open. -/
def enterRunWait (c : CompNo) (s : State) : State :=
  s.modComp c fun k =>
    { k with state := .starting, step := some .runWait, startOn := true, startTimer := .seconds (s.site (·.startTime)) }

/-- The work at an open arrival of a direction valve (R123, R131, R135). -/
def compOnOpen (c : CompNo) (s : State) : State :=
  let k := s.comp c
  match k.state, k.step with
  | .starting, some .valveOpening | .reversing, some .valveOpening =>
    match k.dir with
    | some d => if (k.valve d).isOpen then enterRunWait c s else s
    | none => s
  | .proof, some .pushStroke =>
    if k.push.isOpen then commandDir c .push .toShut (s.modComp c fun k => { k with stroked := true }) else s
  | .proof, some .drawStroke =>
    if k.draw.isOpen then commandDir c .draw .toShut (s.modComp c fun k => { k with stroked := true }) else s
  | .proof, some .runWait =>
    if !k.startOn && k.push.isOpen then
      s.modComp c fun k => { k with startOn := true, startTimer := .seconds (s.site (·.startTime)) }
    else s
  | _, _ => s

/-- The work at run feedback standing active after start-on (R124, R135). -/
def compOnRun (c : CompNo) (s : State) : State :=
  let k := s.comp c
  if k.run.active && k.startOn && k.step == some .runWait then
    match k.state with
    | .starting =>
      if k.seated.isEmpty then enterRunOn c s
      else s.modComp c fun k => { k with state := .running, step := none, startTimer := .stopped }
    | .proof =>
      s.modComp c fun k =>
        { k with step := some .proofRun, startTimer := .stopped, runTimer := .seconds (s.site (·.proofTime)) }
    | _ => s
  else s

/-- R135: the proof has passed. -/
def passProof (c : CompNo) (s : State) : State :=
  endCompTest c (s.modComp c fun k =>
    { k.mapValves Valve.passTest with state := .stopped, step := none, dir := none, fault := none, stroked := false })

/-- The work at a shut arrival of a direction valve (R131, R135). -/
def compOnShut (c : CompNo) (s : State) : State :=
  let k := s.comp c
  match k.state, k.step with
  | .reversing, some .valvesShutting =>
    if k.push.isShut && k.draw.isShut then s.modComp c fun k => { k with step := some .deadTime } else s
  | .proof, some .settling =>
    if k.push.isShut && k.draw.isShut then s.modComp c fun k => { k with step := some .pushStroke, stroked := false }
    else s
  | .proof, some .pushStroke =>
    if k.stroked && k.push.isShut then s.modComp c fun k => { k with step := some .drawStroke, stroked := false } else s
  | .proof, some .drawStroke =>
    if k.stroked && k.draw.isShut then s.modComp c fun k => { k with step := some .runWait, stroked := false } else s
  | .proof, some .stopping => if k.push.isShut then passProof c s else s
  | _, _ => s

/-- R122: the awaited direction valve is commanded open once its partner is proven shut. -/
def compOnGuard (c : CompNo) (s : State) : State :=
  let k := s.comp c
  match k.awaits with
  | some d =>
    if k.provenShut s.protection.deadTime d.other then
      commandDir c d .toOpen (s.modComp c fun k =>
        if k.step = some .deadTime then { k with step := some .valveOpening } else k)
    else s
  | none => s

/-- R122: the compressor waits to open a direction valve whose partner is proven shut. -/
def State.guardMet (s : State) (c : CompNo) : Bool :=
  match (s.comp c).awaits with
  | some d => (s.comp c).provenShut s.protection.deadTime d.other
  | none => false

/-- The guard judged at this event. The command may be answered by an arrival at once (R144), so the arrivals are looked at
after it. -/
def compPassGuard (c : CompNo) (s : State) : State := compOnRun c (compOnOpen c (compOnGuard c s))

/-- The work at the arrivals of the direction valves. -/
def compOnArrivals (c : CompNo) (s : State) : State := compOnShut c (compOnRun c (compOnOpen c s))

/-- A compressor that begins to want a direction valve open is carried as far as its valves, its run feedback and its guard
allow at this event. -/
def compAdvance (c : CompNo) (s : State) : State := compPassGuard c (compOnArrivals c s)

/-- A compressor at a report of its valves, after `before`. The guard is judged where this event brings the wait or the mark; a
guard that was met before it waits for its own expiry (R122, log entry 7). -/
def compReported (before : State) (c : CompNo) (s : State) : State :=
  let s1 := compOnArrivals c s
  if before.guardMet c && (s1.comp c).awaits == (before.comp c).awaits then s1 else compPassGuard c s1

/-- R123: a STOPPED compressor starts toward the seated entry's direction. -/
def startComp (c : CompNo) (d : Direction) (s : State) : State :=
  compAdvance c (s.modComp c fun k => { k with state := .starting, step := some .deadTime, dir := some d })

/-- R130, R131: the mark is cleared and the compressor reverses toward `d`. -/
def enterReversing (c : CompNo) (d : Direction) (s : State) : State :=
  compAdvance c (shutDirs c ((s.touchComp c).modComp c fun k =>
    { k with state := .reversing, step := some .valvesShutting, dir := some d, turning := none, startOn := false,
             startTimer := .stopped, runTimer := .stopped }))

/-- The states in which a compressor works in a direction. -/
def CompState.working : CompState → Bool
  | .starting | .running | .runOn | .reversing => true
  | .stopped | .proof | .faulted => false

/-- R128: a compressor whose seated set is empty acts on its own state, by R130 when it is TURNING and by R125 when it is
RUNNING. -/
def compOnEmpty (c : CompNo) (s : State) : State :=
  let k := s.comp c
  if k.seated.isEmpty then
    match k.turning, k.dir with
    | some _, some d => if k.state.working then enterReversing c d.other s else s
    | _, _ => if k.state = .running then enterRunOn c s else s
  else s

/-- R64, R128: a spot's seat is released, and the compressor acts. -/
def releaseSeat (i : SpotNo) (s : State) : State :=
  match (s.spot i).seat with
  | none => s
  | some c =>
    compOnEmpty c ((((s.touchSpot i).touchComp c).modSpot i fun sp => { sp with seat := none }).modComp c fun k =>
      { k with seated := k.seated.filter (· ≠ i) })

/-- R129, R130: a TURNING mark that spot `i` caused is cleared. -/
def clearTurning (i : SpotNo) (c : CompNo) (s : State) : State :=
  if (s.comp c).turning = some i then (s.touchComp c).modComp c fun k => { k with turning := none } else s

/-- R64, R126, R130: a spot's grant-queue entry leaves, and a mark it caused is cleared. -/
def dropGrant (i : SpotNo) (s : State) : State :=
  let s1 := if s.grants.any fun g => g.spot == i then (s.touchSpot i).touchQueue else s
  eachComp (clearTurning i) { s1 with grants := s.grants.filter (·.spot ≠ i) }

/-- The spot's seat or grant-queue entry goes (R35, R41, R46, R71). -/
def leaveCompressors (i : SpotNo) (s : State) : State := dropGrant i (releaseSeat i s)

/-- Stroke timers stop at the failing end of a test (R151). -/
def Valve.stopTimer (v : Valve) : Valve := { v with timer := .stopped }

/-- R150: the direction valves are taken up for the proof; a valve set SHUT there is reported SHUT. -/
def enterProof (c : CompNo) (s : State) : State :=
  let stroke := s.strokeOfDirection
  pursueDirAll c ((s.touchComp c).modComp c fun k =>
    { k.mapValves (Valve.beginTest stroke) with
      state := .proof, step := some .settling, dir := some .push, seated := [], startOn := false,
      startTimer := .stopped, runTimer := .stopped, stroked := false })

/-- R137, R138: a compressor brought to STOPPED with its seats gone. A proof it was in ends not passed (R136): retesting
valves return to FAULT, and `keepTimers` says whether the other stroke timers run on (R151): at field enable's loss they do (log
entry 15), at RESTART SIDING they do not (log entry 40), both the model's choice. -/
def haltComp (keepTimers : Bool) (c : CompNo) (s : State) : State :=
  let wasProof := (s.comp c).state == .proof
  let s1 := eachSpot (fun i s => s.modSpot i fun sp => if sp.seat = some c then { sp with seat := none } else sp) s
  let s2 := stopComp c (s1.modComp c fun k => { k with turning := none, seated := [] })
  if wasProof then
    let s3 := s2.modComp c fun k => k.mapValves Valve.failTest
    endCompTest c (if keepTimers then s3 else s3.modComp c fun k => k.mapValves Valve.stopTimer)
  else s2

end Sys2Proof.Machine
end

