-- ==== Sys2Proof/Machine/Vessels.lean ====
section
/-! DEFINITION. Ullage accounting and reservation lists (R86, R91 to R94) and the walk of the cut rule (R95). What a cut does
to the orders is in Spots.lean. -/

namespace Sys2Proof.Machine

/-- R86: available ullage. -/
def Vessel.available (r : Vessel) : Nat := r.gaugedFree - (r.counter - r.stamp).toNat

/-- R86: reserved total. -/
def Vessel.reserved (r : Vessel) : Nat := (r.entries.map (·.remainder)).sum

/-- R86: free unreserved ullage. -/
def Vessel.freeUnreserved (r : Vessel) : Nat := r.available - r.reserved

/-- The entry of one order (R91: no two entries name the same spot and tag). -/
def Entry.names (e : Entry) (i : SpotNo) (tag : Word16) : Bool := e.spot == i && e.tag == tag

/-- R92: an entry appended at the tail. -/
def Vessel.reserve (i : SpotNo) (tag : Word16) (litres : Nat) (r : Vessel) : Vessel :=
  { r with entries := r.entries ++ [{ spot := i, tag := tag, remainder := litres }] }

/-- R94: an order's entry removed. -/
def Vessel.unreserve (i : SpotNo) (tag : Word16) (r : Vessel) : Vessel :=
  { r with entries := r.entries.filter fun e => !e.names i tag }

/-- R93, R94: an order's remainder lowered, floored at 0. -/
def Vessel.lower (i : SpotNo) (tag : Word16) (litres : Nat) (r : Vessel) : Vessel :=
  { r with entries := r.entries.map fun e =>
      if e.names i tag then { e with remainder := e.remainder - litres } else e }

/-- The order's remainder, none without an entry. -/
def Vessel.remainder (i : SpotNo) (tag : Word16) (r : Vessel) : Option Nat :=
  (r.entries.find? fun e => e.names i tag).map (·.remainder)

/-- One entry that the cut rule has reached: the entry as it leaves it, and the litres taken. -/
structure CutEntry where
  entry : Entry
  taken : Nat
  deriving DecidableEq, Repr

/-- R95: the walk over the entries, newest first, taking the excess. -/
def cutWalk : Nat → List Entry → List CutEntry
  | _, [] => []
  | excess, e :: rest =>
    let t := min excess e.remainder
    { entry := { e with remainder := e.remainder - t }, taken := t } :: cutWalk (excess - t) rest

/-- R95: the cuts the rule makes in a vessel, newest first; none when the reserved total does not exceed the available
ullage. -/
def Vessel.cuts (r : Vessel) : List CutEntry :=
  if r.reserved ≤ r.available then [] else cutWalk (r.reserved - r.available) r.entries.reverse

/-- The vessel after its cuts. -/
def Vessel.afterCuts (r : Vessel) : Vessel :=
  if r.reserved ≤ r.available then r else { r with entries := (r.cuts.map (·.entry)).reverse }

end Sys2Proof.Machine
end

