-- ==== Sys2Proof/Machine/Spots.lean ====
section
/-! DEFINITION. The spot machine and its order queues: departures, ends, boundaries, holds, isolation, faults and stroke tests
(R25 to R53, R62 to R82), the cut rule's effects on orders (R96, R97) and a compressor's fault (R133).

Each effect on one spot is written as an operation on that spot's number. `advanceSpot` carries a spot as far as its valves
stand: the work of the arrivals that the event has brought (R147). -/

namespace Sys2Proof.Machine

/-! ## Orders leaving the queue -/

/-- R71: an order leaves its queue with its reservation entry; its last end is written at the close of the event. -/
def depart (i : SpotNo) (o : Order) (s : State) : State :=
  let s1 := (s.touchSpot i).modSpot i fun sp => { sp with orders := sp.orders.filter fun p => p.tag ≠ o.tag }
  let s2 := match o.liquid with
    | some l => (s1.touchVessel l.vessel).modVessel l.vessel (Vessel.unreserve i o.tag)
    | none => s1
  { s2 with scratch := { s2.scratch with departed := s2.scratch.departed ++ [{ spot := i, order := o }] } }

/-- R63: at a boundary the spot takes the staged set when its version differs and the hold is off (R178). -/
def Spot.takeStaged (s : State) (sp : Spot) : Spot :=
  if s.stagedVersion ≠ sp.activeVersion ∧ s.setpointHold = false then
    { sp with active := s.staged, activeVersion := s.stagedVersion }
  else sp

/-- The meter's timers of a spot that leaves TRANSFER (R113, R115). -/
def Spot.stopMeter (sp : Spot) : Spot := { sp with stall := .stopped, window := .stopped, windowCount := 0 }

/-- R36: the head is a LIQUID order into a tripped vessel. -/
def State.headTripped (s : State) (i : SpotNo) : Bool :=
  match (s.spot i).head with
  | some h => match h.liquid with
    | some l => (s.vessel l.vessel).trip.active
    | none => false
  | none => false

/-- The head suspended by a hold (R35, R74). -/
def Order.suspend (o : Order) : Order :=
  match o.state with
  | .waiting | .running => { o with state := .suspended }
  | .queued | .suspended | .draining => o

/-- R35 to R37: a reason joins the hold set. In CONNECTED, STAGED, TRANSFER and RECOVERY the spot enters HELD. -/
def addHold (i : SpotNo) (r : HoldReason) (s : State) : State :=
  let sp := s.spot i
  if sp.holds.has r then s
  else
    let shutForEsd (s : State) : State := if r = .esd then commandSpot i .shutoff .toShut s else s
    match sp.state with
    | .connected | .staged | .transfer | .recovery =>
      let s1 := (s.touchSpot i).modSpot i fun sp =>
        { (sp.modHead Order.suspend).stopMeter with
          state := .held, holds := sp.holds.put r true, recoveryTimer := .stopped }
      leaveCompressors i (shutForEsd (commandSpot i .vapour .toShut (commandSpot i .liquid .toShut s1)))
    | .held => shutForEsd (s.modSpot i fun sp => { sp with holds := sp.holds.put r true })
    | .vacant | .spotted | .proving | .isolating | .stroking | .faulted => s

/-- A reason leaves the hold set; the spot does not move (R35). -/
def removeHold (i : SpotNo) (r : HoldReason) (s : State) : State :=
  s.modSpot i fun sp => { sp with holds := sp.holds.put r false }

/-- The work at an order becoming head (R62, R63, R72, R101): the boundary, its state in STAGED or HELD, and VESSEL_TRIP. -/
def becomeHead (i : SpotNo) (s : State) : State :=
  let s1 := (s.touchSpot i).modSpot i (Spot.takeStaged s)
  if (s1.spot i).state = .held then
    let s2 := s1.modSpot i (Spot.modHead fun o => { o with state := .suspended })
    s2.modSpot i fun sp => { sp with holds := sp.holds.put .vesselTrip (s2.headTripped i) }
  else
    let s2 := s1.modSpot i fun sp =>
      { sp.modHead (fun o => { o with state := .waiting }) with state := .staged }
    if s2.headTripped i then addHold i .vesselTrip s2 else s2

/-- The table of R72: what follows when the head has left by itself and close-after has not acted. -/
def nextHead (i : SpotNo) (s : State) : State :=
  let sp := s.spot i
  match sp.state with
  | .staged | .transfer | .recovery =>
    let s1 := s.modSpot i Spot.stopMeter
    if sp.orders.isEmpty then s1.modSpot i fun sp => { sp with state := .connected, pulses := 0 }
    else becomeHead i s1
  | .held => if sp.orders.isEmpty then removeHold i .vesselTrip s else becomeHead i s
  | .isolating => s
  | .vacant | .spotted | .proving | .connected | .stroking | .faulted => s

/-! ## Isolation -/

/-- R69: a LIQUID head that drains rather than leaving: RUNNING or SUSPENDED with its liquid valve not SHUT. -/
def Spot.headDrains (sp : Spot) : Bool :=
  match sp.head with
  | some h => h.liquid.isSome && (h.state == .running || h.state == .suspended) && !sp.liquid.isShut
  | none => false

/-- R41: every order of the queue ends. A DRAINING head keeps its place and reason, a head that drains becomes DRAINING, and
every other order leaves, head first; an order whose end this event has decided already keeps its reason (R68). -/
def endQueue (headReason otherReason : EndReason) (i : SpotNo) (s : State) : State :=
  match (s.spot i).orders with
  | [] => s
  | h :: rest =>
    let s1 :=
      if h.state = .draining then s
      else if (s.spot i).headDrains then
        s.modSpot i (Spot.modHead fun o =>
          { o with state := .draining, reason := some (o.reason.getD headReason) })
      else depart i { h with reason := some (h.reason.getD headReason) } s
    rest.foldl (fun s o => depart i { o with reason := some (o.reason.getD otherReason) } s) s1

/-- R41: entry to ISOLATING; with field enable off it is standing (R160). -/
def enterIsolating (headReason otherReason : EndReason) (fault : Option SpotFault) (i : SpotNo) (s : State) : State :=
  let s1 := leaveCompressors i (endQueue headReason otherReason i s)
  let s2 := (s1.touchSpot i).modSpot i fun sp =>
    { sp.stopMeter with
      state := .isolating, holds := .empty, step := some .linesClosing, standing := !s.fe
      timer := .stopped, recoveryTimer := .stopped
      fault := match fault with
        | some f => some f
        | none => sp.fault }
  shutAll i s2

/-- R32: proving fails. -/
def failProving (f : SpotFault) (i : SpotNo) (s : State) : State := enterIsolating .stopped .stopped (some f) i s

/-- R72: the head has left by itself; close-after is considered first. -/
def headGone (i : SpotNo) (closes : Bool) (s : State) : State :=
  if closes && (s.spot i).state != .isolating then enterIsolating .stopped .stopped none i s else nextHead i s

/-! ## The end of one order -/

/-- R69: the head drains. -/
def drainHead (i : SpotNo) (r : EndReason) (s : State) : State :=
  let s1 := (s.touchSpot i).modSpot i fun sp =>
    { sp.modHead (fun o => { o with state := .draining, reason := some r }) with stall := .stopped }
  commandSpot i .liquid .toShut (leaveCompressors i s1)

/-- R67, R70: the head leaves at the event of the decision, and R72 follows. -/
def headLeaves (i : SpotNo) (h : Order) (r : EndReason) (s : State) : State :=
  let s1 := if h.liquid.isNone && h.state == .running then
      commandSpot i .vapour .toShut (s.modSpot i fun sp => { sp with recoveryTimer := .stopped })
    else s
  headGone i (h.closeAfter && r.natural) (depart i { h with reason := some r } (leaveCompressors i s1))

/-- R69, R70: an end decided for the head. -/
def endHead (i : SpotNo) (r : EndReason) (s : State) : State :=
  match (s.spot i).head with
  | none => s
  | some h => if (s.spot i).headDrains then drainHead i r s else headLeaves i h r s

/-- R69, R70: an end decided for the order of a tag. -/
def endOrder (i : SpotNo) (tag : Word16) (r : EndReason) (s : State) : State :=
  match (s.spot i).head with
  | none => s
  | some h =>
    if h.tag = tag then endHead i r s
    else match (s.spot i).order tag with
      | some o => depart i { o with reason := some r } s
      | none => s

/-! ## Faults -/

/-- R14: a bound UNLOADING car becomes SERVED. -/
def serveUnloading (i : SpotNo) (s : State) : State :=
  match (s.spot i).car with
  | none => s
  | some h => match s.car h.slot with
    | some c => if c.phase = .unloading then s.modCar h.slot fun c => { c with phase := .served } else s
    | none => s

/-- R44, R46: the spot becomes FAULTED; every order ends FAULT and leaves, head first. That standing is no there although the
spot was standing in ISOLATING is the model's choice (log entry 32). -/
def faultSpot (f : SpotFault) (i : SpotNo) (s : State) : State :=
  let s1 := (s.spot i).orders.foldl (fun s o => depart i { o with reason := some .fault } s) s
  let s2 := ((leaveCompressors i s1).touchSpot i).modSpot i fun sp =>
    { sp.stopMeter with
      state := .faulted, holds := .empty, step := none, standing := false, timer := .stopped
      recoveryTimer := .stopped, fault := some f }
  serveUnloading i (shutAll i s2)

/-- R151: a stroke test ends without a pass. Stroke timers stop at a failing end, but for the loss of field enable, which
leaves each valve to close under supervision (log entry 15); they stop at RESTART SIDING too (log entry 40). -/
def failStroke (keepTimers : Bool) (f : SpotFault) (i : SpotNo) (s : State) : State :=
  let s1 := shutAll i ((s.touchSpot i).modSpot i fun sp => { sp with state := .faulted, step := none, fault := some f })
  let s2 := s1.modSpot i (Spot.mapValves Valve.failTest)
  endSpotTest i (if keepTimers then s2 else s2.modSpot i (Spot.mapValves Valve.stopTimer))

/-- R46, R48: a valve fault reported to its spot; a FAULTED spot keeps its state and last fault, and its flag is set. -/
def spotValveFault (i : SpotNo) (n : ValveName) (s : State) : State :=
  match (s.spot i).state with
  | .faulted => s.touchSpot i
  | .stroking => failStroke false (.valve n) i s
  | .vacant | .spotted | .proving | .connected | .staged | .transfer | .recovery | .held | .isolating =>
    faultSpot (.valve n) i s

/-! ## Stroke tests -/

/-- R48: the valves a test strokes, in order; the shutoff valve is left out while a car is bound. -/
def Spot.strokeOrder (sp : Spot) : List ValveName :=
  if sp.car.isSome then [.vent, .vapour, .liquid] else [.vent, .vapour, .liquid, .shutoff]

/-- The valve whose turn follows. -/
def nextStroke (sp : Spot) : ValveName → Option ValveName
  | .vent => some .vapour
  | .vapour => some .liquid
  | .liquid => if sp.car.isSome then none else some .shutoff
  | .shutoff => none

/-- R48, R150: entry to STROKING. A retesting valve that finds both limits active returns to FAULT and fails the test at once.
Where several do, the last fault names the first of them in stroke order: the model's choice (log entry 34). -/
def enterStroking (i : SpotNo) (s : State) : State :=
  let names := (s.spot i).strokeOrder
  let s1 := (s.touchSpot i).modSpot i fun sp => { sp with state := .stroking, step := some (.stroking .vent false) }
  let s2 := names.foldl (fun s n =>
    s.modSpot i fun sp => sp.setValve n ((sp.valve n).beginTest (s.strokeOf n))) s1
  let s3 := pursueSpotAll i s2
  match names.find? fun n => ((s3.spot i).valve n).isFault with
  | some n => failStroke false (.valve n) i s3
  | none => s3

/-- R48, R151: the test passes. -/
def passStroke (i : SpotNo) (s : State) : State :=
  endSpotTest i ((s.touchSpot i).modSpot i fun sp =>
    { sp.mapValves Valve.passTest with
      state := if sp.car.isSome then .spotted else .vacant, step := none, fault := none })

/-! ## The work of arrivals -/

/-- R30: the shutoff valve's open arrival in SHUTOFF_OPENING. -/
def onShutoffOpen (i : SpotNo) (s : State) : State :=
  let sp := s.spot i
  if sp.state = .proving ∧ sp.step = some .shutoffOpening ∧ sp.shutoff.isOpen = true then
    s.modSpot i fun sp =>
      { sp with step := some (if sp.hose.active then .pressureHold else .pressureWait)
                timer := .seconds (s.site (·.provingTime)) }
  else s

/-- R113: the liquid valve's open arrival starts the stall timer of a RUNNING head in TRANSFER. -/
def onLiquidOpen (i : SpotNo) (s : State) : State :=
  let sp := s.spot i
  if sp.state = .transfer ∧ sp.headIs .running = true ∧ sp.liquid.isOpen = true ∧ sp.stall.isRunning = false then
    s.modSpot i fun sp => { sp with stall := .seconds sp.active.stall }
  else s

/-- R69, R71, R72: the liquid valve's shut arrival takes a DRAINING head out of the queue. -/
def onDrained (i : SpotNo) (s : State) : State :=
  match (s.spot i).head with
  | none => s
  | some h =>
    if h.state = .draining ∧ (s.spot i).liquid.isShut = true then
      let r := h.reason.getD .stopped
      headGone i (h.closeAfter && r.natural)
        (depart i h (leaveCompressors i (commandSpot i .vapour .toShut s)))
    else s

/-- R40: a resuming head becomes WAITING. -/
def onResumed (i : SpotNo) (s : State) : State :=
  let sp := s.spot i
  if sp.state = .staged ∧ sp.headIs .suspended = true ∧ sp.shutoff.isOpen = true ∧ sp.liquid.isShut = true
      ∧ sp.vapour.isShut = true then
    (s.touchSpot i).modSpot i (Spot.modHead fun o => { o with state := .waiting })
  else s

/-- R43: with the three line valves SHUT the vent is commanded open. -/
def onLinesShut (i : SpotNo) (s : State) : State :=
  let sp := s.spot i
  if sp.state = .isolating ∧ sp.standing = false ∧ sp.step = some .linesClosing ∧ sp.linesShut = true then
    commandSpot i .vent .toOpen (s.modSpot i fun sp => { sp with step := some .ventOpening })
  else s

/-- R43: the vent's open arrival begins the bleed. -/
def onVentOpen (i : SpotNo) (s : State) : State :=
  let sp := s.spot i
  if sp.state = .isolating ∧ sp.standing = false ∧ sp.step = some .ventOpening ∧ sp.vent.isOpen = true then
    s.modSpot i fun sp => { sp with step := some .bleeding, timer := .seconds (s.site (·.bleedTime)) }
  else s

/-- R13, R44: the vent's shut arrival ends the isolation at SPOTTED. -/
def onVentShut (i : SpotNo) (s : State) : State :=
  let sp := s.spot i
  if sp.state = .isolating ∧ sp.standing = false ∧ sp.step = some .ventClosing ∧ sp.vent.isShut = true then
    (s.modSpot i fun sp => { sp with state := .spotted, step := none, standing := false }).modCarAt i fun c =>
      { c with hoses := false, phase := if c.phase = .unloading then .served else c.phase }
  else s

/-- R150: the valve under test has arrived open and is commanded shut. -/
def onStrokeOpen (i : SpotNo) (s : State) : State :=
  let sp := s.spot i
  match sp.state, sp.step with
  | .stroking, some (.stroking n false) =>
    if (sp.valve n).isOpen then
      commandSpot i n .toShut (s.modSpot i fun sp => { sp with step := some (.stroking n true) })
    else s
  | _, _ => s

/-- R48, R150: the valve under test has arrived shut: the next valve's turn, or the pass. -/
def onStrokeShut (i : SpotNo) (s : State) : State :=
  let sp := s.spot i
  match sp.state, sp.step with
  | .stroking, some (.stroking n true) =>
    if (sp.valve n).isShut then
      match nextStroke sp n with
      | some m => s.modSpot i fun sp => { sp with step := some (.stroking m false) }
      | none => passStroke i s
    else s
  | _, _ => s

/-- R150: the valve whose turn has begun is commanded open at the event at which it stands SHUT. -/
def onStrokeTurn (i : SpotNo) (s : State) : State :=
  let sp := s.spot i
  match sp.state, sp.step with
  | .stroking, some (.stroking n false) => if (sp.valve n).isShut then commandSpot i n .toOpen s else s
  | _, _ => s

/-- The work a spot owes to the arrivals of its valves at this event (R147), in the order in which one may lead to the
next. -/
def advanceSpot (i : SpotNo) (s : State) : State :=
  onStrokeTurn i (onStrokeShut i (onStrokeOpen i (onVentShut i (onVentOpen i (onLinesShut i (onResumed i (onDrained i
    (onLiquidOpen i (onShutoffOpen i s)))))))))

/-! ## Holds that come from outside the spot -/

/-- A hold reason added, with the arrivals it brings. -/
def holdSpot (i : SpotNo) (r : HoldReason) (s : State) : State := advanceSpot i (addHold i r s)

/-- R132, R133: a compressor enters FAULTED; its seated spots lose their seats and are held. -/
def faultComp (f : CompFault) (c : CompNo) (s : State) : State :=
  let k := s.comp c
  if k.state = .faulted then s
  else
    let s1 := shutDirs c ((s.touchComp c).modComp c fun k =>
      { k with state := .faulted, step := none, seated := [], turning := none, fault := some f, startOn := false,
               startTimer := .stopped, runTimer := .stopped, stroked := false })
    let s2 := if k.state = .proof then
        s1.modComp c fun k => (k.mapValves Valve.failTest).mapValves Valve.stopTimer
      else s1
    let s3 := k.seated.foldl (fun s i =>
      holdSpot i .compressor ((s.touchSpot i).modSpot i fun sp => { sp with seat := none })) s2
    if k.state = .proof then endCompTest c s3 else s3

/-! ## The cut rule's effects on orders -/

/-- R96: litres taken from an entry are taken from its order's target; at 0 the end CUT is decided, unless it is
DRAINING. -/
def Order.cutBy (taken left : Nat) (o : Order) : Order :=
  match o.liquid with
  | none => o
  | some l =>
    { o with
      liquid := some { l with target := l.target - taken }
      reason := if left = 0 ∧ o.state ≠ .draining then some .cut else o.reason }

/-- An order whose end the cut has just decided and that has not left. -/
def Order.isCut (o : Order) : Bool := o.reason == some .cut && o.state != .draining

/-- R96, R97: the orders of one spot whose ends a cut has decided leave or drain, in queue order. -/
def sweepCut (i : SpotNo) (s : State) : State :=
  match (s.spot i).head with
  | none => s
  | some h =>
    let leaveCut (s : State) : State :=
      ((s.spot i).orders.filter Order.isCut).foldl (fun s o => depart i o s) s
    if h.isCut then
      if (s.spot i).headDrains then leaveCut (drainHead i .cut s)
      else if h.closeAfter && (s.spot i).state != .isolating then enterIsolating .cut .stopped none i s
      else nextHead i (leaveCut (leaveCompressors i s))
    else leaveCut s

/-- What one run of the cut rule took (R89). -/
structure CutResult where
  litres : Nat
  ended : Nat
  reserved : Nat
  deriving DecidableEq, Repr

/-- The litres and the targets of one run of the cut rule (R95, R96), before the ends it decides are carried out. -/
def applyCuts (v : VesselNo) (s : State) : State :=
  ((s.vessel v).cuts.filter fun t => t.taken ≠ 0).foldl
    (fun s t => s.modSpot t.entry.spot (Spot.modOrder t.entry.tag (Order.cutBy t.taken t.entry.remainder)))
    (s.modVessel v Vessel.afterCuts)

/-- R95 to R97: the cut rule on one vessel. -/
def runCut (v : VesselNo) (s : State) : State :=
  if (s.vessel v).reserved ≤ (s.vessel v).available then s
  else eachSpot (fun i s => advanceSpot i (sweepCut i s)) (applyCuts v s)

/-- R89: what the cut rule takes on one vessel, with the reserved total it leaves. -/
def cutResult (v : VesselNo) (s : State) : CutResult :=
  let s1 := applyCuts v s
  let ended := (allSpots.map fun i => ((s1.spot i).orders.filter Order.isCut).length).sum
  { litres := ((s.vessel v).cuts.map (·.taken)).sum, ended, reserved := (s1.vessel v).reserved }

end Sys2Proof.Machine
end

