-- ==== Sys2Proof/Machine/Arbiter.lean ====
section
/-! DEFINITION. The seat arbiter (R126 to R130) and the entry of seated heads to RUNNING (R65), repeated within one event until
nothing more is due (R127). -/

namespace Sys2Proof.Machine

/-! ## Entry to RUNNING -/

def Order.direction (o : Order) : Direction := if o.liquid.isSome then .push else .draw

/-- R65: all the conditions of a seated WAITING head's entry to RUNNING stand. -/
def State.headReady (s : State) (i : SpotNo) : Bool :=
  let sp := s.spot i
  match sp.state, sp.head, sp.seat with
  | .staged, some h, some c =>
    h.state == .waiting && (s.comp c).state == .running && (s.comp c).dir == some h.direction
      && sp.shutoff.isOpen && sp.liquid.isShut && sp.vapour.isShut
  | _, _, _ => false

/-- R65: the head becomes RUNNING; a RECOVERY head that finds the residual switch active ends RESIDUAL instead. -/
def runHead (i : SpotNo) (s : State) : State :=
  let sp := s.spot i
  match sp.head with
  | none => s
  | some h =>
    if h.liquid.isSome then
      commandSpot i .vapour .toOpen (commandSpot i .liquid .toOpen ((s.touchSpot i).modSpot i fun sp =>
        { sp.modHead (fun o => { o with state := .running }) with
          state := .transfer, stall := .stopped, window := .seconds sp.active.window, windowCount := 0 }))
    else if sp.residual.active then advanceSpot i (endHead i .residual s)
    else
      commandSpot i .vapour .toOpen ((s.touchSpot i).modSpot i fun sp =>
        { sp.modHead (fun o => { o with state := .running }) with
          state := .recovery, recoveryTimer := .seconds sp.active.recovery })

/-! ## The grant queue -/

/-- R64: a WAITING head that holds neither a seat nor a grant-queue entry. -/
def State.mustJoin (s : State) (i : SpotNo) : Bool :=
  let sp := s.spot i
  sp.state == .staged && sp.headIs .waiting && sp.seat.isNone && !(s.grants.any fun g => g.spot == i)

/-- R126: entries that join at one event are appended in ascending spot number. One that joins in a later round of the same event
goes to the tail, behind those that joined in an earlier round: the model's choice (log entry 39). -/
def joinGrants (s : State) : State :=
  { s.touchQueue with grants := s.grants ++ (allSpots.filter s.mustJoin).map fun i =>
      { spot := i, dir := match (s.spot i).head with
          | some h => h.direction
          | none => .push } }

/-- R127: a compressor already working in the entry's direction with a free seat. -/
def State.hasSeat (s : State) (d : Direction) (c : CompNo) : Bool :=
  let k := s.comp c
  s.fittedComp c && k.turning.isNone && k.state.working && k.dir == some d
    && decide (k.seated.length < s.site (·.seats))

/-- R127: a STOPPED compressor. -/
def State.canStart (s : State) (c : CompNo) : Bool :=
  s.fittedComp c && (s.comp c).turning.isNone && (s.comp c).state == .stopped

/-- R127: the compressor that seats an entry: one in its direction first, then a STOPPED one, lowest number first. -/
def State.seatFor (s : State) (d : Direction) : Option CompNo :=
  match allComps.find? (s.hasSeat d) with
  | some c => some c
  | none => allComps.find? s.canStart

def insertSpot (i : SpotNo) : List SpotNo → List SpotNo
  | [] => [i]
  | j :: rest => if i < j then i :: j :: rest else j :: insertSpot i rest

/-- R128: a seat is granted at one event. -/
def grantSeat (c : CompNo) (g : Grant) (s : State) : State :=
  let s1 := dropGrant g.spot ((((s.touchSpot g.spot).touchComp c).modSpot g.spot fun sp =>
    { sp with seat := some c }).modComp c fun k => { k with seated := insertSpot g.spot k.seated })
  match (s.comp c).state with
  | .stopped => startComp c g.dir s1
  | .runOn => s1.modComp c fun k => { k with state := .running, runTimer := .stopped }
  | .starting | .running | .reversing | .proof | .faulted => s1

/-- R127: the oldest entry that some compressor can seat, with that compressor. -/
def State.nextGrant (s : State) : Option (Grant × CompNo) :=
  s.grants.findSome? fun g => (s.seatFor g.dir).map fun c => (g, c)

/-- R129: a candidate for the TURNING mark. -/
def State.canTurn (s : State) (d : Direction) (c : CompNo) : Bool :=
  s.fittedComp c && (s.comp c).state.working && (s.comp c).dir == some d.other

/-- R129: the candidate with the fewest seated spots, the lowest number on a tie. -/
def State.fewestSeats (s : State) : List CompNo → Option CompNo
  | [] => none
  | c :: rest => match s.fewestSeats rest with
    | none => some c
    | some b => if (s.comp c).seated.length ≤ (s.comp b).seated.length then some c else some b

/-- R129: the oldest unseated entry and the compressor to be marked for it. -/
def State.nextTurn (s : State) : Option (SpotNo × CompNo) :=
  match s.grants with
  | [] => none
  | g :: _ =>
    if allComps.any fun c => (s.comp c).turning.isSome then none
    else (s.fewestSeats (allComps.filter (s.canTurn g.dir))).map fun c => (g.spot, c)

/-- R129, R130: the mark is set; a compressor without seats reverses at the same event. -/
def markTurning (cause : SpotNo) (c : CompNo) (s : State) : State :=
  compOnEmpty c ((s.touchComp c).modComp c fun k => { k with turning := some cause })

/-! ## The repetition within one event -/

/-- What is due next at this event: an entry to RUNNING, the joining of the grant queue, a seat of the scan, and after each
scan the TURNING mark (R127). While field enable is off the arbiter seats nothing. -/
inductive Due where
  | run (i : SpotNo)
  | join
  | seat (g : Grant) (c : CompNo)
  | turn (cause : SpotNo) (c : CompNo)
  deriving DecidableEq, Repr

/-- R65, R126, R127, R129. A head whose grant completes R65 runs before the later entries of the same scan are looked at, so a
seat that a RECOVERY head ending RESIDUAL frees is free for them: the model's choice (log entry 35). -/
def State.due (s : State) : Option Due :=
  match allSpots.find? s.headReady with
  | some i => some (.run i)
  | none =>
    if allSpots.any s.mustJoin then some .join
    else if s.fe then
      match s.nextGrant with
      | some (g, c) => some (.seat g c)
      | none => s.nextTurn.map fun p => .turn p.1 p.2
    else none

def performDue (d : Due) (s : State) : State :=
  match d with
  | .run i => runHead i s
  | .join => joinGrants s
  | .seat g c => grantSeat c g s
  | .turn cause c => markTurning cause c s

/-- R127: repeated until nothing is due. -/
def settleFor : Nat → State → State
  | 0, s => s
  | n + 1, s => match s.due with
    | none => s
    | some d => settleFor n (performDue d s)

/-- The scan and what it brings, at the close of an event's other effects (R127). -/
def settle (s : State) : State := settleFor Config.settleRounds s

end Sys2Proof.Machine
end

