-- ==== Sys2Proof/Machine/Protection.lean ====
section
/-! DEFINITION. The protection block: field enable off and on, the ESD input, the beat and auto-rearm (R156 to R164), with what
each owner does at a change of field enable (R37, R45, R137, R159, R181). -/

namespace Sys2Proof.Machine

/-- R37: field enable's loss at one fitted spot. -/
def spotLosesEnable (i : SpotNo) (s : State) : State :=
  match (s.spot i).state with
  | .connected | .staged | .transfer | .recovery | .held => addHold i .esd s
  | .proving => failProving .esd i s
  | .isolating => shutAll i (s.modSpot i fun sp => { sp with standing := true, timer := .stopped })
  | .stroking => failStroke true .esd i s
  | .vacant | .spotted | .faulted => s

/-- R137: field enable's loss at one fitted compressor. -/
def compLosesEnable (c : CompNo) (s : State) : State :=
  if (s.comp c).state = .faulted then s else haltComp true c s

/-- R181: field enable's loss ends a commissioning run. -/
def endCommissioning (s : State) : State :=
  if s.siding = .commissioning then { s with siding := .configured, tests := { spots := [], comps := [] } } else s

/-- R158, R159: field enable turns off. -/
def enableOff (s : State) : State :=
  let s1 := endCommissioning { s with fe := false, rearmRun := 0 }
  let s2 := eachFittedSpot spotLosesEnable (eachFittedComp compLosesEnable s1)
  eachComp pursueDirAll (eachSpot (fun i s => advanceSpot i (pursueSpotAll i s)) s2)

/-- R45, R164: field enable's return at one fitted spot. -/
def spotGainsEnable (i : SpotNo) (s : State) : State :=
  let s1 := removeHold i .esd s
  if (s1.spot i).state = .isolating ∧ (s1.spot i).standing = true then
    shutLines i (s1.modSpot i fun sp => { sp with standing := false, step := some .linesClosing })
  else s1

/-- R164: field enable turns on. -/
def enableOn (s : State) : State :=
  let s1 := eachFittedSpot spotGainsEnable { s with fe := true, rearmRun := 0 }
  settle (eachComp (fun c s => compAdvance c (pursueDirAll c s))
    (eachSpot (fun i s => advanceSpot i (pursueSpotAll i s)) s1))

/-- R158: the ESD input has become active. -/
def esdBecomesActive (s : State) : State := if s.fe then settle (enableOff s) else s

/-- R156: the raw ESD level changes. -/
def changeEsdLevel (high : Bool) (s : State) : State :=
  if s.esdHigh = high then s
  else
    let s1 := { s with esdHigh := high }
    if s1.esdActive then esdBecomesActive s1 else s1

/-- R163: one beat, by the table of the rule: with the rearm run as it stands it is counted, or field enable turns on. The table's
BEAT and AUTO_REARM are both one beat (log entry 12). -/
def takeBeat (s : State) : State :=
  let s1 := { s with beatTimer := .running Config.ticksPerSecond }
  if s1.fe then { s1 with rearmRun := 0 }
  else if s1.protection.autoRearm && !s1.esdActive then
    if s1.rearmRun + 1 ≥ s1.protection.rearmCount then enableOn { s1 with rearmRun := 0 }
    else { s1 with rearmRun := s1.rearmRun + 1 }
  else { s1 with rearmRun := 0 }

end Sys2Proof.Machine
end

