-- ==== Sys2Proof/Machine/Metering.lean ====
section
/-! DEFINITION. The meter block: pulses, litres and what becomes of them (R105 to R118). -/

namespace Sys2Proof.Machine

/-- A delivered total one litre on; past the end of R54's range the value is free (log entry 3). -/
def State.nextDelivered (s : State) (d : Word32) : Word32 :=
  if d = BitVec.allOnes 32 then Config.orderDeliveredPastRange s.freeCount else d + 1

/-- R66: the litre in the head order. -/
def creditOrder (i : SpotNo) (l : Liquid) (s : State) : State :=
  let s1 := (s.touchSpot i).modSpot i (Spot.modHead fun o =>
    { o with liquid := some { l with delivered := s.nextDelivered l.delivered } })
  if l.delivered = BitVec.allOnes 32 then s1.useFree else s1

/-- R87, R93: the litre in the vessel: its counter, and the order's entry or the cut rule. -/
def creditVessel (i : SpotNo) (tag : Word16) (v : VesselNo) (s : State) : State :=
  let s1 := s.modVessel v fun r => { r with counter := r.counter + 1 }
  match (s1.vessel v).remainder i tag with
  | some (_ + 1) => s1.modVessel v (Vessel.lower i tag 1)
  | _ => runCut v s1

/-- R66, R74, R109: the credit that brings delivered to the target decides TARGET. -/
def decideTarget (i : SpotNo) (s : State) : State :=
  match (s.spot i).head with
  | none => s
  | some h => match h.liquid with
    | none => s
    | some l =>
      if h.state ≠ .draining ∧ l.delivered.toNat = l.target then endHead i .target s else s

/-- R113: a credited litre restarts the running stall timer of a RUNNING head. -/
def restartStall (i : SpotNo) (s : State) : State :=
  if (s.spot i).headIs .running && (s.spot i).stall.isRunning then
    s.modSpot i fun sp => { sp with stall := .seconds sp.active.stall }
  else s

/-- R115, R116: a credited litre in the rate window, and the flow-high trip. -/
def countInWindow (i : SpotNo) (s : State) : State :=
  if (s.spot i).window.isRunning then
    let s1 := s.modSpot i fun sp => { sp with windowCount := sp.windowCount + 1 }
    if (s1.spot i).active.flowHigh < (s1.spot i).windowCount then
      enterIsolating .flowHigh .stopped (some .flowHigh) i s1
    else s1
  else s

/-- R109: a litre credited to the head order. -/
def creditLitre (i : SpotNo) (h : Order) (l : Liquid) (s : State) : State :=
  let s1 := (creditOrder i l s).modCarAt i fun c => { c with delivered := c.delivered + 1 }
  countInWindow i (restartStall i (decideTarget i (creditVessel i h.tag l.vessel s1)))

/-- R111, R112: a creep litre. -/
def creepLitre (i : SpotNo) (s : State) : State :=
  let s1 := s.modSpot i fun sp => if sp.creep < sp.active.creep then { sp with creep := sp.creep + 1 } else sp
  if (s1.spot i).active.creep ≤ (s1.spot i).creep then enterIsolating .creep .creep (some .creep) i s1 else s1

/-- R108: the states in which a litre past a shut liquid valve is creep. -/
def SpotState.countsCreep : SpotState → Bool
  | .connected | .staged | .held | .recovery => true
  | .vacant | .spotted | .proving | .transfer | .isolating | .stroking | .faulted => false

/-- R108: the disposal of one emitted litre. -/
def disposeLitre (i : SpotNo) (s : State) : State :=
  let sp := s.spot i
  let creep (s : State) : State :=
    if sp.liquid.isFault then s else if sp.state.countsCreep then creepLitre i s else s
  match sp.head with
  | none => creep s
  | some h => match h.liquid with
    | none => creep s
    | some l => if sp.liquid.passing then creditLitre i h l s else creep s

/-- R106: a litre is emitted: the remainder returns to 0 and the litre is disposed of at the same event. -/
def emitLitre (i : SpotNo) (s : State) : State :=
  settle (advanceSpot i (disposeLitre i (s.modSpot i fun sp => { sp with pulses := 0 })))

/-- R106: a meter pulse. -/
def takePulse (i : SpotNo) (s : State) : State :=
  if s.fittedSpot i then
    match s.divisor i with
    | none => s
    | some d =>
      if (s.spot i).pulses + 1 = d then emitLitre i s
      else s.modSpot i fun sp => { sp with pulses := sp.pulses + 1 }
  else s

/-- R106: the pulse that makes the litre whole, as the table's own row names it (log entry 12). -/
def takeLitre (i : SpotNo) (s : State) : State :=
  if s.fittedSpot i && (s.divisor i).isSome then emitLitre i s else s

end Sys2Proof.Machine
end

