-- ==== Sys2Proof/Machine/Profile.lean ====
section
/-! DEFINITION. The profile and setpoint store: sections, the lock, setpoints, commissioning and restart (R166 to R182). -/

namespace Sys2Proof.Machine

/-! ## Quiet, the lock and the sections -/

def SpotState.quiet : SpotState → Bool
  | .vacant | .spotted | .faulted => true
  | .proving | .connected | .staged | .transfer | .recovery | .held | .isolating | .stroking => false

/-- R173: the siding is quiet. -/
def State.quiet (s : State) : Bool :=
  (allSpots.all fun i => !s.fittedSpot i || (s.spot i).state.quiet)
    && allComps.all fun c => !s.fittedComp c || !((s.comp c).state == .proof || (s.comp c).state == .reversing)

/-- A section as a write carries it. -/
inductive Section where
  | site (p : Site)
  | spots (p : SpotsSection)
  | vessels (p : VesselsSection)
  | protection (p : Protection)
  deriving DecidableEq, Repr

/-- R171, step 1: the section a write names and carries, in range. -/
def sectionOf (sec : Byte) (fields : List Byte) : Option Section :=
  match sec.toNat with
  | 0 => (siteOf fields).map .site
  | 1 => (spotsOf fields).map .spots
  | 2 => (vesselsOf fields).map .vessels
  | 3 => (protectionOf fields).map .protection
  | _ => none

/-- R174: the write class. -/
def Section.isQuietClass : Section → Bool
  | .site _ | .spots _ | .vessels _ => true
  | .protection _ => false

/-- R175: the fields a lock level freezes in SITE. -/
def siteKept (level : Nat) (old new : Site) : Bool :=
  decide (level < 3) || (old.spots == new.spots && old.vessels == new.vessels && old.compressors == new.compressors
    && old.seats == new.seats)

def spotsKept (level : Nat) (old new : SpotsSection) : Bool :=
  (decide (level < 2) || old.strokes == new.strokes) && (decide (level < 3) || old.divisors == new.divisors)

def vesselsKept (level : Nat) (old new : VesselsSection) : Bool := decide (level < 3) || old == new

def protectionKept (level : Nat) (old new : Protection) : Bool :=
  (decide (level < 1) || (old.polarity == new.polarity && old.autoRearm == new.autoRearm
      && old.rearmCount == new.rearmCount && old.deadTime == new.deadTime))
    && (decide (level < 2) || (old.filters == new.filters && old.closed == new.closed))

/-- R175: the write changes no frozen field; a section not yet valid has nothing to keep. -/
def State.lockAllows (s : State) : Section → Bool
  | .site p => match s.profile.site with
    | some old => siteKept s.lock old p
    | none => true
  | .spots p => match s.profile.spots with
    | some old => spotsKept s.lock old p
    | none => true
  | .vessels p => match s.profile.vessels with
    | some old => vesselsKept s.lock old p
    | none => true
  | .protection p => match s.profile.protection with
    | some old => protectionKept s.lock old p
    | none => true

/-- R171, step 4: a car stands at a spot the write would leave unfitted. -/
def State.strands (s : State) : Section → Bool
  | .site p => allSpots.any fun i => decide (p.spots ≤ i.val) && (s.spot i).car.isSome
  | .spots _ | .vessels _ | .protection _ => false

/-- Was the section valid. -/
def State.sectionValid (s : State) : Section → Bool
  | .site _ => s.profile.site.isSome
  | .spots _ => s.profile.spots.isSome
  | .vessels _ => s.profile.vessels.isSome
  | .protection _ => s.profile.protection.isSome

def storeSection (w : Section) (s : State) : State :=
  match w with
  | .site p => { s with profile := { s.profile with site := some p } }
  | .spots p => { s with profile := { s.profile with spots := some p } }
  | .vessels p => { s with profile := { s.profile with vessels := some p } }
  | .protection p => { s with profile := { s.profile with protection := some p } }

def Profile.complete (p : Profile) : Bool := p.site.isSome && p.spots.isSome && p.vessels.isSome && p.protection.isSome

/-! ## What a write brings with it -/

/-- R142: the valves of a spot are supervised. -/
def State.supervisesSpot (s : State) (i : SpotNo) : Bool := s.fittedSpot i && s.profile.spots.isSome

def State.supervisesComp (s : State) (c : CompNo) : Bool := s.fittedComp c && s.profile.spots.isSome

/-- R142, R146: a spot taken up; a valve that becomes FAULT there is reported in the record's order. -/
def takeUpSpot (i : SpotNo) (s : State) : State :=
  let s1 := allValveNames.foldl (fun s n =>
    s.modSpot i fun sp => sp.setValve n ((sp.valve n).takeUp (s.strokeOf n))) s
  allValveNames.foldl (fun t n =>
    if ((s1.spot i).valve n).isFault && !((s.spot i).valve n).isFault then spotValveFault i n t else t) s1

/-- R142: the shut-since mark of a direction valve at take-up. -/
def Comp.markTakenUp (d : Direction) (k : Comp) : Comp :=
  k.setMark d (if (k.valve d).isShut then some 0 else none)

/-- R142, R147: a compressor taken up; a valve reported SHUT there sets its mark. -/
def takeUpComp (c : CompNo) (s : State) : State :=
  let s1 := s.modComp c fun k =>
    ((k.mapValves (Valve.takeUp s.strokeOfDirection)).markTakenUp .push).markTakenUp .draw
  allDirections.foldl (fun t d =>
    if ((s1.comp c).valve d).isFault && !((s.comp c).valve d).isFault then faultComp (.valve d) c t else t) s1

/-- R142: the valves of a spot whose supervision begins or ends at the write. -/
def superviseSpot (before : State) (i : SpotNo) (s : State) : State :=
  match before.supervisesSpot i, s.supervisesSpot i with
  | false, true => takeUpSpot i s
  | true, false => s.modSpot i (Spot.mapValves Valve.release)
  | _, _ => s

/-- R142: the valves of a compressor whose supervision begins at the write. -/
def superviseComp (before : State) (c : CompNo) (s : State) : State :=
  if !before.supervisesComp c && s.supervisesComp c then takeUpComp c s else s

/-- R142: the valves of a compressor whose supervision ends at the write. They are released before the compressor itself stops,
so their states stay as they stood. -/
def releaseComp (before : State) (c : CompNo) (s : State) : State :=
  if before.supervisesComp c && !s.supervisesComp c then s.modComp c (Comp.mapValves Valve.release) else s

/-- R120: a compressor removed by the write stops, unless it is FAULTED. -/
def refitComp (before : State) (c : CompNo) (s : State) : State :=
  if before.fittedComp c && !s.fittedComp c && (s.comp c).state != .faulted then stopComp c s else s

/-- R120: a compressor the write makes fitted faults on a standing fault input. -/
def greetComp (before : State) (c : CompNo) (s : State) : State :=
  if !before.fittedComp c && s.fittedComp c && (s.comp c).faultInput.active then faultComp .faultInput c s else s

/-- R107: a changed meter divisor clears its spot's pulse remainder. -/
def clearRemainder (before : State) (i : SpotNo) (s : State) : State :=
  if s.divisor i = before.divisor i then s else s.modSpot i fun sp => { sp with pulses := 0 }

/-- R84: a vessel whose grade or capacity changes loses its gauge. -/
def loseGauge (before : State) (v : VesselNo) (s : State) : State :=
  if s.vesselData v = before.vesselData v then s
  else s.modVessel v fun r => { r with gaugedFree := 0, stamp := r.counter }

/-- R122, R156, R170: a PROTECTION write judges the ESD input afresh and, where it changes the dead-time, the awaited guards. The
rules name no order between the two; the ESD input first is the model's choice (log entry 37). -/
def rejudge (before s : State) : State :=
  let s1 := if s.esdActive then esdBecomesActive s else s
  if s.protection.deadTime = before.protection.deadTime then s1 else eachFittedComp compPassGuard s1

/-- What the values of the section bring with them at the write (R168 to R170). -/
def takeSection (before : State) (w : Section) (s : State) : State :=
  match w with
  | .site _ =>
    eachComp (superviseComp before) (eachSpot (superviseSpot before) (eachComp (greetComp before)
      (eachComp (refitComp before) (eachComp (releaseComp before) s))))
  | .spots _ =>
    eachComp (superviseComp before) (eachSpot (superviseSpot before) (eachSpot (clearRemainder before) s))
  | .vessels _ => allVessels.foldl (fun s v => loseGauge before v s) s
  | .protection _ => rejudge before s

/-- R167, R171, R174: the siding state after a write. -/
def sidingAfterWrite (w : Section) (s : State) : State :=
  match s.siding with
  | .unconfigured => if s.profile.complete then { s with siding := .configured } else s
  | .operating => if w.isQuietClass then { s with siding := .configured } else s
  | .configured | .commissioning => s

/-- R171: an accepted write, as one event; the siding's flag is set whether or not any field changed. -/
def acceptWrite (w : Section) (s : State) : State :=
  settle (takeSection s w (sidingAfterWrite w (storeSection w s))).flagSiding

/-! ## The profile requests -/

/-- WRITE PROFILE (R171). -/
def answerWriteProfile (sec : Byte) (fields : List Byte) (s : State) : State × Reply :=
  match sectionOf sec fields with
  | none => (s, .bare .range)
  | some w =>
    if !s.lockAllows w then (s, .bare .locked)
    else if w.isQuietClass && !s.quiet then (s, .bare .notQuiet)
    else if s.strands w then (s, .bare .occupied)
    else
      let t := acceptWrite w s
      (t, .ok [boolByte (s.sectionValid w), Layout.sidingState t.siding])

/-- R172: the PROTECTION layout in force; the polarity in force before the first valid write is no character of the list, so
its character is free (log entry 5). -/
def State.protectionLayout (s : State) : List Byte :=
  match s.profile.protection with
  | some p => Layout.protectionSection p
  | none => Config.absentCharacter :: (Layout.protectionSection .beforeWrite).tail

/-- READ PROFILE (R172). -/
def answerReadProfile (sec : Byte) (s : State) : State × Reply :=
  match sec.toNat with
  | 0 => (s, .ok (sec :: Layout.siteSection s.profile.site))
  | 1 => (s, .ok (sec :: Layout.spotsSection s.profile.spots))
  | 2 => (s, .ok (sec :: Layout.vesselsSection s.profile.vessels))
  | 3 => (s, .ok (sec :: s.protectionLayout))
  | _ => (s, .bare .range)

/-- SET LOCK (R176). -/
def answerSetLock (level : Byte) (s : State) : State × Reply :=
  if 3 < level.toNat then (s, .bare .range)
  else if s.lockTaken then (s, { status := .once, body := nat8 s.lock })
  else ({ s with lock := level.toNat, lockTaken := true }, .ok [level])

/-- STAGE SETPOINTS (R177). -/
def answerStageSetpoints (flowHigh : Word16) (window : Byte) (stall recovery creep : Word16) (s : State) :
    State × Reply :=
  match setpointsOf flowHigh window stall recovery creep with
  | none => (s, .bare .range)
  | some p =>
    ({ s with staged := p, stagedVersion := s.stagedVersion + 1 },
     .ok (Layout.setpoints s.staged ++ chars16 s.stagedVersion ++ chars16 (s.stagedVersion + 1)))

/-- SETPOINT HOLD (R178). -/
def answerSetpointHold (value : Byte) (s : State) : State × Reply :=
  match boolOf value with
  | none => (s, .bare .range)
  | some b => ({ s with setpointHold := b }, .ok [boolByte s.setpointHold])

/-! ## Commissioning -/

/-- R49: a fitted spot's commissioning test. A bound spot with its shutoff valve in FAULT and hose pressure active meets the rule's
first two cases; hose pressure first is the model's choice (log entry 33). -/
def beginSpotTest (i : SpotNo) (s : State) : State :=
  let sp := s.spot i
  if sp.hose.active then
    endSpotTest i (shutAll i (s.modSpot i fun sp => { sp with state := .faulted, step := none, fault := some .pressure }))
  else if sp.car.isSome && sp.shutoff.isFault then endSpotTest i s
  else advanceSpot i (enterStroking i s)

/-- R135, R150: a fitted compressor's commissioning test. -/
def beginCompTest (c : CompNo) (s : State) : State :=
  if (s.comp c).faultInput.active then endCompTest c (faultComp .faultInput c s)
  else
    let s1 := enterProof c s
    match allDirections.find? fun d => ((s1.comp c).valve d).isFault with
    | some d => faultComp (.valve d) c s1
    | none => compAdvance c s1

/-- COMMISSION (R179). -/
def answerCommission (s : State) : State × Reply :=
  if s.siding ≠ .configured then (s, .bare .state)
  else if !s.fe then (s, .bare .fieldOff)
  else if !s.quiet then (s, .bare .notQuiet)
  else
    let s1 := { s with
      siding := .commissioning
      tests := { spots := allSpots.filter s.fittedSpot, comps := allComps.filter s.fittedComp } }
    let t := settle (settleTests (eachFittedComp beginCompTest (eachFittedSpot beginSpotTest s1)))
    (t, .ok ([Layout.sidingState t.siding] ++ nat8 t.tests.spots.length ++ nat8 t.tests.comps.length))

/-! ## Restart -/

/-- R53: the restart at one fitted spot. That the end of a stroke test stops the stroke timers of all its valves here, where R182
leaves all but the retesting records unchanged, is the model's choice (log entry 40). -/
def restartSpot (i : SpotNo) (s : State) : State :=
  match (s.spot i).state with
  | .proving => advanceSpot i (failProving .restart i s)
  | .connected | .staged | .transfer | .recovery | .held => advanceSpot i (enterIsolating .restart .restart none i s)
  | .stroking => failStroke false .restart i s
  | .vacant | .spotted | .isolating | .faulted => s

/-- R138: the restart at one fitted compressor. A proof that it ends stops both stroke timers: the model's choice (log entry 40). -/
def restartComp (c : CompNo) (s : State) : State :=
  if (s.comp c).state = .faulted ∧ (s.comp c).faultInput.active = true then s else haltComp false c s

/-- R104: every reservation list is emptied and every vessel's flag set. -/
def emptyReservations (s : State) : State :=
  let s1 := allVessels.foldl (fun s v => s.modVessel v fun r => { r with entries := [] }) s
  { s1 with changes := { s1.changes with vessels := BitVec.allOnes 6 } }

/-- R138: every fitted compressor's flag is set. -/
def flagComp (c : CompNo) (s : State) : State :=
  { s with changes := { s.changes with comps := s.changes.comps ||| BitVec.twoPow 2 c } }

/-- R182: the restart, as one event. -/
def restart (s : State) : State :=
  let s1 := emptyReservations { s with siding := .configured, tests := { spots := [], comps := [] }, grants := [] }
  let s2 := eachFittedComp (fun c s => flagComp c (restartComp c (s.modComp c fun k => { k with turning := none }))) s1
  (eachFittedSpot restartSpot s2).flagSiding

/-- RESTART SIDING (R182). -/
def answerRestart (s : State) : State × Reply :=
  if s.siding = .unconfigured then (s, .bare .notConfigured)
  else (restart s, .ok [Layout.sidingState s.siding])

end Sys2Proof.Machine
end

