-- ==== Sys2Proof/Machine/Cars.lean ====
section
/-! DEFINITION. The car table's requests (R16 to R22). A revision rises at the close of the event (R5), so a reply carries the
present revision plus one where the request changes the record. -/

namespace Sys2Proof.Machine

/-- R17, R22, R200: a refusal that carries the record's current revision. -/
def Reply.withRevision (st : Status) (c : Car) : Reply := { status := st, body := chars16 c.revision }

/-- ANNOUNCE (R16). -/
def answerAnnounce (mark : List Byte) (grade : Byte) (load : Word32) (s : State) : State × Reply :=
  if !markOk mark then (s, .bare .range)
  else match gradeOf grade with
    | none => (s, .bare .range)
    | some g =>
      if !litresOk load.toNat then (s, .bare .range)
      else if (s.holder mark).isSome then (s, .bare .duplicate)
      else match s.emptySlot with
        | none => (s, .bare .full)
        | some k =>
          let c : Car :=
            { mark, grade := g, load := load.toNat, phase := .announced, spot := none, hoses := false, delivered := 0,
              recovered := false, lastEnd := none, revision := 0 }
          ((s.modSlot k fun sl => { sl with car := some c }).flagSlot k,
           .ok (Layout.handle { slot := k, issue := (s.carSlot k).issue } ++ chars16 0))

/-- An optional operand judged by its owner: absent, or in range with its value, or out of range. -/
def judged {α β : Type} (f : α → Option β) : Option α → Option (Option β)
  | none => some none
  | some a => (f a).map some

def markOf (m : List Byte) : Option (List Byte) := if markOk m then some m else none
def loadOf (w : Word32) : Option Nat := if litresOk w.toNat then some w.toNat else none

/-- The new values an AMEND gives, in range. -/
structure Amendment where
  mark : Option (List Byte)
  grade : Option Grade
  load : Option Nat
  hoses : Option Bool
  deriving DecidableEq, Repr

/-- R17, step 3. -/
def amendmentOf (mark : Option (List Byte)) (grade : Option Byte) (load : Option Word32) (hoses : Option Byte) :
    Option Amendment :=
  match judged markOf mark, judged gradeOf grade, judged loadOf load, judged boolOf hoses with
  | some mark, some grade, some load, some hoses => some { mark, grade, load, hoses }
  | _, _, _, _ => none

/-- R17, step 4: every given field is amendable in the car's phase. -/
def Amendment.phaseAllows (a : Amendment) (c : Car) : Bool :=
  (a.mark.isNone || c.phase == .announced)
    && (a.grade.isNone || c.phase == .announced || c.phase == .placed)
    && (a.hoses.isNone || c.phase == .placed || (c.phase == .served && c.spot.isSome))

/-- R17, step 5: hoses confirmed is given only for a car at a SPOTTED spot. -/
def State.hosesAmendable (s : State) (a : Amendment) (c : Car) : Bool :=
  a.hoses.isNone || match c.spot with
    | some i => (s.spot i).state == .spotted
    | none => false

/-- R17, step 6: another record holds the given mark. -/
def State.markTaken (s : State) (a : Amendment) (k : SlotNo) : Bool :=
  match a.mark with
  | none => false
  | some m => allSlots.any fun j => decide (j ≠ k) && match s.car j with
      | some c => c.mark == m
      | none => false

/-- R17, step 7: the given load is below the committed litres. -/
def State.loadTooLow (s : State) (a : Amendment) (c : Car) : Bool :=
  match a.load with
  | none => false
  | some n => decide (n < s.committed c)

/-- R18: the record after the AMEND. -/
def Amendment.apply (a : Amendment) (c : Car) : Car :=
  { c with mark := a.mark.getD c.mark, grade := a.grade.getD c.grade, load := a.load.getD c.load,
           hoses := a.hoses.getD c.hoses }

/-- R18, R200: the previous value of each field named. -/
def Amendment.previous (a : Amendment) (c : Car) : List Byte :=
  Layout.optional (fun _ => Layout.text c.mark) a.mark ++ Layout.optional (fun _ => [Layout.grade c.grade]) a.grade
    ++ Layout.optional (fun _ => nat32 c.load) a.load ++ Layout.optional (fun _ => [boolByte c.hoses]) a.hoses

/-- AMEND (R17, R18). -/
def answerAmend (slot issue : Byte) (expected : Word16) (mark : Option (List Byte)) (grade : Option Byte)
    (load : Option Word32) (hoses : Option Byte) (s : State) : State × Reply :=
  match s.resolve slot issue with
  | .error st => (s, .bare st)
  | .ok (k, c) =>
    if expected ≠ c.revision then (s, .withRevision .stale c)
    else match amendmentOf mark grade load hoses with
      | none => (s, .withRevision .range c)
      | some a =>
        if !a.phaseAllows c then (s, .withRevision .phase c)
        else if !s.hosesAmendable a c then (s, .withRevision .state c)
        else if s.markTaken a k then (s, .withRevision .duplicate c)
        else if s.loadTooLow a c then (s, .withRevision .allowance c)
        else if a = { mark := none, grade := none, load := none, hoses := none } then
          (s, .ok (a.previous c ++ chars16 c.revision))
        else (s.modCar k a.apply, .ok (a.previous c ++ chars16 (c.revision + 1)))

/-- R19: the spot view of a bound car. -/
def State.viewOf (s : State) (c : Car) : Option (SpotState × HoldSet) :=
  c.spot.map fun i => ((s.spot i).state, (s.spot i).holds)

/-- READ CAR (R19). -/
def answerReadCar (slot issue : Byte) (s : State) : State × Reply :=
  match s.resolve slot issue with
  | .error st => (s, .bare st)
  | .ok (k, c) => (s, .ok (Layout.car { slot := k, issue } c (s.viewOf c)))

/-- FIND (R19). -/
def answerFind (mark : List Byte) (s : State) : State × Reply :=
  if !markOk mark then (s, .bare .range)
  else match s.holder mark with
    | none => (s, .bare .noRecord)
    | some k => match s.car k with
      | none => (s, .bare .noRecord)
      | some c => (s, .ok (Layout.car { slot := k, issue := (s.carSlot k).issue } c (s.viewOf c)))

/-- LIST CARS (R20). -/
def answerListCars (s : State) : State × Reply :=
  let held := allSlots.filter fun k => (s.car k).isSome
  (s, .ok (nat8 held.length ++ held.flatMap fun k => Layout.handle { slot := k, issue := (s.carSlot k).issue }))

/-- R22: a car that may be retired. -/
def Car.releasable (c : Car) : Bool := c.phase == .announced || (c.phase == .served && c.spot.isNone)

/-- RELEASE (R22). -/
def answerRelease (slot issue : Byte) (expected : Word16) (s : State) : State × Reply :=
  match s.resolve slot issue with
  | .error st => (s, .bare st)
  | .ok (k, c) =>
    if expected ≠ c.revision then (s, .withRevision .stale c)
    else if !c.releasable then (s, .withRevision .phase c)
    else ((s.modSlot k fun sl => { issue := sl.issue + 1, car := none }).flagSlot k,
          .ok (Layout.text c.mark ++ chars32 c.delivered ++ [boolByte c.recovered]
            ++ Layout.optional Layout.lastEnd c.lastEnd))

end Sys2Proof.Machine
end

