-- ==== Sys2Proof/Machine/SpotRequests.lean ====
section
/-! DEFINITION. The requests that name a spot, but for its orders (R24, R27 to R29, R38, R39, R42, R47, R52), and the resume
that RESUME and pendant CLEAR share (R39, R40). -/

namespace Sys2Proof.Machine

/-- R24: the checks of every request that names a spot. -/
def withSpot (place : Byte) (s : State) (f : SpotNo → State × Reply) : State × Reply :=
  match s.namedSpot place with
  | .error st => (s, .bare st)
  | .ok i => f i

/-- The car bound to a spot. -/
def State.boundCar (s : State) (i : SpotNo) : Option Car :=
  match (s.spot i).car with
  | some h => s.car h.slot
  | none => none

/-- R10, R27: the binding. -/
def bind (i : SpotNo) (k : SlotNo) (issue : Byte) (s : State) : State :=
  (s.modSpot i fun sp => { sp with state := .spotted, car := some { slot := k, issue } }).modCar k fun c =>
    if c.phase = .announced then { c with phase := .placed, spot := some i }
    else { c with spot := some i, hoses := false }

/-- SPOT (R27). -/
def answerSpot (slot issue place : Byte) (s : State) : State × Reply :=
  match s.resolve slot issue with
  | .error st => (s, .bare st)
  | .ok (k, c) => withSpot place s fun i =>
    if (s.spot i).car.isSome then (s, .bare .occupied)
    else if (s.spot i).state ≠ .vacant then (s, .bare .state)
    else if !c.releasable then (s, .bare .phase)
    else (bind i k issue s, .ok (chars16 (c.revision + 1)))

/-- R11, R28: the unbinding. -/
def unbind (i : SpotNo) (s : State) : State :=
  (s.modCarAt i fun c =>
      { c with spot := none, hoses := false, phase := if c.phase = .placed then .announced else c.phase }).modSpot i
    fun sp => { sp with car := none, state := if sp.state = .spotted then .vacant else sp.state }

/-- UNSPOT (R28). -/
def answerUnspot (place : Byte) (s : State) : State × Reply :=
  withSpot place s fun i =>
    if (s.spot i).state = .spotted ∨ ((s.spot i).state = .faulted ∧ (s.spot i).car.isSome = true) then
      (unbind i s, .okBare)
    else (s, .bare .state)

/-- R29: proving begins. -/
def startProving (i : SpotNo) (s : State) : State :=
  advanceSpot i (commandSpot i .shutoff .toOpen
    (s.modSpot i fun sp => { sp with state := .proving, step := some .shutoffOpening }))

/-- OPEN (R29). -/
def answerOpen (place : Byte) (s : State) : State × Reply :=
  withSpot place s fun i =>
    let sp := s.spot i
    if s.siding ≠ .operating then (s, .bare .notOperating)
    else if !s.fe then (s, .bare .fieldOff)
    else if sp.state ≠ .spotted then (s, .bare .state)
    else match s.boundCar i with
      | none => (s, .bare .state)
      | some c =>
        if !c.hoses then (s, .bare .noHoses)
        else if !sp.bond.active then (s, .bare .noBond)
        else if sp.hose.active then (s, .bare .hosePressure)
        else (startProving i s, .okBare)

/-- R42: the states in which ISOLATE acts. -/
def SpotState.isolable : SpotState → Bool
  | .proving | .connected | .staged | .transfer | .recovery | .held => true
  | .vacant | .spotted | .isolating | .stroking | .faulted => false

/-- R42: one spot isolated on request. -/
def isolateSpot (i : SpotNo) (s : State) : State :=
  advanceSpot i (if (s.spot i).state = .proving then failProving .stopped i s
    else enterIsolating .stopped .stopped none i s)

/-- ISOLATE (R42). -/
def answerIsolate (place : Byte) (s : State) : State × Reply :=
  withSpot place s fun i =>
    if (s.spot i).state.isolable then (settle (isolateSpot i s), .okBare) else (s, .bare .state)

/-- ISOLATE ALL (R42). -/
def answerIsolateAll (s : State) : State × Reply :=
  if s.siding = .unconfigured then (s, .bare .notConfigured)
  else
    let acted := allSpots.filter fun i => s.fittedSpot i && (s.spot i).state.isolable
    (settle (acted.foldl (fun s i => isolateSpot i s) s),
     .ok (nat8 acted.length ++ acted.map fun i => Layout.byteOf i.val))

/-- CLEAR HOLD (R38). -/
def answerClearHold (place reason : Byte) (s : State) : State × Reply :=
  withSpot place s fun i =>
    match holdReasonOf reason with
    | none => (s, .bare .range)
    | some r =>
      if (s.spot i).state ≠ .held then (s, .bare .state)
      else if r = .esd ∨ r = .vesselTrip then (s, .bare .state)
      else (removeHold i r s, .ok [Layout.holdSet ((s.spot i).holds.put r false)])

/-- R39, R40: a held spot resumes. -/
def resumeSpot (i : SpotNo) (s : State) : State :=
  let s1 := s.modSpot i fun sp =>
    if sp.orders.isEmpty then { sp with state := .connected, pulses := 0 } else { sp with state := .staged }
  settle (advanceSpot i (commandSpot i .shutoff .toOpen s1))

/-- RESUME (R39). The reply carries the spot's state after the whole event (log entry 17). -/
def answerResume (place : Byte) (s : State) : State × Reply :=
  withSpot place s fun i =>
    let sp := s.spot i
    if sp.state ≠ .held then (s, .bare .state)
    else if !sp.holds.isEmpty then (s, { status := .holdsRemain, body := [Layout.holdSet sp.holds] })
    else if sp.headIs .draining then (s, .bare .state)
    else
      let t := resumeSpot i s
      (t, .ok [Layout.spotState (t.spot i).state])

/-- STROKE SPOT (R47). -/
def answerStrokeSpot (place : Byte) (s : State) : State × Reply :=
  withSpot place s fun i =>
    let sp := s.spot i
    if s.siding ≠ .operating then (s, .bare .notOperating)
    else if !s.fe then (s, .bare .fieldOff)
    else if !sp.state.quiet then (s, .bare .state)
    else if sp.hose.active then (s, .bare .hosePressure)
    else if sp.car.isSome && sp.shutoff.isFault then (s, .bare .occupied)
    else (advanceSpot i (enterStroking i s), .okBare)

/-- READ SPOT (R52). -/
def answerReadSpot (place : Byte) (s : State) : State × Reply :=
  withSpot place s fun i => (s, .ok (Layout.spot i (s.spotView i)))

end Sys2Proof.Machine
end

