-- ==== Sys2Proof/Machine/OrderRequests.lean ====
section
/-! DEFINITION. PLACE ORDER, TRIM and CANCEL ORDER (R57 to R62, R77, R78). -/

namespace Sys2Proof.Machine

/-- A vessel as PLACE ORDER names it. -/
inductive VesselChoice where
  | named (b : Byte)
  | any
  deriving DecidableEq, Repr

/-- R199: 0 to 5 name a vessel, 255 is ANY, and 6 to 254 are refused RANGE where R59 judges the number. -/
def vesselChoice (b : Byte) : VesselChoice := if b = 255 then .any else .named b

/-- The arguments of a LIQUID order. -/
structure LiquidRequest where
  target : Nat
  vessel : VesselChoice
  deriving DecidableEq, Repr

/-- A PLACE ORDER in range by R57, step 5; a RECOVERY order has no liquid arguments. -/
structure OrderRequest where
  tag : Word16
  liquid : Option LiquidRequest
  closeAfter : Bool
  deriving DecidableEq, Repr

/-- R57, step 5. -/
def orderRequestOf (tag : Word16) (kind : Byte) (target : Option Word32) (vessel : Option Byte) (closeAfter : Byte) :
    Option OrderRequest :=
  match orderKindOf kind, boolOf closeAfter, target, vessel with
  | some .liquid, some closeAfter, some t, some v =>
    if litresOk t.toNat then
      some { tag, liquid := some { target := t.toNat, vessel := vesselChoice v }, closeAfter }
    else none
  | some .recovery, some closeAfter, none, none => some { tag, liquid := none, closeAfter }
  | _, _, _, _ => none

/-- R57, step 2: the states in which orders are placed. -/
def SpotState.takesOrders : SpotState → Bool
  | .connected | .staged | .transfer | .recovery | .held => true
  | .vacant | .spotted | .proving | .isolating | .stroking | .faulted => false

/-- R59: the vessel checks of a named vessel. -/
def State.chooseNamed (s : State) (b : Byte) (g : Grade) (target : Nat) : Except Status VesselNo :=
  match finOf 6 b with
  | none => .error .range
  | some v =>
    if !s.fittedVessel v then .error .range
    else if (s.vessel v).service = .outOfService then .error .service
    else if (s.vesselData v).map (·.grade) ≠ some g then .error .grade
    else if (s.vessel v).freeUnreserved < target then .error .ullage
    else .ok v

/-- R60: fitted, IN_SERVICE and of the car's grade. -/
def State.suits (s : State) (g : Grade) (v : VesselNo) : Bool :=
  s.fittedVessel v && (s.vessel v).service == .inService && (s.vesselData v).map (·.grade) == some g

/-- R60: the largest free unreserved ullage, the lowest number on a tie. -/
def State.roomiest (s : State) : List VesselNo → Option VesselNo
  | [] => none
  | v :: rest => match s.roomiest rest with
    | none => some v
    | some w => if (s.vessel w).freeUnreserved ≤ (s.vessel v).freeUnreserved then some v else some w

/-- R60: the vessel ANY chooses. -/
def State.chooseAny (s : State) (g : Grade) (target : Nat) : Except Status VesselNo :=
  if !allVessels.any (s.suits g) then .error .grade
  else match s.roomiest (allVessels.filter fun v => s.suits g v && !(s.vessel v).trip.active) with
    | none => .error .ullage
    | some v => if (s.vessel v).freeUnreserved < target then .error .ullage else .ok v

/-- R58 to R60: the checks of a LIQUID order and the vessel it gets. -/
def State.judgeLiquid (s : State) (c : Car) (l : LiquidRequest) : Except Status VesselNo :=
  if c.load + s.site (·.overAllowance) < s.committed c + l.target then .error .allowance
  else match l.vessel with
    | .named b => s.chooseNamed b c.grade l.target
    | .any => s.chooseAny c.grade l.target

/-- R61, R62: the order is appended, its reservation first, and becomes head where the queue was empty. -/
def placeOrder (i : SpotNo) (r : OrderRequest) (l : Option Liquid) (s : State) : State :=
  let s1 := match l with
    | some l => (s.touchVessel l.vessel).modVessel l.vessel (Vessel.reserve i r.tag l.target)
    | none => s
  let o : Order := { tag := r.tag, liquid := l, closeAfter := r.closeAfter, state := .queued, reason := none }
  let s2 := (s1.touchSpot i).modSpot i fun sp => { sp with orders := sp.orders ++ [o] }
  settle (advanceSpot i (if (s.spot i).orders.isEmpty then becomeHead i s2 else s2))

/-- R61: the DONE reply, from the state after the event. An order that has left at its own placement has no state and no
position: those two characters are free (log entry 4). -/
def placedReply (i : SpotNo) (r : OrderRequest) (l : Option Liquid) (t : State) : State × Reply :=
  let vessel := Layout.optional (fun l : Liquid => [Layout.byteOf l.vessel.val]) l
  match (t.spot i).order r.tag with
  | some o =>
    (t, .ok ([Layout.orderState o.state]
      ++ nat8 ((t.spot i).orders.findIdx (fun p => p.tag == r.tag) + 1) ++ vessel
      ++ Layout.optional nat32 (t.remainder i o)))
  | none =>
    (t.useFree, .ok ([Config.leftOrderState t.freeCount, Config.leftOrderPosition t.freeCount] ++ vessel
      ++ Layout.optional nat32 none))

/-- PLACE ORDER (R57 to R62). -/
def answerPlaceOrder (place : Byte) (tag : Word16) (kind : Byte) (target : Option Word32) (vessel : Option Byte)
    (closeAfter : Byte) (s : State) : State × Reply :=
  withSpot place s fun i =>
    let sp := s.spot i
    if s.siding ≠ .operating then (s, .bare .notOperating)
    else if !sp.state.takesOrders then (s, .bare .state)
    else if Config.queueDepth ≤ sp.orders.length then (s, .bare .queueFull)
    else if sp.hasTag tag then (s, .bare .duplicate)
    else match orderRequestOf tag kind target vessel closeAfter with
      | none => (s, .bare .range)
      | some r => match r.liquid with
        | none => placedReply i r none (placeOrder i r none s)
        | some lr => match s.boundCar i with
          | none => (s, .bare .state)
          | some c => match s.judgeLiquid c lr with
            | .error st => (s, .bare st)
            | .ok v =>
              let l : Liquid := { target := lr.target, vessel := v, delivered := 0 }
              placedReply i r (some l) (placeOrder i r (some l) s)

/-- R77: the trim itself, before the end it may decide. -/
def applyTrim (i : SpotNo) (tag : Word16) (l : Liquid) (target : Nat) (s : State) : State :=
  (((s.touchSpot i).touchVessel l.vessel).modSpot i
    (Spot.modOrder tag fun o => { o with liquid := some { l with target } })).modVessel l.vessel
      (Vessel.lower i tag (l.target - target))

/-- TRIM (R77). -/
def answerTrim (place : Byte) (tag : Word16) (target : Word32) (s : State) : State × Reply :=
  withSpot place s fun i =>
    match (s.spot i).order tag with
    | none => (s, .bare .noRecord)
    | some o => match o.liquid with
      | none => (s, .bare .state)
      | some l =>
        if o.state = .draining then (s, .bare .state)
        else if target.toNat < 1 ∨ l.target ≤ target.toNat then (s, .bare .range)
        else
          let s1 := applyTrim i tag l target.toNat s
          let t := settle (advanceSpot i
            (if target.toNat ≤ l.delivered.toNat then endOrder i tag .trimmed s1 else s1))
          (t, .ok (nat32 l.target ++ chars32 target
            ++ nat32 (((s1.vessel l.vessel).remainder i tag).getD Config.absentLitres)
            ++ Layout.optional (fun p : Order => [Layout.orderState p.state]) ((t.spot i).order tag)))

/-- CANCEL ORDER (R78). -/
def answerCancelOrder (place : Byte) (tag : Word16) (s : State) : State × Reply :=
  withSpot place s fun i =>
    match (s.spot i).order tag with
    | none => (s, .bare .noRecord)
    | some o =>
      if o.state = .draining then (s, .bare .state)
      else
        let t := settle (advanceSpot i (endOrder i tag .cancelled s))
        (t, .ok (Layout.optional (fun p : Order => [Layout.orderState p.state]) ((t.spot i).order tag)))

end Sys2Proof.Machine
end

