-- ==== Sys2Proof/Machine/PlantRequests.lean ====
section
/-! DEFINITION. The requests to the vessel table (R85, R88, R89, R98, R103), the compressors (R120, R134, R139), the protection
block (R162), and READ SIDING and TAKE CHANGES (R196, R197). -/

namespace Sys2Proof.Machine

/-- R85: the checks of every request that names a vessel. -/
def withVessel (b : Byte) (s : State) (f : VesselNo → State × Reply) : State × Reply :=
  match s.namedVessel b with
  | .error st => (s, .bare st)
  | .ok v => f v

/-- R120: the checks of every request that names a compressor. -/
def withComp (b : Byte) (s : State) (f : CompNo → State × Reply) : State × Reply :=
  match s.namedComp b with
  | .error st => (s, .bare st)
  | .ok c => f c

/-- A vessel's capacity (R83); a fitted vessel has one. -/
def State.capacity (s : State) (v : VesselNo) : Nat :=
  match s.vesselData v with
  | some d => d.capacity
  | none => 0

/-- GAUGE (R88, R89). -/
def answerGauge (vessel : Byte) (free stamp : Word32) (s : State) : State × Reply :=
  withVessel vessel s fun v =>
    let r := s.vessel v
    if s.capacity v < free.toNat then (s, { status := .range, body := chars32 r.counter })
    else if Config.stampWindow < (r.counter - stamp).toNat then (s, { status := .badStamp, body := chars32 r.counter })
    else
      let s1 := (s.touchVessel v).modVessel v fun r => { r with gaugedFree := free.toNat, stamp := stamp }
      let cut := cutResult v s1
      (settle (runCut v s1),
       .ok (nat32 r.gaugedFree ++ chars32 r.stamp ++ chars32 r.counter ++ nat32 (s1.vessel v).available
         ++ nat32 cut.reserved ++ nat32 cut.litres ++ nat8 cut.ended))

/-- SET VESSEL SERVICE (R98). -/
def answerSetVesselService (vessel service : Byte) (s : State) : State × Reply :=
  withVessel vessel s fun v =>
    let r := s.vessel v
    match serviceOf service with
    | none => (s, .bare .range)
    | some sv =>
      if sv = .outOfService ∧ r.entries ≠ [] then (s, .bare .reserved)
      else (s.modVessel v fun r => { r with service := sv }, .ok [Layout.service r.service])

/-- READ VESSEL (R103). -/
def answerReadVessel (vessel : Byte) (s : State) : State × Reply :=
  withVessel vessel s fun v =>
    let r := s.vessel v
    (s, .ok (Layout.vessel v (s.vesselView v) r.available r.reserved r.freeUnreserved))

/-- CLEAR COMPRESSOR (R134). -/
def answerClearCompressor (compressor : Byte) (s : State) : State × Reply :=
  withComp compressor s fun c =>
    let k := s.comp c
    if k.state ≠ .faulted ∨ k.faultInput.active = true ∨ k.push.isFault = true ∨ k.draw.isFault = true then
      (s, .bare .state)
    else (settle (pursueDirAll c (s.modComp c fun k => { k with state := .stopped, dir := none })), .okBare)

/-- READ COMPRESSOR (R139). -/
def answerReadCompressor (compressor : Byte) (s : State) : State × Reply :=
  withComp compressor s fun c => (s, .ok (Layout.comp c (s.compView c)))

/-- REARM (R162). -/
def answerRearm (s : State) : State × Reply :=
  if s.esdActive then (s, .bare .esdActive)
  else if s.fe then (s, .ok [boolByte s.fe])
  else
    let t := enableOn s
    (t, .ok [boolByte t.fe])

/-- READ SIDING (R197). -/
def answerReadSiding (s : State) : State × Reply :=
  (s, .ok (Layout.siding s.sidingView s.link.form s.link.unit))

/-- TAKE CHANGES (R196). -/
def answerTakeChanges (s : State) : State × Reply :=
  ({ s with changes := .none }, .ok (Layout.changes s.changes))

end Sys2Proof.Machine
end

