-- ==== Sys2Proof/Machine/Wire.lean ====
section
/-! DEFINITION. The request codes and bodies of spec 11, section 11.2, as characters: what a request spells, and how the link
counts and reads a body (R188, R189, R199). -/

namespace Sys2Proof.Machine

/-! ## Writing -/

/-- Section 11.2: the code of a request; 0, which no request has, for a command that is none. -/
def code : Instr → Byte
  | .announce .. => 1 | .amend .. => 2 | .readCar .. => 3 | .find .. => 4 | .listCars .. => 5 | .release .. => 6
  | .spot .. => 7 | .unspot .. => 8 | .openSpot .. => 9 | .isolate .. => 10 | .resume .. => 11 | .isolateAll .. => 12
  | .clearHold .. => 13 | .strokeSpot .. => 14 | .readSpot .. => 15 | .placeOrder .. => 16 | .trim .. => 17
  | .cancelOrder .. => 18 | .gauge .. => 19 | .setVesselService .. => 20 | .readVessel .. => 21
  | .clearCompressor .. => 22 | .readCompressor .. => 23 | .rearm .. => 24 | .writeProfile .. => 25
  | .readProfile .. => 26 | .setLock .. => 27 | .stageSetpoints .. => 28 | .setpointHold .. => 29 | .commission .. => 30
  | .restartSiding .. => 31 | .readSiding .. => 32 | .takeChanges .. => 33 | .fetch .. => 34
  | .unknownRequest _ c => c
  | _ => 0

/-- Section 11.2: the characters of a request's body, the unit address apart. -/
def body : Instr → List Byte
  | .announce _ mark grade load => Layout.text mark ++ [grade] ++ chars32 load
  | .amend _ slot issue expected mark grade load hoses =>
    [slot, issue] ++ chars16 expected ++ Layout.optional Layout.text mark ++ Layout.optional (fun b => [b]) grade
      ++ Layout.optional chars32 load ++ Layout.optional (fun b => [b]) hoses
  | .readCar _ slot issue => [slot, issue]
  | .find _ mark => Layout.text mark
  | .release _ slot issue expected => [slot, issue] ++ chars16 expected
  | .spot _ slot issue place => [slot, issue, place]
  | .unspot _ place | .openSpot _ place | .isolate _ place | .resume _ place | .strokeSpot _ place
  | .readSpot _ place => [place]
  | .clearHold _ place reason => [place, reason]
  | .placeOrder _ place tag kind target vessel closeAfter =>
    [place] ++ chars16 tag ++ [kind] ++ Layout.optional chars32 target ++ Layout.optional (fun b => [b]) vessel
      ++ [closeAfter]
  | .trim _ place tag target => [place] ++ chars16 tag ++ chars32 target
  | .cancelOrder _ place tag => [place] ++ chars16 tag
  | .gauge _ vessel free stamp => [vessel] ++ chars32 free ++ chars32 stamp
  | .setVesselService _ vessel service => [vessel, service]
  | .readVessel _ vessel => [vessel]
  | .clearCompressor _ c | .readCompressor _ c => [c]
  | .writeProfile _ sec fields => sec :: fields
  | .readProfile _ sec => [sec]
  | .setLock _ level => [level]
  | .stageSetpoints _ flowHigh window stall recovery creep =>
    chars16 flowHigh ++ [window] ++ chars16 stall ++ chars16 recovery ++ chars16 creep
  | .setpointHold _ value => [value]
  | _ => []

/-- The way a request came. -/
def route : Instr → Via
  | .announce v .. | .amend v .. | .readCar v .. | .find v .. | .listCars v | .release v .. | .spot v .. | .unspot v ..
  | .openSpot v .. | .isolate v .. | .resume v .. | .isolateAll v | .clearHold v .. | .strokeSpot v .. | .readSpot v ..
  | .placeOrder v .. | .trim v .. | .cancelOrder v .. | .gauge v .. | .setVesselService v .. | .readVessel v ..
  | .clearCompressor v .. | .readCompressor v .. | .rearm v | .writeProfile v .. | .readProfile v .. | .setLock v ..
  | .stageSetpoints v .. | .setpointHold v .. | .commission v | .restartSiding v | .readSiding v | .takeChanges v
  | .fetch v | .unknownRequest v _ => v
  | _ => .clocked

/-- R189: a known request code. -/
def knownCode (c : Byte) : Bool := decide (1 ≤ c.toNat) && decide (c.toNat ≤ 34)

/-- R188: the codes of the reading kind. -/
def readingCode (c : Byte) : Bool :=
  c == 3 || c == 4 || c == 5 || c == 15 || c == 21 || c == 23 || c == 26 || c == 32 || c == 33 || c == 34

/-- R188: the codes of the writing kind. -/
def writingCode (c : Byte) : Bool := knownCode c && !readingCode c

/-! ## Reading -/

def readByte : List Byte → Option (Byte × List Byte)
  | b :: r => some (b, r)
  | [] => none

def readWord16 : List Byte → Option (Word16 × List Byte)
  | a :: b :: r => some (word16 a b, r)
  | _ => none

def readWord32 : List Byte → Option (Word32 × List Byte)
  | a :: b :: c :: d :: r => some (word32 a b c d, r)
  | _ => none

/-- A fixed count of characters (R189). -/
def readChars (n : Nat) (cs : List Byte) : Option (List Byte × List Byte) :=
  if n ≤ cs.length then some (cs.take n, cs.drop n) else none

/-- R189: a length character and then that many characters. -/
def readText : List Byte → Option (List Byte × List Byte)
  | n :: r => readChars n.toNat r
  | [] => none

/-- R189: a presence character, then the value when the character is not 0. -/
def readOptional {α : Type} (f : List Byte → Option (α × List Byte)) : List Byte → Option (Option α × List Byte)
  | p :: r => if p = 0 then some (none, r) else (f r).map fun q => (some q.1, q.2)
  | [] => none

/-- A body of one character. -/
def readOne (make : Byte → Instr) (cs : List Byte) : Option (Instr × List Byte) := do
  let (b, r) ← readByte cs
  some (make b, r)

/-- A body of two characters. -/
def readTwo (make : Byte → Byte → Instr) (cs : List Byte) : Option (Instr × List Byte) := do
  let (a, r) ← readByte cs
  let (b, r) ← readByte r
  some (make a b, r)

def parseAnnounce (v : Via) (cs : List Byte) : Option (Instr × List Byte) := do
  let (mark, r) ← readText cs
  let (grade, r) ← readByte r
  let (load, r) ← readWord32 r
  some (.announce v mark grade load, r)

def parseAmend (v : Via) (cs : List Byte) : Option (Instr × List Byte) := do
  let (slot, r) ← readByte cs
  let (issue, r) ← readByte r
  let (expected, r) ← readWord16 r
  let (mark, r) ← readOptional readText r
  let (grade, r) ← readOptional readByte r
  let (load, r) ← readOptional readWord32 r
  let (hoses, r) ← readOptional readByte r
  some (.amend v slot issue expected mark grade load hoses, r)

def parseFind (v : Via) (cs : List Byte) : Option (Instr × List Byte) := do
  let (mark, r) ← readText cs
  some (.find v mark, r)

def parseRelease (v : Via) (cs : List Byte) : Option (Instr × List Byte) := do
  let (slot, r) ← readByte cs
  let (issue, r) ← readByte r
  let (expected, r) ← readWord16 r
  some (.release v slot issue expected, r)

def parseSpot (v : Via) (cs : List Byte) : Option (Instr × List Byte) := do
  let (slot, r) ← readByte cs
  let (issue, r) ← readByte r
  let (place, r) ← readByte r
  some (.spot v slot issue place, r)

def parsePlaceOrder (v : Via) (cs : List Byte) : Option (Instr × List Byte) := do
  let (place, r) ← readByte cs
  let (tag, r) ← readWord16 r
  let (kind, r) ← readByte r
  let (target, r) ← readOptional readWord32 r
  let (vessel, r) ← readOptional readByte r
  let (closeAfter, r) ← readByte r
  some (.placeOrder v place tag kind target vessel closeAfter, r)

def parseTrim (v : Via) (cs : List Byte) : Option (Instr × List Byte) := do
  let (place, r) ← readByte cs
  let (tag, r) ← readWord16 r
  let (target, r) ← readWord32 r
  some (.trim v place tag target, r)

def parseCancelOrder (v : Via) (cs : List Byte) : Option (Instr × List Byte) := do
  let (place, r) ← readByte cs
  let (tag, r) ← readWord16 r
  some (.cancelOrder v place tag, r)

def parseGauge (v : Via) (cs : List Byte) : Option (Instr × List Byte) := do
  let (vessel, r) ← readByte cs
  let (free, r) ← readWord32 r
  let (stamp, r) ← readWord32 r
  some (.gauge v vessel free stamp, r)

/-- R199: the body of WRITE PROFILE ends after a section character that names no section. -/
def parseWriteProfile (v : Via) (cs : List Byte) : Option (Instr × List Byte) := do
  let (sec, r) ← readByte cs
  let (fields, r) ← readChars (sectionLength sec) r
  some (.writeProfile v sec fields, r)

def parseStageSetpoints (v : Via) (cs : List Byte) : Option (Instr × List Byte) := do
  let (flowHigh, r) ← readWord16 cs
  let (window, r) ← readByte r
  let (stall, r) ← readWord16 r
  let (recovery, r) ← readWord16 r
  let (creep, r) ← readWord16 r
  some (.stageSetpoints v flowHigh window stall recovery creep, r)

/-- R189: the request that a known code and the characters so far make whole, with what follows; none while the body is not
yet whole, and for an unknown code. -/
def parse (v : Via) (c : Byte) (cs : List Byte) : Option (Instr × List Byte) :=
  match c.toNat with
  | 1 => parseAnnounce v cs
  | 2 => parseAmend v cs
  | 3 => readTwo (.readCar v) cs
  | 4 => parseFind v cs
  | 5 => some (.listCars v, cs)
  | 6 => parseRelease v cs
  | 7 => parseSpot v cs
  | 8 => readOne (.unspot v) cs
  | 9 => readOne (.openSpot v) cs
  | 10 => readOne (.isolate v) cs
  | 11 => readOne (.resume v) cs
  | 12 => some (.isolateAll v, cs)
  | 13 => readTwo (.clearHold v) cs
  | 14 => readOne (.strokeSpot v) cs
  | 15 => readOne (.readSpot v) cs
  | 16 => parsePlaceOrder v cs
  | 17 => parseTrim v cs
  | 18 => parseCancelOrder v cs
  | 19 => parseGauge v cs
  | 20 => readTwo (.setVesselService v) cs
  | 21 => readOne (.readVessel v) cs
  | 22 => readOne (.clearCompressor v) cs
  | 23 => readOne (.readCompressor v) cs
  | 24 => some (.rearm v, cs)
  | 25 => parseWriteProfile v cs
  | 26 => readOne (.readProfile v) cs
  | 27 => readOne (.setLock v) cs
  | 28 => parseStageSetpoints v cs
  | 29 => readOne (.setpointHold v) cs
  | 30 => some (.commission v, cs)
  | 31 => some (.restartSiding v, cs)
  | 32 => some (.readSiding v, cs)
  | 33 => some (.takeChanges v, cs)
  | 34 => some (.fetch v, cs)
  | _ => none

end Sys2Proof.Machine
end

