-- ==== Sys2Proof/Machine/Link.lean ====
section
/-! DEFINITION. The command link: the form lock, partial requests, completion, surplus, discards, the reply buffer, FETCH and
transmission (R184 to R196), and the routing of each request to its owner. -/

namespace Sys2Proof.Machine

/-! ## The owners -/

/-- The owner's answer to a request: its effects and its reply. A command that is no request has none. -/
def answer (c : Instr) (s : State) : State × Reply :=
  match c with
  | .announce _ mark grade load => answerAnnounce mark grade load s
  | .amend _ slot issue expected mark grade load hoses => answerAmend slot issue expected mark grade load hoses s
  | .readCar _ slot issue => answerReadCar slot issue s
  | .find _ mark => answerFind mark s
  | .listCars _ => answerListCars s
  | .release _ slot issue expected => answerRelease slot issue expected s
  | .spot _ slot issue place => answerSpot slot issue place s
  | .unspot _ place => answerUnspot place s
  | .openSpot _ place => answerOpen place s
  | .isolate _ place => answerIsolate place s
  | .isolateAll _ => answerIsolateAll s
  | .clearHold _ place reason => answerClearHold place reason s
  | .resume _ place => answerResume place s
  | .strokeSpot _ place => answerStrokeSpot place s
  | .readSpot _ place => answerReadSpot place s
  | .placeOrder _ place tag kind target vessel closeAfter => answerPlaceOrder place tag kind target vessel closeAfter s
  | .trim _ place tag target => answerTrim place tag target s
  | .cancelOrder _ place tag => answerCancelOrder place tag s
  | .gauge _ vessel free stamp => answerGauge vessel free stamp s
  | .setVesselService _ vessel service => answerSetVesselService vessel service s
  | .readVessel _ vessel => answerReadVessel vessel s
  | .clearCompressor _ k => answerClearCompressor k s
  | .readCompressor _ k => answerReadCompressor k s
  | .rearm _ => answerRearm s
  | .writeProfile _ sec fields => answerWriteProfile sec fields s
  | .readProfile _ sec => answerReadProfile sec s
  | .setLock _ level => answerSetLock level s
  | .stageSetpoints _ flowHigh window stall recovery creep => answerStageSetpoints flowHigh window stall recovery creep s
  | .setpointHold _ value => answerSetpointHold value s
  | .commission _ => answerCommission s
  | .restartSiding _ => answerRestart s
  | .readSiding _ => answerReadSiding s
  | .takeChanges _ => answerTakeChanges s
  | .fetch _ => (s, .bare .nothing)
  | _ => (s, .bare .unknown)

/-- One request executed as one event. The reading kind changes no record (R19, R20, R52, R103, R139, R172, R197), TAKE CHANGES
only the change sets (R196). -/
def execute (c : Instr) (s : State) : State × Reply :=
  if writingCode (code c) then
    let p := answer c (clearScratch s)
    (closeEvent s p.1, p.2)
  else answer c s

/-! ## Replies on their way out -/

/-- R193: the characters of a reply: its head, its flags character and its body. -/
def Outgoing.length (o : Outgoing) : Nat := 2 + o.reply.body.length

def Outgoing.begin (r : Reply) (surplus : Bool) : Outgoing := { reply := r, surplus, sent := 0, flags := none }

/-- R192: the flags character as it is composed at this moment. -/
def State.flagsFor (s : State) (o : Outgoing) : Byte :=
  boolByte (o.surplus || s.link.lateSurplus) + 2 * boolByte s.link.discarded + 4 * boolByte s.changes.attention

/-- A link character: its marker bit, set in a head character, and its data bits (spec 10, section 10.2). -/
structure Character where
  head : Bool
  data : Byte
  deriving DecidableEq, Repr

/-- An idle character is a body character with data 0. -/
def Character.idle : Character := { head := false, data := 0 }

/-- R192, R200: the characters of a reply with its flags character. -/
def Reply.characters (r : Reply) (flags : Byte) : List Character :=
  { head := true, data := Layout.status r.status } :: { head := false, data := flags }
    :: r.body.map fun b => { head := false, data := b }

/-- R186, R193: the character that data-out carries while the next body character is shifted in: the next character of the reply
that a FETCH shifts out, and an idle character after its last and outside a FETCH. In the asynchronous form data-out is not
driven (R185). An output worked out from the state (log entry 22). -/
def State.dataOut (s : State) : Option Character :=
  match s.link.form, s.link.fetching with
  | .asynchronous, _ => none
  | .clocked, some o => some (((o.reply.characters (o.flags.getD (s.flagsFor o)))[o.sent]?).getD .idle)
  | .clocked, none | .unlocked, _ => some .idle

/-- R194: the characters of the reply in transmission; none while transmit rests idle. The flags character is the one sent, or the
one that would be sent now (log entry 22). -/
def State.transmits (s : State) : List Character :=
  match s.link.sending with
  | some o => o.reply.characters (o.flags.getD (s.flagsFor o))
  | none => []

/-- R192: a flags character is sent; it clears the discarded and late surplus flags it carries. -/
def State.withFlags (s : State) (o : Outgoing) : Outgoing := { o with sent := 2, flags := some (s.flagsFor o) }

/-- R192: the flags character of the reply under way is sent; there is none where no reply is under way or its flags character
has gone. In a FETCH both FLAGS_CHARACTER_SENT and the filler that shifts the character out come here, and the first of them
sends it; a FLAGS_CHARACTER_SENT before any filler counts the head character as sent too: the model's choice (log entry 38). -/
def sendFlags (s : State) : State :=
  match s.link.fetching, s.link.sending with
  | some o, _ =>
    if o.flags.isNone then
      s.modLink fun l => { l with fetching := some (s.withFlags o), discarded := false, lateSurplus := false }
    else s
  | none, some o =>
    if o.flags.isNone then
      s.modLink fun l => { l with sending := some (s.withFlags o), discarded := false, lateSurplus := false }
    else s
  | none, none => s

/-- R193: a filler character of a FETCH shifts the next reply character out. -/
def shiftOut (o : Outgoing) (s : State) : State :=
  if o.sent = 1 then sendFlags s
  else if o.sent < o.length then s.modLink fun l => { l with fetching := some { o with sent := o.sent + 1 } }
  else s

/-- R193: a FETCH ends; a reply not shifted out whole sets the discarded flag. -/
def endFetch (s : State) : State :=
  match s.link.fetching with
  | none => s
  | some o =>
    s.modLink fun l => { l with fetching := none, discarded := l.discarded || decide (o.sent < o.length) }

/-- R194: the stop bit of the last character of a reply in transmission. -/
def endTransmission (s : State) : State :=
  if s.link.sending.isSome then (sendFlags s).modLink fun l => { l with sending := none } else s

/-! ## Completion -/

/-- R193: the reply of a clocked request goes to the buffer; an unfetched one is replaced and the discarded flag set. -/
def bufferReply (r : Reply) (s : State) : State :=
  s.modLink fun l =>
    { l with discarded := l.discarded || l.buffer.isSome, buffer := some { reply := r, surplus := false }
             answered := true }

/-- R193: a clocked FETCH takes the buffered reply, or a NOTHING reply. -/
def beginFetch (s : State) : State :=
  s.modLink fun l =>
    { l with
      buffer := none, answered := false
      fetching := some (match l.buffer with
        | some b => .begin b.reply b.surplus
        | none => .begin (.bare .nothing) false) }

/-- R194: a request that completes while a reply is in transmission is not executed. -/
def notExecuted (s : State) : State := s.modLink fun l => { l with discarded := true, answered := false }

/-- R189, R192 to R194, R188: a completed request in a locked form. -/
def complete (a : Addressing) (c : Instr) (s : State) : State :=
  match s.link.form, a with
  | .clocked, _ =>
    if code c = 34 then beginFetch s
    else
      let p := execute c s
      bufferReply p.2 p.1
  | .asynchronous, .own =>
    if s.link.sending.isSome then notExecuted s
    else
      let p := execute c s
      p.1.modLink fun l => { l with sending := some (.begin p.2 false), answered := true }
  | .asynchronous, .broadcast => if s.link.sending.isSome then notExecuted s else (execute c s).1
  | .asynchronous, .awaited => s
  | .unlocked, _ => s

/-! ## Characters -/

/-- The line of a locked form; R185: the other is ignored. -/
def LinkForm.hears : LinkForm → Line → Bool
  | .clocked, .clocked => true
  | .asynchronous, .receive => true
  | _, _ => false

/-- R185: the first head character locks the form and sets the siding's flag. -/
def lockForm (line : Line) (s : State) : State :=
  if s.link.form = .unlocked then
    (s.modLink fun l => { l with form := match line with
      | .clocked => .clocked
      | .receive => .asynchronous }).flagSiding
  else s

/-- R191: a partial request is discarded. -/
def discardPartial (s : State) : State :=
  match s.link.incoming with
  | none => s
  | some p =>
    s.modLink fun l =>
      { l with incoming := none, discarded := l.discarded || l.form == .clocked || p.addressing != .awaited }

/-- R185, R191, R193: a head character on a line: it may lock the form, it ends a FETCH, discards a partial request and begins
the next request. -/
def openRequest (line : Line) (c : Byte) (s : State) : State :=
  let s1 := lockForm line s
  if s1.link.form.hears line then
    (discardPartial (endFetch s1)).modLink fun l =>
      { l with
        answered := false
        incoming := some
          { code := c, chars := []
            addressing := match line with
              | .clocked => .own
              | .receive => .awaited } }
  else s1

/-- The way the partial request has come. -/
def State.routeOf (s : State) (a : Addressing) : Via :=
  match s.link.form, a with
  | .asynchronous, .own => .async (s.link.unit.setWidth 8)
  | .asynchronous, .broadcast => .async Config.broadcastAddress
  | _, _ => .clocked

/-- R189: the partial request completes where its characters make it whole. An unknown request has no body. -/
def tryComplete (s : State) : State :=
  match s.link.incoming with
  | none => s
  | some p =>
    if p.addressing = .awaited then s
    else
      let finish (c : Instr) : State := complete p.addressing c (s.modLink fun l => { l with incoming := none })
      if knownCode p.code then
        match parse (s.routeOf p.addressing) p.code p.chars with
        | some (c, []) => finish c
        | _ => s
      else finish (.unknownRequest (s.routeOf p.addressing) p.code)

/-- HEAD_CHARACTER_RECEIVED (R185, R189): a request without a body completes at its head in the clocked form. -/
def receiveHead (line : Line) (c : Byte) (s : State) : State :=
  if (lockForm line s).link.form.hears line then tryComplete (openRequest line c s) else s

/-- R188: whom the unit address character addresses; none for a request that is ignored whole. -/
def State.addressed (s : State) (c address : Byte) : Option Addressing :=
  if address = s.link.unit.setWidth 8 then some .own
  else if address = Config.broadcastAddress ∧ writingCode c = true then some .broadcast
  else none

/-- R188: the unit address character of a partial request. -/
def receiveAddress (p : PartialRequest) (address : Byte) (s : State) : State :=
  match s.addressed p.code address with
  | some a => tryComplete (s.modLink fun l => { l with incoming := some { p with addressing := a } })
  | none => s.modLink fun l => { l with incoming := none }

/-- R190: a surplus character. -/
def takeSurplus (s : State) : State :=
  if s.link.answered then
    match s.link.form, s.link.sending with
    | .clocked, _ => s.modLink fun l => { l with buffer := l.buffer.map fun b => { b with surplus := true } }
    | .asynchronous, some o =>
      if o.flags.isNone then s.modLink fun l => { l with sending := some { o with surplus := true } }
      else s.modLink fun l => { l with lateSurplus := true }
    | .asynchronous, none => s.modLink fun l => { l with lateSurplus := true }
    | .unlocked, _ => s
  else s

/-- A body character on a line (R185, R188 to R190, R193). -/
def receiveBody (line : Line) (value : Byte) (s : State) : State :=
  if s.link.form.hears line then
    match s.link.incoming with
    | some p =>
      if p.addressing = .awaited then receiveAddress p value s
      else tryComplete (s.modLink fun l => { l with incoming := some { p with chars := p.chars ++ [value] } })
    | none => match s.link.fetching with
      | some o => shiftOut o s
      | none => takeSurplus s
  else s

/-- R186: select is deasserted in the clocked form. -/
def deassertSelect (s : State) : State :=
  if s.link.form = .clocked then endFetch (discardPartial s) else s

/-- R187, R191: a receive gap or a framing failure in the asynchronous form. -/
def breakRequest (s : State) : State := if s.link.form = .asynchronous then discardPartial s else s

/-! ## Whole requests -/

/-- The part stands at a partial request that this request's further characters continue (log entry 10). -/
def State.continues (s : State) (c : Instr) : Bool :=
  match s.link.incoming with
  | none => false
  | some p =>
    p.code == code c && p.chars.isPrefixOf (body c) && match route c with
      | .clocked => s.link.form == .clocked
      | .async a => s.link.form == .asynchronous &&
        (p.addressing == .awaited || some p.addressing == s.addressed p.code a)

/-- A whole request: its head, unless the part has received it already, and its body to the completion (log entry 10). -/
def deliver (c : Instr) (s : State) : State :=
  let s1 := if s.continues c then s else openRequest (route c).line (code c) s
  if s1.link.form.hears (route c).line then
    let s2 := s1.modLink fun l => { l with incoming := none }
    match route c with
    | .clocked => complete .own c s2
    | .async a => match s2.addressed (code c) a with
      | some d => complete d c s2
      | none => s2
  else s1

/-- R188: a request for another unit: its head, unless it has been received already, and its address character. -/
def deliverElsewhere (address c : Byte) (s : State) : State :=
  let awaiting : PartialRequest := { code := c, addressing := .awaited, chars := [] }
  receiveBody .receive address (if s.link.incoming = some awaiting then s else receiveHead .receive c s)

end Sys2Proof.Machine
end

