-- ==== Sys2Proof/Machine/FieldInputs.lean ====
section
/-! DEFINITION. What the filtered field inputs do (R30, R33, R34, R50, R99, R100, R124, R132, R145) and the sampling of the
inputs (R152 to R154). Each change is one event; a change to the level at which the filter stands already is none. -/

namespace Sys2Proof.Machine

/-! ## Spot switches -/

/-- R33, R34: bond becomes inactive at a fitted spot. -/
def bondTrip (i : SpotNo) (s : State) : State :=
  match (s.spot i).state with
  | .proving => settle (advanceSpot i (failProving .bond i s))
  | .connected | .staged | .transfer | .recovery | .held =>
    settle (advanceSpot i (enterIsolating .bond .bond (some .bond) i s))
  | .vacant | .spotted | .isolating | .stroking | .faulted => s

/-- R30, R33, R48: hose pressure becomes active at a fitted spot. -/
def pressureMade (i : SpotNo) (s : State) : State :=
  match (s.spot i).state, (s.spot i).step with
  | .proving, some .pressureWait =>
    s.modSpot i fun sp => { sp with step := some .pressureHold, timer := .seconds (s.site (·.provingTime)) }
  | .stroking, _ => failStroke false .pressure i s
  | _, _ => s

/-- R30, R33: hose pressure becomes inactive at a fitted spot. -/
def pressureLost (i : SpotNo) (s : State) : State :=
  match (s.spot i).state, (s.spot i).step with
  | .proving, some .pressureHold => settle (advanceSpot i (failProving .leak i s))
  | _, _ => s

/-- R33, R67: residual becomes active at a fitted spot. -/
def residualMade (i : SpotNo) (s : State) : State :=
  if (s.spot i).state = .recovery ∧ (s.spot i).headIs .running = true then
    settle (advanceSpot i (endHead i .residual s))
  else s

/-- R24: an unfitted spot takes no field event. -/
def ifFitted (i : SpotNo) (f : SpotNo → State → State) (s : State) : State := if s.fittedSpot i then f i s else s

/-- The bond switch's filtered change. -/
def bondChange (i : SpotNo) (level : Bool) (s : State) : State :=
  if (s.spot i).bond.active = level then s
  else event (fun s =>
    let s1 := s.modSpot i fun sp => { sp with bond := .at level }
    if level then s1 else ifFitted i bondTrip s1) s

/-- The hose-pressure switch's filtered change. -/
def hoseChange (i : SpotNo) (level : Bool) (s : State) : State :=
  if (s.spot i).hose.active = level then s
  else event (fun s =>
    let s1 := s.modSpot i fun sp => { sp with hose := .at level }
    if level then ifFitted i pressureMade s1 else ifFitted i pressureLost s1) s

/-- The residual switch's filtered change. -/
def residualChange (i : SpotNo) (level : Bool) (s : State) : State :=
  if (s.spot i).residual.active = level then s
  else event (fun s =>
    let s1 := s.modSpot i fun sp => { sp with residual := .at level }
    if level then ifFitted i residualMade s1 else s1) s

/-! ## The pendant (R50) -/

/-- R8: the CONNECTED button. -/
def pressConnected (i : SpotNo) (s : State) : State :=
  match (s.spot i).state, s.boundCar i with
  | .spotted, some c => if c.hoses then s else s.modCarAt i fun c => { c with hoses := true }
  | _, _ => s

/-- The STOP button. -/
def pressStop (i : SpotNo) (s : State) : State :=
  match (s.spot i).state with
  | .proving => settle (advanceSpot i (failProving .stopped i s))
  | .connected | .staged | .transfer | .recovery | .held => settle (holdSpot i .crewStop s)
  | .vacant | .spotted | .isolating | .stroking | .faulted => s

/-- The CLEAR button. -/
def pressClear (i : SpotNo) (s : State) : State :=
  if (s.spot i).state = .held then
    let s1 := removeHold i .crewStop s
    if (s1.spot i).holds.isEmpty && !(s1.spot i).headIs .draining then resumeSpot i s1 else s1
  else s

def connectedPressed (i : SpotNo) (s : State) : State :=
  event (fun s => ifFitted i pressConnected (s.modSpot i fun sp => { sp with connectedButton := .at true })) s

def stopPressed (i : SpotNo) (s : State) : State :=
  event (fun s => ifFitted i pressStop (s.modSpot i fun sp => { sp with stopButton := .at true })) s

def clearPressed (i : SpotNo) (s : State) : State :=
  event (fun s => ifFitted i pressClear (s.modSpot i fun sp => { sp with clearButton := .at true })) s

/-! ## Vessel trips -/

/-- R99: a fitted vessel trips. -/
def vesselTrips (v : VesselNo) (s : State) : State :=
  settle (eachFittedSpot (fun i s => if (s.spot i).feeds v then holdSpot i .vesselTrip s else s) s)

/-- R100: a fitted vessel's trip clears. -/
def vesselClears (v : VesselNo) (s : State) : State :=
  eachFittedSpot (fun i s => if (s.spot i).feeds v then removeHold i .vesselTrip s else s) s

/-- A vessel's trip input's filtered change (R84, R99, R100). -/
def tripChange (v : VesselNo) (level : Bool) (s : State) : State :=
  if (s.vessel v).trip.active = level then s
  else event (fun s =>
    let s1 := s.modVessel v fun r => { r with trip := .at level }
    if s1.fittedVessel v then (if level then vesselTrips v s1 else vesselClears v s1) else s1) s

/-! ## Compressor inputs -/

/-- R132: run feedback becomes inactive. -/
def runLost (c : CompNo) (s : State) : State :=
  match (s.comp c).state, (s.comp c).step with
  | .running, _ | .runOn, _ | .proof, some .proofRun => settle (faultComp .runLost c s)
  | _, _ => s

/-- A compressor's run input's filtered change (R120, R124, R132, R135). It acts in RUN_WAIT after start-on and no sooner; a guard
that waits for its expiry is left to it. -/
def runChange (c : CompNo) (level : Bool) (s : State) : State :=
  if (s.comp c).run.active = level then s
  else event (fun s =>
    let s1 := s.modComp c fun k => { k with run := .at level }
    if s1.fittedComp c then (if level then settle (compOnRun c s1) else runLost c s1) else s1) s

/-- A compressor's fault input's filtered change (R120, R132). -/
def faultChange (c : CompNo) (level : Bool) (s : State) : State :=
  if (s.comp c).faultInput.active = level then s
  else event (fun s =>
    let s1 := s.modComp c fun k => { k with faultInput := .at level }
    if level && s1.fittedComp c then settle (faultComp .faultInput c s1) else s1) s

/-! ## Limits -/

/-- The valve of an identity. -/
def State.valve (s : State) : ValveId → Valve
  | .spot i n => (s.spot i).valve n
  | .direction c d => (s.comp c).valve d

/-- Change one valve record; a direction valve's shut-since mark follows it (R122). -/
def State.modValve (v : ValveId) (f : Valve → Valve) (s : State) : State :=
  match v with
  | .spot i n => s.modSpot i fun sp => sp.setValve n (f (sp.valve n))
  | .direction c d => s.modComp c fun k => k.putValve d (f (k.valve d))

/-- R147: the owner's work at what its valve reports, after `before`. -/
def reportValve (before : State) (v : ValveId) (fault : Bool) (s : State) : State :=
  match v with
  | .spot i n => settle (if fault then spotValveFault i n s else advanceSpot i s)
  | .direction c d => settle (if fault then faultComp (.valve d) c s else compReported before c s)

/-- R145: the filtered limits of a valve become these at one event. -/
def limitsBecome (v : ValveId) (o sh : Bool) (s : State) : State :=
  let s1 := s.modValve v (Valve.onLimits o sh)
  reportValve s v ((s1.valve v).isFault && !(s.valve v).isFault) s1

def limitChange (v : ValveId) (o sh : Bool) (s : State) : State :=
  if (s.valve v).openLimit.active = o ∧ (s.valve v).shutLimit.active = sh then s else event (limitsBecome v o sh) s

/-- R145, R146: the stroke time of a moving valve is exceeded. -/
def strokeExceeded (v : ValveId) (s : State) : State :=
  reportValve s v true (s.modValve v Valve.enterFault)

/-- A supervised moving valve whose stroke timer has run out (R145). -/
def Valve.strokeDue (v : Valve) : Bool :=
  v.supervised && (v.state == some .movingOpen || v.state == some .movingShut) && v.timer.isDue

/-! ## Sampling (R152 to R154) -/

/-- One input sampled by itself: its count moves, or its change is delivered. -/
def sampleInput (n : Nat) (raw : Bool) (f : Filter) (store : Filter → State → State) (change : State → State)
    (s : State) : State :=
  if (f.sample n raw).2 then change s else store (f.sample n raw).1 s

/-- A button's change: a press, or a release without effect (R50). -/
def buttonChange (raw : Bool) (press : State → State) (store : Filter → State → State) (s : State) : State :=
  if raw then press s else store (.at false) s

/-- R154: the two limits of one valve at one sample are one event. -/
def sampleLimits (n : Nat) (v : ValveId) (rawOpen rawShut : Bool) (s : State) : State :=
  let o := (s.valve v).openLimit.sample n rawOpen
  let h := (s.valve v).shutLimit.sample n rawShut
  let s1 := s.modValve v fun x =>
    { x with openLimit := if o.2 then x.openLimit else o.1, shutLimit := if h.2 then x.shutLimit else h.1 }
  if o.2 || h.2 then limitChange v o.1.active h.1.active s1 else s1

/-- One group of inputs at one sample. -/
def sampleGroup (active : List Input) (g : SampleGroup) (s : State) : State :=
  let n := s.protection.filters
  let raw (x : Input) : Bool := active.contains x
  match g with
  | .limits v => sampleLimits n.limit v (raw (.openLimit v)) (raw (.shutLimit v)) s
  | .bond i =>
    sampleInput n.bond (raw (.bond i)) (s.spot i).bond (fun f s => s.modSpot i fun sp => { sp with bond := f })
      (bondChange i (raw (.bond i))) s
  | .hose i =>
    sampleInput n.hosePressure (raw (.hose i)) (s.spot i).hose (fun f s => s.modSpot i fun sp => { sp with hose := f })
      (hoseChange i (raw (.hose i))) s
  | .residual i =>
    sampleInput n.residual (raw (.residual i)) (s.spot i).residual
      (fun f s => s.modSpot i fun sp => { sp with residual := f }) (residualChange i (raw (.residual i))) s
  | .connectedButton i =>
    let store (f : Filter) (s : State) : State := s.modSpot i fun sp => { sp with connectedButton := f }
    sampleInput n.pendant (raw (.connectedButton i)) (s.spot i).connectedButton store
      (buttonChange (raw (.connectedButton i)) (connectedPressed i) store) s
  | .stopButton i =>
    let store (f : Filter) (s : State) : State := s.modSpot i fun sp => { sp with stopButton := f }
    sampleInput n.pendant (raw (.stopButton i)) (s.spot i).stopButton store
      (buttonChange (raw (.stopButton i)) (stopPressed i) store) s
  | .clearButton i =>
    let store (f : Filter) (s : State) : State := s.modSpot i fun sp => { sp with clearButton := f }
    sampleInput n.pendant (raw (.clearButton i)) (s.spot i).clearButton store
      (buttonChange (raw (.clearButton i)) (clearPressed i) store) s
  | .trip v =>
    sampleInput n.vesselTrip (raw (.trip v)) (s.vessel v).trip (fun f s => s.modVessel v fun r => { r with trip := f })
      (tripChange v (raw (.trip v))) s
  | .run c =>
    sampleInput n.compressor (raw (.run c)) (s.comp c).run (fun f s => s.modComp c fun k => { k with run := f })
      (runChange c (raw (.run c))) s
  | .faultInput c =>
    sampleInput n.compressor (raw (.faultInput c)) (s.comp c).faultInput
      (fun f s => s.modComp c fun k => { k with faultInput := f }) (faultChange c (raw (.faultInput c))) s

/-- The 36 valves. -/
def allValves : List ValveId :=
  (allSpots.flatMap fun i => allValveNames.map fun n => .spot i n)
    ++ allComps.flatMap fun c => allDirections.map fun d => .direction c d

/-- Every group, each once. -/
def allGroups : List SampleGroup :=
  allValves.map .limits
    ++ (allSpots.flatMap fun i =>
      [.bond i, .hose i, .residual i, .connectedButton i, .stopButton i, .clearButton i])
    ++ allVessels.map .trip ++ allComps.flatMap fun c => [.run c, .faultInput c]

/-- A list with its later repetitions left out. -/
def firstOnly : List SampleGroup → List SampleGroup
  | [] => []
  | g :: rest => g :: (firstOnly rest).filter (· ≠ g)

/-- R152, R154: one sample of every input; the groups of `order` are taken first, in that order, then the others. -/
def sampleAll (active : List Input) (order : List SampleGroup) (s : State) : State :=
  (firstOnly (order ++ allGroups)).foldl (fun s g => sampleGroup active g s) s

end Sys2Proof.Machine
end

