-- ==== Sys2Proof/Machine/ClockEvents.lean ====
section
/-! DEFINITION. The expiries of the part's timers (R30 to R32, R44, R67, R114, R115, R122, R124, R125, R135), the lamp phases
(R51), and pin reset. An expiry takes place where its timer has run out in the state that the rule names (R117, log entry 7). -/

namespace Sys2Proof.Machine

/-- R12, R31: proving passes. -/
def passProving (i : SpotNo) (s : State) : State :=
  (s.modSpot i fun sp =>
    { (sp.takeStaged s) with state := .connected, step := none, timer := .stopped, creep := 0, pulses := 0 }).modCarAt i
      fun c => { c with phase := .unloading, recovered := false }

/-- R30, R32: the pressure wait runs out. -/
def pressureWaitExpires (i : SpotNo) (s : State) : State :=
  let sp := s.spot i
  if sp.state = .proving ∧ sp.step = some .pressureWait ∧ sp.timer.isDue = true then
    event (fun s => settle (advanceSpot i (failProving .leak i s))) s
  else s

/-- R30, R31: the pressure hold runs out. -/
def pressureHoldExpires (i : SpotNo) (s : State) : State :=
  let sp := s.spot i
  if sp.state = .proving ∧ sp.step = some .pressureHold ∧ sp.timer.isDue = true then event (passProving i) s else s

/-- R44: the bleed is judged. -/
def judgeBleed (i : SpotNo) (s : State) : State :=
  if (s.spot i).hose.active then settle (faultSpot .bleed i s)
  else
    settle (advanceSpot i (commandSpot i .vent .toShut
      (s.modSpot i fun sp => { sp with step := some .ventClosing, timer := .stopped })))

/-- R44, R160: the bleed runs out; a standing bleed is not judged. -/
def bleedExpires (i : SpotNo) (s : State) : State :=
  let sp := s.spot i
  if sp.state = .isolating ∧ sp.step = some .bleeding ∧ sp.standing = false ∧ sp.timer.isDue = true then
    event (judgeBleed i) s
  else s

/-- R67: the recovery timer runs out. -/
def recoveryExpires (i : SpotNo) (s : State) : State :=
  let sp := s.spot i
  if sp.state = .recovery ∧ sp.headIs .running = true ∧ sp.recoveryTimer.isDue = true then
    event (fun s => settle (advanceSpot i (endHead i .recoveryTimeout s))) s
  else s

/-- R114: the stall timer runs out. -/
def stallExpires (i : SpotNo) (s : State) : State :=
  let sp := s.spot i
  if sp.state = .transfer ∧ sp.headIs .running = true ∧ sp.stall.isDue = true then
    event (fun s => settle (advanceSpot i (endHead i .exhausted s))) s
  else s

/-- R115: the rate window runs out and the next begins; no flag is set (R118). -/
def windowExpires (i : SpotNo) (s : State) : State :=
  if (s.spot i).window.isDue then
    s.modSpot i fun sp => { sp with windowCount := 0, window := .seconds sp.active.window }
  else s

/-- R124, R132: the start timer runs out. -/
def startExpires (c : CompNo) (s : State) : State :=
  let k := s.comp c
  if k.startTimer.isDue = true ∧ k.step = some .runWait ∧ k.run.active = false then
    event (fun s => settle (faultComp .startFailed c s)) s
  else s

/-- R125: the run-on time runs out. -/
def runOnExpires (c : CompNo) (s : State) : State :=
  let k := s.comp c
  if k.state = .runOn ∧ k.runTimer.isDue = true then event (fun s => settle (stopComp c s)) s else s

/-- R135: the proof time runs out. -/
def endProofRun (c : CompNo) (s : State) : State :=
  settle (compAdvance c (shutDirs c (s.modComp c fun k =>
    { k with step := some .stopping, startOn := false, runTimer := .stopped })))

def proofRunExpires (c : CompNo) (s : State) : State :=
  let k := s.comp c
  if k.state = .proof ∧ k.step = some .proofRun ∧ k.runTimer.isDue = true then event (endProofRun c) s else s

/-- R122: the mark of this valve has reached the dead-time. -/
def State.guardDue (s : State) (c : CompNo) (partner : Direction) : Bool :=
  match (s.comp c).mark partner with
  | some age => decide (s.protection.deadTime * Config.ticksPerSecond ≤ age)
  | none => false

/-- R122: the guard expiry: the compressor goes on where it waits for this mark. -/
def guardExpires (c : CompNo) (partner : Direction) (s : State) : State :=
  if s.guardDue c partner && s.fittedComp c && (s.comp c).awaits == some partner.other then
    event (fun s => settle (compPassGuard c s)) s
  else s

/-- R145: a stroke timer runs out. -/
def strokeExpires (v : ValveId) (s : State) : State :=
  if (s.valve v).strokeDue then event (strokeExceeded v) s else s

/-- R51: a phase of a flashing lamp ends. -/
def flashToggles (i : SpotNo) (s : State) : State :=
  if (s.flash i).phase.isDue then
    { s with flashes := s.flashes.set i { lit := !(s.flash i).lit, phase := .running Config.flashTicks } }
  else s

/-- Pin reset: every record at its pin reset value, the straps sampled (R184). The raw ESD level is an input and stays; so do
the model's queue and its count of free values (log entry 27). -/
def pinReset (straps : BitVec 3) (s : State) : State :=
  { State.reset with
    link := { Link.reset with unit := straps }, esdHigh := s.esdHigh, freeCount := s.freeCount, pending := s.pending }

end Sys2Proof.Machine
end

