-- ==== Sys2Proof/Machine/Requests.lean ====
section
/-! DEFINITION. The meanings of the requests (spec 11, section 11.2): each is received whole by the link, executed by its owner,
and answered (R189, R192 to R194). The owner's rule is named at each. -/

namespace Sys2Proof.Machine

/-- ANNOUNCE (R16). -/
def execAnnounce (via : Via) (mark : List Byte) (grade : Byte) (load : Word32)
    (s : State) : Host.Outcome State Fault Refusal :=
  .next (deliver (.announce via mark grade load) s)

/-- AMEND (R17). -/
def execAmend (via : Via) (slot issue : Byte) (expected : Word16) (mark : Option (List Byte)) (grade : Option Byte) (load : Option Word32) (hoses : Option Byte)
    (s : State) : Host.Outcome State Fault Refusal :=
  .next (deliver (.amend via slot issue expected mark grade load hoses) s)

/-- READ_CAR (R19). -/
def execReadCar (via : Via) (slot issue : Byte) (s : State) : Host.Outcome State Fault Refusal :=
  .next (deliver (.readCar via slot issue) s)

/-- FIND (R19). -/
def execFind (via : Via) (mark : List Byte) (s : State) : Host.Outcome State Fault Refusal :=
  .next (deliver (.find via mark) s)

/-- LIST_CARS (R20). -/
def execListCars (via : Via) (s : State) : Host.Outcome State Fault Refusal :=
  .next (deliver (.listCars via) s)

/-- RELEASE (R22). -/
def execRelease (via : Via) (slot issue : Byte) (expected : Word16) (s : State) : Host.Outcome State Fault Refusal :=
  .next (deliver (.release via slot issue expected) s)

/-- SPOT (R27). -/
def execSpot (via : Via) (slot issue place : Byte) (s : State) : Host.Outcome State Fault Refusal :=
  .next (deliver (.spot via slot issue place) s)

/-- UNSPOT (R28). -/
def execUnspot (via : Via) (place : Byte) (s : State) : Host.Outcome State Fault Refusal :=
  .next (deliver (.unspot via place) s)

/-- OPEN (R29). -/
def execOpenSpot (via : Via) (place : Byte) (s : State) : Host.Outcome State Fault Refusal :=
  .next (deliver (.openSpot via place) s)

/-- ISOLATE (R42). -/
def execIsolate (via : Via) (place : Byte) (s : State) : Host.Outcome State Fault Refusal :=
  .next (deliver (.isolate via place) s)

/-- ISOLATE_ALL (R42). -/
def execIsolateAll (via : Via) (s : State) : Host.Outcome State Fault Refusal :=
  .next (deliver (.isolateAll via) s)

/-- CLEAR_HOLD (R38). -/
def execClearHold (via : Via) (place reason : Byte) (s : State) : Host.Outcome State Fault Refusal :=
  .next (deliver (.clearHold via place reason) s)

/-- RESUME (R39). -/
def execResume (via : Via) (place : Byte) (s : State) : Host.Outcome State Fault Refusal :=
  .next (deliver (.resume via place) s)

/-- STROKE_SPOT (R47). -/
def execStrokeSpot (via : Via) (place : Byte) (s : State) : Host.Outcome State Fault Refusal :=
  .next (deliver (.strokeSpot via place) s)

/-- READ_SPOT (R52). -/
def execReadSpot (via : Via) (place : Byte) (s : State) : Host.Outcome State Fault Refusal :=
  .next (deliver (.readSpot via place) s)

/-- PLACE_ORDER (R57 to R62). -/
def execPlaceOrder (via : Via) (place : Byte) (tag : Word16) (kind : Byte) (target : Option Word32) (vessel : Option Byte) (closeAfter : Byte)
    (s : State) : Host.Outcome State Fault Refusal :=
  .next (deliver (.placeOrder via place tag kind target vessel closeAfter) s)

/-- TRIM (R77). -/
def execTrim (via : Via) (place : Byte) (tag : Word16) (target : Word32)
    (s : State) : Host.Outcome State Fault Refusal :=
  .next (deliver (.trim via place tag target) s)

/-- CANCEL_ORDER (R78). -/
def execCancelOrder (via : Via) (place : Byte) (tag : Word16) (s : State) : Host.Outcome State Fault Refusal :=
  .next (deliver (.cancelOrder via place tag) s)

/-- GAUGE (R88, R89). -/
def execGauge (via : Via) (vessel : Byte) (free stamp : Word32) (s : State) : Host.Outcome State Fault Refusal :=
  .next (deliver (.gauge via vessel free stamp) s)

/-- SET_VESSEL_SERVICE (R98). -/
def execSetVesselService (via : Via) (vessel service : Byte) (s : State) : Host.Outcome State Fault Refusal :=
  .next (deliver (.setVesselService via vessel service) s)

/-- READ_VESSEL (R103). -/
def execReadVessel (via : Via) (vessel : Byte) (s : State) : Host.Outcome State Fault Refusal :=
  .next (deliver (.readVessel via vessel) s)

/-- CLEAR_COMPRESSOR (R134). -/
def execClearCompressor (via : Via) (compressor : Byte) (s : State) : Host.Outcome State Fault Refusal :=
  .next (deliver (.clearCompressor via compressor) s)

/-- READ_COMPRESSOR (R139). -/
def execReadCompressor (via : Via) (compressor : Byte) (s : State) : Host.Outcome State Fault Refusal :=
  .next (deliver (.readCompressor via compressor) s)

/-- REARM (R162). -/
def execRearm (via : Via) (s : State) : Host.Outcome State Fault Refusal :=
  .next (deliver (.rearm via) s)

/-- WRITE_PROFILE (R171). -/
def execWriteProfile (via : Via) (sec : Byte) (fields : List Byte) (s : State) : Host.Outcome State Fault Refusal :=
  .next (deliver (.writeProfile via sec fields) s)

/-- READ_PROFILE (R172). -/
def execReadProfile (via : Via) (sec : Byte) (s : State) : Host.Outcome State Fault Refusal :=
  .next (deliver (.readProfile via sec) s)

/-- SET_LOCK (R176). -/
def execSetLock (via : Via) (level : Byte) (s : State) : Host.Outcome State Fault Refusal :=
  .next (deliver (.setLock via level) s)

/-- STAGE_SETPOINTS (R177). -/
def execStageSetpoints (via : Via) (flowHigh : Word16) (window : Byte) (stall recovery creep : Word16)
    (s : State) : Host.Outcome State Fault Refusal :=
  .next (deliver (.stageSetpoints via flowHigh window stall recovery creep) s)

/-- SETPOINT_HOLD (R178). -/
def execSetpointHold (via : Via) (value : Byte) (s : State) : Host.Outcome State Fault Refusal :=
  .next (deliver (.setpointHold via value) s)

/-- COMMISSION (R179). -/
def execCommission (via : Via) (s : State) : Host.Outcome State Fault Refusal :=
  .next (deliver (.commission via) s)

/-- RESTART_SIDING (R182). -/
def execRestartSiding (via : Via) (s : State) : Host.Outcome State Fault Refusal :=
  .next (deliver (.restartSiding via) s)

/-- READ_SIDING (R197). -/
def execReadSiding (via : Via) (s : State) : Host.Outcome State Fault Refusal :=
  .next (deliver (.readSiding via) s)

/-- TAKE_CHANGES (R196). -/
def execTakeChanges (via : Via) (s : State) : Host.Outcome State Fault Refusal :=
  .next (deliver (.takeChanges via) s)

/-- FETCH (R193). -/
def execFetch (via : Via) (s : State) : Host.Outcome State Fault Refusal :=
  .next (deliver (.fetch via) s)

/-- UNKNOWN_REQUEST (R189). -/
def execUnknownRequest (via : Via) (code : Byte) (s : State) : Host.Outcome State Fault Refusal :=
  .next (deliver (.unknownRequest via code) s)

/-- REQUEST_FOR_ANOTHER_UNIT (R188). -/
def execRequestForAnotherUnit (address code : Byte) (s : State) : Host.Outcome State Fault Refusal :=
  .next (deliverElsewhere address code s)

end Sys2Proof.Machine
end

