-- ==== Sys2Proof/Machine/Events.lean ====
section
/-! DEFINITION. The meanings of the commands that are no requests: pin reset, link events, meter, field and clock events. -/

namespace Sys2Proof.Machine

/-- PIN_RESET (R166 and the reset values of every chapter). -/
def execPinReset (straps : BitVec 3) (s : State) : Host.Outcome State Fault Refusal := .next (pinReset straps s)

/-- SURPLUS_CHARACTER (R190). A body character received on a line (log entry 11). -/
def execSurplusCharacter (line : Line) (value : Byte) (s : State) : Host.Outcome State Fault Refusal :=
  .next (receiveBody line value s)

/-- SELECT_DEASSERTED (R186). -/
def execSelectDeasserted (s : State) : Host.Outcome State Fault Refusal := .next (deassertSelect s)

/-- RECEIVE_GAP_EXPIRY (R191). -/
def execReceiveGapExpiry (s : State) : Host.Outcome State Fault Refusal := .next (breakRequest s)

/-- FRAMING_FAILURE (R187). -/
def execFramingFailure (s : State) : Host.Outcome State Fault Refusal := .next (breakRequest s)

/-- FLAGS_CHARACTER_SENT (R192). -/
def execFlagsCharacterSent (s : State) : Host.Outcome State Fault Refusal := .next (sendFlags s)

/-- REPLY_TRANSMISSION_END (R194). -/
def execReplyTransmissionEnd (s : State) : Host.Outcome State Fault Refusal := .next (endTransmission s)

/-- METER_PULSE (R106). -/
def execMeterPulse (i : SpotNo) (s : State) : Host.Outcome State Fault Refusal := .next (event (takePulse i) s)

/-- LITRE_EMITTED (R106, R108). -/
def execLitreEmitted (i : SpotNo) (s : State) : Host.Outcome State Fault Refusal := .next (event (takeLitre i) s)

/-- INPUT_SAMPLE (R152, R154). -/
def execInputSample (active : List Input) (order : List SampleGroup) (s : State) : Host.Outcome State Fault Refusal :=
  .next (sampleAll active order s)

/-- LIMIT_CHANGE (R145). -/
def execLimitChange (v : ValveId) (openActive shutActive : Bool) (s : State) : Host.Outcome State Fault Refusal :=
  .next (limitChange v openActive shutActive s)

/-- BOND_LOST (R33, R34). -/
def execBondLost (i : SpotNo) (s : State) : Host.Outcome State Fault Refusal := .next (bondChange i false s)

/-- BOND_ACTIVE (R33). -/
def execBondActive (i : SpotNo) (s : State) : Host.Outcome State Fault Refusal := .next (bondChange i true s)

/-- HOSE_PRESSURE_ACTIVE (R30, R48). -/
def execHosePressureActive (i : SpotNo) (s : State) : Host.Outcome State Fault Refusal := .next (hoseChange i true s)

/-- HOSE_PRESSURE_INACTIVE (R30, R33). -/
def execHosePressureInactive (i : SpotNo) (s : State) : Host.Outcome State Fault Refusal :=
  .next (hoseChange i false s)

/-- RESIDUAL_ACTIVE (R67). -/
def execResidualActive (i : SpotNo) (s : State) : Host.Outcome State Fault Refusal := .next (residualChange i true s)

/-- RESIDUAL_INACTIVE (R33). -/
def execResidualInactive (i : SpotNo) (s : State) : Host.Outcome State Fault Refusal :=
  .next (residualChange i false s)

/-- PENDANT_CONNECTED (R8, R50). -/
def execPendantConnected (i : SpotNo) (s : State) : Host.Outcome State Fault Refusal := .next (connectedPressed i s)

/-- PENDANT_STOP (R50). -/
def execPendantStop (i : SpotNo) (s : State) : Host.Outcome State Fault Refusal := .next (stopPressed i s)

/-- PENDANT_CLEAR (R50). -/
def execPendantClear (i : SpotNo) (s : State) : Host.Outcome State Fault Refusal := .next (clearPressed i s)

/-- VESSEL_TRIP_ACTIVE (R99). -/
def execVesselTripActive (v : VesselNo) (s : State) : Host.Outcome State Fault Refusal := .next (tripChange v true s)

/-- VESSEL_TRIP_INACTIVE (R100). -/
def execVesselTripInactive (v : VesselNo) (s : State) : Host.Outcome State Fault Refusal :=
  .next (tripChange v false s)

/-- RUN_FEEDBACK_ACTIVE (R124, R135). -/
def execRunFeedbackActive (c : CompNo) (s : State) : Host.Outcome State Fault Refusal := .next (runChange c true s)

/-- RUN_FEEDBACK_LOST (R132). -/
def execRunFeedbackLost (c : CompNo) (s : State) : Host.Outcome State Fault Refusal := .next (runChange c false s)

/-- FAULT_INPUT_ACTIVE (R132). -/
def execFaultInputActive (c : CompNo) (s : State) : Host.Outcome State Fault Refusal := .next (faultChange c true s)

/-- FAULT_INPUT_INACTIVE (R132). -/
def execFaultInputInactive (c : CompNo) (s : State) : Host.Outcome State Fault Refusal :=
  .next (faultChange c false s)

/-- ESD_INPUT_ACTIVE (R156, R158). The operand is the raw level after the change (log entry 13). -/
def execEsdInputActive (high : Bool) (s : State) : Host.Outcome State Fault Refusal :=
  .next (event (changeEsdLevel high) s)

/-- ESD_INPUT_INACTIVE (R156). The operand is the raw level after the change (log entry 13). -/
def execEsdInputInactive (high : Bool) (s : State) : Host.Outcome State Fault Refusal :=
  .next (event (changeEsdLevel high) s)

/-- BEAT (R163). -/
def execBeat (s : State) : Host.Outcome State Fault Refusal := .next (event takeBeat s)

/-- AUTO_REARM (R163). A beat, which turns field enable on where it completes the run (log entry 12). -/
def execAutoRearm (s : State) : Host.Outcome State Fault Refusal := .next (event takeBeat s)

/-- PRESSURE_WAIT_EXPIRY (R30, R32). -/
def execPressureWaitExpiry (i : SpotNo) (s : State) : Host.Outcome State Fault Refusal :=
  .next (pressureWaitExpires i s)

/-- PRESSURE_HOLD_EXPIRY (R30, R31). -/
def execPressureHoldExpiry (i : SpotNo) (s : State) : Host.Outcome State Fault Refusal :=
  .next (pressureHoldExpires i s)

/-- BLEED_EXPIRY (R44). -/
def execBleedExpiry (i : SpotNo) (s : State) : Host.Outcome State Fault Refusal := .next (bleedExpires i s)

/-- RECOVERY_TIMER_EXPIRY (R67). -/
def execRecoveryTimerExpiry (i : SpotNo) (s : State) : Host.Outcome State Fault Refusal :=
  .next (recoveryExpires i s)

/-- STALL_EXPIRY (R114). -/
def execStallExpiry (i : SpotNo) (s : State) : Host.Outcome State Fault Refusal := .next (stallExpires i s)

/-- RATE_WINDOW_EXPIRY (R115). -/
def execRateWindowExpiry (i : SpotNo) (s : State) : Host.Outcome State Fault Refusal := .next (windowExpires i s)

/-- START_TIMER_EXPIRY (R124). -/
def execStartTimerExpiry (c : CompNo) (s : State) : Host.Outcome State Fault Refusal := .next (startExpires c s)

/-- RUN_ON_EXPIRY (R125). -/
def execRunOnExpiry (c : CompNo) (s : State) : Host.Outcome State Fault Refusal := .next (runOnExpires c s)

/-- PROOF_RUN_EXPIRY (R135). -/
def execProofRunExpiry (c : CompNo) (s : State) : Host.Outcome State Fault Refusal := .next (proofRunExpires c s)

/-- GUARD_EXPIRY (R122). -/
def execGuardExpiry (c : CompNo) (partner : Direction) (s : State) : Host.Outcome State Fault Refusal :=
  .next (guardExpires c partner s)

/-- STROKE_TIME_EXCEEDED (R145). -/
def execStrokeTimeExceeded (v : ValveId) (s : State) : Host.Outcome State Fault Refusal := .next (strokeExpires v s)

/-- LAMP_FLASH_PHASE (R51). -/
def execLampFlashPhase (i : SpotNo) (s : State) : Host.Outcome State Fault Refusal := .next (flashToggles i s)

/-- HEAD_CHARACTER_RECEIVED (R185, R191). -/
def execHeadCharacterReceived (line : Line) (code : Byte) (s : State) : Host.Outcome State Fault Refusal :=
  .next (receiveHead line code s)

end Sys2Proof.Machine
end

