-- ==== Sys2Proof/Machine/Dispatch.lean ====
section
/-! DEFINITION. The dispatch: one arm per command, each one call of its meaning. -/

namespace Sys2Proof.Machine

def exec (i : Instr) (s : State) : Host.Outcome State Fault Refusal :=
  match i with
  | .pinReset straps => Sys2Proof.Machine.execPinReset straps s
  | .announce via mark grade load => Sys2Proof.Machine.execAnnounce via mark grade load s
  | .amend via slot issue expected mark grade load hoses => Sys2Proof.Machine.execAmend via slot issue expected mark grade load hoses s
  | .readCar via slot issue => Sys2Proof.Machine.execReadCar via slot issue s
  | .find via mark => Sys2Proof.Machine.execFind via mark s
  | .listCars via => Sys2Proof.Machine.execListCars via s
  | .release via slot issue expected => Sys2Proof.Machine.execRelease via slot issue expected s
  | .spot via slot issue place => Sys2Proof.Machine.execSpot via slot issue place s
  | .unspot via place => Sys2Proof.Machine.execUnspot via place s
  | .openSpot via place => Sys2Proof.Machine.execOpenSpot via place s
  | .isolate via place => Sys2Proof.Machine.execIsolate via place s
  | .isolateAll via => Sys2Proof.Machine.execIsolateAll via s
  | .clearHold via place reason => Sys2Proof.Machine.execClearHold via place reason s
  | .resume via place => Sys2Proof.Machine.execResume via place s
  | .strokeSpot via place => Sys2Proof.Machine.execStrokeSpot via place s
  | .readSpot via place => Sys2Proof.Machine.execReadSpot via place s
  | .placeOrder via place tag kind target vessel closeAfter => Sys2Proof.Machine.execPlaceOrder via place tag kind target vessel closeAfter s
  | .trim via place tag target => Sys2Proof.Machine.execTrim via place tag target s
  | .cancelOrder via place tag => Sys2Proof.Machine.execCancelOrder via place tag s
  | .gauge via vessel free stamp => Sys2Proof.Machine.execGauge via vessel free stamp s
  | .setVesselService via vessel service => Sys2Proof.Machine.execSetVesselService via vessel service s
  | .readVessel via vessel => Sys2Proof.Machine.execReadVessel via vessel s
  | .clearCompressor via compressor => Sys2Proof.Machine.execClearCompressor via compressor s
  | .readCompressor via compressor => Sys2Proof.Machine.execReadCompressor via compressor s
  | .rearm via => Sys2Proof.Machine.execRearm via s
  | .writeProfile via sec fields => Sys2Proof.Machine.execWriteProfile via sec fields s
  | .readProfile via sec => Sys2Proof.Machine.execReadProfile via sec s
  | .setLock via level => Sys2Proof.Machine.execSetLock via level s
  | .stageSetpoints via flowHigh window stall recovery creep => Sys2Proof.Machine.execStageSetpoints via flowHigh window stall recovery creep s
  | .setpointHold via value => Sys2Proof.Machine.execSetpointHold via value s
  | .commission via => Sys2Proof.Machine.execCommission via s
  | .restartSiding via => Sys2Proof.Machine.execRestartSiding via s
  | .readSiding via => Sys2Proof.Machine.execReadSiding via s
  | .takeChanges via => Sys2Proof.Machine.execTakeChanges via s
  | .fetch via => Sys2Proof.Machine.execFetch via s
  | .unknownRequest via code => Sys2Proof.Machine.execUnknownRequest via code s
  | .requestForAnotherUnit address code => Sys2Proof.Machine.execRequestForAnotherUnit address code s
  | .surplusCharacter line value => Sys2Proof.Machine.execSurplusCharacter line value s
  | .selectDeasserted => Sys2Proof.Machine.execSelectDeasserted s
  | .receiveGapExpiry => Sys2Proof.Machine.execReceiveGapExpiry s
  | .framingFailure => Sys2Proof.Machine.execFramingFailure s
  | .flagsCharacterSent => Sys2Proof.Machine.execFlagsCharacterSent s
  | .replyTransmissionEnd => Sys2Proof.Machine.execReplyTransmissionEnd s
  | .meterPulse k => Sys2Proof.Machine.execMeterPulse k s
  | .litreEmitted k => Sys2Proof.Machine.execLitreEmitted k s
  | .inputSample active order => Sys2Proof.Machine.execInputSample active order s
  | .limitChange v openActive shutActive => Sys2Proof.Machine.execLimitChange v openActive shutActive s
  | .bondLost k => Sys2Proof.Machine.execBondLost k s
  | .bondActive k => Sys2Proof.Machine.execBondActive k s
  | .hosePressureActive k => Sys2Proof.Machine.execHosePressureActive k s
  | .hosePressureInactive k => Sys2Proof.Machine.execHosePressureInactive k s
  | .residualActive k => Sys2Proof.Machine.execResidualActive k s
  | .residualInactive k => Sys2Proof.Machine.execResidualInactive k s
  | .pendantConnected k => Sys2Proof.Machine.execPendantConnected k s
  | .pendantStop k => Sys2Proof.Machine.execPendantStop k s
  | .pendantClear k => Sys2Proof.Machine.execPendantClear k s
  | .vesselTripActive v => Sys2Proof.Machine.execVesselTripActive v s
  | .vesselTripInactive v => Sys2Proof.Machine.execVesselTripInactive v s
  | .runFeedbackActive c => Sys2Proof.Machine.execRunFeedbackActive c s
  | .runFeedbackLost c => Sys2Proof.Machine.execRunFeedbackLost c s
  | .faultInputActive c => Sys2Proof.Machine.execFaultInputActive c s
  | .faultInputInactive c => Sys2Proof.Machine.execFaultInputInactive c s
  | .esdInputActive high => Sys2Proof.Machine.execEsdInputActive high s
  | .esdInputInactive high => Sys2Proof.Machine.execEsdInputInactive high s
  | .beat => Sys2Proof.Machine.execBeat s
  | .autoRearm => Sys2Proof.Machine.execAutoRearm s
  | .pressureWaitExpiry k => Sys2Proof.Machine.execPressureWaitExpiry k s
  | .pressureHoldExpiry k => Sys2Proof.Machine.execPressureHoldExpiry k s
  | .bleedExpiry k => Sys2Proof.Machine.execBleedExpiry k s
  | .recoveryTimerExpiry k => Sys2Proof.Machine.execRecoveryTimerExpiry k s
  | .stallExpiry k => Sys2Proof.Machine.execStallExpiry k s
  | .rateWindowExpiry k => Sys2Proof.Machine.execRateWindowExpiry k s
  | .startTimerExpiry c => Sys2Proof.Machine.execStartTimerExpiry c s
  | .runOnExpiry c => Sys2Proof.Machine.execRunOnExpiry c s
  | .proofRunExpiry c => Sys2Proof.Machine.execProofRunExpiry c s
  | .guardExpiry c partner => Sys2Proof.Machine.execGuardExpiry c partner s
  | .strokeTimeExceeded v => Sys2Proof.Machine.execStrokeTimeExceeded v s
  | .lampFlashPhase k => Sys2Proof.Machine.execLampFlashPhase k s
  | .headCharacterReceived line code => Sys2Proof.Machine.execHeadCharacterReceived line code s

end Sys2Proof.Machine
end

