-- ==== Sys2Proof/Machine/Ticks.lean ====
section
/-! DEFINITION. One 10 ms period of the part's clock: what passes while no command waits (log entry 6). -/

namespace Sys2Proof.Machine

def Valve.tick (v : Valve) : Valve := { v with timer := v.timer.tick }

def Spot.tick (sp : Spot) : Spot :=
  { sp with
    timer := sp.timer.tick, recoveryTimer := sp.recoveryTimer.tick, stall := sp.stall.tick, window := sp.window.tick
    shutoff := sp.shutoff.tick, liquid := sp.liquid.tick, vapour := sp.vapour.tick, vent := sp.vent.tick }

/-- The shut-since marks grow older (R122). -/
def Comp.tick (k : Comp) : Comp :=
  { k with
    startTimer := k.startTimer.tick, runTimer := k.runTimer.tick, push := k.push.tick, draw := k.draw.tick
    pushMark := k.pushMark.map (· + 1), drawMark := k.drawMark.map (· + 1) }

/-- Every timer of the part, and the age of every mark, one period on. -/
def tick (s : State) : State :=
  { s with
    spots := Vector.ofFn fun i => (s.spots[i]).tick
    comps := Vector.ofFn fun c => (s.comps[c]).tick
    flashes := Vector.ofFn fun i => { s.flashes[i] with phase := (s.flashes[i]).phase.tick }
    beatTimer := s.beatTimer.tick }

end Sys2Proof.Machine
end

