-- ==== Sys2Proof/WellFormed.lean ====
section
/-! DEFINITION. Which commands can be spelled on the wire or come from the plant as written. -/

namespace Sys2Proof

open Sys2Proof.Machine

/-- A text's length is one character (R199). -/
def markFits (m : List Byte) : Bool := decide (m.length ≤ 255)

/-- Each group named once. -/
def namedOnce : List SampleGroup → Bool
  | [] => true
  | g :: rest => !rest.contains g && namedOnce rest

/-- A well-formed command. -/
def WellFormed : Instr → Bool
  | .announce _ mark _ _ => markFits mark
  | .amend _ _ _ _ mark _ _ _ => match mark with
    | some m => markFits m
    | none => true
  | .find _ mark => markFits mark
  | .writeProfile _ sec fields => decide (fields.length = sectionLength sec)
  | .unknownRequest _ c => !knownCode c
  | .requestForAnotherUnit address c => address != Config.broadcastAddress || !writingCode c
  | .inputSample _ order => namedOnce order
  | _ => true

end Sys2Proof
end

