-- ==== Sys2Proof/Safety.lean ====
section
/-! DEFINITION. The words the statements are written in: what holds between events, when the link takes a request and where its
reply stands, and the frame of a state, by which a statement says at once what changes and what does not. -/

namespace Sys2Proof.Machine

/-! ## What holds between events -/

/-- The lock level is one of 0 to 3, and 0 until SET LOCK has been accepted (R175, R176). -/
def State.lockLegal (s : State) : Prop := s.lock ≤ 3 ∧ (s.lockTaken = false → s.lock = 0)

/-- R158: field enable is off while the ESD input is active. -/
def State.enableSafe (s : State) : Prop := s.fe = true → s.esdActive = false

/-- R157, R163: the rearm run is 0 while field enable is on. -/
def State.rearmLegal (s : State) : Prop := s.fe = true → s.rearmRun = 0

/-- R166, R171: the siding is UNCONFIGURED exactly while some profile section is not valid. -/
def State.configAgrees (s : State) : Prop := s.siding = .unconfigured ↔ s.profile.complete = false

/-- R102: every inlet permissive stands as the rule works it out. -/
def State.inletsFollow (s : State) : Prop := ∀ v : VesselNo, s.inlets.getLsbD v = s.inletFor v

/-- R4: no two records hold the same mark. -/
def State.marksUnique (s : State) : Prop :=
  ∀ (j k : SlotNo) (c d : Car), s.car j = some c → s.car k = some d → c.mark = d.mark → j = k

/-- The spot owes nothing to an arrival: none of its valves stands where the step or the head that the spot is in waits for it
(R30, R40, R43, R44, R69, R113); stroke tests apart. -/
def Spot.steady (sp : Spot) : Prop :=
  ¬ (sp.state = .proving ∧ sp.step = some .shutoffOpening ∧ sp.shutoff.isOpen = true)
  ∧ ¬ (sp.state = .transfer ∧ sp.headIs .running = true ∧ sp.liquid.isOpen = true ∧ sp.stall.isRunning = false)
  ∧ ¬ (sp.headIs .draining = true ∧ sp.liquid.isShut = true)
  ∧ ¬ (sp.state = .staged ∧ sp.headIs .suspended = true ∧ sp.shutoff.isOpen = true ∧ sp.liquid.isShut = true
        ∧ sp.vapour.isShut = true)
  ∧ ¬ (sp.state = .isolating ∧ sp.standing = false ∧ sp.step = some .linesClosing ∧ sp.linesShut = true)
  ∧ ¬ (sp.state = .isolating ∧ sp.standing = false ∧ sp.step = some .ventOpening ∧ sp.vent.isOpen = true)
  ∧ ¬ (sp.state = .isolating ∧ sp.standing = false ∧ sp.step = some .ventClosing ∧ sp.vent.isShut = true)

/-- R24: an unfitted spot stands in a quiet state. -/
def State.unfittedQuiet (s : State) (i : SpotNo) : Prop := s.fittedSpot i = false → (s.spot i).state.quiet = true

/-- The queue fits the state: no order in VACANT, SPOTTED, PROVING, CONNECTED, STROKING and FAULTED, a head in STAGED, TRANSFER
and RECOVERY, and in ISOLATING at most a DRAINING head, which is gone once the lines have closed (R41, R43, R55, R72). The tags of
a queue are all different (R56), an end reason stands only in a DRAINING order (R68, R69), and every order behind the head is
QUEUED (R55). -/
def Spot.queueLegal (sp : Spot) : Prop :=
  (sp.orders.map Order.tag).Nodup ∧ (∀ o ∈ sp.orders, o.reason ≠ none → o.state = .draining) ∧
  (∀ o ∈ sp.orders.tail, o.state = .queued) ∧
  match sp.state with
  | .vacant | .spotted | .proving | .connected | .stroking | .faulted => sp.orders = []
  | .staged | .transfer | .recovery => sp.orders ≠ []
  | .held => True
  | .isolating => (sp.step ≠ some .linesClosing → sp.orders = []) ∧
    (sp.orders = [] ∨ ∃ h, sp.orders = [h] ∧ h.state = .draining)

/-- R35, R39, R41, R46: hold reasons stand in HELD only. -/
def Spot.holdsLegal (sp : Spot) : Prop := sp.state ≠ .held → sp.holds = .empty

/-- R10: a spot names a car exactly when that car's record names the spot; an ANNOUNCED car stands at no spot. -/
def State.bindingsAgree (s : State) : Prop :=
  (∀ (i : SpotNo) (h : Handle), (s.spot i).car = some h →
    (s.carSlot h.slot).issue = h.issue ∧ ∃ c, s.car h.slot = some c ∧ c.spot = some i) ∧
  (∀ (k : SlotNo) (c : Car), s.car k = some c →
    (c.phase = .announced → c.spot = none) ∧
    ∀ i, c.spot = some i → (s.spot i).car = some { slot := k, issue := (s.carSlot k).issue })

/-! ## The arbiter -/

/-- The spot's head waits for a seat or for its compressor: what the arbiter and R65 act on. -/
def Spot.waits (sp : Spot) : Prop := sp.state = .staged ∧ sp.headIs .waiting = true

/-- No head of another spot waits, and the grant queue names no other spot: the arbiter's scan concerns spot `i` alone. -/
def State.waitsNowhereBut (s : State) (i : SpotNo) : Prop :=
  (∀ j, j ≠ i → ¬ (s.spot j).waits) ∧ ∀ g ∈ s.grants, g.spot = i

/-- No head waits and the grant queue is empty: the arbiter has nothing to do. -/
def State.waitsNowhere (s : State) : Prop := (∀ j, ¬ (s.spot j).waits) ∧ s.grants = []

/-! ## The link -/

/-- The part takes a whole request that comes this way, and answers it (R185, R188, R194). -/
def State.canTake (s : State) : Via → Bool
  | .clocked => s.link.form != .asynchronous
  | .async a => s.link.form != .clocked && a == s.link.unit.setWidth 8 && s.link.sending.isNone

/-- The reply stands where the host finds it: in the buffer of the clocked form, or in transmission (R193, R194). -/
def State.replied (t : State) (via : Via) (st : Status) (body : List Byte) : Prop :=
  match via with
  | .clocked => t.link.buffer = some { reply := { status := st, body }, surplus := false }
  | .async _ =>
    t.link.sending = some { reply := { status := st, body }, surplus := false, sent := 0, flags := none }

/-! ## The frame -/

/-- Every record of the part, but for its outputs (lamps and inlet permissives, which R51 and R102 work out from the records),
the change sets, the characters on the link and the model's scratch. -/
structure Frame where
  cars : Vector CarSlot 24
  spots : Vector Spot 8
  vessels : Vector Vessel 6
  comps : Vector Comp 2
  grants : List Grant
  profile : Profile
  siding : SidingState
  staged : Setpoints
  stagedVersion : Word16
  setpointHold : Bool
  tests : PendingTests
  lockTaken : Bool
  lock : Nat
  fe : Bool
  rearmRun : Nat
  beatTimer : Timer
  esdHigh : Bool
  unit : BitVec 3
  freeCount : Nat
  pending : List Instr
  deriving DecidableEq, Repr

def State.frame (s : State) : Frame :=
  { cars := s.cars, spots := s.spots, vessels := s.vessels, comps := s.comps, grants := s.grants, profile := s.profile,
    siding := s.siding, staged := s.staged, stagedVersion := s.stagedVersion, setpointHold := s.setpointHold,
    tests := s.tests, lockTaken := s.lockTaken, lock := s.lock, fe := s.fe, rearmRun := s.rearmRun,
    beatTimer := s.beatTimer, esdHigh := s.esdHigh, unit := s.link.unit, freeCount := s.freeCount, pending := s.pending }

/-- Every spot but spot `i` is as it was. -/
def State.sameSpotsBut (s t : State) (i : SpotNo) : Prop := ∀ j, j ≠ i → t.spot j = s.spot j

/-- The profile, the setpoint store, the lock, field enable, the beat, the ESD level, the unit address and the queue stand as they
were, and so does the siding's state where no commissioning run is under way (a test's end may bring it to OPERATING, R180). -/
def State.sameStore (s t : State) : Prop :=
  t.profile = s.profile ∧ t.staged = s.staged ∧ t.stagedVersion = s.stagedVersion ∧ t.setpointHold = s.setpointHold ∧
  t.lockTaken = s.lockTaken ∧ t.lock = s.lock ∧ t.fe = s.fe ∧ t.rearmRun = s.rearmRun ∧ t.beatTimer = s.beatTimer ∧
  t.esdHigh = s.esdHigh ∧ t.link.unit = s.link.unit ∧ t.pending = s.pending ∧
  (s.siding ≠ .commissioning → t.siding = s.siding)

/-- Nothing but spot `i` has changed, with the car bound to it, its reservation entries, the compressor it was seated on and the
TURNING marks and grant-queue entries it has caused. -/
def State.onlyAt (s t : State) (i : SpotNo) : Prop :=
  s.sameStore t ∧ s.sameSpotsBut t i ∧
  (∀ k, (∀ h, (s.spot i).car = some h → h.slot ≠ k) → t.carSlot k = s.carSlot k) ∧
  (∀ v, { t.vessel v with entries := [] } = { s.vessel v with entries := [] } ∧
    (t.vessel v).entries.filter (·.spot ≠ i) = (s.vessel v).entries.filter (·.spot ≠ i)) ∧
  (∀ c, (s.spot i).seat ≠ some c → (s.comp c).turning ≠ some i → t.comp c = s.comp c) ∧
  ∀ g ∈ t.grants, g ∈ s.grants

/-! ## What a request brings -/

/-- The request is executed and answered with this status and body. -/
def State.answers (s : State) (c : Instr) (st : Status) (body : List Byte) (t : State) : Prop :=
  exec c s = .next t ∧ t.replied (route c) st body

/-- The request is answered and changes no record, no output and no flag, but for the form lock of a first request (R185). -/
def State.answersOnly (s : State) (c : Instr) (st : Status) (body : List Byte) (t : State) : Prop :=
  s.answers c st body t ∧ t.frame = s.frame ∧ t.changes = (lockForm (route c).line s).changes ∧ t.flashes = s.flashes ∧
  t.inlets = s.inlets

/-- The request is refused with this status and body: no record changes, and no flag but the siding's at the form lock. The flags
are spoken of where the inlet permissives stand as R102 works them out, as they always do. -/
def State.turnsAway (s : State) (c : Instr) (st : Status) (body : List Byte) (t : State) : Prop :=
  s.answers c st body t ∧ t.frame = s.frame ∧
  (s.inletsFollow → t.changes = (lockForm (route c).line s).changes)

/-! ## The inputs -/

/-- The filter of an input (R152). -/
def State.filterOf (s : State) : Input → Filter
  | .openLimit v => (s.valve v).openLimit
  | .shutLimit v => (s.valve v).shutLimit
  | .bond i => (s.spot i).bond
  | .hose i => (s.spot i).hose
  | .residual i => (s.spot i).residual
  | .connectedButton i => (s.spot i).connectedButton
  | .stopButton i => (s.spot i).stopButton
  | .clearButton i => (s.spot i).clearButton
  | .trip v => (s.vessel v).trip
  | .run c => (s.comp c).run
  | .faultInput c => (s.comp c).faultInput

/-- The input's raw level is the level its filter stands at, with nothing counted. -/
def State.settledAt (s : State) (active : List Input) (x : Input) : Prop :=
  s.filterOf x = { active := active.contains x, count := 0 }

/-- The state with this filter at an input. -/
def State.withFilter (x : Input) (f : Filter) (s : State) : State :=
  match x with
  | .openLimit v => s.modValve v fun y => { y with openLimit := f }
  | .shutLimit v => s.modValve v fun y => { y with shutLimit := f }
  | .bond i => s.modSpot i fun sp => { sp with bond := f }
  | .hose i => s.modSpot i fun sp => { sp with hose := f }
  | .residual i => s.modSpot i fun sp => { sp with residual := f }
  | .connectedButton i => s.modSpot i fun sp => { sp with connectedButton := f }
  | .stopButton i => s.modSpot i fun sp => { sp with stopButton := f }
  | .clearButton i => s.modSpot i fun sp => { sp with clearButton := f }
  | .trip v => s.modVessel v fun r => { r with trip := f }
  | .run c => s.modComp c fun k => { k with run := f }
  | .faultInput c => s.modComp c fun k => { k with faultInput := f }

/-- The N of the input's class (R153). -/
def State.filterN (s : State) : Input → Nat
  | .openLimit _ | .shutLimit _ => s.protection.filters.limit
  | .bond _ => s.protection.filters.bond
  | .hose _ => s.protection.filters.hosePressure
  | .residual _ => s.protection.filters.residual
  | .connectedButton _ | .stopButton _ | .clearButton _ => s.protection.filters.pendant
  | .trip _ => s.protection.filters.vesselTrip
  | .run _ | .faultInput _ => s.protection.filters.compressor

/-- The command that names an input's filtered change to its raw level, the two limits of a valve together (R154); none for the
release of a button, which has no effect (R50). -/
def deliveredAs (active : List Input) : Input → Option Instr
  | .openLimit v | .shutLimit v =>
    some (.limitChange v (active.contains (.openLimit v)) (active.contains (.shutLimit v)))
  | .bond i => some (if active.contains (.bond i) then .bondActive i else .bondLost i)
  | .hose i => some (if active.contains (.hose i) then .hosePressureActive i else .hosePressureInactive i)
  | .residual i => some (if active.contains (.residual i) then .residualActive i else .residualInactive i)
  | .connectedButton i => if active.contains (.connectedButton i) then some (.pendantConnected i) else none
  | .stopButton i => if active.contains (.stopButton i) then some (.pendantStop i) else none
  | .clearButton i => if active.contains (.clearButton i) then some (.pendantClear i) else none
  | .trip v => some (if active.contains (.trip v) then .vesselTripActive v else .vesselTripInactive v)
  | .run c => some (if active.contains (.run c) then .runFeedbackActive c else .runFeedbackLost c)
  | .faultInput c => some (if active.contains (.faultInput c) then .faultInputActive c else .faultInputInactive c)

/-! ## Arrivals -/

/-- Under supervision and moving toward its open limit (`o` true) or its shut limit, which is not active yet (R145). -/
def Valve.nears (o : Bool) (v : Valve) : Prop :=
  v.supervised = true ∧ v.state = some (if o then .movingOpen else .movingShut) ∧
  (if o then v.openLimit else v.shutLimit).active = false

/-- The valve after its arrival at that limit, the other limit inactive: at rest there with its timer stopped (R145). -/
def Valve.arrived (o : Bool) (v : Valve) : Valve :=
  { v with
    state := some (if o then .opened else .shut), timer := .stopped
    openLimit := v.openLimit.take o, shutLimit := v.shutLimit.take (!o) }

/-- The valve commanded open from SHUT with field enable on: it starts to move with a full stroke time (R144). -/
def Valve.opening (stroke : Timer) (v : Valve) : Valve :=
  { v with command := .toOpen, state := some .movingOpen, timer := stroke }

/-- The valve commanded shut from OPEN (R144). -/
def Valve.shutting (stroke : Timer) (v : Valve) : Valve :=
  { v with command := .toShut, state := some .movingShut, timer := stroke }

end Sys2Proof.Machine
end

