-- ==== Sys2Proof/Certificates/Slice0/Obligations.lean ====
section
/-! DEFINITION. The statements for the provers, each a proposition about the model of the Gethra LU8, with the rules or chapters it
rests on in OBLIGATIONS.json. -/

section

open Sys2Proof Sys2Proof.Machine

/-- A step runs the command at the front of the queue. For every command c and state s with c at the front of its queue, step s
is exec c on s with the queue's rest. -/
def Obligations.StepRunsFront : Prop :=
  ∀ (s : State) (c : Instr) (rest : List Instr), s.pending = c :: rest → step s = exec c { s with pending := rest }

/-- An idle step passes one 10 ms period and changes nothing but timers and mark ages. On an empty queue the step answers a next
state in which every timer, the phase of every lamp among them, is one period on and every shut-since mark one period older,
every flashing lamp stays as it is lit, and every other record, the link, the inlet permissives and the change sets stand.
That an idle step is a 10 ms period is the model's choice (log entry 6). -/
def Obligations.IdleStepPassesTime : Prop :=
  ∀ s : State, s.pending = [] → ∃ t, step s = .next t ∧
    (∀ i, t.spot i = { s.spot i with
      timer := (s.spot i).timer.tick, recoveryTimer := (s.spot i).recoveryTimer.tick, stall := (s.spot i).stall.tick
      window := (s.spot i).window.tick
      shutoff := { (s.spot i).shutoff with timer := (s.spot i).shutoff.timer.tick }
      liquid := { (s.spot i).liquid with timer := (s.spot i).liquid.timer.tick }
      vapour := { (s.spot i).vapour with timer := (s.spot i).vapour.timer.tick }
      vent := { (s.spot i).vent with timer := (s.spot i).vent.timer.tick } }) ∧
    (∀ c, t.comp c = { s.comp c with
      startTimer := (s.comp c).startTimer.tick, runTimer := (s.comp c).runTimer.tick
      push := { (s.comp c).push with timer := (s.comp c).push.timer.tick }
      draw := { (s.comp c).draw with timer := (s.comp c).draw.timer.tick }
      pushMark := (s.comp c).pushMark.map (· + 1), drawMark := (s.comp c).drawMark.map (· + 1) }) ∧
    t.frame = { s.frame with spots := t.spots, comps := t.comps, beatTimer := s.beatTimer.tick } ∧
    (∀ i, t.flash i = { s.flash i with phase := (s.flash i).phase.tick }) ∧
    t.changes = s.changes ∧ t.link = s.link ∧ t.inlets = s.inlets

/-- Every step answers a next state. From every state the step answers a next state: no command of this part faults and none is
refused. -/
def Obligations.EveryStepGoesOn : Prop :=
  ∀ s : State, ∃ t, step s = .next t

/-- PIN_RESET brings every record to its reset value and samples the straps. From every state PIN_RESET empties the car table
with every issue number 0, brings every spot to VACANT with the default setpoints at version 0, every vessel to IN_SERVICE
with an empty list and counter 0, every compressor to STOPPED, every valve to unsupervised without a state and every filter
to inactive, empties the grant queue, makes every profile section invalid and the siding UNCONFIGURED, clears the lock,
turns field enable off, unlocks the form, samples the unit address, clears the change sets and makes the first beat 1 s
away. The raw ESD level is an input and stays (log entry 27: the model's reading). -/
def Obligations.PinResetRestoresRecords : Prop :=
  ∀ (s : State) (straps : BitVec 3), ∃ t, exec (.pinReset straps) s = .next t ∧
    (∀ k, t.carSlot k = { issue := 0, car := none }) ∧
    (∀ i, (t.spot i).state = .vacant ∧ (t.spot i).car = none ∧ (t.spot i).holds = .empty ∧ (t.spot i).step = none ∧
      (t.spot i).standing = false ∧ (t.spot i).orders = [] ∧ (t.spot i).seat = none ∧ (t.spot i).activeVersion = 0 ∧
      (t.spot i).active = { flowHigh := 600, window := 10, stall := 60, recovery := 3600, creep := 50 } ∧
      (t.spot i).creep = 0 ∧ (t.spot i).fault = none ∧ (t.spot i).timer = .stopped ∧
      (t.spot i).recoveryTimer = .stopped ∧ (t.spot i).pulses = 0 ∧ (t.spot i).stall = .stopped ∧
      (t.spot i).window = .stopped ∧ (t.spot i).windowCount = 0 ∧ (t.spot i).bond = { active := false, count := 0 } ∧
      (t.spot i).hose = { active := false, count := 0 } ∧ (t.spot i).residual = { active := false, count := 0 } ∧
      (t.spot i).connectedButton = { active := false, count := 0 } ∧
      (t.spot i).stopButton = { active := false, count := 0 } ∧ (t.spot i).clearButton = { active := false, count := 0 } ∧
      ∀ n, (t.spot i).valve n =
        { command := .toShut, supervised := false, state := none, timer := .stopped, retest := false
          openLimit := { active := false, count := 0 }, shutLimit := { active := false, count := 0 } }) ∧
    (∀ v, t.vessel v =
      { service := .inService, trip := { active := false, count := 0 }, gaugedFree := 0, stamp := 0, counter := 0
        entries := [] }) ∧
    (∀ c, (t.comp c).state = .stopped ∧ (t.comp c).step = none ∧ (t.comp c).dir = none ∧ (t.comp c).seated = [] ∧
      (t.comp c).turning = none ∧ (t.comp c).fault = none ∧ (t.comp c).startOn = false ∧
      (t.comp c).startTimer = .stopped ∧ (t.comp c).runTimer = .stopped ∧ (t.comp c).pushMark = none ∧
      (t.comp c).drawMark = none ∧ (t.comp c).run = { active := false, count := 0 } ∧
      (t.comp c).faultInput = { active := false, count := 0 } ∧
      ∀ d, (t.comp c).valve d =
        { command := .toShut, supervised := false, state := none, timer := .stopped, retest := false
          openLimit := { active := false, count := 0 }, shutLimit := { active := false, count := 0 } }) ∧
    t.grants = [] ∧ t.inlets = 0 ∧ (∀ i, t.flowLamp i = false ∧ t.haltLamp i = false) ∧
    t.profile = { site := none, spots := none, vessels := none, protection := none } ∧ t.siding = .unconfigured ∧
    t.staged = { flowHigh := 600, window := 10, stall := 60, recovery := 3600, creep := 50 } ∧ t.stagedVersion = 0 ∧
    t.setpointHold = false ∧ t.tests = { spots := [], comps := [] } ∧ t.lockTaken = false ∧ t.lock = 0 ∧
    t.fe = false ∧ t.rearmRun = 0 ∧ t.beatTimer = .running 100 ∧ t.link.form = .unlocked ∧ t.link.unit = straps ∧
    t.link.incoming = none ∧ t.link.buffer = none ∧ t.link.sending = none ∧ t.link.discarded = false ∧
    t.link.lateSurplus = false ∧ t.changes = .none ∧ t.esdHigh = s.esdHigh ∧ t.pending = s.pending

/-- State.reset has the properties that every step keeps. At State.reset field enable is off while the ESD input is judged
active, the lock level is 0 and not taken, the siding is UNCONFIGURED with incomplete profile, every inlet permissive
follows its rule, no two records share a mark, the bindings agree, every queue (with every order behind a head QUEUED) and
every hold set fits its state, no spot owes work to an arrival and every unfitted spot stands quiet, and the rearm run is 0. -/
def Obligations.ResetHoldsTheInvariants : Prop :=
  State.reset.enableSafe ∧ State.reset.lockLegal ∧ State.reset.rearmLegal ∧ State.reset.configAgrees ∧
    State.reset.inletsFollow ∧ State.reset.marksUnique ∧ State.reset.bindingsAgree ∧
    (∀ i, (State.reset.spot i).queueLegal ∧ (State.reset.spot i).holdsLegal ∧ (State.reset.spot i).steady ∧
      State.reset.unfittedQuiet i) ∧ State.reset.fe = false ∧
    State.reset.esdActive = true

/-- Every step keeps field enable off while the ESD input is active, and the rearm run at 0 while it is on. From every state in
which field enable on means an inactive ESD input and a rearm run of 0, every step answers only states of that kind: no
request, beat, profile write or input change leaves field enable on over an active ESD input. -/
def Obligations.EnableOffWhileEsdActive : Prop :=
  ∀ s t : State, s.enableSafe → s.rearmLegal → step s = .next t → t.enableSafe ∧ t.rearmLegal

/-- Every step keeps the lock legal, and no step but PIN_RESET lowers the lock level or gives SET LOCK back. From every state
with a legal lock every step answers a state with a legal lock; and unless the command is PIN_RESET the lock level does not
fall, lock taken does not return to no, and a level once taken never moves. -/
def Obligations.LockOnlyRises : Prop :=
  ∀ s t : State, s.lockLegal → step s = .next t →
    t.lockLegal ∧
    ((∀ straps rest, s.pending ≠ .pinReset straps :: rest) →
      s.lock ≤ t.lock ∧ (s.lockTaken = true → t.lockTaken = true ∧ t.lock = s.lock))

/-- Every step leaves every spot owing nothing to an arrival, and every unfitted spot quiet. From every state in which the
queues fit (every order behind a head QUEUED and without an end reason among it), every unfitted spot stands in VACANT,
SPOTTED or FAULTED, and no spot owes work to an arrival of its valves (a shutoff valve OPEN in SHUTOFF_OPENING, a liquid
valve OPEN without a stall timer, a DRAINING head over a SHUT liquid valve, a SUSPENDED head in STAGED with its valves in
place, lines SHUT in LINES_CLOSING, a vent OPEN in VENT_OPENING or SHUT in VENT_CLOSING), every step answers only states of
that kind: the work of an arrival is done at its own event. -/
def Obligations.SpotsOweNothingBetweenEvents : Prop :=
  ∀ s t : State, (∀ i, (s.spot i).queueLegal ∧ s.unfittedQuiet i ∧ (s.spot i).steady) → step s = .next t →
    ∀ i, (t.spot i).queueLegal ∧ t.unfittedQuiet i ∧ (t.spot i).steady

/-- Every step keeps the siding UNCONFIGURED exactly while some profile section is not valid. From every state in which the
siding is UNCONFIGURED exactly while the profile is incomplete, every step answers only states of that kind; in particular
the siding never returns to UNCONFIGURED but at PIN_RESET. -/
def Obligations.UnconfiguredMeansIncomplete : Prop :=
  ∀ s t : State, s.configAgrees → step s = .next t →
    t.configAgrees ∧
    ((∀ straps rest, s.pending ≠ .pinReset straps :: rest) → s.siding ≠ .unconfigured → t.siding ≠ .unconfigured)

/-- Every step keeps every inlet permissive as the rule works it out. From every state whose inlet permissives stand as R102
works them out (on while a fitted vessel has a LIQUID order at the head of a queue whose liquid valve is not SHUT), every
step answers only states of that kind. -/
def Obligations.InletPermissivesFollow : Prop :=
  ∀ s t : State, s.inletsFollow → step s = .next t → t.inletsFollow

/-- Every step keeps the marks of the car table unique. From every state in which no two records hold the same mark, every step
answers only states of that kind. -/
def Obligations.MarksStayUnique : Prop :=
  ∀ s t : State, s.marksUnique → step s = .next t → t.marksUnique

/-- Reading the characters of a request gives the request. For every well-formed request of the table, on either form, reading
its code and the characters of its body gives that request with every operand, and leaves every character that follows. -/
def Obligations.RequestCharactersReadBack : Prop :=
  ∀ (c : Instr) (rest : List Byte), WellFormed c = true → knownCode (code c) = true →
    parse (route c) (code c) (body c ++ rest) = some (c, rest)

/-- A whole request is the sum of its characters. On a part that is not in the ASYNCHRONOUS form and has no partial request,
receiving the head character of a well-formed request on the clocked lines and then its body characters one by one leaves
the state that the whole request leaves. On a part that is not in the CLOCKED form, the same holds on the receive line of
the head character, the address character and the body characters, whichever unit the address names. That a request command
stands for all its characters is the model's choice (log entry 10). -/
def Obligations.RequestByCharacters : Prop :=
  ∀ (s : State) (c : Instr), WellFormed c = true → knownCode (code c) = true → s.link.incoming = none →
    (route c = .clocked → s.link.form ≠ .asynchronous →
      (body c).foldl (fun u ch => receiveBody .clocked ch u) (receiveHead .clocked (code c) s) = deliver c s) ∧
    (∀ a, route c = .async a → s.link.form ≠ .clocked →
      (a :: body c).foldl (fun u ch => receiveBody .receive ch u) (receiveHead .receive (code c) s) = deliver c s)

/-- A head character locks the form, discards what it breaks into, and begins or completes a request. On a part in the UNLOCKED
form with no partial request a head character on the receive line locks the form ASYNCHRONOUS, one on the clocked lines of a
request that has a body locks it CLOCKED; either sets the siding's flag and begins a request. In the ASYNCHRONOUS form a
head character begins the next request: the discarded flag stands where there was no partial request, and where there was
one it is discarded, with the flag set if it was addressed and as it stood if not. In the CLOCKED form the head character of
a request with a body begins that request: the discarded flag stands where there was neither a partial request nor a FETCH,
a partial request is discarded with the flag set, and a FETCH ends, which sets the flag where characters of its reply are
left. Outside the ASYNCHRONOUS form the head character of a request without a body, or of an unknown one, is the whole
request. On the line that the form ignores it changes nothing. -/
def Obligations.HeadCharacterBeginsRequest : Prop :=
  ∀ (s : State) (ch : Byte),
    (s.link.form = .unlocked → s.link.incoming = none → s.link.fetching = none →
      ∃ t, exec (.headCharacterReceived .receive ch) s = .next t ∧ t.frame = s.frame ∧
        t.link = { s.link with form := .asynchronous, answered := false, incoming := some { code := ch, addressing := .awaited, chars := [] } } ∧
        t.changes = { s.changes with siding := true }) ∧
    (s.link.form = .unlocked → s.link.incoming = none → s.link.fetching = none → knownCode ch = true →
      parse .clocked ch [] = none →
      ∃ t, exec (.headCharacterReceived .clocked ch) s = .next t ∧ t.frame = s.frame ∧
        t.link = { s.link with form := .clocked, answered := false, incoming := some { code := ch, addressing := .own, chars := [] } } ∧
        t.changes = { s.changes with siding := true }) ∧
    (∀ p, s.link.form = .asynchronous → s.link.incoming = some p → s.link.fetching = none →
      ∃ t, exec (.headCharacterReceived .receive ch) s = .next t ∧ t.frame = s.frame ∧
        t.link = { s.link with
          discarded := s.link.discarded || p.addressing != .awaited
          answered := false, incoming := some { code := ch, addressing := .awaited, chars := [] } }) ∧
    (s.link.form = .asynchronous → s.link.incoming = none → s.link.fetching = none →
      ∃ t, exec (.headCharacterReceived .receive ch) s = .next t ∧ t.frame = s.frame ∧ t.changes = s.changes ∧
        t.link = { s.link with answered := false, incoming := some { code := ch, addressing := .awaited, chars := [] } }) ∧
    (s.link.form = .asynchronous → exec (.headCharacterReceived .clocked ch) s = .next s) ∧
    (s.link.form = .clocked → exec (.headCharacterReceived .receive ch) s = .next s) ∧
    (s.link.form = .clocked → s.link.incoming = none → s.link.fetching = none → knownCode ch = true →
      parse .clocked ch [] = none →
      ∃ t, exec (.headCharacterReceived .clocked ch) s = .next t ∧ t.frame = s.frame ∧ t.changes = s.changes ∧
        t.link = { s.link with answered := false, incoming := some { code := ch, addressing := .own, chars := [] } }) ∧
    (∀ p, s.link.form = .clocked → s.link.incoming = some p → s.link.fetching = none → knownCode ch = true →
      parse .clocked ch [] = none →
      ∃ t, exec (.headCharacterReceived .clocked ch) s = .next t ∧ t.frame = s.frame ∧ t.changes = s.changes ∧
        t.link = { s.link with
          discarded := true, answered := false, incoming := some { code := ch, addressing := .own, chars := [] } }) ∧
    (∀ o, s.link.form = .clocked → s.link.incoming = none → s.link.fetching = some o → knownCode ch = true →
      parse .clocked ch [] = none →
      ∃ t, exec (.headCharacterReceived .clocked ch) s = .next t ∧ t.frame = s.frame ∧ t.changes = s.changes ∧
        t.link = { s.link with
          fetching := none, discarded := s.link.discarded || decide (o.sent < o.length), answered := false
          incoming := some { code := ch, addressing := .own, chars := [] } }) ∧
    (s.link.form ≠ .asynchronous → (∀ p, s.link.incoming = some p → p.code ≠ ch) →
      (∀ c, knownCode ch = true → parse .clocked ch [] = some (c, []) →
        exec (.headCharacterReceived .clocked ch) s = exec c s) ∧
      (knownCode ch = false →
        exec (.headCharacterReceived .clocked ch) s = exec (.unknownRequest .clocked ch) s))

/-- Deselection, a receive gap and a framing failure discard a partial request, and surplus characters mark a reply. In the
CLOCKED form the deassertion of select makes the partial request absent and sets the discarded flag, and ends a FETCH, whose
unsent characters set the flag too. In the ASYNCHRONOUS form a receive gap of more than 20 ms and a framing failure make it
absent and set the flag exactly when it was addressed to the part or a broadcast. Without a partial request a gap or a
framing failure changes nothing. No record changes. With no partial request and no FETCH under way, a body character on the
line of the locked form sets the surplus mark of the buffered reply (CLOCKED), the surplus mark of the reply in transmission
whose flags character has not gone, or else the late surplus flag (ASYNCHRONOUS), when the request last completed was
answered; it sets nothing otherwise. No record and no change flag moves. -/
def Obligations.DiscardsAndSurplusCharacters : Prop :=
  (∀ s : State,
     (∀ p, s.link.form = .clocked → s.link.incoming = some p → s.link.fetching = none →
       ∃ t, exec .selectDeasserted s = .next t ∧ t.frame = s.frame ∧ t.changes = s.changes ∧
         t.link = { s.link with incoming := none, discarded := true }) ∧
     (∀ o, s.link.form = .clocked → s.link.incoming = none → s.link.fetching = some o →
       ∃ t, exec .selectDeasserted s = .next t ∧ t.frame = s.frame ∧ t.changes = s.changes ∧
         t.link = { s.link with fetching := none, discarded := s.link.discarded || decide (o.sent < o.length) }) ∧
     (∀ p, s.link.form = .asynchronous → s.link.incoming = some p → ∀ c, c = .receiveGapExpiry ∨ c = .framingFailure →
       ∃ t, exec c s = .next t ∧ t.frame = s.frame ∧ t.changes = s.changes ∧
         t.link = { s.link with incoming := none, discarded := s.link.discarded || p.addressing != .awaited }) ∧
     (s.link.incoming = none → ∀ c, c = .receiveGapExpiry ∨ c = .framingFailure → exec c s = .next s) ∧
     (s.link.form = .asynchronous → exec .selectDeasserted s = .next s)) ∧
  (∀ (s : State) (ch : Byte), s.link.incoming = none → s.link.fetching = none →
     (∀ b, s.link.form = .clocked → s.link.answered = true → s.link.buffer = some b →
       ∃ t, exec (.surplusCharacter .clocked ch) s = .next t ∧ t.frame = s.frame ∧ t.changes = s.changes ∧
         t.link = { s.link with buffer := some { b with surplus := true } }) ∧
     (∀ o, s.link.form = .asynchronous → s.link.answered = true → s.link.sending = some o → o.flags = none →
       ∃ t, exec (.surplusCharacter .receive ch) s = .next t ∧ t.frame = s.frame ∧ t.changes = s.changes ∧
         t.link = { s.link with sending := some { o with surplus := true } }) ∧
     (s.link.form = .asynchronous → s.link.answered = true → (∀ o, s.link.sending = some o → o.flags ≠ none) →
       ∃ t, exec (.surplusCharacter .receive ch) s = .next t ∧ t.frame = s.frame ∧ t.changes = s.changes ∧
         t.link = { s.link with lateSurplus := true }) ∧
     (∀ line, s.link.answered = false → exec (.surplusCharacter line ch) s = .next s))

/-- A reply goes out character by character, its flags character composed as it is sent. Sending the flags character of a reply
in transmission composes it from the surplus mark or the late surplus flag, the discarded flag and the attention line as
they stand, and clears the discarded and late surplus flags. The stop bit of the last character ends the transmission. No
record and no change flag moves. In the CLOCKED form with no partial request and no FETCH under way, a FETCH takes the reply
out of the buffer for shifting out with its surplus mark, or a NOTHING reply when the buffer is empty, and leaves the buffer
empty. In the ASYNCHRONOUS form it is answered NOTHING. No record and no change flag moves. Transmit carries the reply's
status in a head character, its flags character and its body. In a FETCH each filler character (SURPLUS_CHARACTER there: the
model's reading, log entry 11) shifts out the next of these: data-out carries the status first, then the flags character,
whose filler (or FLAGS_CHARACTER_SENT, log entry 38) composes it and clears the discarded and late surplus flags, then the
body, and idle characters after the last, where a filler changes nothing. A clocked request other than FETCH buffers its
reply; where it replaces a reply that was not fetched the discarded flag is set, and where the buffer was empty and no
request or FETCH was broken into the flag stands. That data-out and transmit are worked out from the state is the model's
reading (log entry 22). -/
def Obligations.RepliesGoOut : Prop :=
  (∀ (s : State) (o : Outgoing), s.link.fetching = none → s.link.sending = some o →
     (o.flags = none →
       ∃ t, exec .flagsCharacterSent s = .next t ∧ t.frame = s.frame ∧ t.changes = s.changes ∧
         t.link = { s.link with
           sending := some { o with
             sent := 2
             flags := some ((if o.surplus || s.link.lateSurplus then 1 else 0) + (if s.link.discarded then 2 else 0)
               + (if s.changes.attention then 4 else 0)) }
           discarded := false, lateSurplus := false }) ∧
     (o.flags ≠ none →
       ∃ t, exec .replyTransmissionEnd s = .next t ∧ t.frame = s.frame ∧ t.changes = s.changes ∧
         t.link = { s.link with sending := none })) ∧
  (∀ s : State,
     (∀ b, s.link.form = .clocked → s.link.incoming = none → s.link.fetching = none → s.link.buffer = some b →
       ∃ t, exec (.fetch .clocked) s = .next t ∧ t.frame = s.frame ∧ t.changes = s.changes ∧
         t.link = { s.link with
           buffer := none, answered := false
           fetching := some { reply := b.reply, surplus := b.surplus, sent := 0, flags := none } }) ∧
     (s.link.form = .clocked → s.link.incoming = none → s.link.fetching = none → s.link.buffer = none →
       ∃ t, exec (.fetch .clocked) s = .next t ∧ t.frame = s.frame ∧ t.changes = s.changes ∧
         t.link = { s.link with
           answered := false
           fetching := some { reply := { status := .nothing, body := [] }, surplus := false, sent := 0, flags := none } }) ∧
     (∀ a, s.canTake (.async a) = true → ∃ t, s.answersOnly (.fetch (.async a)) .nothing [] t)) ∧
  (∀ s : State, s.link.fetching = none → s.link.sending = none →
     exec .flagsCharacterSent s = .next s ∧ exec .replyTransmissionEnd s = .next s) ∧
  (∀ (s : State) (o : Outgoing), s.link.fetching = none → s.link.sending = some o → s.link.form = .asynchronous →
     s.dataOut = none ∧
     s.transmits = { head := true, data := Layout.status o.reply.status }
       :: { head := false
            data := match o.flags with
              | some b => b
              | none => (if o.surplus || s.link.lateSurplus then 1 else 0) + (if s.link.discarded then 2 else 0)
                  + (if s.changes.attention then 4 else 0) }
       :: o.reply.body.map fun b => { head := false, data := b }) ∧
  (∀ (s : State) (ch : Byte), s.link.form ≠ .asynchronous →
     (s.link.fetching = none → s.dataOut = some { head := false, data := 0 }) ∧
     ∀ o, s.link.form = .clocked → s.link.incoming = none → s.link.fetching = some o →
       (o.sent = 0 → s.dataOut = some { head := true, data := Layout.status o.reply.status } ∧
         ∃ t, exec (.surplusCharacter .clocked ch) s = .next t ∧ t.frame = s.frame ∧ t.changes = s.changes ∧
           t.link = { s.link with fetching := some { o with sent := 1 } }) ∧
       (o.flags = none → ∀ f, f = (if o.surplus || s.link.lateSurplus then 1 else 0) + (if s.link.discarded then 2 else 0)
           + (if s.changes.attention then 4 else 0) →
         (o.sent = 1 → s.dataOut = some { head := false, data := f }) ∧
         ∀ c, c = .flagsCharacterSent ∨ (c = .surplusCharacter .clocked ch ∧ o.sent = 1) →
           ∃ t, exec c s = .next t ∧ t.frame = s.frame ∧ t.changes = s.changes ∧
             t.link = { s.link with
               fetching := some { o with sent := 2, flags := some f }, discarded := false, lateSurplus := false }) ∧
       (o.flags ≠ none → exec .flagsCharacterSent s = .next s) ∧
       (∀ b, 2 ≤ o.sent → o.reply.body[o.sent - 2]? = some b → s.dataOut = some { head := false, data := b } ∧
         ∃ t, exec (.surplusCharacter .clocked ch) s = .next t ∧ t.frame = s.frame ∧ t.changes = s.changes ∧
           t.link = { s.link with fetching := some { o with sent := o.sent + 1 } }) ∧
       (o.reply.body.length + 2 ≤ o.sent → s.dataOut = some { head := false, data := 0 } ∧
         exec (.surplusCharacter .clocked ch) s = .next s)) ∧
  (∀ (s : State) (c : Instr), s.link.form = .clocked → route c = .clocked → code c ≠ 34 →
     knownCode (code c) = true ∨ (∃ ch, c = .unknownRequest .clocked ch) →
     ∃ t, exec c s = .next t ∧ t.link.buffer.isSome = true ∧ t.link.answered = true ∧
       (s.link.incoming = none → t.link.fetching = none) ∧
       (s.link.buffer ≠ none → t.link.discarded = true) ∧
       (s.link.buffer = none → s.link.incoming = none → s.link.fetching = none → t.link.discarded = s.link.discarded))

/-- An unknown request is answered UNKNOWN, and a request for another unit is ignored whole. A request with no known code is
answered UNKNOWN with no body and changes no record and no flag. In the ASYNCHRONOUS form with no partial request, a request
with another unit's address, or a broadcast of a code that is not of the writing kind, leaves every record, every flag, the
reply in transmission and the discarded flag as they stand. -/
def Obligations.UnknownAndForeignRequests : Prop :=
  ∀ s : State,
    (∀ via ch, s.canTake via = true → knownCode ch = false → ∃ t, s.answersOnly (.unknownRequest via ch) .unknown [] t) ∧
    (∀ a ch, s.link.form = .asynchronous → s.link.incoming = none → s.link.fetching = none →
      a ≠ s.link.unit.setWidth 8 → (a ≠ 15 ∨ writingCode ch = false) →
      ∃ t, exec (.requestForAnotherUnit a ch) s = .next t ∧ t.frame = s.frame ∧ t.changes = s.changes ∧
        t.link = { s.link with answered := false })

/-- A broadcast writing request is executed without a reply, and a request that completes during a reply is not executed. On a
part that is not CLOCKED and sends no reply, a broadcast of a writing request has the effects that its owner's rules give on
the records as they stand, and gets no reply. While a reply is in transmission, a request addressed to the part and a
broadcast of a writing request change no record, get no reply, and set the discarded flag. -/
def Obligations.BroadcastsAndBusyReplies : Prop :=
  ∀ (s : State) (c : Instr), s.link.form ≠ .clocked →
    (route c = .async 15 → writingCode (code c) = true → s.link.sending = none →
      ∃ t u, exec c s = .next t ∧ t.link.sending = none ∧ u.frame = s.frame ∧
        t.frame = (closeEvent u (answer c (clearScratch u)).1).frame) ∧
    (∀ o, s.link.form = .asynchronous → s.link.sending = some o → knownCode (code c) = true →
      (route c = .async (s.link.unit.setWidth 8) ∨ (route c = .async 15 ∧ writingCode (code c) = true)) →
      ∃ t, exec c s = .next t ∧ t.frame = s.frame ∧ t.changes = s.changes ∧ t.link.sending = some o ∧
        t.link.discarded = true)

/-- Every step keeps cars and spots in agreement about each binding. From every state in which a spot names a car exactly when
that car's record names the spot, with the slot's current issue, and no ANNOUNCED car stands at a spot, every step answers
only states of that kind. -/
def Obligations.BindingsStayAgreed : Prop :=
  ∀ s t : State, s.bindingsAgree → step s = .next t → t.bindingsAgree

/-- Every step keeps every order queue and hold set fitting its spot's state. From every state whose hold sets are empty outside
HELD and whose queues fit (no order in VACANT, SPOTTED, PROVING, CONNECTED, STROKING and FAULTED, a head in STAGED, TRANSFER
and RECOVERY, at most a DRAINING head in ISOLATING and none once its lines have closed, no tag twice in one queue, an end
reason in a DRAINING order only, and every order behind the head QUEUED), every step answers only states of that kind. -/
def Obligations.QueuesStayLegal : Prop :=
  ∀ s t : State, (∀ i, (s.spot i).queueLegal ∧ (s.spot i).holdsLegal) → step s = .next t →
    ∀ i, (t.spot i).queueLegal ∧ (t.spot i).holdsLegal

/-- READ CAR, FIND and LIST CARS report the car table and change nothing. READ CAR of a slot above 23 is refused RANGE, of an
empty slot or with another issue number NO_RECORD, and otherwise answered DONE with the whole car record; FIND of a mark not
in form is refused RANGE, of one no record holds NO_RECORD, and otherwise answered with the record that holds it; LIST CARS
is answered with the count and the handles in ascending slot order. None of them changes a record or a flag, but for the
form lock of a first request. That a reply sends 1 as the presence character of a present optional field is the model's
choice (log entry 31). -/
def Obligations.CarReadsReport : Prop :=
  ∀ (s : State) (via : Via), s.canTake via = true →
    (∀ slot issue, 24 ≤ slot.toNat → ∃ t, s.answersOnly (.readCar via slot issue) .range [] t) ∧
    (∀ (k : SlotNo) issue, s.car k = none ∨ issue ≠ (s.carSlot k).issue →
      ∃ t, s.answersOnly (.readCar via (Layout.byteOf k.val) issue) .noRecord [] t) ∧
    (∀ (k : SlotNo) (c : Car), s.car k = some c →
      (∃ t, s.answersOnly (.readCar via (Layout.byteOf k.val) (s.carSlot k).issue) .done
        (Layout.car { slot := k, issue := (s.carSlot k).issue } c (s.viewOf c)) t) ∧
      (s.marksUnique → markOk c.mark = true → ∃ t, s.answersOnly (.find via c.mark) .done
        (Layout.car { slot := k, issue := (s.carSlot k).issue } c (s.viewOf c)) t)) ∧
    (∀ mark, markOk mark = false → ∃ t, s.answersOnly (.find via mark) .range [] t) ∧
    (∀ mark, markOk mark = true → (∀ k c, s.car k = some c → c.mark ≠ mark) →
      ∃ t, s.answersOnly (.find via mark) .noRecord [] t) ∧
    ∃ t, s.answersOnly (.listCars via) .done
      (nat8 (allSlots.filter fun k => (s.car k).isSome).length
        ++ (allSlots.filter fun k => (s.car k).isSome).flatMap fun k => [Layout.byteOf k.val, (s.carSlot k).issue]) t

/-- ANNOUNCE creates a record in the lowest empty slot, and RELEASE retires one and moves its slot's issue number on. ANNOUNCE
with a mark not in form, a grade beyond the list or a load outside 1 to 200,000 is refused RANGE; otherwise with a mark that
a record holds DUPLICATE; otherwise with every slot full FULL. Accepted, it puts an ANNOUNCED record with the given mark,
grade and load, nothing delivered, no last end and revision 0 into the lowest-numbered empty slot, whose issue number stays,
sets that slot's flag and no other car flag, answers the new handle and revision 0, and changes no other record. RELEASE
with a handle that names nothing is refused with an empty body, with another revision STALE, and of a car that is neither
ANNOUNCED nor SERVED and unbound PHASE, both with the current revision. Accepted, it empties the slot, raises its issue
number by one modulo 256, sets its flag, answers the mark, delivered total, recovered and last end, and changes no other
record. That a reply sends 1 as the presence character of a present optional field is the model's choice (log entry 31). -/
def Obligations.AnnounceCreatesAndReleaseRetires : Prop :=
  (∀ (s : State) (via : Via) (mark : List Byte) (grade : Byte) (load : Word32), s.canTake via = true →
     (markOk mark = false ∨ gradeOf grade = none ∨ load.toNat = 0 ∨ 200000 < load.toNat →
       ∃ t, s.turnsAway (.announce via mark grade load) .range [] t) ∧
     ∀ g, markOk mark = true → gradeOf grade = some g → 1 ≤ load.toNat → load.toNat ≤ 200000 →
       ((∃ k c, s.car k = some c ∧ c.mark = mark) →
         ∃ t, s.turnsAway (.announce via mark grade load) .duplicate [] t) ∧
       ((∀ k c, s.car k = some c → c.mark ≠ mark) →
         ((∀ k, s.car k ≠ none) → ∃ t, s.turnsAway (.announce via mark grade load) .full [] t) ∧
         ∀ k : SlotNo, s.car k = none → (∀ j, j < k → s.car j ≠ none) →
           ∃ t, s.answers (.announce via mark grade load) .done [Layout.byteOf k.val, (s.carSlot k).issue, 0, 0] t ∧
             t.frame = { s.frame with
               cars := s.cars.set k
                 { issue := (s.carSlot k).issue
                   car := some { mark, grade := g, load := load.toNat, phase := .announced, spot := none, hoses := false,
                                 delivered := 0, recovered := false, lastEnd := none, revision := 0 } } } ∧
             t.changes.cars = s.changes.cars ||| BitVec.twoPow 24 k)) ∧
  (∀ (s : State) (via : Via) (slot issue : Byte) (expected : Word16), s.canTake via = true →
     (∀ st, s.resolve slot issue = .error st → ∃ t, s.turnsAway (.release via slot issue expected) st [] t) ∧
     ∀ (k : SlotNo) (c : Car), s.resolve slot issue = .ok (k, c) →
       (expected ≠ c.revision → ∃ t, s.turnsAway (.release via slot issue expected) .stale (chars16 c.revision) t) ∧
       (expected = c.revision → ¬ (c.phase = .announced ∨ (c.phase = .served ∧ c.spot = none)) →
         ∃ t, s.turnsAway (.release via slot issue expected) .phase (chars16 c.revision) t) ∧
       (expected = c.revision → (c.phase = .announced ∨ (c.phase = .served ∧ c.spot = none)) →
         ∃ t, s.answers (.release via slot issue expected) .done
             (Layout.text c.mark ++ chars32 c.delivered ++ [boolByte c.recovered] ++ Layout.optional Layout.lastEnd c.lastEnd) t ∧
           t.frame = { s.frame with cars := s.cars.set k { issue := (s.carSlot k).issue + 1, car := none } } ∧
           t.changes.cars = s.changes.cars ||| BitVec.twoPow 24 k))

/-- AMEND makes its checks in order and changes the given fields at one event. A handle that names nothing is refused with an
empty body. Otherwise the refusals STALE, RANGE, PHASE, STATE, DUPLICATE and ALLOWANCE come in that order, each with the
current revision. An AMEND that gives no field is answered DONE and changes nothing; any other accepted AMEND writes the
given fields and raises the revision by one at one event, sets the slot's flag, answers the previous value of each given
field and the new revision, and changes no other record. That a reply sends 1 as the presence character of a present
optional field is the model's choice (log entry 31). -/
def Obligations.AmendChangesGivenFields : Prop :=
  ∀ (s : State) (via : Via) (slot issue : Byte) (expected : Word16) (mark : Option (List Byte)) (grade : Option Byte)
      (load : Option Word32) (hoses : Option Byte), s.canTake via = true →
    (∀ st, s.resolve slot issue = .error st →
      ∃ t, s.turnsAway (.amend via slot issue expected mark grade load hoses) st [] t) ∧
    ∀ (k : SlotNo) (c : Car), s.resolve slot issue = .ok (k, c) →
      (expected ≠ c.revision →
        ∃ t, s.turnsAway (.amend via slot issue expected mark grade load hoses) .stale (chars16 c.revision) t) ∧
      (expected = c.revision →
        (amendmentOf mark grade load hoses = none →
          ∃ t, s.turnsAway (.amend via slot issue expected mark grade load hoses) .range (chars16 c.revision) t) ∧
        ∀ a : Amendment, amendmentOf mark grade load hoses = some a →
          (a.phaseAllows c = false →
            ∃ t, s.turnsAway (.amend via slot issue expected mark grade load hoses) .phase (chars16 c.revision) t) ∧
          (a.phaseAllows c = true → s.hosesAmendable a c = false →
            ∃ t, s.turnsAway (.amend via slot issue expected mark grade load hoses) .state (chars16 c.revision) t) ∧
          (a.phaseAllows c = true → s.hosesAmendable a c = true → s.markTaken a k = true →
            ∃ t, s.turnsAway (.amend via slot issue expected mark grade load hoses) .duplicate (chars16 c.revision) t) ∧
          (a.phaseAllows c = true → s.hosesAmendable a c = true → s.markTaken a k = false → s.loadTooLow a c = true →
            ∃ t, s.turnsAway (.amend via slot issue expected mark grade load hoses) .allowance (chars16 c.revision) t) ∧
          (a.phaseAllows c = true → s.hosesAmendable a c = true → s.markTaken a k = false → s.loadTooLow a c = false →
            ((mark = none ∧ grade = none ∧ load = none ∧ hoses = none) →
              ∃ t, s.turnsAway (.amend via slot issue expected mark grade load hoses) .done
                ([0, 0, 0, 0] ++ chars16 c.revision) t) ∧
            (¬ (mark = none ∧ grade = none ∧ load = none ∧ hoses = none) →
              ∃ t, s.answers (.amend via slot issue expected mark grade load hoses) .done
                  (a.previous c ++ chars16 (c.revision + 1)) t ∧
                t.frame = { s.frame with
                  cars := s.cars.set k
                    { issue := (s.carSlot k).issue
                      car := some { c with
                        mark := a.mark.getD c.mark, grade := a.grade.getD c.grade, load := a.load.getD c.load
                        hoses := a.hoses.getD c.hoses, revision := c.revision + 1 } } } ∧
                t.changes.cars = s.changes.cars ||| BitVec.twoPow 24 k)))

/-- SPOT binds a car to a spot and UNSPOT unbinds it, each at one event. SPOT resolves its handle first, then the spot's number;
it is refused OCCUPIED at a spot with a car, STATE at one not VACANT, PHASE for a car neither ANNOUNCED nor SERVED and
unbound. Accepted, the spot becomes SPOTTED with the handle and the record names the spot, ANNOUNCED becoming PLACED and a
SERVED car's hoses cleared, with the revision raised once. UNSPOT at a SPOTTED spot, or a FAULTED one, with its car removes
both ends of the binding: hoses cleared, PLACED becoming ANNOUNCED, SPOTTED becoming VACANT and FAULTED staying. Each sets
both flags and changes no other record; UNSPOT elsewhere is refused STATE. -/
def Obligations.SpotBindsAndUnspotUnbinds : Prop :=
  ∀ (s : State) (via : Via) (place : Byte), s.canTake via = true →
    (∀ slot issue st, s.resolve slot issue = .error st → ∃ t, s.turnsAway (.spot via slot issue place) st [] t) ∧
    (∀ slot issue p st, s.resolve slot issue = .ok p → s.namedSpot place = .error st →
      ∃ t, s.turnsAway (.spot via slot issue place) st [] t) ∧
    (∀ slot issue k c i, s.resolve slot issue = .ok (k, c) → s.namedSpot place = .ok i →
      ((s.spot i).car ≠ none → ∃ t, s.turnsAway (.spot via slot issue place) .occupied [] t) ∧
      ((s.spot i).car = none → (s.spot i).state ≠ .vacant → ∃ t, s.turnsAway (.spot via slot issue place) .state [] t) ∧
      ((s.spot i).car = none → (s.spot i).state = .vacant → ¬ (c.phase = .announced ∨ (c.phase = .served ∧ c.spot = none)) →
        ∃ t, s.turnsAway (.spot via slot issue place) .phase [] t) ∧
      ((s.spot i).car = none → (s.spot i).state = .vacant → (c.phase = .announced ∨ (c.phase = .served ∧ c.spot = none)) →
        ∃ t, s.answers (.spot via slot issue place) .done (chars16 (c.revision + 1)) t ∧
          t.frame = { s.frame with
            cars := s.cars.set k
              { issue := (s.carSlot k).issue
                car := some { c with
                  spot := some i, phase := if c.phase = .announced then .placed else c.phase
                  hoses := if c.phase = .announced then c.hoses else false, revision := c.revision + 1 } }
            spots := s.spots.set i { s.spot i with state := .spotted, car := some { slot := k, issue } } } ∧
          t.changes.spots.getLsbD i = true ∧ t.changes.cars = s.changes.cars ||| BitVec.twoPow 24 k)) ∧
    (∀ i, s.namedSpot place = .ok i →
      (¬ ((s.spot i).state = .spotted ∨ ((s.spot i).state = .faulted ∧ (s.spot i).car ≠ none)) →
        ∃ t, s.turnsAway (.unspot via place) .state [] t) ∧
      (∀ h c, (s.spot i).state = .spotted ∨ (s.spot i).state = .faulted → (s.spot i).car = some h → s.car h.slot = some c →
        ∃ t, s.answers (.unspot via place) .done [] t ∧
          t.frame = { s.frame with
            cars := s.cars.set h.slot
              { issue := (s.carSlot h.slot).issue
                car := some { c with
                  spot := none, hoses := false, phase := if c.phase = .placed then .announced else c.phase
                  revision := c.revision + 1 } }
            spots := s.spots.set i { s.spot i with
              car := none, state := if (s.spot i).state = .spotted then .vacant else .faulted } } ∧
          t.changes.spots.getLsbD i = true ∧ t.changes.cars = s.changes.cars ||| BitVec.twoPow 24 h.slot))

/-- A request that names a spot, vessel or compressor is refused NOT_CONFIGURED, then RANGE. Every request that names a spot, a
vessel or a compressor is refused NOT_CONFIGURED while the siding is UNCONFIGURED, and otherwise RANGE where the number is
none of the part's or not fitted; both refusals change no record and carry no body. (SPOT resolves its handle first, and is
spoken of with the binding.) -/
def Obligations.NamedNumbersAreChecked : Prop :=
  ∀ (s : State) (via : Via) (b : Byte) (c : Instr), s.canTake via = true →
    ((c = .unspot via b ∨ c = .openSpot via b ∨ c = .isolate via b ∨ (∃ r, c = .clearHold via b r) ∨ c = .resume via b ∨
        c = .strokeSpot via b ∨ c = .readSpot via b ∨
        (∃ tag kind target vessel closeAfter, c = .placeOrder via b tag kind target vessel closeAfter) ∨
        (∃ tag target, c = .trim via b tag target) ∨ ∃ tag, c = .cancelOrder via b tag) →
      (s.siding = .unconfigured → ∃ t, s.turnsAway c .notConfigured [] t) ∧
      (s.siding ≠ .unconfigured → (∀ i : SpotNo, b.toNat = i.val → s.fittedSpot i = false) →
        ∃ t, s.turnsAway c .range [] t)) ∧
    (((∃ free stamp, c = .gauge via b free stamp) ∨ (∃ sv, c = .setVesselService via b sv) ∨ c = .readVessel via b) →
      (s.siding = .unconfigured → ∃ t, s.turnsAway c .notConfigured [] t) ∧
      (s.siding ≠ .unconfigured → (∀ v : VesselNo, b.toNat = v.val → s.fittedVessel v = false) →
        ∃ t, s.turnsAway c .range [] t)) ∧
    (c = .clearCompressor via b ∨ c = .readCompressor via b →
      (s.siding = .unconfigured → ∃ t, s.turnsAway c .notConfigured [] t) ∧
      (s.siding ≠ .unconfigured → (∀ k : CompNo, b.toNat = k.val → s.fittedComp k = false) →
        ∃ t, s.turnsAway c .range [] t))

/-- READ SPOT, READ VESSEL, READ COMPRESSOR and READ PROFILE report a record or section whole and change nothing. READ SPOT,
READ VESSEL and READ COMPRESSOR of a fitted number are answered DONE with the spot, vessel or compressor record in its
layout, in every siding state but UNCONFIGURED, and change no record and no flag but the siding's at the form lock of a
first request. READ PROFILE is refused RANGE for a section character above 3 and is otherwise answered DONE with the section
character and the section's layout: the fields of a valid section as they stand, 0 in every field of a SITE, SPOTS or
VESSELS section not yet valid, and the values in force for PROTECTION, of which the polarity before the first valid write is
the model's free value (log entry 5). It is taken in every siding state and with field enable on or off, and changes
nothing. That a reply sends 1 as the presence character of a present optional field is the model's choice (log entry 31). -/
def Obligations.PlantRecordsAndProfileAreReported : Prop :=
  (∀ (s : State) (via : Via) (b : Byte), s.canTake via = true →
     (∀ i, s.namedSpot b = .ok i → ∃ t, s.answersOnly (.readSpot via b) .done (Layout.spot i (s.spotView i)) t) ∧
     (∀ v, s.namedVessel b = .ok v → ∃ t, s.answersOnly (.readVessel via b) .done
       (Layout.vessel v (s.vesselView v) (s.vessel v).available (s.vessel v).reserved (s.vessel v).freeUnreserved) t) ∧
     (∀ c, s.namedComp b = .ok c → ∃ t, s.answersOnly (.readCompressor via b) .done (Layout.comp c (s.compView c)) t)) ∧
  (∀ (s : State) (via : Via), s.canTake via = true →
     (∀ sec, 3 < sec.toNat → ∃ t, s.answersOnly (.readProfile via sec) .range [] t) ∧
     (∃ t, s.answersOnly (.readProfile via 0) .done (0 :: match s.profile.site with
       | some p => nat8 p.spots ++ nat8 p.vessels ++ nat8 p.compressors ++ nat8 p.seats ++ nat16 p.overAllowance
           ++ nat8 p.startTime ++ nat16 p.runOnTime ++ nat8 p.proofTime ++ nat16 p.bleedTime ++ nat16 p.provingTime
       | none => List.replicate 14 0) t) ∧
     (∃ t, s.answersOnly (.readProfile via 1) .done (1 :: match s.profile.spots with
       | some p => p.divisors.toList.flatMap nat16 ++ nat8 p.strokes.shutoff ++ nat8 p.strokes.liquid ++ nat8 p.strokes.vapour
           ++ nat8 p.strokes.vent ++ nat8 p.strokes.direction
       | none => List.replicate 21 0) t) ∧
     (∃ t, s.answersOnly (.readProfile via 2) .done (2 :: match s.profile.vessels with
       | some p => p.data.toList.flatMap fun d => Layout.grade d.grade :: nat32 d.capacity
       | none => List.replicate 30 0) t) ∧
     (∃ t, s.answersOnly (.readProfile via 3) .done (3 :: match s.profile.protection with
       | some p => Layout.protectionSection p
       | none => Config.absentCharacter :: [0, 60, 60, 16, 16, 16, 16, 16, 16, 16, 0, 0, 0, 0, 0]) t))

/-- OPEN makes its checks in order and begins proving. After the number, OPEN is refused NOT_OPERATING outside OPERATING,
FIELD_OFF with field enable off, STATE at a spot not SPOTTED, NO_HOSES with hoses not confirmed, NO_BOND with bond inactive
and HOSE_PRESSURE with hose pressure active. Accepted, the spot becomes PROVING and its shutoff valve is commanded OPEN; a
SHUT shutoff valve under supervision starts to open with a full stroke time, in step SHUTOFF_OPENING. The spot's flag is set
and nothing but that spot changes. -/
def Obligations.OpenBeginsProving : Prop :=
  ∀ (s : State) (via : Via) (place : Byte) (i : SpotNo), s.canTake via = true → s.namedSpot place = .ok i →
    (s.siding ≠ .operating → ∃ t, s.turnsAway (.openSpot via place) .notOperating [] t) ∧
    (s.siding = .operating →
      (s.fe = false → ∃ t, s.turnsAway (.openSpot via place) .fieldOff [] t) ∧
      (s.fe = true →
        ((s.spot i).state ≠ .spotted → ∃ t, s.turnsAway (.openSpot via place) .state [] t) ∧
        ∀ h c, (s.spot i).state = .spotted → (s.spot i).car = some h → s.car h.slot = some c →
          (c.hoses = false → ∃ t, s.turnsAway (.openSpot via place) .noHoses [] t) ∧
          (c.hoses = true → (s.spot i).bond.active = false → ∃ t, s.turnsAway (.openSpot via place) .noBond [] t) ∧
          (c.hoses = true → (s.spot i).bond.active = true → (s.spot i).hose.active = true →
            ∃ t, s.turnsAway (.openSpot via place) .hosePressure [] t) ∧
          (c.hoses = true → (s.spot i).bond.active = true → (s.spot i).hose.active = false → (s.spot i).queueLegal →
            ∃ t, s.answers (.openSpot via place) .done [] t ∧
              (t.spot i).state = .proving ∧ (t.spot i).shutoff.command = .toOpen ∧ t.changes.spots.getLsbD i = true ∧
              t.frame = { s.frame with spots := s.spots.set i (t.spot i) } ∧
              ((s.spot i).shutoff.supervised = true → (s.spot i).shutoff.isShut = true →
                t.spot i = { s.spot i with
                  state := .proving, step := some .shutoffOpening
                  shutoff := { (s.spot i).shutoff with
                    command := .toOpen, state := some .movingOpen, timer := s.strokeOf .shutoff } }))))

/-- ISOLATE and ISOLATE ALL end the orders of spots and begin their isolations. ISOLATE at a spot in VACANT, SPOTTED, ISOLATING,
STROKING or FAULTED is refused STATE. At a spot in PROVING, CONNECTED, STAGED, TRANSFER, RECOVERY or HELD it is answered
DONE: the spot is ISOLATING, standing exactly when field enable is off, with an empty hold set, no seat, its line valves and
vent commanded SHUT unless the lines stand SHUT already, its timers stopped, and no order left but a DRAINING head; a
PROVING spot's last fault is STOPPED, any other keeps its last fault. The spot's flag is set and its HALT lamp lights. The
store changes in nothing, and where no head of another spot waits for a compressor, nothing changes but that spot with its
car, entries and seat. ISOLATE ALL is refused NOT_CONFIGURED while the siding is UNCONFIGURED. Otherwise it is answered DONE
with the count and the ascending numbers of the fitted spots in PROVING, CONNECTED, STAGED, TRANSFER, RECOVERY or HELD; each
of them is ISOLATING afterwards with an empty hold set and no order but a DRAINING head. Every other spot whose head does
not wait and that has no grant-queue entry stands as it was, and the store changes in nothing. -/
def Obligations.IsolateEndsTheQueues : Prop :=
  (∀ (s : State) (via : Via) (place : Byte) (i : SpotNo), s.canTake via = true → s.namedSpot place = .ok i →
     ((s.spot i).state.isolable = false → ∃ t, s.turnsAway (.isolate via place) .state [] t) ∧
     ((s.spot i).state.isolable = true → ∃ t, s.answers (.isolate via place) .done [] t ∧
       (t.spot i).state = .isolating ∧ (t.spot i).standing = !s.fe ∧ (t.spot i).holds = .empty ∧ (t.spot i).seat = none ∧
       (t.spot i).recoveryTimer = .stopped ∧ (t.spot i).stall = .stopped ∧ (t.spot i).window = .stopped ∧
       (t.spot i).car = (s.spot i).car ∧
       ((t.spot i).step = some .linesClosing ∨ (t.spot i).linesShut = true) ∧
       (t.spot i).shutoff.command = .toShut ∧ (t.spot i).liquid.command = .toShut ∧ (t.spot i).vapour.command = .toShut ∧
       ((t.spot i).step = some .linesClosing → (t.spot i).vent.command = .toShut) ∧
       (∀ o ∈ (t.spot i).orders, o.state = .draining) ∧
       (t.spot i).fault = (if (s.spot i).state = .proving then some .stopped else (s.spot i).fault) ∧
       t.changes.spots.getLsbD i = true ∧ t.haltLamp i = true ∧ s.sameStore t ∧
       (s.waitsNowhereBut i → s.onlyAt t i))) ∧
  (∀ (s : State) (via : Via), s.canTake via = true →
     (s.siding = .unconfigured → ∃ t, s.turnsAway (.isolateAll via) .notConfigured [] t) ∧
     (s.siding ≠ .unconfigured → ∃ t,
       s.answers (.isolateAll via) .done
         (nat8 (allSpots.filter fun i => s.fittedSpot i && (s.spot i).state.isolable).length
           ++ (allSpots.filter fun i => s.fittedSpot i && (s.spot i).state.isolable).map fun i => Layout.byteOf i.val) t ∧
       (∀ i, s.fittedSpot i = true → (s.spot i).state.isolable = true →
         (t.spot i).state = .isolating ∧ (t.spot i).standing = !s.fe ∧ (t.spot i).holds = .empty ∧
         ∀ o ∈ (t.spot i).orders, o.state = .draining) ∧
       (∀ i, ¬ (s.fittedSpot i = true ∧ (s.spot i).state.isolable = true) → ¬ (s.spot i).waits →
         (∀ g ∈ s.grants, g.spot ≠ i) → t.spot i = s.spot i) ∧
       s.sameStore t))

/-- CLEAR HOLD removes CREW_STOP or COMPRESSOR from a HELD spot. After the checks of the number, a reason beyond the list is
refused RANGE, a spot not HELD STATE, ESD or VESSEL_TRIP STATE. Otherwise the reason is removed, the reply is DONE with the
hold set afterwards, and the spot stays HELD; where the reason was present the spot's flag is set, where it was not nothing
changes and no flag is set. -/
def Obligations.ClearHoldRemovesAReason : Prop :=
  ∀ (s : State) (via : Via) (place reason : Byte), s.canTake via = true →
    (s.siding = .unconfigured → ∃ t, s.turnsAway (.clearHold via place reason) .notConfigured [] t) ∧
    (s.siding ≠ .unconfigured → (∀ i : SpotNo, place.toNat = i.val → s.fittedSpot i = false) →
      ∃ t, s.turnsAway (.clearHold via place reason) .range [] t) ∧
    ∀ i : SpotNo, s.siding ≠ .unconfigured → place.toNat = i.val → s.fittedSpot i = true →
      (3 < reason.toNat → ∃ t, s.turnsAway (.clearHold via place reason) .range [] t) ∧
      (reason.toNat ≤ 3 → (s.spot i).state ≠ .held → ∃ t, s.turnsAway (.clearHold via place reason) .state [] t) ∧
      ((s.spot i).state = .held →
        (reason = 1 ∨ reason = 2 → ∃ t, s.turnsAway (.clearHold via place reason) .state [] t) ∧
        ∀ r, (reason = 0 ∧ r = .crewStop) ∨ (reason = 3 ∧ r = .compressor) →
          ((s.spot i).holds.has r = true →
            ∃ t, s.answers (.clearHold via place reason) .done [Layout.holdSet ((s.spot i).holds.put r false)] t ∧
              t.frame = { s.frame with
                spots := s.spots.set i { s.spot i with holds := (s.spot i).holds.put r false } } ∧
              t.changes.spots.getLsbD i = true) ∧
          ((s.spot i).holds.has r = false →
            ∃ t, s.turnsAway (.clearHold via place reason) .done [Layout.holdSet (s.spot i).holds] t))

/-- RESUME leaves HELD with the shutoff valve commanded open. RESUME is refused STATE at a spot not HELD, HOLDS_REMAIN with the
hold set where any reason remains, and STATE where the head is DRAINING. Accepted at an empty queue, the spot is CONNECTED
with a cleared pulse remainder and its shutoff valve commanded OPEN, and the reply carries CONNECTED. Accepted with a
SUSPENDED head whose shutoff valve stands SHUT under supervision, the spot is STAGED, the head stays SUSPENDED, the valve
starts to open with field enable on, and the reply carries STAGED. Accepted with the shutoff valve OPEN and the liquid and
vapour valves SHUT, the head becomes WAITING and the arbiter scans at the same event; the reply carries the spot's state
after it (log entry 17). -/
def Obligations.ResumeOpensTheShutoff : Prop :=
  ∀ (s : State) (via : Via) (place : Byte) (i : SpotNo), s.canTake via = true → s.namedSpot place = .ok i →
    ((s.spot i).state ≠ .held → ∃ t, s.turnsAway (.resume via place) .state [] t) ∧
    ((s.spot i).state = .held → (s.spot i).holds ≠ .empty →
      ∃ t, s.turnsAway (.resume via place) .holdsRemain [Layout.holdSet (s.spot i).holds] t) ∧
    ((s.spot i).state = .held → (s.spot i).holds = .empty → (s.spot i).headIs .draining = true →
      ∃ t, s.turnsAway (.resume via place) .state [] t) ∧
    ((s.spot i).state = .held → (s.spot i).holds = .empty → (s.spot i).orders = [] →
      ∃ t, s.answers (.resume via place) .done [3] t ∧
        (t.spot i).state = .connected ∧ (t.spot i).pulses = 0 ∧ (t.spot i).shutoff.command = .toOpen ∧
        (t.spot i).holds = .empty ∧ t.changes.spots.getLsbD i = true ∧ s.sameStore t ∧
        (s.waitsNowhereBut i → (s.spot i).seat = none → s.grants = [] → s.onlyAt t i)) ∧
    ((s.spot i).state = .held → (s.spot i).holds = .empty → (s.spot i).headIs .suspended = true →
      ((s.spot i).shutoff.supervised = true → (s.spot i).shutoff.isShut = true → s.fe = true →
        ∃ t, s.answers (.resume via place) .done [4] t ∧
          (t.spot i).state = .staged ∧ (t.spot i).orders = (s.spot i).orders ∧
          (t.spot i).shutoff = { (s.spot i).shutoff with
            command := .toOpen, state := some .movingOpen, timer := s.strokeOf .shutoff } ∧
          t.changes.spots.getLsbD i = true ∧ s.sameStore t) ∧
      ((s.spot i).shutoff.isOpen = true → (s.spot i).liquid.isShut = true → (s.spot i).vapour.isShut = true → s.fe = true →
        ∃ t u, s.answers (.resume via place) .done [Layout.spotState (t.spot i).state] t ∧
          u.frame = { s.frame with
            spots := s.spots.set i ({ s.spot i with
              state := .staged, shutoff := { (s.spot i).shutoff with command := .toOpen } }.modHead
                fun o => { o with state := .waiting }) } ∧
          (t.spot i) = (settle u).spot i ∧ t.comps = (settle u).comps ∧ t.grants = (settle u).grants ∧ s.sameStore t))

/-- STROKE SPOT makes its checks in order and begins a stroke test. After the number, STROKE SPOT is refused NOT_OPERATING
outside OPERATING, FIELD_OFF with field enable off, STATE at a spot not VACANT, SPOTTED or FAULTED, HOSE_PRESSURE with hose
pressure active, and OCCUPIED with a car bound and the shutoff valve in FAULT. Accepted with its vent valve SHUT under
supervision and no valve in FAULT, the spot is STROKING in step VENT OPENING, its vent valve has been commanded OPEN and
starts to move with a full stroke time, the valves under test that are not the vent are commanded SHUT, and its last fault
stays. Accepted with its vent valve in FAULT and only its shut limit active, and no other valve in FAULT, the vent valve is
retested: it stands as a SHUT valve commanded OPEN would. The spot's flag is set and nothing but that spot changes. -/
def Obligations.StrokeSpotBeginsTheTest : Prop :=
  ∀ (s : State) (via : Via) (place : Byte) (i : SpotNo), s.canTake via = true → s.namedSpot place = .ok i →
    (s.siding ≠ .operating → ∃ t, s.turnsAway (.strokeSpot via place) .notOperating [] t) ∧
    (s.siding = .operating → s.fe = false → ∃ t, s.turnsAway (.strokeSpot via place) .fieldOff [] t) ∧
    (s.siding = .operating → s.fe = true →
      (¬ ((s.spot i).state = .vacant ∨ (s.spot i).state = .spotted ∨ (s.spot i).state = .faulted) →
        ∃ t, s.turnsAway (.strokeSpot via place) .state [] t) ∧
      ((s.spot i).state = .vacant ∨ (s.spot i).state = .spotted ∨ (s.spot i).state = .faulted →
        ((s.spot i).hose.active = true → ∃ t, s.turnsAway (.strokeSpot via place) .hosePressure [] t) ∧
        ((s.spot i).hose.active = false → (s.spot i).car ≠ none → (s.spot i).shutoff.isFault = true →
          ∃ t, s.turnsAway (.strokeSpot via place) .occupied [] t) ∧
        ((s.spot i).hose.active = false → (s.spot i).vent.supervised = true →
          (s.spot i).vent.isShut = true ∨ ((s.spot i).vent.isFault = true ∧ (s.spot i).vent.shutLimit.active = true ∧
            (s.spot i).vent.openLimit.active = false) →
          (s.spot i).shutoff.isFault = false → (s.spot i).liquid.isFault = false → (s.spot i).vapour.isFault = false →
          (s.spot i).queueLegal →
          ∃ t, s.answers (.strokeSpot via place) .done [] t ∧
            (t.spot i).state = .stroking ∧ (t.spot i).step = some (.stroking .vent false) ∧
            (t.spot i).fault = (s.spot i).fault ∧ (t.spot i).car = (s.spot i).car ∧
            (t.spot i).vent = { (s.spot i).vent with
              command := .toOpen, state := some .movingOpen, timer := s.strokeOf .vent
              retest := (s.spot i).vent.retest || (s.spot i).vent.isFault } ∧
            (t.spot i).liquid.command = .toShut ∧ (t.spot i).vapour.command = .toShut ∧
            ((s.spot i).car = none → (t.spot i).shutoff.command = .toShut) ∧
            t.changes.spots.getLsbD i = true ∧ t.frame = { s.frame with spots := s.spots.set i (t.spot i) })))

/-- READ SIDING reports the siding record and changes nothing. READ SIDING is answered DONE, in every siding state and with
field enable on or off, with the siding state, field enable, the ESD raw level, the lock level and lock taken, the form that
is locked (by the request itself where nothing had locked one), the unit address, the setpoint hold, the staged version and
the part revision code 3, and changes nothing. -/
def Obligations.ReadSidingReportsTheSiding : Prop :=
  ∀ (s : State) (via : Via), s.canTake via = true →
    ∃ t, s.answersOnly (.readSiding via) .done
      ([Layout.sidingState s.siding, if s.fe then 1 else 0, if s.esdHigh then 1 else 0, BitVec.ofNat 8 s.lock,
        if s.lockTaken then 1 else 0,
        match via with
          | .clocked => 0
          | .async _ => 1,
        BitVec.ofNat 8 s.link.unit.toNat, if s.setpointHold then 1 else 0] ++ chars16 s.stagedVersion ++ [3]) t

/-- TAKE CHANGES returns the five change sets and clears them. TAKE CHANGES is answered DONE with the car slot, spot, vessel,
compressor and siding flags as they stand, the siding's set already where the request itself has locked the form (log entry
23), every flag is clear afterwards and the attention line inactive, and no record changes. -/
def Obligations.TakeChangesReturnsAndClears : Prop :=
  ∀ (s : State) (via : Via), s.canTake via = true →
    ∃ t, s.answers (.takeChanges via) .done
        [s.changes.cars.extractLsb' 0 8, s.changes.cars.extractLsb' 8 8, s.changes.cars.extractLsb' 16 8, s.changes.spots,
         s.changes.vessels.setWidth 8, s.changes.comps.setWidth 8,
         if s.changes.siding = true ∨ s.link.form = .unlocked then 1 else 0] t ∧
      t.frame = s.frame ∧ t.changes = { cars := 0, spots := 0, vessels := 0, comps := 0, siding := false } ∧
      t.changes.attention = false

/-- PLACE ORDER appends an order with its reservation, and makes it head of an empty queue. PLACE ORDER of an order in range,
whose tag is new to the queue and, for a LIQUID order, whose litres and vessel are allowed, at a spot that takes orders with
fewer than four in its queue. Behind other orders, where the spot owes nothing to an arrival and nothing is due to the
arbiter, the order is appended QUEUED, a LIQUID order's reservation of its whole target is appended to its vessel's list,
the reply is DONE with QUEUED, its position, its vessel and its remainder, the spot's flag is set and nothing else changes.
At an empty queue in HELD it becomes head SUSPENDED, the spot takes a pending staged set, and VESSEL_TRIP stands in the hold
set exactly when its vessel is tripped. At an empty queue in CONNECTED with an empty hold set, with no head waiting
elsewhere and both compressors FAULTED, the spot becomes STAGED with the order WAITING and its entry in the grant queue,
unless its vessel is tripped: then it is HELD with the order SUSPENDED. That a reply sends 1 as the presence character of a
present optional field is the model's choice (log entry 31). -/
def Obligations.PlaceOrderJoinsTheQueue : Prop :=
  ∀ (s : State) (via : Via) (place : Byte) (i : SpotNo) (tag : Word16) (kind : Byte) (target : Option Word32)
      (vessel : Option Byte) (closeAfter : Byte) (r : OrderRequest) (l : Option Liquid),
    s.canTake via = true → s.namedSpot place = .ok i → s.siding = .operating → (s.spot i).state.takesOrders = true →
    (s.spot i).orders.length < 4 → (s.spot i).hasTag tag = false →
    orderRequestOf tag kind target vessel closeAfter = some r →
    (match r.liquid with
      | none => l = none
      | some lr => ∃ c v, s.boundCar i = some c ∧ s.judgeLiquid c lr = .ok v ∧
          l = some { target := lr.target, vessel := v, delivered := 0 }) →
    ((s.spot i).orders ≠ [] → (s.spot i).steady → s.due = none →
      (∀ x, l = some x → (s.vessel x.vessel).remainder i tag = none) →
      ∃ t, s.answers (.placeOrder via place tag kind target vessel closeAfter) .done
          ([0, BitVec.ofNat 8 ((s.spot i).orders.length + 1)]
            ++ (match l with
              | some x => [1, Layout.byteOf x.vessel.val, 1] ++ nat32 x.target
              | none => [0, 0])) t ∧
        t.frame = { s.frame with
          spots := s.spots.set i { s.spot i with
            orders := (s.spot i).orders
              ++ [{ tag := tag, liquid := l, closeAfter := r.closeAfter, state := .queued, reason := none }] }
          vessels := match l with
            | some x => s.vessels.set x.vessel { s.vessel x.vessel with
                entries := (s.vessel x.vessel).entries ++ [{ spot := i, tag := tag, remainder := x.target }] }
            | none => s.vessels } ∧
        t.changes.spots.getLsbD i = true) ∧
    ((s.spot i).orders = [] → (s.spot i).state = .held →
      ∃ t st b, s.answers (.placeOrder via place tag kind target vessel closeAfter) st b t ∧ st = .done ∧
        (t.spot i).state = .held ∧
        (t.spot i).orders =
          [{ tag := tag, liquid := l, closeAfter := r.closeAfter, state := .suspended, reason := none }] ∧
        (t.spot i).holds = { (s.spot i).holds with
          vesselTrip := match l with
            | some x => (s.vessel x.vessel).trip.active
            | none => false } ∧
        (t.spot i).activeVersion = (if s.setpointHold then (s.spot i).activeVersion else s.stagedVersion) ∧
        (∀ x, l = some x → { t.vessel x.vessel with entries := [] } = { s.vessel x.vessel with entries := [] }) ∧
        t.changes.spots.getLsbD i = true ∧ s.sameStore t) ∧
    ((s.spot i).orders = [] → (s.spot i).state = .connected → (s.spot i).holds = .empty → s.waitsNowhere →
      (s.spot i).seat = none →
      (∀ c, (s.comp c).state = .faulted) →
      ∃ t st b, s.answers (.placeOrder via place tag kind target vessel closeAfter) st b t ∧ st = .done ∧
        (if (match l with
              | some x => (s.vessel x.vessel).trip.active
              | none => false) then
          (t.spot i).state = .held ∧ (t.spot i).headIs .suspended = true ∧ (t.spot i).holds.vesselTrip = true ∧
            t.grants = []
        else (t.spot i).state = .staged ∧ (t.spot i).headIs .waiting = true ∧
          t.grants = [{ spot := i, dir := if l.isSome then .push else .draw }]) ∧
        (t.spot i).orders.map (·.tag) = [tag] ∧ t.changes.spots.getLsbD i = true ∧ s.sameStore t)

/-- PLACE ORDER makes its checks in the rules' order. After the number, PLACE ORDER is refused NOT_OPERATING outside OPERATING,
STATE at a spot that takes no orders, QUEUE_FULL with four orders queued, DUPLICATE with the tag in the queue, RANGE for an
argument out of range or out of place, and a LIQUID order ALLOWANCE where its target with the committed litres exceeds the
declared load and the over-allowance. A named vessel is refused RANGE above 5 or unfitted, SERVICE out of service, GRADE of
another grade than the car, ULLAGE with less free unreserved ullage than the target; ANY is refused GRADE where no fitted
vessel in service has the car's grade and ULLAGE where no such vessel that is not tripped has room. -/
def Obligations.PlaceOrderRefusals : Prop :=
  ∀ (s : State) (via : Via) (place : Byte) (i : SpotNo) (tag : Word16) (kind : Byte) (target : Option Word32)
      (vessel : Option Byte) (closeAfter : Byte) (c : Instr),
    s.canTake via = true → s.namedSpot place = .ok i → c = .placeOrder via place tag kind target vessel closeAfter →
    (s.siding ≠ .operating → ∃ t, s.turnsAway c .notOperating [] t) ∧
    (s.siding = .operating →
      ((s.spot i).state.takesOrders = false → ∃ t, s.turnsAway c .state [] t) ∧
      ((s.spot i).state.takesOrders = true →
        (4 ≤ (s.spot i).orders.length → ∃ t, s.turnsAway c .queueFull [] t) ∧
        ((s.spot i).orders.length < 4 →
          ((s.spot i).hasTag tag = true → ∃ t, s.turnsAway c .duplicate [] t) ∧
          ((s.spot i).hasTag tag = false →
            (orderRequestOf tag kind target vessel closeAfter = none → ∃ t, s.turnsAway c .range [] t) ∧
            ∀ (w : Word32) (b : Byte) (ca : Bool) (car : Car), kind = 0 → target = some w → vessel = some b →
              boolOf closeAfter = some ca → 1 ≤ w.toNat → w.toNat ≤ 200000 → s.boundCar i = some car →
              (car.load + s.site (·.overAllowance) < s.committed car + w.toNat → ∃ t, s.turnsAway c .allowance [] t) ∧
              (s.committed car + w.toNat ≤ car.load + s.site (·.overAllowance) →
                (b ≠ 255 → (∀ v : VesselNo, b.toNat = v.val → s.fittedVessel v = false) →
                  ∃ t, s.turnsAway c .range [] t) ∧
                (∀ v : VesselNo, b.toNat = v.val → s.fittedVessel v = true →
                  ((s.vessel v).service = .outOfService → ∃ t, s.turnsAway c .service [] t) ∧
                  ((s.vessel v).service = .inService →
                    ((s.vesselData v).map (·.grade) ≠ some car.grade → ∃ t, s.turnsAway c .grade [] t) ∧
                    ((s.vesselData v).map (·.grade) = some car.grade → (s.vessel v).freeUnreserved < w.toNat →
                      ∃ t, s.turnsAway c .ullage [] t))) ∧
                (b = 255 →
                  ((∀ v, s.suits car.grade v = false) → ∃ t, s.turnsAway c .grade [] t) ∧
                  ((∃ v, s.suits car.grade v = true) →
                    (∀ v, s.suits car.grade v = true → (s.vessel v).trip.active = false →
                      (s.vessel v).freeUnreserved < w.toNat) →
                    ∃ t, s.turnsAway c .ullage [] t)))))))

/-- TRIM lowers an order's target and its reservation, and ends an order it overtakes. TRIM of a tag not in the queue is refused
NO_RECORD, of a RECOVERY or DRAINING order STATE, to a target of 0 or not below the present one RANGE. A target above the
order's delivered, where the queue fits the spot and the spot owes nothing to an arrival and nothing is due to the arbiter,
becomes the order's target, lowers its remainder by the difference and answers the previous and new targets, the remainder
and the order's state; nothing else changes. A target at or below the delivered of a RUNNING head whose liquid valve is OPEN
decides TRIMMED: the head is DRAINING with that reason and the new target, off its seat, with its liquid valve moving shut.
That a reply sends 1 as the presence character of a present optional field is the model's choice (log entry 31). -/
def Obligations.TrimLowersTheTarget : Prop :=
  ∀ (s : State) (via : Via) (place : Byte) (i : SpotNo) (tag : Word16) (target : Word32),
    s.canTake via = true → s.namedSpot place = .ok i →
    ((s.spot i).order tag = none → ∃ t, s.turnsAway (.trim via place tag target) .noRecord [] t) ∧
    ∀ o, (s.spot i).order tag = some o →
      (o.liquid = none ∨ o.state = .draining → ∃ t, s.turnsAway (.trim via place tag target) .state [] t) ∧
      ∀ l, o.liquid = some l → o.state ≠ .draining →
        (target.toNat = 0 ∨ l.target ≤ target.toNat → ∃ t, s.turnsAway (.trim via place tag target) .range [] t) ∧
        (∀ rem, l.delivered.toNat < target.toNat → target.toNat < l.target →
          (s.spot i).queueLegal → (s.spot i).steady → s.due = none →
          (s.vessel l.vessel).remainder i tag = some rem →
          ∃ t, s.answers (.trim via place tag target) .done
              (nat32 l.target ++ chars32 target ++ nat32 (rem - (l.target - target.toNat))
                ++ [1, Layout.orderState o.state]) t ∧
            t.frame = { s.frame with
              spots := s.spots.set i { s.spot i with
                orders := (s.spot i).orders.map fun p =>
                  if p.tag = tag then { p with liquid := some { l with target := target.toNat } } else p }
              vessels := s.vessels.set l.vessel { s.vessel l.vessel with
                entries := (s.vessel l.vessel).entries.map fun e =>
                  if e.spot = i ∧ e.tag = tag then { e with remainder := e.remainder - (l.target - target.toNat) } else e } } ∧
            t.changes.spots.getLsbD i = true) ∧
        (∀ rem, 1 ≤ target.toNat → target.toNat ≤ l.delivered.toNat → target.toNat < l.target →
          (s.spot i).state = .transfer → (s.spot i).head = some o → o.state = .running →
          (s.spot i).liquid.supervised = true → (s.spot i).liquid.isOpen = true →
          (s.vessel l.vessel).remainder i tag = some rem →
          ∃ t, s.answers (.trim via place tag target) .done
              (nat32 l.target ++ chars32 target ++ nat32 (rem - (l.target - target.toNat)) ++ [1, 4]) t ∧
            (t.spot i).head = some { o with
              state := .draining, reason := some .trimmed, liquid := some { l with target := target.toNat } } ∧
            (t.spot i).state = .transfer ∧ (t.spot i).seat = none ∧ (t.spot i).stall = .stopped ∧
            (t.spot i).liquid = { (s.spot i).liquid with
              command := .toShut, state := some .movingShut, timer := s.strokeOf .liquid } ∧
            t.changes.spots.getLsbD i = true ∧ s.sameStore t ∧ (s.waitsNowhereBut i → s.onlyAt t i))

/-- CANCEL ORDER takes a waiting order out and drains a running head. CANCEL ORDER of a tag not in the queue is refused
NO_RECORD and of a DRAINING order STATE. An order behind the head, where the queue fits the spot and the spot owes nothing
to an arrival and nothing is due to the arbiter, leaves at once with its reservation; the reply carries no state, its last
end with reason CANCELLED is written to the bound car with one revision, and nothing else changes. A RUNNING LIQUID head
whose liquid valve is OPEN drains with reason CANCELLED: off its seat, with its liquid valve moving shut, and the reply
carries DRAINING. That a reply sends 1 as the presence character of a present optional field is the model's choice (log
entry 31), and so is that the revision rises also where the last end written equals the one before (log entry 20). -/
def Obligations.CancelWithdrawsAnOrder : Prop :=
  ∀ (s : State) (via : Via) (place : Byte) (i : SpotNo) (tag : Word16),
    s.canTake via = true → s.namedSpot place = .ok i →
    ((s.spot i).order tag = none → ∃ t, s.turnsAway (.cancelOrder via place tag) .noRecord [] t) ∧
    ∀ o, (s.spot i).order tag = some o →
      (o.state = .draining → ∃ t, s.turnsAway (.cancelOrder via place tag) .state [] t) ∧
      (∀ h hd c, o.state ≠ .draining → (s.spot i).head = some h → h.tag ≠ tag →
        (s.spot i).queueLegal → (s.spot i).steady → s.due = none →
        (s.spot i).car = some hd → s.car hd.slot = some c →
        ∃ t, s.answers (.cancelOrder via place tag) .done [0] t ∧
          t.frame = { s.frame with
            spots := s.spots.set i { s.spot i with orders := (s.spot i).orders.filter fun p => p.tag ≠ tag }
            vessels := match o.liquid with
              | some l => s.vessels.set l.vessel { s.vessel l.vessel with
                  entries := (s.vessel l.vessel).entries.filter fun e => ¬ (e.spot = i ∧ e.tag = tag) }
              | none => s.vessels
            cars := s.cars.set hd.slot
              { issue := (s.carSlot hd.slot).issue
                car := some { c with
                  lastEnd := some
                    { tag := tag, kind := o.kind, reason := .cancelled
                      delivered := match o.liquid with
                        | some l => l.delivered
                        | none => 0 }
                  revision := c.revision + 1 } } } ∧
          t.changes.spots.getLsbD i = true ∧ t.changes.cars = s.changes.cars ||| BitVec.twoPow 24 hd.slot) ∧
      (∀ l, o.liquid = some l → o.state = .running → (s.spot i).head = some o → (s.spot i).state = .transfer →
        (s.spot i).liquid.supervised = true → (s.spot i).liquid.isOpen = true →
        ∃ t, s.answers (.cancelOrder via place tag) .done [1, 4] t ∧
          (t.spot i).head = some { o with state := .draining, reason := some .cancelled } ∧
          (t.spot i).state = .transfer ∧ (t.spot i).seat = none ∧ (t.spot i).stall = .stopped ∧
          (t.spot i).liquid = { (s.spot i).liquid with
            command := .toShut, state := some .movingShut, timer := s.strokeOf .liquid } ∧
          t.changes.spots.getLsbD i = true ∧ s.sameStore t ∧ (s.waitsNowhereBut i → s.onlyAt t i))

/-- GAUGE takes a free-space reading and cuts reservations that no longer fit. GAUGE is refused RANGE with a free above the
capacity and BAD_STAMP with a stamp more than 1,000,000 litres behind the delivery counter, both with the counter. Accepted,
the vessel takes the free and the stamp and keeps its counter, its flag is set, the store changes in nothing, and afterwards
the reserved total does not exceed the available ullage. Where it did not exceed it before any cut and nothing is due to the
arbiter, nothing else changes, and the reply carries the previous free and stamp, the counter, the new available ullage, the
reserved total and no litres cut. With legal queues and no order named twice in the list, the reply carries the previous
free and stamp, the counter, the new available ullage, the reserved total after the cut, which is the smaller of the two,
the litres cut, which are the excess, and the count of orders that are not DRAINING whose entry the cut brings to 0. That
the reply's reserved total is the one the cut leaves, before the departures that follow it, is the model's reading (log
entry 18). -/
def Obligations.GaugeSetsTheUllage : Prop :=
  ∀ (s : State) (via : Via) (b : Byte) (v : VesselNo) (free stamp : Word32),
    s.canTake via = true → s.namedVessel b = .ok v →
    (s.capacity v < free.toNat →
      ∃ t, s.turnsAway (.gauge via b free stamp) .range (chars32 (s.vessel v).counter) t) ∧
    (free.toNat ≤ s.capacity v → 1000000 < ((s.vessel v).counter - stamp).toNat →
      ∃ t, s.turnsAway (.gauge via b free stamp) .badStamp (chars32 (s.vessel v).counter) t) ∧
    (free.toNat ≤ s.capacity v → ((s.vessel v).counter - stamp).toNat ≤ 1000000 →
      (∃ t rb, s.answers (.gauge via b free stamp) .done rb t ∧
        (t.vessel v).gaugedFree = free.toNat ∧ (t.vessel v).stamp = stamp ∧ (t.vessel v).counter = (s.vessel v).counter ∧
        (t.vessel v).reserved ≤ (t.vessel v).available ∧ t.changes.vessels.getLsbD v = true ∧
        (∀ w, w ≠ v → { t.vessel w with entries := [] } = { s.vessel w with entries := [] }) ∧ s.sameStore t) ∧
      (s.due = none → (∀ i, (s.spot i).queueLegal) → (s.vessel v).reserved ≤ free.toNat - ((s.vessel v).counter - stamp).toNat →
        ∃ t, s.answers (.gauge via b free stamp) .done
            (nat32 (s.vessel v).gaugedFree ++ chars32 (s.vessel v).stamp ++ chars32 (s.vessel v).counter
              ++ nat32 (free.toNat - ((s.vessel v).counter - stamp).toNat) ++ nat32 (s.vessel v).reserved
              ++ [0, 0, 0, 0, 0]) t ∧
          t.frame = { s.frame with
            vessels := s.vessels.set v { s.vessel v with gaugedFree := free.toNat, stamp := stamp } } ∧
          t.changes.vessels.getLsbD v = true) ∧
      (∀ r : Vessel, r = { s.vessel v with gaugedFree := free.toNat, stamp := stamp } → (∀ i, (s.spot i).queueLegal) →
        (r.entries.map fun e => (e.spot, e.tag)).Nodup →
        ∃ t, s.answers (.gauge via b free stamp) .done
            (nat32 (s.vessel v).gaugedFree ++ chars32 (s.vessel v).stamp ++ chars32 r.counter ++ nat32 r.available
              ++ nat32 (min r.reserved r.available) ++ nat32 (r.reserved - r.available)
              ++ nat8 ((r.entries.zip r.afterCuts.entries).filter fun p => p.1.remainder != 0 && p.2.remainder == 0 &&
                  ((s.spot p.1.spot).order p.1.tag).any fun o => o.liquid.isSome && o.state != .draining).length) t))

/-- The cut rule takes the excess from the newest reservations, and their orders follow. For every vessel record: after the cut
rule the reserved total is the smaller of the reserved total and the available ullage; the entries keep their order, spots
and tags, none grows, and an entry is cut only where every newer entry has been cut to 0; nothing else of the record
changes. At a GAUGE, with legal queues and no order named twice in the list, the litres taken from an entry are taken from
its order's target; an order that is not DRAINING and whose entry comes to 0 has left with its entry, or is the DRAINING
head with reason CUT where its liquid valve was not SHUT; a DRAINING order keeps its state and reason. Where the excess is
less than the newest entry and nothing else is owed or due, that entry and its order's target are lowered and nothing else
changes. A RUNNING head over an OPEN liquid valve whose entry comes to 0 drains: off its seat, its stall timer stopped, its
liquid valve moving shut. At a litre credited to an order whose remainder is 0, or that has no entry, the counter rises by
one, the reserved total comes to at most the available ullage, and what has been said of the orders at a GAUGE holds of
every order but the credited one. Where the excess is then less than the newest entry, the credit is not the order's target,
the rate window is not exceeded and nothing else is owed or due, the litre is credited to its order, its car and its vessel,
the newest entry and its order's target are lowered, and nothing else changes. That LITRE_EMITTED makes a litre whole
whatever the pulse remainder stood at is the model's reading (log entry 12). -/
def Obligations.CutsTakeTheNewestAndTheirOrders : Prop :=
  (∀ r : Vessel,
     r.afterCuts.reserved = min r.reserved r.available ∧
     { r.afterCuts with entries := [] } = { r with entries := [] } ∧
     r.afterCuts.entries.length = r.entries.length ∧
     ∀ (n : Nat) (e f : Entry), r.entries[n]? = some e → r.afterCuts.entries[n]? = some f →
       f.spot = e.spot ∧ f.tag = e.tag ∧ f.remainder ≤ e.remainder ∧
       (f.remainder < e.remainder → ∀ (m : Nat) (g : Entry), n < m → r.afterCuts.entries[m]? = some g → g.remainder = 0)) ∧
  (∀ (s : State) (via : Via) (b : Byte) (v : VesselNo) (free stamp : Word32) (r : Vessel) (c : Instr),
     s.canTake via = true → s.namedVessel b = .ok v → free.toNat ≤ s.capacity v →
     ((s.vessel v).counter - stamp).toNat ≤ 1000000 → c = .gauge via b free stamp →
     r = { s.vessel v with gaugedFree := free.toNat, stamp := stamp } → (∀ i, (s.spot i).queueLegal) →
     (r.entries.map fun e => (e.spot, e.tag)).Nodup →
     (∃ t, exec c s = .next t ∧
       ∀ (i : SpotNo) (tag : Word16) (o : Order) (l : Liquid), (s.spot i).order tag = some o → o.liquid = some l →
         (∀ o', (t.spot i).order tag = some o' →
           o'.liquid = some { l with
             target := l.target - ((r.remainder i tag).getD 0 - (r.afterCuts.remainder i tag).getD 0) } ∧
           (o.state = .draining → o'.state = .draining ∧ o'.reason = o.reason)) ∧
         (∀ n, r.remainder i tag = some (n + 1) → r.afterCuts.remainder i tag = some 0 → o.state ≠ .draining →
           ((t.spot i).order tag = none ∧ (l.vessel = v → (t.vessel v).remainder i tag = none)) ∨
           (∃ o', (t.spot i).order tag = some o' ∧ o'.state = .draining ∧ o'.reason = some .cut ∧
             (s.spot i).head = some o ∧ (s.spot i).headDrains = true))) ∧
     (∀ front i tag rem o l, r.entries = front ++ [{ spot := i, tag := tag, remainder := rem }] →
       r.available < r.reserved → r.reserved < r.available + rem → (s.spot i).order tag = some o → o.liquid = some l →
       (∀ j, (s.spot j).steady ∧ (s.spot j).state ≠ .stroking) → s.due = none →
       ∃ t, exec c s = .next t ∧
         t.frame = { s.frame with
           vessels := s.vessels.set v { r with
             entries := front ++ [{ spot := i, tag := tag, remainder := rem - (r.reserved - r.available) }] }
           spots := s.spots.set i { s.spot i with
             orders := (s.spot i).orders.map fun p =>
               if p.tag = tag then { p with liquid := some { l with target := l.target - (r.reserved - r.available) } }
               else p } } ∧
         t.changes.spots.getLsbD i = true ∧ t.changes.vessels.getLsbD v = true) ∧
     (∀ i h rest l n, (s.spot i).orders = h :: rest → h.liquid = some l → h.state = .running →
       (s.spot i).state = .transfer → (s.spot i).liquid.supervised = true → (s.spot i).liquid.isOpen = true →
       r.remainder i h.tag = some (n + 1) → r.afterCuts.remainder i h.tag = some 0 →
       ∃ t, exec c s = .next t ∧ (t.spot i).state = .transfer ∧ (t.spot i).seat = none ∧ (t.spot i).stall = .stopped ∧
         (t.spot i).head = some { h with
           state := .draining, reason := some .cut, liquid := some { l with target := l.target - (n + 1) } } ∧
         (t.spot i).liquid = (s.spot i).liquid.shutting (s.strokeOf .liquid) ∧
         (t.vessel v).remainder i h.tag = some 0 ∧ t.changes.spots.getLsbD i = true)) ∧
  (∀ (s : State) (i : SpotNo) (c : Instr) (d : Nat) (h : Order) (l : Liquid) (r : Vessel),
     s.fittedSpot i = true → s.divisor i = some d → c = .litreEmitted i ∨ (c = .meterPulse i ∧ (s.spot i).pulses + 1 = d) →
     (s.spot i).head = some h → h.liquid = some l → (s.spot i).liquid.passing = true →
     r = { s.vessel l.vessel with counter := (s.vessel l.vessel).counter + 1 } → (∀ n, r.remainder i h.tag ≠ some (n + 1)) →
     (∀ j, (s.spot j).queueLegal) → (r.entries.map fun e => (e.spot, e.tag)).Nodup →
     (∃ t, exec c s = .next t ∧ (t.vessel l.vessel).counter = r.counter ∧
       (t.vessel l.vessel).reserved ≤ (t.vessel l.vessel).available ∧
       ∀ (j : SpotNo) (tag : Word16) (o : Order) (lo : Liquid), (s.spot j).order tag = some o → o.liquid = some lo →
         ¬ (j = i ∧ tag = h.tag) →
         (∀ o', (t.spot j).order tag = some o' →
           o'.liquid = some { lo with
             target := lo.target - ((r.remainder j tag).getD 0 - (r.afterCuts.remainder j tag).getD 0) } ∧
           (o.state = .draining → o'.state = .draining ∧ o'.reason = o.reason)) ∧
         (∀ n, r.remainder j tag = some (n + 1) → r.afterCuts.remainder j tag = some 0 → o.state ≠ .draining →
           ((t.spot j).order tag = none ∧ (lo.vessel = l.vessel → (t.vessel l.vessel).remainder j tag = none)) ∨
           (∃ o', (t.spot j).order tag = some o' ∧ o'.state = .draining ∧ o'.reason = some .cut ∧
             (s.spot j).head = some o ∧ (s.spot j).headDrains = true))) ∧
     (∀ front j tag rem o lo hd car, r.entries = front ++ [{ spot := j, tag := tag, remainder := rem }] →
       r.available < r.reserved → r.reserved < r.available + rem → (s.spot j).order tag = some o → o.liquid = some lo →
       l.delivered ≠ BitVec.allOnes 32 → (h.state ≠ .draining → l.delivered.toNat + 1 ≠ l.target) →
       ((s.spot i).window.isRunning = true → (s.spot i).windowCount + 1 ≤ (s.spot i).active.flowHigh) →
       (s.spot i).car = some hd → s.car hd.slot = some car →
       (∀ k, (s.spot k).steady ∧ (s.spot k).state ≠ .stroking) → s.due = none →
       ∃ t, exec c s = .next t ∧
         t.frame = { s.frame with
           spots := Vector.ofFn fun k =>
             let sp := if k = i then
                 { s.spot i with
                   pulses := 0
                   orders := { h with liquid := some { l with delivered := l.delivered + 1 } } :: (s.spot i).orders.tail
                   stall := if h.state = .running ∧ (s.spot i).stall.isRunning = true then .seconds (s.spot i).active.stall
                     else (s.spot i).stall
                   windowCount := if (s.spot i).window.isRunning = true then (s.spot i).windowCount + 1
                     else (s.spot i).windowCount }
               else s.spot k
             if k = j then
               { sp with
                 orders := sp.orders.map fun p =>
                   if p.tag = tag then { p with liquid := some { lo with target := lo.target - (r.reserved - r.available) } }
                   else p }
             else sp
           vessels := s.vessels.set l.vessel { r with
             entries := front ++ [{ spot := j, tag := tag, remainder := rem - (r.reserved - r.available) }] }
           cars := s.cars.set hd.slot
             { issue := (s.carSlot hd.slot).issue
               car := some { car with delivered := car.delivered + 1, revision := car.revision + 1 } } } ∧
         t.changes.spots.getLsbD i = true ∧ t.changes.spots.getLsbD j = true ∧
         t.changes.vessels.getLsbD l.vessel = true))

/-- SET VESSEL SERVICE, STAGE SETPOINTS and SETPOINT HOLD write their one record, and SET LOCK is taken once. SET VESSEL SERVICE
is refused RANGE for a character beyond the list and RESERVED out of service with an entry standing; accepted it writes the
service, answers the previous one and sets the vessel's flag where it differs. STAGE SETPOINTS with a value out of range is
refused RANGE; accepted it replaces the staged set, raises the staged version by one modulo 65,536, answers the previous set
and both versions and sets the siding's flag. SETPOINT HOLD is refused RANGE for a character other than 0 or 1; accepted it
writes the hold, answers the previous one and sets the siding's flag where it differs. None of them changes anything else.
SET LOCK above 3 is refused RANGE; a second SET LOCK is refused ONCE with the level; the first sets the level, marks the
lock taken, answers the level, sets the siding's flag and changes nothing else. -/
def Obligations.ServiceSetpointsAndLock : Prop :=
  (∀ (s : State) (via : Via), s.canTake via = true →
     (∀ b v, s.namedVessel b = .ok v →
       (∀ sv, 1 < sv.toNat → ∃ t, s.turnsAway (.setVesselService via b sv) .range [] t) ∧
       ((s.vessel v).entries ≠ [] → ∃ t, s.turnsAway (.setVesselService via b 1) .reserved [] t) ∧
       (∀ sv x, (sv = 0 ∧ x = Service.inService) ∨ (sv = 1 ∧ x = Service.outOfService ∧ (s.vessel v).entries = []) →
         ∃ t, s.answers (.setVesselService via b sv) .done [Layout.service (s.vessel v).service] t ∧
           t.frame = { s.frame with vessels := s.vessels.set v { s.vessel v with service := x } } ∧
           (x ≠ (s.vessel v).service → t.changes.vessels.getLsbD v = true))) ∧
     (∀ flowHigh window stall recovery creep,
       (¬ ((1 ≤ flowHigh.toNat ∧ flowHigh.toNat ≤ 10000) ∧ (1 ≤ window.toNat ∧ window.toNat ≤ 60) ∧
           (5 ≤ stall.toNat ∧ stall.toNat ≤ 600) ∧ (60 ≤ recovery.toNat ∧ recovery.toNat ≤ 14400) ∧
           (1 ≤ creep.toNat ∧ creep.toNat ≤ 1000)) →
         ∃ t, s.turnsAway (.stageSetpoints via flowHigh window stall recovery creep) .range [] t) ∧
       (((1 ≤ flowHigh.toNat ∧ flowHigh.toNat ≤ 10000) ∧ (1 ≤ window.toNat ∧ window.toNat ≤ 60) ∧
           (5 ≤ stall.toNat ∧ stall.toNat ≤ 600) ∧ (60 ≤ recovery.toNat ∧ recovery.toNat ≤ 14400) ∧
           (1 ≤ creep.toNat ∧ creep.toNat ≤ 1000)) →
         ∃ t, s.answers (.stageSetpoints via flowHigh window stall recovery creep) .done
             (Layout.setpoints s.staged ++ chars16 s.stagedVersion ++ chars16 (s.stagedVersion + 1)) t ∧
           t.frame = { s.frame with
             staged := { flowHigh := flowHigh.toNat, window := window.toNat, stall := stall.toNat
                         recovery := recovery.toNat, creep := creep.toNat }
             stagedVersion := s.stagedVersion + 1 } ∧
           t.changes.siding = true)) ∧
     (∀ value, 1 < value.toNat → ∃ t, s.turnsAway (.setpointHold via value) .range [] t) ∧
     (∀ value b, (value = 0 ∧ b = false) ∨ (value = 1 ∧ b = true) →
       ∃ t, s.answers (.setpointHold via value) .done [if s.setpointHold then 1 else 0] t ∧
         t.frame = { s.frame with setpointHold := b } ∧ (b ≠ s.setpointHold → t.changes.siding = true))) ∧
  (∀ (s : State) (via : Via) (level : Byte), s.canTake via = true →
     (3 < level.toNat → ∃ t, s.turnsAway (.setLock via level) .range [] t) ∧
     (level.toNat ≤ 3 → s.lockTaken = true → ∃ t, s.turnsAway (.setLock via level) .once [BitVec.ofNat 8 s.lock] t) ∧
     (level.toNat ≤ 3 → s.lockTaken = false →
       ∃ t, s.answers (.setLock via level) .done [level] t ∧
         t.frame = { s.frame with lock := level.toNat, lockTaken := true } ∧ t.changes.siding = true))

/-- CLEAR COMPRESSOR brings a FAULTED compressor whose causes are gone to STOPPED. CLEAR COMPRESSOR is refused STATE for a
compressor that is not FAULTED, whose fault input is active or whose direction valve stands in FAULT. Otherwise it is
answered DONE and the store changes in nothing; where no head waits and the grant queue is empty, the compressor is STOPPED
without a direction and keeps its last fault, its flag is set, and no spot, vessel, car and no other compressor changes. -/
def Obligations.ClearCompressorStops : Prop :=
  ∀ (s : State) (via : Via) (b : Byte) (c : CompNo), s.canTake via = true → s.namedComp b = .ok c →
    ((s.comp c).state ≠ .faulted ∨ (s.comp c).faultInput.active = true ∨ (s.comp c).push.isFault = true ∨
        (s.comp c).draw.isFault = true → ∃ t, s.turnsAway (.clearCompressor via b) .state [] t) ∧
    ((s.comp c).state = .faulted → (s.comp c).faultInput.active = false → (s.comp c).push.isFault = false →
      (s.comp c).draw.isFault = false →
      ∃ t, s.answers (.clearCompressor via b) .done [] t ∧ s.sameStore t ∧
        (s.waitsNowhere →
          (t.comp c).state = .stopped ∧ (t.comp c).dir = none ∧ (t.comp c).fault = (s.comp c).fault ∧
          t.changes.comps.getLsbD c = true ∧ t.frame = { s.frame with comps := s.comps.set c (t.comp c) }))

/-- REARM turns field enable on where the ESD input is inactive. REARM with the ESD input active is refused ESD_ACTIVE. With
field enable on already it is answered DONE with on and changes nothing. Otherwise it is answered DONE with on, field enable
is on, the rearm run is 0 and the siding's flag is set; every fitted spot that was HELD has ESD removed, every spot in
VACANT, SPOTTED or FAULTED keeps its state, and every fitted spot that was standing in ISOLATING stands no more; the
profile, the setpoints, the lock and the ESD level change in nothing. -/
def Obligations.RearmTurnsFieldEnableOn : Prop :=
  ∀ (s : State) (via : Via), s.canTake via = true →
    (s.esdActive = true → ∃ t, s.turnsAway (.rearm via) .esdActive [] t) ∧
    (s.esdActive = false → s.fe = true → ∃ t, s.turnsAway (.rearm via) .done [1] t) ∧
    (s.esdActive = false → s.fe = false →
      ∃ t, s.answers (.rearm via) .done [1] t ∧ t.fe = true ∧ t.rearmRun = 0 ∧ t.changes.siding = true ∧
        (∀ i, s.fittedSpot i = true → (s.spot i).state = .held → (t.spot i).holds.esd = false) ∧
        (∀ i, (s.spot i).state = .vacant ∨ (s.spot i).state = .spotted ∨ (s.spot i).state = .faulted →
          (s.spot i).queueLegal → (t.spot i).state = (s.spot i).state) ∧
        (∀ i, s.fittedSpot i = true → (s.spot i).state = .isolating → (s.spot i).standing = true →
          (t.spot i).standing = false) ∧
        t.profile = s.profile ∧ t.staged = s.staged ∧ t.stagedVersion = s.stagedVersion ∧
        t.setpointHold = s.setpointHold ∧ t.lock = s.lock ∧ t.lockTaken = s.lockTaken ∧ t.esdHigh = s.esdHigh ∧
        t.beatTimer = s.beatTimer)

/-- WRITE PROFILE makes its checks in order and stores one section. WRITE PROFILE whose section or any field is out of range is
refused RANGE; otherwise, where it changes a field the lock freezes, LOCKED; otherwise, for SITE, SPOTS and VESSELS while
the siding is not quiet, NOT_QUIET; otherwise, where it would leave a spot with a car unfitted, OCCUPIED. Accepted, the
section is stored and the other three stand, the siding's flag is set, the reply carries whether the section was valid
before and the siding state after; an UNCONFIGURED siding becomes CONFIGURED exactly when all four sections are valid, an
OPERATING one becomes CONFIGURED by a SITE, SPOTS or VESSELS write, and a CONFIGURED one stays. A VESSELS write clears the
gauge of each vessel whose grade or capacity changes, and the setpoints and the lock change in nothing. A PROTECTION write
that judges the ESD input active turns a field enable that was on off, with the rearm run 0, and leaves both otherwise;
where it changes the dead-time, a STARTING compressor whose partner's mark is no younger than the new one goes on to
VALVE_OPENING; where it leaves the dead-time and field enable, no compressor, spot or grant-queue entry changes, and a guard
that has been met waits for its expiry (log entry 7). Where the unfitted spots are quiet, the queues legal and the grant
queue empty: the valves that a SITE or SPOTS write puts under supervision are commanded SHUT and take their state from their
limits, one in FAULT keeping it and both limits active making one (its spot or compressor FAULTED), with the direction
valves' marks; those it takes from supervision keep their state, command SHUT, their timer stopped; a compressor it removes
is STOPPED unless FAULTED, one it fits with its fault input active is FAULTED with FAULT_INPUT, also where a valve faults at
the same take-up (the model's choice, log entry 14); and a SPOTS write clears the pulse remainder of each spot whose divisor
changes and of no other. -/
def Obligations.WriteProfileStoresASection : Prop :=
  ∀ (s : State) (via : Via) (sec : Byte) (fields : List Byte), s.canTake via = true →
    (sectionOf sec fields = none → ∃ t, s.turnsAway (.writeProfile via sec fields) .range [] t) ∧
    ∀ w, sectionOf sec fields = some w →
      (s.lockAllows w = false → ∃ t, s.turnsAway (.writeProfile via sec fields) .locked [] t) ∧
      (s.lockAllows w = true → w.isQuietClass = true → s.quiet = false →
        ∃ t, s.turnsAway (.writeProfile via sec fields) .notQuiet [] t) ∧
      (s.lockAllows w = true → (w.isQuietClass = true → s.quiet = true) → s.strands w = true →
        ∃ t, s.turnsAway (.writeProfile via sec fields) .occupied [] t) ∧
      (s.lockAllows w = true → (w.isQuietClass = true → s.quiet = true) → s.strands w = false →
        ∃ t, s.answers (.writeProfile via sec fields) .done
            [if s.sectionValid w then 1 else 0, Layout.sidingState t.siding] t ∧
          t.profile = (match w with
            | .site p => { s.profile with site := some p }
            | .spots p => { s.profile with spots := some p }
            | .vessels p => { s.profile with vessels := some p }
            | .protection p => { s.profile with protection := some p }) ∧
          t.changes.siding = true ∧
          (s.siding = .unconfigured → t.siding = if t.profile.complete then .configured else .unconfigured) ∧
          (s.siding = .operating → w.isQuietClass = true → t.siding = .configured) ∧
          (s.siding = .configured → t.siding = .configured) ∧
          (∀ p v, w = .vessels p → s.vesselData v ≠ some p.data[v] →
            (t.vessel v).gaugedFree = 0 ∧ (t.vessel v).stamp = (s.vessel v).counter) ∧
          t.staged = s.staged ∧ t.stagedVersion = s.stagedVersion ∧ t.setpointHold = s.setpointHold ∧
          t.lock = s.lock ∧ t.lockTaken = s.lockTaken ∧ t.esdHigh = s.esdHigh ∧
          (∀ p, w = .protection p →
            (s.fe = true → t.esdActive = true → t.fe = false ∧ t.rearmRun = 0) ∧
            (s.fe = false ∨ t.esdActive = false → t.fe = s.fe ∧ t.rearmRun = s.rearmRun) ∧
            (p.deadTime = s.protection.deadTime → s.fe = false ∨ t.esdActive = false → s.due = none →
              t.comps = s.comps ∧ t.spots = s.spots ∧ t.grants = s.grants) ∧
            (∀ c d age, p.deadTime ≠ s.protection.deadTime → s.fe = true → t.esdActive = false → s.fittedComp c = true → (s.comp c).state = .starting →
              (s.comp c).step = some .deadTime → (s.comp c).dir = some d → ((s.comp c).valve d.other).isShut = true →
              (s.comp c).mark d.other = some age → p.deadTime * 100 ≤ age → ((s.comp c).valve d).isShut = true →
              ((s.comp c).valve d).supervised = true → s.waitsNowhere →
              (t.comp c).step = some .valveOpening ∧
              (t.comp c).valve d = ((s.comp c).valve d).opening s.strokeOfDirection)) ∧
          (w.isQuietClass = true → s.grants = [] → (∀ i, s.unfittedQuiet i ∧ (s.spot i).queueLegal) →
            (∀ i n, s.supervisesSpot i = false → t.supervisesSpot i = true →
              (((s.spot i).valve n).isFault = true →
                (t.spot i).valve n = { (s.spot i).valve n with command := .toShut, supervised := true }) ∧
              (((s.spot i).valve n).isFault = false →
                (((s.spot i).valve n).shutLimit.active = true → ((s.spot i).valve n).openLimit.active = false →
                  (t.spot i).valve n = { (s.spot i).valve n with
                    command := .toShut, supervised := true, state := some .shut, timer := .stopped }) ∧
                (((s.spot i).valve n).shutLimit.active = false →
                  (t.spot i).valve n = { (s.spot i).valve n with
                    command := .toShut, supervised := true, state := some .movingShut, timer := t.strokeOf n }) ∧
                (((s.spot i).valve n).shutLimit.active = true → ((s.spot i).valve n).openLimit.active = true →
                  (t.spot i).valve n = { (s.spot i).valve n with
                    command := .toShut, supervised := true, state := some .fault, timer := .stopped } ∧
                  (t.spot i).state = .faulted))) ∧
            (∀ i n, s.supervisesSpot i = true → t.supervisesSpot i = false →
              (t.spot i).valve n = { (s.spot i).valve n with
                command := .toShut, supervised := false, timer := .stopped }) ∧
            (∀ c d, s.supervisesComp c = false → t.supervisesComp c = true → (s.comp c).state ≠ .proof →
              (((s.comp c).valve d).isFault = true →
                (t.comp c).valve d = { (s.comp c).valve d with command := .toShut, supervised := true }) ∧
              (((s.comp c).valve d).isFault = false →
                (((s.comp c).valve d).shutLimit.active = true → ((s.comp c).valve d).openLimit.active = false →
                  (t.comp c).valve d = { (s.comp c).valve d with
                    command := .toShut, supervised := true, state := some .shut, timer := .stopped } ∧
                  (t.comp c).mark d = some 0) ∧
                (((s.comp c).valve d).shutLimit.active = false →
                  (t.comp c).valve d = { (s.comp c).valve d with
                    command := .toShut, supervised := true, state := some .movingShut, timer := t.strokeOfDirection } ∧
                  (t.comp c).mark d = none) ∧
                (((s.comp c).valve d).shutLimit.active = true → ((s.comp c).valve d).openLimit.active = true →
                  ((t.comp c).valve d).isFault = true ∧ (t.comp c).state = .faulted))) ∧
            (∀ c d, s.supervisesComp c = true → t.supervisesComp c = false →
              (t.comp c).valve d = { (s.comp c).valve d with
                command := .toShut, supervised := false, timer := .stopped } ∧ (t.comp c).mark d = (s.comp c).mark d) ∧
            (∀ c, s.fittedComp c = true → t.fittedComp c = false → (s.comp c).state ≠ .faulted →
              (t.comp c).state = .stopped ∧ (t.comp c).dir = none ∧ (t.comp c).startOn = false ∧
              (t.comp c).startTimer = .stopped ∧ (t.comp c).runTimer = .stopped) ∧
            (∀ c, s.fittedComp c = false → t.fittedComp c = true → (s.comp c).state ≠ .faulted →
              (s.comp c).faultInput.active = true →
              (t.comp c).state = .faulted ∧ (t.comp c).fault = some .faultInput ∧ (t.comp c).startOn = false) ∧
            (∀ p (i : SpotNo), w = .spots p →
              (t.spot i).pulses = if s.divisor i = some p.divisors[i] then (s.spot i).pulses else 0)))

/-- COMMISSION makes its checks in order and begins every test. COMMISSION is refused STATE unless the siding is CONFIGURED,
FIELD_OFF with field enable off, and NOT_QUIET while the siding is not quiet. Otherwise it is answered DONE with the siding
state and the counts of spots and compressors still under test. A siding with any test under way is COMMISSIONING, and one
whose tests have all ended at the request is OPERATING. A fitted spot with hose pressure active is FAULTED with PRESSURE and
under test no more, also where a car is bound and the shutoff valve in FAULT (the model's choice, log entry 33). A fitted
spot with hose pressure inactive, its vent valve SHUT under supervision and no valve in FAULT is STROKING in step VENT
OPENING and under test, and with any such spot the siding is COMMISSIONING. A fitted compressor with its fault input active
is FAULTED and under test no more. A fitted spot with a car, its shutoff valve in FAULT and hose pressure inactive keeps its
state and is under test no more. A fitted compressor with its fault input inactive and each direction valve supervised and
SHUT, OPEN or MOVING_SHUT is in PROOF toward PUSH with its start output off and no seat, in SETTLING until both valves stand
SHUT and in PUSH_STROKE where they do already, and is under test, so the siding is COMMISSIONING; one with a direction valve
in FAULT that finds both limits active is FAULTED and under test no more. The profile, the setpoints, the lock and field
enable change in nothing. -/
def Obligations.CommissionBeginsTheTests : Prop :=
  ∀ (s : State) (via : Via), s.canTake via = true →
    (s.siding ≠ .configured → ∃ t, s.turnsAway (.commission via) .state [] t) ∧
    (s.siding = .configured → s.fe = false → ∃ t, s.turnsAway (.commission via) .fieldOff [] t) ∧
    (s.siding = .configured → s.fe = true → s.quiet = false → ∃ t, s.turnsAway (.commission via) .notQuiet [] t) ∧
    (s.siding = .configured → s.fe = true → s.quiet = true → (∀ i, (s.spot i).queueLegal) → s.grants = [] →
      ∃ t, s.answers (.commission via) .done
          ([Layout.sidingState t.siding] ++ nat8 t.tests.spots.length ++ nat8 t.tests.comps.length) t ∧
        (∀ i, s.fittedSpot i = true → (s.spot i).hose.active = true →
          (t.spot i).state = .faulted ∧ (t.spot i).fault = some .pressure ∧ i ∉ t.tests.spots) ∧
        (∀ i, s.fittedSpot i = true → (s.spot i).hose.active = false → (s.spot i).vent.supervised = true →
          (s.spot i).vent.isShut = true → (s.spot i).shutoff.isFault = false → (s.spot i).liquid.isFault = false →
          (s.spot i).vapour.isFault = false →
          (t.spot i).state = .stroking ∧ (t.spot i).step = some (.stroking .vent false) ∧ i ∈ t.tests.spots ∧
          (t.spot i).vent = { (s.spot i).vent with
            command := .toOpen, state := some .movingOpen, timer := s.strokeOf .vent } ∧
          t.siding = .commissioning) ∧
        (∀ c, s.fittedComp c = true → (s.comp c).faultInput.active = true →
          (t.comp c).state = .faulted ∧ c ∉ t.tests.comps) ∧
        (∀ i, s.fittedSpot i = true → (s.spot i).hose.active = false → (s.spot i).car ≠ none →
          (s.spot i).shutoff.isFault = true → (t.spot i).state = (s.spot i).state ∧ i ∉ t.tests.spots) ∧
        (∀ c, s.fittedComp c = true → (s.comp c).faultInput.active = false → (∀ d, ((s.comp c).valve d).supervised = true ∧
            (((s.comp c).valve d).isShut = true ∨ ((s.comp c).valve d).isOpen = true ∨
              ((s.comp c).valve d).state = some .movingShut)) →
          (t.comp c).state = .proof ∧ (t.comp c).dir = some .push ∧ (t.comp c).startOn = false ∧ (t.comp c).seated = [] ∧
          (t.comp c).startTimer = .stopped ∧ (t.comp c).runTimer = .stopped ∧
          (t.comp c).step = (if (s.comp c).push.isShut && (s.comp c).draw.isShut then some .pushStroke else some .settling) ∧
          (t.comp c).draw.command = .toShut ∧ ((t.comp c).step = some .settling → (t.comp c).push.command = .toShut) ∧
          c ∈ t.tests.comps ∧ t.siding = .commissioning) ∧
        (∀ c d, s.fittedComp c = true → (s.comp c).faultInput.active = false →
          ((s.comp c).valve d).isFault = true → ((s.comp c).valve d).shutLimit.active = true →
          ((s.comp c).valve d).openLimit.active = true → (t.comp c).state = .faulted ∧ c ∉ t.tests.comps) ∧
        t.siding = (if t.tests.spots = [] ∧ t.tests.comps = [] then .operating else .commissioning) ∧
        t.profile = s.profile ∧ t.staged = s.staged ∧ t.stagedVersion = s.stagedVersion ∧ t.lock = s.lock ∧ t.fe = s.fe)

/-- RESTART SIDING ends every work in hand and returns to CONFIGURED. RESTART SIDING is refused NOT_CONFIGURED while the siding
is UNCONFIGURED. Otherwise it is answered DONE with the siding state before; afterwards the siding is CONFIGURED with no
test pending, the grant queue and every reservation list are empty, every fitted spot that was PROVING, CONNECTED, STAGED,
TRANSFER, RECOVERY or HELD is ISOLATING with no order but a DRAINING head, one that was STROKING is FAULTED with RESTART,
every other spot keeps its state, and every fitted compressor is STOPPED without seats unless it was FAULTED with its fault
input active. The siding's flag and every vessel's and fitted compressor's flag is set; profile, setpoints, lock, field
enable and the vessels' gauges and counters stand. -/
def Obligations.RestartReturnsToConfigured : Prop :=
  ∀ (s : State) (via : Via), s.canTake via = true →
    (s.siding = .unconfigured → ∃ t, s.turnsAway (.restartSiding via) .notConfigured [] t) ∧
    (s.siding ≠ .unconfigured → ∃ t, s.answers (.restartSiding via) .done [Layout.sidingState s.siding] t ∧
      t.siding = .configured ∧ t.tests = { spots := [], comps := [] } ∧ t.grants = [] ∧
      (∀ v, t.vessel v = { s.vessel v with entries := [] }) ∧
      (∀ i, s.fittedSpot i = true → (s.spot i).state.isolable = true →
        (t.spot i).state = .isolating ∧ (t.spot i).car = (s.spot i).car ∧ ∀ o ∈ (t.spot i).orders, o.state = .draining) ∧
      (∀ i, s.fittedSpot i = true → (s.spot i).state = .stroking →
        (t.spot i).state = .faulted ∧ (t.spot i).fault = some .restart) ∧
      (∀ i, (s.spot i).state = .vacant ∨ (s.spot i).state = .spotted ∨ (s.spot i).state = .isolating ∨
        (s.spot i).state = .faulted → (t.spot i).state = (s.spot i).state ∧ (t.spot i).orders = (s.spot i).orders) ∧
      (∀ c, s.fittedComp c = true → ¬ ((s.comp c).state = .faulted ∧ (s.comp c).faultInput.active = true) →
        (t.comp c).state = .stopped ∧ (t.comp c).seated = [] ∧ (t.comp c).turning = none ∧ (t.comp c).startOn = false) ∧
      t.changes.siding = true ∧ t.changes.vessels = BitVec.allOnes 6 ∧
      (∀ c, s.fittedComp c = true → t.changes.comps.getLsbD c = true) ∧
      t.profile = s.profile ∧ t.staged = s.staged ∧ t.stagedVersion = s.stagedVersion ∧
      t.setpointHold = s.setpointHold ∧ t.lock = s.lock ∧ t.lockTaken = s.lockTaken ∧ t.fe = s.fe ∧ t.esdHigh = s.esdHigh)

/-- A meter pulse counts, a litre credits four records at one event, and a litre past a shut valve is creep. At an unfitted
spot, or with no SPOTS section, METER_PULSE and LITRE_EMITTED change no record. Below the divisor METER_PULSE raises the
pulse remainder alone. A litre (the pulse that reaches the divisor, or LITRE_EMITTED) returns the remainder to 0. With a
LIQUID head whose liquid valve is not SHUT and not in FAULT, and with nothing else owed, due, reached or exceeded, it adds
one to the order's delivered, to the bound car's delivered total with its revision, to the vessel's delivery counter and to
a running rate window, takes one from the order's remainder where it is above 0 and restarts a running stall timer of a
RUNNING head; nothing else changes. The litre that brings a RUNNING head to its target, with the liquid valve OPEN, makes
the head DRAINING with TARGET, off its seat. The litre by which the rate window exceeds the flow-high setpoint, short of the
target, trips the spot: ISOLATING with FLOW_HIGH, the head DRAINING with FLOW_HIGH and the litre credited, every other order
gone, off its seat. A litre that no open liquid valve of a LIQUID head accounts for raises the creep count in CONNECTED,
STAGED, HELD and RECOVERY; at the creep setpoint the spot isolates with CREEP; in other states, and with the liquid valve in
FAULT, it is dropped. That LITRE_EMITTED makes a litre whole whatever the pulse remainder stood at is the model's reading
(log entry 12). -/
def Obligations.MeterPulsesAndLitres : Prop :=
  ∀ (s : State) (i : SpotNo) (c : Instr), c = .meterPulse i ∨ c = .litreEmitted i →
    (s.fittedSpot i = false ∨ s.divisor i = none → ∃ t, exec c s = .next t ∧ t.frame = s.frame) ∧
    ∀ d, s.fittedSpot i = true → s.divisor i = some d →
      (c = .meterPulse i → (s.spot i).pulses + 1 ≠ d → ∃ t, exec c s = .next t ∧
        t.frame = { s.frame with spots := s.spots.set i { s.spot i with pulses := (s.spot i).pulses + 1 } } ∧
        (s.inletsFollow → t.changes = s.changes)) ∧
      (c = .litreEmitted i ∨ (s.spot i).pulses + 1 = d → (s.spot i).steady → (s.spot i).state ≠ .stroking → s.due = none →
        (∀ h rest l hd car, (s.spot i).orders = h :: rest → h.liquid = some l → (s.spot i).liquid.passing = true →
          l.delivered ≠ BitVec.allOnes 32 → (h.state ≠ .draining → l.delivered.toNat + 1 ≠ l.target) →
          ((∃ n, (s.vessel l.vessel).remainder i h.tag = some (n + 1)) ∨
            ((∀ e ∈ (s.vessel l.vessel).entries, e.spot = i → e.tag = h.tag → e.remainder = 0) ∧
              (s.vessel l.vessel).reserved
                ≤ { s.vessel l.vessel with counter := (s.vessel l.vessel).counter + 1 : Vessel }.available)) →
          ((s.spot i).window.isRunning = true → (s.spot i).windowCount + 1 ≤ (s.spot i).active.flowHigh) →
          (s.spot i).car = some hd → s.car hd.slot = some car →
          ∃ t, exec c s = .next t ∧
            t.frame = { s.frame with
              spots := s.spots.set i { s.spot i with
                pulses := 0
                orders := { h with liquid := some { l with delivered := l.delivered + 1 } } :: rest
                stall := if h.state = .running ∧ (s.spot i).stall.isRunning = true then .seconds (s.spot i).active.stall
                  else (s.spot i).stall
                windowCount := if (s.spot i).window.isRunning = true then (s.spot i).windowCount + 1
                  else (s.spot i).windowCount }
              vessels := s.vessels.set l.vessel { s.vessel l.vessel with
                counter := (s.vessel l.vessel).counter + 1
                entries := (s.vessel l.vessel).entries.map fun e =>
                  if e.spot = i ∧ e.tag = h.tag then { e with remainder := e.remainder - 1 } else e }
              cars := s.cars.set hd.slot
                { issue := (s.carSlot hd.slot).issue
                  car := some { car with delivered := car.delivered + 1, revision := car.revision + 1 } } } ∧
            t.changes.spots.getLsbD i = true ∧ t.changes.vessels.getLsbD l.vessel = true ∧
            t.changes.cars = s.changes.cars ||| BitVec.twoPow 24 hd.slot) ∧
        (∀ h rest l, (s.spot i).orders = h :: rest → h.liquid = some l → h.state = .running → (s.spot i).state = .transfer →
          (s.spot i).liquid.supervised = true → (s.spot i).liquid.isOpen = true → l.delivered.toNat + 1 = l.target →
          l.target ≤ 200000 →
          ((s.spot i).window.isRunning = true → (s.spot i).windowCount + 1 ≤ (s.spot i).active.flowHigh) →
          (∃ n, (s.vessel l.vessel).remainder i h.tag = some (n + 1)) →
          ∃ t, exec c s = .next t ∧ (t.spot i).state = .transfer ∧ (t.spot i).seat = none ∧ (t.spot i).stall = .stopped ∧
            (t.spot i).head = some { h with
              state := .draining, reason := some .target, liquid := some { l with delivered := l.delivered + 1 } } ∧
            (t.spot i).liquid.command = .toShut ∧ (t.vessel l.vessel).counter = (s.vessel l.vessel).counter + 1 ∧
            s.sameStore t) ∧
        (∀ h rest l n, (s.spot i).orders = h :: rest → h.liquid = some l → h.state = .running →
          (s.spot i).state = .transfer → (s.spot i).liquid.supervised = true → (s.spot i).liquid.isOpen = true →
          l.delivered ≠ BitVec.allOnes 32 → l.delivered.toNat + 1 ≠ l.target → (s.spot i).window.isRunning = true →
          (s.spot i).active.flowHigh < (s.spot i).windowCount + 1 →
          (s.vessel l.vessel).remainder i h.tag = some (n + 1) →
          ∃ t, exec c s = .next t ∧ (t.spot i).state = .isolating ∧ (t.spot i).fault = some .flowHigh ∧
            (t.spot i).standing = !s.fe ∧ (t.spot i).seat = none ∧ (t.spot i).holds = .empty ∧
            (t.spot i).orders = [{ h with
              state := .draining, reason := some .flowHigh, liquid := some { l with delivered := l.delivered + 1 } }] ∧
            (t.spot i).liquid = (s.spot i).liquid.shutting (s.strokeOf .liquid) ∧ (t.spot i).window = .stopped ∧
            (t.spot i).stall = .stopped ∧ (t.vessel l.vessel).counter = (s.vessel l.vessel).counter + 1 ∧
            (t.vessel l.vessel).remainder i h.tag = some n ∧ t.changes.spots.getLsbD i = true ∧ s.sameStore t) ∧
        ((∀ h l, (s.spot i).head = some h → h.liquid = some l → (s.spot i).liquid.passing = false) →
          ((s.spot i).state = .connected ∨ (s.spot i).state = .staged ∨ (s.spot i).state = .held ∨
              (s.spot i).state = .recovery → (s.spot i).liquid.isFault = false →
            ((s.spot i).creep + 1 < (s.spot i).active.creep → ∃ t, exec c s = .next t ∧
              t.frame = { s.frame with
                spots := s.spots.set i { s.spot i with pulses := 0, creep := (s.spot i).creep + 1 } } ∧
              t.changes.spots.getLsbD i = true) ∧
            ((s.spot i).active.creep ≤ (s.spot i).creep + 1 → ∃ t, exec c s = .next t ∧
              (t.spot i).state = .isolating ∧ (t.spot i).fault = some .creep ∧ (t.spot i).pulses = 0 ∧
              (t.spot i).holds = .empty ∧ (t.spot i).seat = none ∧ (∀ o ∈ (t.spot i).orders, o.state = .draining) ∧
              s.sameStore t)) ∧
          ((s.spot i).liquid.isFault = true ∨ ((s.spot i).state ≠ .connected ∧ (s.spot i).state ≠ .staged ∧
              (s.spot i).state ≠ .held ∧ (s.spot i).state ≠ .recovery) → ∃ t, exec c s = .next t ∧
            t.frame = { s.frame with spots := s.spots.set i { s.spot i with pulses := 0 } })))

/-- A sample moves a filter's count and delivers a filtered change at its class's N. A sample at which every input stands at its
filter's level with nothing counted changes nothing. Where only one input stands at the other level, its count rises by one
while it stays below the N of the input's class, and nothing else changes; where the count reaches N, the sample does what
the command of that filtered change does (LIMIT_CHANGE with both levels for a limit), or for the release of a button moves
the filter alone. Where the two limits of one valve reach N at one sample, the sample is the one LIMIT_CHANGE with both
levels. All of this holds whatever order the operand names. That the operand names the active inputs and an order is the
model's choice (log entry 29), as is that a button's release has no command (log entry 28). -/
def Obligations.SamplesCountAndDeliver : Prop :=
  ∀ (s : State) (active : List Input) (order : List SampleGroup),
    ((∀ x, s.settledAt active x) → exec (.inputSample active order) s = .next s) ∧
    (∀ x : Input, (∀ y, y ≠ x → s.settledAt active y) → active.contains x ≠ (s.filterOf x).active →
      ((s.filterOf x).count + 1 < s.filterN x → exec (.inputSample active order) s =
        .next (s.withFilter x { active := (s.filterOf x).active, count := (s.filterOf x).count + 1 })) ∧
      (s.filterN x ≤ (s.filterOf x).count + 1 →
        (∀ c, deliveredAs active x = some c → exec (.inputSample active order) s = exec c s) ∧
        (deliveredAs active x = none → exec (.inputSample active order) s =
          .next (s.withFilter x { active := active.contains x, count := 0 })))) ∧
    (∀ v : ValveId, (∀ y, y ≠ .openLimit v → y ≠ .shutLimit v → s.settledAt active y) →
      (∀ x, x = .openLimit v ∨ x = .shutLimit v →
        active.contains x ≠ (s.filterOf x).active ∧ s.filterN x ≤ (s.filterOf x).count + 1) →
      exec (.inputSample active order) s =
        exec (.limitChange v (active.contains (.openLimit v)) (active.contains (.shutLimit v))) s)

/-- LIMIT_CHANGE opens a shutoff valve or faults a valve, and STROKE_TIME_EXCEEDED faults one. The open limit of a shutoff valve
moving open in SHUTOFF_OPENING brings it to OPEN and the spot to PRESSURE_HOLD or PRESSURE_WAIT by the hose-pressure switch
with the proving time, and nothing else changes. A supervised valve faults where it stands at rest and loses its own limit
or makes the other, where it moves and makes its target limit with the other active, and where its stroke timer has run out.
A spot's valve that does is in FAULT and its spot FAULTED with that valve as last fault: outside STROKING with no order, no
hold and no seat, every valve commanded SHUT, and a bound UNLOADING car SERVED where no head of another spot waits. A
direction valve that does brings its compressor to FAULTED with that valve, its start output off and its seats gone, and
each seated spot in STAGED, TRANSFER or RECOVERY to HELD with COMPRESSOR. A valve that is not supervised takes its limits
and nothing else changes, and no flag. A limit pair that stands already, and an expiry where no stroke timer of a supervised
moving valve has run out, change nothing. That a standing pair is no change (log entry 28), that a SHUT valve faults at its
open limit also where a command has just brought it to SHUT (log entry 36), that the expiry acts when its timer has run out
(log entry 7) and that it faults the valve although its target limit may stand active (log entry 30) are the model's
choices; the other arrivals have statements of their own. -/
def Obligations.ValvesArriveAndFault : Prop :=
  ∀ s : State,
    (∀ i, (s.spot i).state = .proving → (s.spot i).step = some .shutoffOpening → (s.spot i).shutoff.supervised = true →
      (s.spot i).shutoff.state = some .movingOpen → (s.spot i).shutoff.openLimit.active = false → (s.spot i).queueLegal →
      s.due = none →
      ∃ t, exec (.limitChange (.spot i .shutoff) true false) s = .next t ∧
        t.frame = { s.frame with
          spots := s.spots.set i { s.spot i with
            step := some (if (s.spot i).hose.active then .pressureHold else .pressureWait)
            timer := .seconds (s.site (·.provingTime))
            shutoff := { (s.spot i).shutoff with
              state := some .opened, timer := .stopped, openLimit := { active := true, count := 0 }
              shutLimit := if (s.spot i).shutoff.shutLimit.active then { active := false, count := 0 }
                else (s.spot i).shutoff.shutLimit } } } ∧
        t.changes.spots.getLsbD i = true) ∧
    (∀ i n (c : Instr), (s.spot i).state ≠ .faulted →
      ((∃ o sh, c = .limitChange (.spot i n) o sh ∧ ((s.spot i).valve n).supervised = true ∧
          ¬ (((s.spot i).valve n).openLimit.active = o ∧ ((s.spot i).valve n).shutLimit.active = sh) ∧
          ((((s.spot i).valve n).isShut = true ∧ (o = true ∨ sh = false)) ∨
            (((s.spot i).valve n).isOpen = true ∧ (sh = true ∨ o = false)) ∨
              (o = true ∧ sh = true ∧
                ((((s.spot i).valve n).state = some .movingOpen ∧ ((s.spot i).valve n).openLimit.active = false) ∨
                  (((s.spot i).valve n).state = some .movingShut ∧ ((s.spot i).valve n).shutLimit.active = false))))) ∨
        (c = .strokeTimeExceeded (.spot i n) ∧ ((s.spot i).valve n).strokeDue = true)) →
      ∃ t, exec c s = .next t ∧ (t.spot i).state = .faulted ∧ (t.spot i).fault = some (.valve n) ∧ (t.spot i).step = none ∧
        ((t.spot i).valve n).isFault = true ∧ (∀ m, ((t.spot i).valve m).command = .toShut) ∧
        t.changes.spots.getLsbD i = true ∧
        ((s.spot i).state ≠ .stroking → s.sameStore t ∧ (t.spot i).orders = [] ∧ (t.spot i).holds = .empty ∧
          (t.spot i).seat = none ∧
          (s.waitsNowhereBut i → s.onlyAt t i ∧
            ∀ hd car, (s.spot i).car = some hd → s.car hd.slot = some car → car.phase = .unloading →
              (t.car hd.slot).map (·.phase) = some .served))) ∧
    (∀ c d (x : Instr), (s.comp c).state ≠ .faulted →
      ((∃ o sh, x = .limitChange (.direction c d) o sh ∧ ((s.comp c).valve d).supervised = true ∧
          ¬ (((s.comp c).valve d).openLimit.active = o ∧ ((s.comp c).valve d).shutLimit.active = sh) ∧
          ((((s.comp c).valve d).isShut = true ∧ (o = true ∨ sh = false)) ∨
            (((s.comp c).valve d).isOpen = true ∧ (sh = true ∨ o = false)) ∨
            (o = true ∧ sh = true ∧
              ((((s.comp c).valve d).state = some .movingOpen ∧ ((s.comp c).valve d).openLimit.active = false) ∨
                (((s.comp c).valve d).state = some .movingShut ∧ ((s.comp c).valve d).shutLimit.active = false))))) ∨
        (x = .strokeTimeExceeded (.direction c d) ∧ ((s.comp c).valve d).strokeDue = true)) →
      ∃ t, exec x s = .next t ∧ (t.comp c).state = .faulted ∧
        (t.comp c).fault = some (.valve d) ∧ (t.comp c).seated = [] ∧ (t.comp c).startOn = false ∧
        ((t.comp c).valve d).isFault = true ∧ t.changes.comps.getLsbD c = true ∧
        ∀ i ∈ (s.comp c).seated, (s.spot i).state = .staged ∨ (s.spot i).state = .transfer ∨ (s.spot i).state = .recovery →
          (s.spot i).headIs .draining = false → (s.spot i).holds = .empty →
          (t.spot i).state = .held ∧ (t.spot i).holds.compressor = true) ∧
    (∀ v o sh, (s.valve v).openLimit.active = o → (s.valve v).shutLimit.active = sh →
      exec (.limitChange v o sh) s = .next s) ∧
    (∀ v, (s.valve v).strokeDue = false → exec (.strokeTimeExceeded v) s = .next s) ∧
    (∀ i n o sh, ((s.spot i).valve n).supervised = false →
      ¬ (((s.spot i).valve n).openLimit.active = o ∧ ((s.spot i).valve n).shutLimit.active = sh) →
      (s.spot i).steady → (s.spot i).state ≠ .stroking → s.due = none →
      ∃ t, exec (.limitChange (.spot i n) o sh) s = .next t ∧
        t.frame = { s.frame with
          spots := s.spots.set i ((s.spot i).setValve n { (s.spot i).valve n with
            openLimit := ((s.spot i).valve n).openLimit.take o
            shutLimit := ((s.spot i).valve n).shutLimit.take sh }) } ∧
        (s.inletsFollow → t.changes = s.changes))

/-- Bond and hose-pressure changes act by the spot's state. BOND_ACTIVE brings the filter to active and does nothing else.
BOND_LOST at a fitted spot in PROVING, CONNECTED, STAGED, TRANSFER, RECOVERY or HELD isolates it with BOND; elsewhere it
moves the filter alone. HOSE_PRESSURE_ACTIVE ends a PRESSURE_WAIT in PRESSURE_HOLD with the proving time, fails a stroke
test with PRESSURE, and elsewhere moves the filter alone. HOSE_PRESSURE_INACTIVE isolates a spot in PRESSURE_HOLD with LEAK
and elsewhere moves the filter alone. A fitted spot's flag is set by each change, an unfitted spot's changes set no flag
(log entry 19). That a change to the level at which the filter stands does nothing is the model's choice (log entry 28). -/
def Obligations.BondAndHosePressureAct : Prop :=
  ∀ (s : State) (i : SpotNo),
    ((s.spot i).bond.active = true → exec (.bondActive i) s = .next s) ∧
    ((s.spot i).bond.active = false → exec (.bondLost i) s = .next s) ∧
    ((s.spot i).hose.active = true → exec (.hosePressureActive i) s = .next s) ∧
    ((s.spot i).hose.active = false → exec (.hosePressureInactive i) s = .next s) ∧
    ((s.spot i).bond.active = false → ∃ t, exec (.bondActive i) s = .next t ∧
      t.frame = { s.frame with spots := s.spots.set i { s.spot i with bond := { active := true, count := 0 } } } ∧
      (s.fittedSpot i = true → t.changes.spots.getLsbD i = true)) ∧
    ((s.spot i).bond.active = true →
      ((s.fittedSpot i && (s.spot i).state.isolable) = false → ∃ t, exec (.bondLost i) s = .next t ∧
        t.frame = { s.frame with spots := s.spots.set i { s.spot i with bond := { active := false, count := 0 } } } ∧
        (s.fittedSpot i = true → t.changes.spots.getLsbD i = true)) ∧
      ((s.fittedSpot i && (s.spot i).state.isolable) = true → ∃ t, exec (.bondLost i) s = .next t ∧
        (t.spot i).state = .isolating ∧ (t.spot i).fault = some .bond ∧ (t.spot i).standing = !s.fe ∧
        (t.spot i).holds = .empty ∧ (t.spot i).seat = none ∧ (t.spot i).bond = { active := false, count := 0 } ∧
        (∀ o ∈ (t.spot i).orders, o.state = .draining) ∧ t.changes.spots.getLsbD i = true ∧ s.sameStore t ∧
        (s.waitsNowhereBut i → s.onlyAt t i))) ∧
    ((s.spot i).hose.active = false →
      (s.fittedSpot i = true → (s.spot i).state = .proving → (s.spot i).step = some .pressureWait →
        ∃ t, exec (.hosePressureActive i) s = .next t ∧
          t.frame = { s.frame with
            spots := s.spots.set i { s.spot i with
              hose := { active := true, count := 0 }, step := some .pressureHold
              timer := .seconds (s.site (·.provingTime)) } } ∧
          t.changes.spots.getLsbD i = true) ∧
      (s.fittedSpot i = true → (s.spot i).state = .stroking → ∃ t, exec (.hosePressureActive i) s = .next t ∧
        (t.spot i).state = .faulted ∧ (t.spot i).fault = some .pressure ∧ (t.spot i).step = none ∧
        (∀ n, ((t.spot i).valve n).command = .toShut ∧ ((t.spot i).valve n).timer = .stopped) ∧
        i ∉ t.tests.spots ∧ t.changes.spots.getLsbD i = true) ∧
      (¬ (s.fittedSpot i = true ∧ (((s.spot i).state = .proving ∧ (s.spot i).step = some .pressureWait) ∨
          (s.spot i).state = .stroking)) → ∃ t, exec (.hosePressureActive i) s = .next t ∧
        t.frame = { s.frame with spots := s.spots.set i { s.spot i with hose := { active := true, count := 0 } } } ∧
        (s.fittedSpot i = true → t.changes.spots.getLsbD i = true))) ∧
    ((s.spot i).hose.active = true →
      (s.fittedSpot i = true → (s.spot i).state = .proving → (s.spot i).step = some .pressureHold →
        ∃ t, exec (.hosePressureInactive i) s = .next t ∧ (t.spot i).state = .isolating ∧
          (t.spot i).fault = some .leak ∧ (t.spot i).hose = { active := false, count := 0 } ∧
          t.changes.spots.getLsbD i = true ∧ s.sameStore t ∧ (s.waitsNowhereBut i → s.onlyAt t i)) ∧
      (¬ (s.fittedSpot i = true ∧ (s.spot i).state = .proving ∧ (s.spot i).step = some .pressureHold) →
        ∃ t, exec (.hosePressureInactive i) s = .next t ∧
          t.frame = { s.frame with spots := s.spots.set i { s.spot i with hose := { active := false, count := 0 } } } ∧
          (s.fittedSpot i = true → t.changes.spots.getLsbD i = true))) ∧
    (s.fittedSpot i = false → s.inletsFollow → ∀ c, c = .bondActive i ∨ c = .bondLost i ∨ c = .hosePressureActive i ∨
      c = .hosePressureInactive i → ∃ t, exec c s = .next t ∧ t.changes = s.changes)

/-- The residual switch and the spot timers end what they time. RESIDUAL_ACTIVE, and RECOVERY_TIMER_EXPIRY with its timer run
out, at a fitted spot in RECOVERY end its RUNNING RECOVERY head with RESIDUAL and RECOVERY_TIMEOUT: the vapour valve is
commanded SHUT, the seat goes, and where it was the only order and does not close after, the spot is CONNECTED with a
cleared pulse remainder; where no other head waits, the bound car's last end carries the tag, RECOVERY, the reason and 0
litres, recovered is yes for RESIDUAL, and the revision rises once, also where the last end written equals the one before
(the model's reading, log entry 20). Elsewhere both residual commands move the filter alone. PRESSURE_WAIT_EXPIRY isolates
with LEAK. PRESSURE_HOLD_EXPIRY brings the spot to CONNECTED with the staged set taken as R63 says, the creep count and
pulse remainder 0, and its car to UNLOADING with recovered no. BLEED_EXPIRY with hose pressure inactive commands the vent
SHUT in VENT_CLOSING, and with it active faults the spot with BLEED. STALL_EXPIRY drains a RUNNING head over an OPEN liquid
valve with EXHAUSTED. RATE_WINDOW_EXPIRY starts the next window at 0 and sets no flag. LAMP_FLASH_PHASE toggles the flashing
lamp. An unfitted spot's residual changes set no flag (log entry 19). Every expiry acts where its timer has run out in its
state and changes nothing elsewhere (log entry 7), and a change to the level at which the filter stands does nothing (log
entry 28): the model's choices. -/
def Obligations.RecoveryAndTimersEnd : Prop :=
  ∀ (s : State) (i : SpotNo),
    (∀ (c : Instr) (r : EndReason), s.fittedSpot i = true →
      (c = .residualActive i ∧ r = .residual ∧ (s.spot i).residual.active = false) ∨
        (c = .recoveryTimerExpiry i ∧ r = .recoveryTimeout ∧ (s.spot i).recoveryTimer = .running 0) →
      ∀ h, (s.spot i).state = .recovery → (s.spot i).orders = [h] → h.liquid = none → h.state = .running →
        h.closeAfter = false →
        ∃ t, exec c s = .next t ∧ (t.spot i).state = .connected ∧ (t.spot i).orders = [] ∧ (t.spot i).seat = none ∧
          (t.spot i).pulses = 0 ∧ (t.spot i).vapour.command = .toShut ∧ (t.spot i).recoveryTimer = .stopped ∧
          t.changes.spots.getLsbD i = true ∧ s.sameStore t ∧
          (s.waitsNowhereBut i → s.onlyAt t i ∧ ∀ hd car, (s.spot i).car = some hd → s.car hd.slot = some car →
            t.car hd.slot = some { car with
              lastEnd := some { tag := h.tag, kind := .recovery, reason := r, delivered := 0 }
              recovered := car.recovered || r == .residual, revision := car.revision + 1 })) ∧
    ((s.spot i).residual.active = true → exec (.residualActive i) s = .next s) ∧
    ((s.spot i).residual.active = false → exec (.residualInactive i) s = .next s) ∧
    ((s.spot i).residual.active = false → (s.fittedSpot i = false ∨ (s.spot i).state ≠ .recovery) →
      ∃ t, exec (.residualActive i) s = .next t ∧
        t.frame = { s.frame with spots := s.spots.set i { s.spot i with residual := { active := true, count := 0 } } } ∧
        (s.fittedSpot i = true → t.changes.spots.getLsbD i = true)) ∧
    ((s.spot i).residual.active = true → ∃ t, exec (.residualInactive i) s = .next t ∧
      t.frame = { s.frame with spots := s.spots.set i { s.spot i with residual := { active := false, count := 0 } } } ∧
      (s.fittedSpot i = true → t.changes.spots.getLsbD i = true)) ∧
    ((s.spot i).state ≠ .recovery ∨ (s.spot i).recoveryTimer ≠ .running 0 → exec (.recoveryTimerExpiry i) s = .next s) ∧
    ((s.spot i).state = .proving → (s.spot i).step = some .pressureWait → (s.spot i).timer = .running 0 →
      ∃ t, exec (.pressureWaitExpiry i) s = .next t ∧ (t.spot i).state = .isolating ∧ (t.spot i).fault = some .leak ∧
        ((t.spot i).step = some .linesClosing → (t.spot i).timer = .stopped) ∧ t.changes.spots.getLsbD i = true ∧ s.sameStore t ∧
        (s.waitsNowhereBut i → s.onlyAt t i)) ∧
    ((s.spot i).state ≠ .proving ∨ (s.spot i).step ≠ some .pressureWait ∨ (s.spot i).timer ≠ .running 0 →
      exec (.pressureWaitExpiry i) s = .next s) ∧
    (∀ hd car, (s.spot i).state = .proving → (s.spot i).step = some .pressureHold → (s.spot i).timer = .running 0 →
      (s.spot i).car = some hd → s.car hd.slot = some car →
      ∃ t, exec (.pressureHoldExpiry i) s = .next t ∧
        t.frame = { s.frame with
          spots := s.spots.set i { s.spot i with
            state := .connected, step := none, timer := .stopped, creep := 0, pulses := 0
            active := if s.stagedVersion ≠ (s.spot i).activeVersion ∧ s.setpointHold = false then s.staged
              else (s.spot i).active
            activeVersion := if s.stagedVersion ≠ (s.spot i).activeVersion ∧ s.setpointHold = false then s.stagedVersion
              else (s.spot i).activeVersion }
          cars := s.cars.set hd.slot
            { issue := (s.carSlot hd.slot).issue
              car := some { car with phase := .unloading, recovered := false, revision := car.revision + 1 } } } ∧
        t.changes.spots.getLsbD i = true ∧ t.changes.cars = s.changes.cars ||| BitVec.twoPow 24 hd.slot) ∧
    ((s.spot i).state ≠ .proving ∨ (s.spot i).step ≠ some .pressureHold ∨ (s.spot i).timer ≠ .running 0 →
      exec (.pressureHoldExpiry i) s = .next s) ∧
    ((s.spot i).state = .isolating → (s.spot i).step = some .bleeding → (s.spot i).standing = false →
      (s.spot i).timer = .running 0 →
      ((s.spot i).hose.active = false → (s.spot i).vent.supervised = true → (s.spot i).vent.isOpen = true →
        (s.spot i).queueLegal → s.due = none →
        ∃ t, exec (.bleedExpiry i) s = .next t ∧
          t.frame = { s.frame with
            spots := s.spots.set i { s.spot i with
              step := some .ventClosing, timer := .stopped
              vent := { (s.spot i).vent with
                command := .toShut, state := some .movingShut, timer := s.strokeOf .vent } } } ∧
          t.changes.spots.getLsbD i = true) ∧
      ((s.spot i).hose.active = true → ∃ t, exec (.bleedExpiry i) s = .next t ∧ (t.spot i).state = .faulted ∧
        (t.spot i).fault = some .bleed ∧ (t.spot i).orders = [] ∧ t.changes.spots.getLsbD i = true ∧ s.sameStore t ∧
        (s.waitsNowhereBut i → s.onlyAt t i))) ∧
    ((s.spot i).state ≠ .isolating ∨ (s.spot i).step ≠ some .bleeding ∨ (s.spot i).standing = true ∨
      (s.spot i).timer ≠ .running 0 → exec (.bleedExpiry i) s = .next s) ∧
    (∀ h, (s.spot i).state = .transfer → (s.spot i).head = some h → h.state = .running → h.liquid ≠ none →
      (s.spot i).stall = .running 0 → (s.spot i).liquid.supervised = true → (s.spot i).liquid.isOpen = true →
      ∃ t, exec (.stallExpiry i) s = .next t ∧
        (t.spot i).head = some { h with state := .draining, reason := some .exhausted } ∧ (t.spot i).seat = none ∧
        (t.spot i).stall = .stopped ∧ (t.spot i).liquid.command = .toShut ∧ t.changes.spots.getLsbD i = true ∧
        s.sameStore t ∧ (s.waitsNowhereBut i → s.onlyAt t i)) ∧
    ((s.spot i).state ≠ .transfer ∨ (s.spot i).stall ≠ .running 0 → exec (.stallExpiry i) s = .next s) ∧
    ((s.spot i).window = .running 0 → exec (.rateWindowExpiry i) s = .next { s with
      spots := s.spots.set i { s.spot i with windowCount := 0, window := .seconds (s.spot i).active.window } }) ∧
    ((s.spot i).window ≠ .running 0 → exec (.rateWindowExpiry i) s = .next s) ∧
    ((s.flash i).phase = .running 0 → exec (.lampFlashPhase i) s = .next { s with
      flashes := s.flashes.set i { lit := !(s.flash i).lit, phase := .running 50 } }) ∧
    ((s.flash i).phase ≠ .running 0 → exec (.lampFlashPhase i) s = .next s) ∧
    (s.fittedSpot i = false → s.inletsFollow → ∀ c, c = .residualActive i ∨ c = .residualInactive i →
      ∃ t, exec c s = .next t ∧ t.changes = s.changes)

/-- The pendant buttons confirm hoses, hold and resume a spot. PENDANT_CONNECTED at a fitted SPOTTED spot whose bound car has
hoses not confirmed confirms them with one revision; elsewhere it moves the button's filter alone. PENDANT_STOP at a fitted
spot in PROVING isolates it with STOPPED; in CONNECTED, STAGED, TRANSFER or RECOVERY with no hold it brings the spot to HELD
with CREW_STOP, off its seat, its liquid and vapour valves commanded SHUT, its WAITING or RUNNING head SUSPENDED and a
DRAINING head, whose liquid valve is on its way to SHUT, still DRAINING; in HELD it adds CREW_STOP; elsewhere it moves the
filter alone. PENDANT_CLEAR at a fitted HELD spot removes CREW_STOP; where that empties the hold set and the head is not
DRAINING the spot resumes, to CONNECTED with an empty queue and else out of HELD, with its shutoff valve commanded OPEN;
elsewhere it moves the filter alone. Where a press moves its filter alone no flag is set. That a press command is always a
press, also where the button's filter is active already, is the model's choice (log entry 28). -/
def Obligations.PendantPressesAct : Prop :=
  ∀ (s : State) (i : SpotNo),
    (∀ hd car, s.fittedSpot i = true → (s.spot i).state = .spotted → (s.spot i).car = some hd → s.car hd.slot = some car →
      car.hoses = false →
      ∃ t, exec (.pendantConnected i) s = .next t ∧
        t.frame = { s.frame with
          spots := s.spots.set i { s.spot i with connectedButton := { active := true, count := 0 } }
          cars := s.cars.set hd.slot
            { issue := (s.carSlot hd.slot).issue
              car := some { car with hoses := true, revision := car.revision + 1 } } } ∧
        t.changes.cars = s.changes.cars ||| BitVec.twoPow 24 hd.slot) ∧
    ((s.fittedSpot i = false ∨ (s.spot i).state ≠ .spotted ∨ ∀ car, s.boundCar i = some car → car.hoses = true) →
      ∃ t, exec (.pendantConnected i) s = .next t ∧
        t.frame = { s.frame with
          spots := s.spots.set i { s.spot i with connectedButton := { active := true, count := 0 } } } ∧
        t.changes.cars = s.changes.cars ∧ (s.inletsFollow → t.changes = s.changes)) ∧
    (s.fittedSpot i = true → (s.spot i).state = .proving → ∃ t, exec (.pendantStop i) s = .next t ∧
      (t.spot i).state = .isolating ∧ (t.spot i).fault = some .stopped ∧ t.changes.spots.getLsbD i = true ∧
      s.sameStore t ∧ (s.waitsNowhereBut i → s.onlyAt t i)) ∧
    (s.fittedSpot i = true → (s.spot i).state = .connected ∨ (s.spot i).state = .staged ∨ (s.spot i).state = .transfer ∨
        (s.spot i).state = .recovery → (s.spot i).holds = .empty →
      ((s.spot i).headIs .draining = true → (s.spot i).liquid.isShut = false ∧ (s.spot i).liquid.state ≠ some .movingOpen) →
      ∃ t, exec (.pendantStop i) s = .next t ∧ (t.spot i).state = .held ∧
        (t.spot i).holds = { crewStop := true, vesselTrip := false, esd := false, compressor := false } ∧
        (t.spot i).orders.tail = (s.spot i).orders.tail ∧
        (t.spot i).orders.map (·.tag) = (s.spot i).orders.map (·.tag) ∧
        (∀ h, (s.spot i).head = some h →
          (h.state = .waiting ∨ h.state = .running → (t.spot i).head = some { h with state := .suspended }) ∧
          (h.state = .suspended ∨ h.state = .draining → (t.spot i).head = some h)) ∧
        (t.spot i).seat = none ∧ (t.spot i).liquid.command = .toShut ∧ (t.spot i).vapour.command = .toShut ∧
        (t.spot i).recoveryTimer = .stopped ∧ (t.spot i).stall = .stopped ∧ (t.spot i).window = .stopped ∧
        t.changes.spots.getLsbD i = true ∧ s.sameStore t ∧ (s.waitsNowhereBut i → s.onlyAt t i)) ∧
    (s.fittedSpot i = true → (s.spot i).state = .held → (s.spot i).steady → s.due = none →
      ∃ t, exec (.pendantStop i) s = .next t ∧
        t.frame = { s.frame with
          spots := s.spots.set i { s.spot i with
            stopButton := { active := true, count := 0 }, holds := { (s.spot i).holds with crewStop := true } } } ∧
        ((s.spot i).holds.crewStop = false → t.changes.spots.getLsbD i = true)) ∧
    ((s.fittedSpot i && ((s.spot i).state.isolable)) = false → ∃ t, exec (.pendantStop i) s = .next t ∧
      t.frame = { s.frame with spots := s.spots.set i { s.spot i with stopButton := { active := true, count := 0 } } } ∧
      (s.inletsFollow → t.changes = s.changes)) ∧
    ((s.fittedSpot i = false ∨ (s.spot i).state ≠ .held) → ∃ t, exec (.pendantClear i) s = .next t ∧
      t.frame = { s.frame with spots := s.spots.set i { s.spot i with clearButton := { active := true, count := 0 } } } ∧
      (s.inletsFollow → t.changes = s.changes)) ∧
    (s.fittedSpot i = true → (s.spot i).state = .held →
      ({ (s.spot i).holds with crewStop := false } ≠ HoldSet.empty ∨ (s.spot i).headIs .draining = true →
        ∃ t, exec (.pendantClear i) s = .next t ∧
          t.frame = { s.frame with
            spots := s.spots.set i { s.spot i with
              clearButton := { active := true, count := 0 }, holds := { (s.spot i).holds with crewStop := false } } } ∧
          ((s.spot i).holds.crewStop = true → t.changes.spots.getLsbD i = true)) ∧
      ({ (s.spot i).holds with crewStop := false } = HoldSet.empty →
        ((s.spot i).orders = [] → ∃ t, exec (.pendantClear i) s = .next t ∧ (t.spot i).state = .connected ∧
          (t.spot i).pulses = 0 ∧ (t.spot i).holds = .empty ∧ (t.spot i).shutoff.command = .toOpen ∧
          t.changes.spots.getLsbD i = true ∧ s.sameStore t) ∧
        ((s.spot i).headIs .suspended = true → (s.spot i).shutoff.isShut = true → ∃ t,
          exec (.pendantClear i) s = .next t ∧ (t.spot i).state = .staged ∧ (t.spot i).holds = .empty ∧
          (t.spot i).orders = (s.spot i).orders ∧ (t.spot i).shutoff.command = .toOpen ∧
          t.changes.spots.getLsbD i = true ∧ s.sameStore t)))

/-- A vessel trip holds every spot that feeds the vessel, and its clearing removes the reason. VESSEL_TRIP_ACTIVE at a fitted
vessel brings every fitted spot in STAGED, TRANSFER or RECOVERY whose head feeds it, with no hold, to HELD with VESSEL_TRIP,
its liquid and vapour valves commanded SHUT, its head SUSPENDED or, where its liquid valve is already on its way to SHUT,
still DRAINING, and adds VESSEL_TRIP at every fitted HELD spot whose head feeds it; spots that do not feed it, do not wait
and are not in the grant queue stand; the vessel's flag is set. VESSEL_TRIP_INACTIVE at a fitted vessel removes VESSEL_TRIP
from the hold set of every fitted spot that feeds it, moves no spot and changes nothing else. At an unfitted vessel both
move the filter alone, and the vessel's flag is set, for its tripped field follows its input. That a change to the level at
which the filter stands does nothing is the model's choice (log entry 28). -/
def Obligations.VesselTripsHoldTheirHeads : Prop :=
  ∀ (s : State) (v : VesselNo),
    ((s.vessel v).trip.active = true → exec (.vesselTripActive v) s = .next s) ∧
    ((s.vessel v).trip.active = false → exec (.vesselTripInactive v) s = .next s) ∧
    ((s.vessel v).trip.active = false → s.fittedVessel v = false → ∃ t, exec (.vesselTripActive v) s = .next t ∧
      t.frame = { s.frame with vessels := s.vessels.set v { s.vessel v with trip := { active := true, count := 0 } } } ∧
      t.changes.vessels.getLsbD v = true) ∧
    ((s.vessel v).trip.active = true → s.fittedVessel v = false → ∃ t, exec (.vesselTripInactive v) s = .next t ∧
      t.frame = { s.frame with vessels := s.vessels.set v { s.vessel v with trip := { active := false, count := 0 } } } ∧
      t.changes.vessels.getLsbD v = true) ∧
    ((s.vessel v).trip.active = false → s.fittedVessel v = true → ∃ t, exec (.vesselTripActive v) s = .next t ∧
      (t.vessel v).trip = { active := true, count := 0 } ∧ t.changes.vessels.getLsbD v = true ∧ s.sameStore t ∧
      (∀ i, s.fittedSpot i = true → (s.spot i).feeds v = true →
        ((s.spot i).headIs .draining = true → (s.spot i).liquid.isShut = false ∧ (s.spot i).liquid.state ≠ some .movingOpen) →
        ((s.spot i).state = .staged ∨ (s.spot i).state = .transfer ∨ (s.spot i).state = .recovery →
          (s.spot i).holds = .empty →
          (t.spot i).state = .held ∧ (t.spot i).holds.vesselTrip = true ∧ (t.spot i).seat = none ∧
          (t.spot i).liquid.command = .toShut ∧ (t.spot i).vapour.command = .toShut ∧
          (t.spot i).car = (s.spot i).car ∧
          (∀ h, (s.spot i).head = some h →
            (h.state = .waiting ∨ h.state = .running ∨ h.state = .suspended →
              (t.spot i).head = some { h with state := .suspended }) ∧
            (h.state = .draining → (t.spot i).head = some h)) ∧ t.changes.spots.getLsbD i = true) ∧
        ((s.spot i).state = .held → (t.spot i).state = .held ∧ (t.spot i).orders = (s.spot i).orders ∧
          (t.spot i).holds = { (s.spot i).holds with vesselTrip := true })) ∧
      (∀ i, (s.spot i).feeds v = false → ¬ (s.spot i).waits → (∀ g ∈ s.grants, g.spot ≠ i) → t.spot i = s.spot i)) ∧
    ((s.vessel v).trip.active = true → s.fittedVessel v = true → ∃ t, exec (.vesselTripInactive v) s = .next t ∧
      t.frame = { s.frame with
        vessels := s.vessels.set v { s.vessel v with trip := { active := false, count := 0 } }
        spots := Vector.ofFn fun i => if (s.fittedSpot i && (s.spot i).feeds v) = true then
            { s.spot i with holds := { (s.spot i).holds with vesselTrip := false } }
          else s.spot i } ∧
      t.changes.vessels.getLsbD v = true)

/-- A compressor runs, runs on, proves, faults and stops by its inputs and timers. RUN_FEEDBACK_ACTIVE of a fitted compressor in
RUN_WAIT with its start output on and seats held brings it from STARTING to RUNNING, after which the arbiter scans; without
seats to RUN_ON with the run-on time, or to STOPPED where that is 0; in a proof to PROOF_RUN with the proof time; in every
other state and step, a wait for a guard among them, it moves the filter alone. RUN_FEEDBACK_LOST in RUNNING, RUN_ON or
PROOF_RUN, FAULT_INPUT_ACTIVE in every state but FAULTED and START_TIMER_EXPIRY of a timer run out in RUN_WAIT without
feedback bring a fitted compressor to FAULTED with RUN_LOST, FAULT_INPUT and START_FAILED, its start output off, its valves
commanded SHUT and no seat. FAULT_INPUT_INACTIVE moves the filter alone. RUN_ON_EXPIRY stops the compressor.
PROOF_RUN_EXPIRY turns the start output off and commands the push valve SHUT. GUARD_EXPIRY of a partner whose mark is as old
as the dead-time commands the awaited direction valve OPEN: of a STARTING or REVERSING compressor in DEAD_TIME, which goes
on to VALVE_OPENING, and of one in PROOF in PUSH_STROKE, DRAW_STROKE or before its start output in RUN_WAIT. It changes
nothing where the compressor does not await that partner. An expiry acts where its timer has run out, or its mark reached
the dead-time (log entry 7), and does nothing elsewhere; a change to the level at which the filter stands does nothing (log
entry 28); the inputs of an unfitted compressor set no flag (log entry 19): the model's choices. -/
def Obligations.CompressorInputsAndTimersAct : Prop :=
  ∀ (s : State) (c : CompNo),
    ((s.comp c).run.active = true → exec (.runFeedbackActive c) s = .next s) ∧
    ((s.comp c).run.active = false → exec (.runFeedbackLost c) s = .next s) ∧
    ((s.comp c).faultInput.active = true → exec (.faultInputActive c) s = .next s) ∧
    ((s.comp c).faultInput.active = false → exec (.faultInputInactive c) s = .next s) ∧
    ((s.comp c).startTimer ≠ .running 0 → exec (.startTimerExpiry c) s = .next s) ∧
    ((s.comp c).state ≠ .runOn ∨ (s.comp c).runTimer ≠ .running 0 → exec (.runOnExpiry c) s = .next s) ∧
    ((s.comp c).state ≠ .proof ∨ (s.comp c).step ≠ some .proofRun ∨ (s.comp c).runTimer ≠ .running 0 → exec (.proofRunExpiry c) s = .next s) ∧
    (∀ p, s.fittedComp c = false ∨ (s.comp c).awaits ≠ some p.other ∨ (∀ age, (s.comp c).mark p = some age → age < s.protection.deadTime * 100) → exec (.guardExpiry c p) s = .next s) ∧
    ((s.comp c).run.active = false → s.fittedComp c = true → (s.comp c).step = some .runWait → (s.comp c).startOn = true →
      ((s.comp c).state = .starting → (s.comp c).seated ≠ [] →
        ∃ t u, exec (.runFeedbackActive c) s = .next t ∧
          u.frame = { s.frame with
            comps := s.comps.set c { s.comp c with
              run := { active := true, count := 0 }, state := .running, step := none, startTimer := .stopped } } ∧
          t.comps = (settle u).comps ∧ t.spots = (settle u).spots ∧ t.grants = (settle u).grants ∧
          t.changes.comps.getLsbD c = true ∧ s.sameStore t) ∧
      ((s.comp c).state = .starting → (s.comp c).seated = [] → s.waitsNowhere → 0 < s.site (·.runOnTime) →
        ∃ t, exec (.runFeedbackActive c) s = .next t ∧
          t.frame = { s.frame with
            comps := s.comps.set c { s.comp c with
              run := { active := true, count := 0 }, state := .runOn, step := none, startTimer := .stopped
              runTimer := .seconds (s.site (·.runOnTime)) } }) ∧
      ((s.comp c).state = .proof → s.waitsNowhere → ∃ t, exec (.runFeedbackActive c) s = .next t ∧
        t.frame = { s.frame with
          comps := s.comps.set c { s.comp c with
            run := { active := true, count := 0 }, step := some .proofRun, startTimer := .stopped
            runTimer := .seconds (s.site (·.proofTime)) } })) ∧
    ((s.comp c).run.active = false → s.fittedComp c = false ∨ (s.comp c).step ≠ some .runWait ∨ (s.comp c).startOn = false →
      s.due = none → ∃ t, exec (.runFeedbackActive c) s = .next t ∧
      t.frame = { s.frame with comps := s.comps.set c { s.comp c with run := { active := true, count := 0 } } } ∧
      (s.fittedComp c = true → t.changes.comps.getLsbD c = true)) ∧
    ((s.comp c).run.active = true → (s.comp c).state ≠ .running → (s.comp c).state ≠ .runOn →
      (s.comp c).step ≠ some .proofRun → ∃ t, exec (.runFeedbackLost c) s = .next t ∧
        t.frame = { s.frame with comps := s.comps.set c { s.comp c with run := { active := false, count := 0 } } }) ∧
    ((s.comp c).faultInput.active = true → ∃ t, exec (.faultInputInactive c) s = .next t ∧
      t.frame = { s.frame with comps := s.comps.set c { s.comp c with faultInput := { active := false, count := 0 } } }) ∧
    (∀ (x : Instr) (f : CompFault), s.fittedComp c = true →
      (x = .runFeedbackLost c ∧ f = .runLost ∧ (s.comp c).run.active = true ∧
          ((s.comp c).state = .running ∨ (s.comp c).state = .runOn ∨
            ((s.comp c).state = .proof ∧ (s.comp c).step = some .proofRun))) ∨
        (x = .faultInputActive c ∧ f = .faultInput ∧ (s.comp c).faultInput.active = false ∧ (s.comp c).state ≠ .faulted) ∨
        (x = .startTimerExpiry c ∧ f = .startFailed ∧ (s.comp c).startTimer = .running 0 ∧
          (s.comp c).step = some .runWait ∧ (s.comp c).run.active = false ∧ (s.comp c).state ≠ .faulted) →
      ∃ t, exec x s = .next t ∧ (t.comp c).state = .faulted ∧ (t.comp c).fault = some f ∧ (t.comp c).startOn = false ∧
        (t.comp c).seated = [] ∧ (t.comp c).startTimer = .stopped ∧ (t.comp c).runTimer = .stopped ∧
        (t.comp c).push.command = .toShut ∧ (t.comp c).draw.command = .toShut ∧ t.changes.comps.getLsbD c = true ∧
        s.sameStore t ∧
        ∀ i ∈ (s.comp c).seated, (s.spot i).state = .staged ∨ (s.spot i).state = .transfer ∨ (s.spot i).state = .recovery →
          (s.spot i).headIs .draining = false → (s.spot i).holds = .empty →
          (t.spot i).state = .held ∧ (t.spot i).holds.compressor = true) ∧
    ((s.comp c).state = .runOn → (s.comp c).runTimer = .running 0 → s.waitsNowhere →
      ∃ t, exec (.runOnExpiry c) s = .next t ∧ (t.comp c).state = .stopped ∧ (t.comp c).dir = none ∧
        (t.comp c).startOn = false ∧ (t.comp c).runTimer = .stopped ∧ (t.comp c).push.command = .toShut ∧
        (t.comp c).draw.command = .toShut ∧ t.changes.comps.getLsbD c = true ∧
        t.frame = { s.frame with comps := s.comps.set c (t.comp c) }) ∧
    ((s.comp c).state = .proof → (s.comp c).step = some .proofRun → (s.comp c).runTimer = .running 0 →
      (s.comp c).push.supervised = true → (s.comp c).push.isOpen = true → s.waitsNowhere →
      ∃ t, exec (.proofRunExpiry c) s = .next t ∧ (t.comp c).state = .proof ∧ (t.comp c).step = some .stopping ∧
        (t.comp c).startOn = false ∧ (t.comp c).runTimer = .stopped ∧ (t.comp c).push.command = .toShut ∧
        (t.comp c).push.state = some .movingShut ∧ t.changes.comps.getLsbD c = true ∧
        t.frame = { s.frame with comps := s.comps.set c (t.comp c) }) ∧
    (∀ d st age, ((s.comp c).state = .starting ∧ (s.comp c).step = some .deadTime ∧ (s.comp c).dir = some d ∧
          st = .valveOpening) ∨
        ((s.comp c).state = .reversing ∧ (s.comp c).step = some .deadTime ∧ (s.comp c).dir = some d ∧ st = .valveOpening) ∨
        ((s.comp c).state = .proof ∧ ((s.comp c).valve d).command = .toShut ∧ (s.comp c).step = some st ∧
          ((st = .pushStroke ∧ d = .push ∧ (s.comp c).stroked = false) ∨
            (st = .drawStroke ∧ d = .draw ∧ (s.comp c).stroked = false) ∨
            (st = .runWait ∧ d = .push ∧ (s.comp c).startOn = false))) →
      s.fittedComp c = true → s.fe = true → ((s.comp c).valve d.other).isShut = true →
      (s.comp c).mark d.other = some age → s.protection.deadTime * 100 ≤ age →
      ((s.comp c).valve d).isShut = true → ((s.comp c).valve d).supervised = true → s.waitsNowhere →
      ∃ t, exec (.guardExpiry c d.other) s = .next t ∧
        t.frame = { s.frame with
          comps := s.comps.set c { (s.comp c).putValve d (((s.comp c).valve d).opening s.strokeOfDirection) with
            step := some st } } ∧
        t.changes.comps.getLsbD c = true) ∧
    ((s.comp c).run.active = false → s.fittedComp c = true → (s.comp c).step = some .runWait → (s.comp c).startOn = true →
      (s.comp c).state = .starting → (s.comp c).seated = [] → s.waitsNowhere → s.site (·.runOnTime) = 0 →
      ∃ t, exec (.runFeedbackActive c) s = .next t ∧ (t.comp c).state = .stopped ∧ (t.comp c).step = none ∧
        (t.comp c).dir = none ∧ (t.comp c).startOn = false ∧ (t.comp c).startTimer = .stopped ∧
        (t.comp c).push.command = .toShut ∧ (t.comp c).draw.command = .toShut ∧ t.changes.comps.getLsbD c = true ∧
        t.frame = { s.frame with comps := s.comps.set c (t.comp c) }) ∧
    (s.fittedComp c = false → s.inletsFollow → s.due = none → ∀ x, x = .runFeedbackActive c ∨ x = .runFeedbackLost c ∨
      x = .faultInputActive c ∨ x = .faultInputInactive c → ∃ t, exec x s = .next t ∧ t.changes = s.changes)

/-- The ESD input takes field enable off, beats give it back, and no open drive is active without it. A command that brings the
ESD input to a level judged active, with field enable on, turns it off and the rearm run to 0: every fitted spot in
CONNECTED, STAGED, TRANSFER or RECOVERY with no hold, and every one in HELD, is HELD with ESD and its shutoff valve
commanded SHUT, one that was not HELD off its seat with its liquid and vapour valves commanded SHUT too and its head
SUSPENDED, and a DRAINING head, whose liquid valve is on its way to SHUT, stays DRAINING; one in PROVING is ISOLATING and
standing with ESD as last fault; one in ISOLATING is standing; one in STROKING is FAULTED with ESD; every fitted compressor
that is not FAULTED is STOPPED without seats; a COMMISSIONING siding is CONFIGURED. With field enable off, and at a level
judged inactive, the level alone changes. The level that stands already changes nothing. A BEAT starts the next second; with
field enable on, auto-rearm off or the ESD input active the rearm run is 0, else it rises by one, and at the rearm count
field enable turns on with the run 0. AUTO_REARM does what BEAT does. With field enable off no open drive is active. A
valve's open drive is active exactly while it is supervised, commanded OPEN and not in FAULT, with field enable on and its
owner not FAULTED. Its shut drive is active exactly while its open drive is not and either it moves shut under supervision
with field enable on and its owner not FAULTED, or a written PROTECTION section holds its class's closed drive. That the
drives are worked out from the state is the model's reading (log entry 22). That the commands carry the level, and that
AUTO_REARM is a beat, is the model's reading (log entries 12 and 13). -/
def Obligations.EsdAndBeatsActOnFieldEnable : Prop :=
  ∀ (s : State),
    (∀ (high : Bool) (c : Instr), c = .esdInputActive high ∨ c = .esdInputInactive high →
      (s.esdHigh = high → ∃ t, exec c s = .next t ∧ t.frame = s.frame) ∧
      (s.esdHigh ≠ high → s.judgedActive high = false ∨ s.fe = false → ∃ t, exec c s = .next t ∧
        t.frame = { s.frame with esdHigh := high } ∧ t.changes.siding = true) ∧
      (s.esdHigh ≠ high → s.judgedActive high = true → s.fe = true → ∃ t, exec c s = .next t ∧
        t.fe = false ∧ t.rearmRun = 0 ∧ t.esdHigh = high ∧ t.changes.siding = true ∧ t.profile = s.profile ∧
        (s.siding = .commissioning → t.siding = .configured ∧ t.tests = { spots := [], comps := [] }) ∧
        (s.siding ≠ .commissioning → t.siding = s.siding) ∧
        (∀ i, s.fittedSpot i = true →
          ((s.spot i).headIs .draining = true → (s.spot i).liquid.isShut = false ∧ (s.spot i).liquid.state ≠ some .movingOpen) →
          (s.spot i).state = .held ∨ ((s.spot i).holds = .empty ∧ ((s.spot i).state = .connected ∨
            (s.spot i).state = .staged ∨ (s.spot i).state = .transfer ∨ (s.spot i).state = .recovery)) →
          (s.spot i).holds.esd = false →
          (t.spot i).state = .held ∧ (t.spot i).holds = { (s.spot i).holds with esd := true } ∧
          (t.spot i).shutoff.command = .toShut ∧ (t.spot i).car = (s.spot i).car ∧
          (∀ h, (s.spot i).head = some h → h.state = .draining → (t.spot i).head = some h) ∧
          ((s.spot i).state ≠ .held → (t.spot i).liquid.command = .toShut ∧ (t.spot i).vapour.command = .toShut ∧
            (t.spot i).seat = none ∧
            ∀ h, (s.spot i).head = some h → h.state = .waiting ∨ h.state = .running ∨ h.state = .suspended →
              (t.spot i).head = some { h with state := .suspended })) ∧
        (∀ i, s.fittedSpot i = true → (s.spot i).state = .proving →
          (t.spot i).state = .isolating ∧ (t.spot i).standing = true ∧ (t.spot i).fault = some .esd) ∧
        (∀ i, s.fittedSpot i = true → (s.spot i).state = .isolating →
          (t.spot i).state = .isolating ∧ (t.spot i).standing = true ∧ (t.spot i).timer = .stopped) ∧
        (∀ i, s.fittedSpot i = true → (s.spot i).state = .stroking → (s.spot i).queueLegal →
          (t.spot i).state = .faulted ∧ (t.spot i).fault = some .esd) ∧
        (∀ k, s.fittedComp k = true → (s.comp k).state ≠ .faulted →
          (t.comp k).state = .stopped ∧ (t.comp k).seated = [] ∧ (t.comp k).startOn = false))) ∧
    (s.fe = true ∨ s.protection.autoRearm = false ∨ s.esdActive = true → ∃ t, exec .beat s = .next t ∧
      t.frame = { s.frame with beatTimer := .running 100, rearmRun := 0 }) ∧
    (s.fe = false → s.protection.autoRearm = true → s.esdActive = false →
      (s.rearmRun + 1 < s.protection.rearmCount → ∃ t, exec .beat s = .next t ∧
        t.frame = { s.frame with beatTimer := .running 100, rearmRun := s.rearmRun + 1 }) ∧
      (s.protection.rearmCount ≤ s.rearmRun + 1 → ∃ t, exec .beat s = .next t ∧
        t.fe = true ∧ t.rearmRun = 0 ∧ t.beatTimer = .running 100 ∧ t.changes.siding = true ∧ t.profile = s.profile ∧
        (∀ i, s.fittedSpot i = true → (s.spot i).state = .held → (t.spot i).holds.esd = false) ∧
        (∀ i, s.fittedSpot i = true → (s.spot i).state = .isolating → (t.spot i).standing = false))) ∧
    exec .autoRearm s = exec .beat s ∧
    (s.fe = false → ∀ v, s.openDrive v = false) ∧
    (∀ i n,
      (s.openDrive (.spot i n) = true ↔ ((s.spot i).valve n).supervised = true ∧ ((s.spot i).valve n).command = .toOpen ∧
        s.fe = true ∧ (s.spot i).state ≠ .faulted ∧ ((s.spot i).valve n).isFault = false) ∧
      (s.shutDrive (.spot i n) = true ↔ s.openDrive (.spot i n) = false ∧
        ((((s.spot i).valve n).supervised = true ∧ ((s.spot i).valve n).state = some .movingShut ∧ s.fe = true ∧
            (s.spot i).state ≠ .faulted) ∨
          ∃ p, s.profile.protection = some p ∧ p.closed.ofSpotValve n = .held))) ∧
    (∀ c d,
      (s.openDrive (.direction c d) = true ↔ ((s.comp c).valve d).supervised = true ∧
        ((s.comp c).valve d).command = .toOpen ∧ s.fe = true ∧ (s.comp c).state ≠ .faulted ∧
        ((s.comp c).valve d).isFault = false) ∧
      (s.shutDrive (.direction c d) = true ↔ s.openDrive (.direction c d) = false ∧
        ((((s.comp c).valve d).supervised = true ∧ ((s.comp c).valve d).state = some .movingShut ∧ s.fe = true ∧
            (s.comp c).state ≠ .faulted) ∨
          ∃ p, s.profile.protection = some p ∧ p.closed.direction = .held)))

/-- The liquid and shutoff arrivals of a spot with orders do what its queue waits for. The liquid valve's open arrival starts
the stall timer of a RUNNING head in TRANSFER. Its shut arrival takes a DRAINING head out of the queue with its reservation
entry: where it was the only order of a spot in TRANSFER and does not close after, the spot is CONNECTED with a cleared
pulse remainder and its meter timers stopped, and the bound car's last end carries the order with its reason, its revision
one up also where the last end equals the one before (the model's reading, log entry 20); the same with orders behind it,
where both compressors are FAULTED and no head waits elsewhere, makes the next order head: WAITING in STAGED with a grant-
queue entry, or SUSPENDED in HELD where its vessel is tripped. In HELD the next order becomes head SUSPENDED, with
VESSEL_TRIP exactly where its vessel is tripped. A head with close-after and a natural end reason isolates its spot, with no
order left. In ISOLATING the spot is left with no order. In STAGED the shutoff valve's open arrival over SHUT liquid and
vapour valves makes a SUSPENDED head WAITING, and the arbiter scans at the same event. -/
def Obligations.OrderArrivalsMoveTheQueue : Prop :=
  ∀ (s : State) (i : SpotNo), (s.spot i).queueLegal →
    ((s.spot i).state = .transfer → (s.spot i).headIs .running = true → (s.spot i).liquid.nears true →
      (s.spot i).stall = .stopped → s.due = none →
      ∃ t, exec (.limitChange (.spot i .liquid) true false) s = .next t ∧
        t.frame = { s.frame with
          spots := s.spots.set i { s.spot i with
            liquid := (s.spot i).liquid.arrived true, stall := .seconds (s.spot i).active.stall } } ∧
        t.changes.spots.getLsbD i = true) ∧
    (∀ h rest r, (s.spot i).orders = h :: rest → h.state = .draining → h.reason = some r → (s.spot i).liquid.nears false →
      ((s.spot i).state = .transfer → rest = [] → (h.closeAfter && r.natural) = false →
        ∃ t, exec (.limitChange (.spot i .liquid) false true) s = .next t ∧ (t.spot i).state = .connected ∧
          (t.spot i).orders = [] ∧ (t.spot i).pulses = 0 ∧ (t.spot i).seat = none ∧ (t.spot i).stall = .stopped ∧
          (t.spot i).window = .stopped ∧ (t.spot i).windowCount = 0 ∧ (t.spot i).vapour.command = .toShut ∧
          (t.spot i).liquid = (s.spot i).liquid.arrived false ∧
          (∀ l, h.liquid = some l → (t.vessel l.vessel).remainder i h.tag = none) ∧
          t.changes.spots.getLsbD i = true ∧ (∀ l, h.liquid = some l → t.changes.vessels.getLsbD l.vessel = true) ∧
          s.sameStore t ∧
          (s.waitsNowhereBut i → s.onlyAt t i ∧ ∀ hd car, (s.spot i).car = some hd → s.car hd.slot = some car →
            t.car hd.slot = some { car with
              lastEnd := some
                { tag := h.tag, kind := h.kind, reason := r
                  delivered := match h.liquid with
                    | some l => l.delivered
                    | none => 0 }
              recovered := car.recovered || r == .residual, revision := car.revision + 1 })) ∧
      (∀ o more, rest = o :: more → (h.closeAfter && r.natural) = false →
        ((s.spot i).state = .transfer → s.waitsNowhere → (∀ c, (s.comp c).state = .faulted) → (s.spot i).holds = .empty →
          ∃ t, exec (.limitChange (.spot i .liquid) false true) s = .next t ∧
            (if (match o.liquid with
                  | some x => (s.vessel x.vessel).trip.active
                  | none => false) then
              (t.spot i).state = .held ∧ (t.spot i).holds.vesselTrip = true ∧
                (t.spot i).orders = { o with state := .suspended } :: more ∧ t.grants = []
            else (t.spot i).state = .staged ∧ (t.spot i).orders = { o with state := .waiting } :: more ∧
              t.grants = [{ spot := i, dir := if o.liquid.isSome then .push else .draw }]) ∧
            (t.spot i).seat = none ∧ (t.spot i).stall = .stopped ∧ (t.spot i).window = .stopped ∧
            t.changes.spots.getLsbD i = true ∧ s.sameStore t) ∧
        ((s.spot i).state = .held →
          ∃ t, exec (.limitChange (.spot i .liquid) false true) s = .next t ∧ (t.spot i).state = .held ∧
            (t.spot i).orders = { o with state := .suspended } :: more ∧
            (t.spot i).holds = { (s.spot i).holds with
              vesselTrip := match o.liquid with
                | some x => (s.vessel x.vessel).trip.active
                | none => false } ∧
            t.changes.spots.getLsbD i = true ∧ s.sameStore t)) ∧
      ((s.spot i).state = .held → rest = [] → (h.closeAfter && r.natural) = false →
        ∃ t, exec (.limitChange (.spot i .liquid) false true) s = .next t ∧ (t.spot i).state = .held ∧
          (t.spot i).orders = [] ∧ (t.spot i).holds = { (s.spot i).holds with vesselTrip := false } ∧
          t.changes.spots.getLsbD i = true ∧ s.sameStore t) ∧
      ((s.spot i).state = .transfer ∨ (s.spot i).state = .held → h.closeAfter = true → r.natural = true →
        ∃ t, exec (.limitChange (.spot i .liquid) false true) s = .next t ∧ (t.spot i).state = .isolating ∧
          (t.spot i).orders = [] ∧ (t.spot i).holds = .empty ∧ (t.spot i).seat = none ∧
          (t.spot i).standing = !s.fe ∧ (t.spot i).fault = (s.spot i).fault ∧
          ((t.spot i).step = some .linesClosing ∨ (t.spot i).linesShut = true) ∧
          (t.spot i).shutoff.command = .toShut ∧ (t.spot i).vapour.command = .toShut ∧
          t.changes.spots.getLsbD i = true ∧ s.sameStore t ∧ (s.waitsNowhereBut i → s.onlyAt t i)) ∧
      ((s.spot i).state = .isolating →
        ∃ t, exec (.limitChange (.spot i .liquid) false true) s = .next t ∧ (t.spot i).state = .isolating ∧
          (t.spot i).orders = [] ∧ t.changes.spots.getLsbD i = true ∧ s.sameStore t ∧
          (s.waitsNowhereBut i → s.onlyAt t i))) ∧
    ((s.spot i).state = .staged → (s.spot i).headIs .suspended = true → (s.spot i).shutoff.nears true →
      (s.spot i).liquid.isShut = true → (s.spot i).vapour.isShut = true →
      ∃ t u, exec (.limitChange (.spot i .shutoff) true false) s = .next t ∧
        u.frame = { s.frame with
          spots := s.spots.set i ({ s.spot i with shutoff := (s.spot i).shutoff.arrived true }.modHead
            fun o => { o with state := .waiting }) } ∧
        t.spot i = (settle u).spot i ∧ t.comps = (settle u).comps ∧ t.grants = (settle u).grants ∧
        t.changes.spots.getLsbD i = true ∧ s.sameStore t)

/-- The valve arrivals of an isolation lead from the lines to the vent, the bleed and SPOTTED. In an isolation that is not
standing and whose queue is empty: the shut arrival of the last line valve commands the vent open, in VENT_OPENING; the
vent's open arrival starts the bleed time, in BLEEDING; the vent's shut arrival in VENT_CLOSING leaves the spot SPOTTED with
no step, the bound car with hoses not confirmed, SERVED where it was UNLOADING, and its revision raised once. In a standing
isolation an arrival moves its valve alone. Nothing else changes. -/
def Obligations.IsolationArrivalsMoveOn : Prop :=
  ∀ (s : State) (i : SpotNo), (s.spot i).state = .isolating → (s.spot i).orders = [] → s.due = none →
    (∀ n, n ≠ ValveName.vent → (s.spot i).standing = false → (s.spot i).step = some .linesClosing →
      ((s.spot i).valve n).nears false → (∀ m, m ≠ n → m ≠ .vent → ((s.spot i).valve m).isShut = true) →
      (s.spot i).vent.supervised = true → (s.spot i).vent.isShut = true → s.fe = true →
      ∃ t, exec (.limitChange (.spot i n) false true) s = .next t ∧
        t.frame = { s.frame with
          spots := s.spots.set i ({ s.spot i with
            step := some .ventOpening, vent := (s.spot i).vent.opening (s.strokeOf .vent) }.setValve n
              (((s.spot i).valve n).arrived false)) } ∧
        t.changes.spots.getLsbD i = true) ∧
    ((s.spot i).standing = false → (s.spot i).step = some .ventOpening → (s.spot i).vent.nears true →
      ∃ t, exec (.limitChange (.spot i .vent) true false) s = .next t ∧
        t.frame = { s.frame with
          spots := s.spots.set i { s.spot i with
            step := some .bleeding, timer := .seconds (s.site (·.bleedTime)), vent := (s.spot i).vent.arrived true } } ∧
        t.changes.spots.getLsbD i = true) ∧
    (∀ hd car, (s.spot i).standing = false → (s.spot i).step = some .ventClosing → (s.spot i).vent.nears false →
      (s.spot i).car = some hd → s.car hd.slot = some car →
      ∃ t, exec (.limitChange (.spot i .vent) false true) s = .next t ∧
        t.frame = { s.frame with
          spots := s.spots.set i { s.spot i with
            state := .spotted, step := none, vent := (s.spot i).vent.arrived false }
          cars := s.cars.set hd.slot
            { issue := (s.carSlot hd.slot).issue
              car := some { car with
                hoses := false, phase := if car.phase = .unloading then .served else car.phase
                revision := car.revision + 1 } } } ∧
        t.changes.spots.getLsbD i = true ∧ t.changes.cars = s.changes.cars ||| BitVec.twoPow 24 hd.slot) ∧
    (∀ n o, (s.spot i).standing = true → ((s.spot i).valve n).nears o →
      ∃ t, exec (.limitChange (.spot i n) o (!o)) s = .next t ∧
        t.frame = { s.frame with
          spots := s.spots.set i ((s.spot i).setValve n (((s.spot i).valve n).arrived o)) } ∧
        t.changes.spots.getLsbD i = true)

/-- The valve arrivals of a stroke test close the valve, give the next its turn, and pass the test. In a stroke test the open
arrival of the valve under test commands it SHUT, in its CLOSING step. Its shut arrival gives the next valve its turn, in
the order vent, vapour, liquid and, without a car, shutoff: that valve, SHUT under supervision, starts to open. The shut
arrival of the last valve passes the test: the spot is SPOTTED with a car and VACANT without one, with no step and no last
fault, every retest mark cleared, the test no longer pending, and a COMMISSIONING siding OPERATING where it was the last.
Nothing else changes. -/
def Obligations.StrokeTestArrivalsMoveOn : Prop :=
  ∀ (s : State) (i : SpotNo) (n : ValveName), (s.spot i).state = .stroking → (s.spot i).orders = [] → s.due = none →
    ((s.spot i).step = some (.stroking n false) → ((s.spot i).valve n).nears true →
      ∃ t, exec (.limitChange (.spot i n) true false) s = .next t ∧
        t.frame = { s.frame with
          spots := s.spots.set i ({ s.spot i with step := some (.stroking n true) }.setValve n
            ((((s.spot i).valve n).arrived true).shutting (s.strokeOf n))) } ∧
        t.changes.spots.getLsbD i = true) ∧
    (∀ m, (s.spot i).step = some (.stroking n true) → ((s.spot i).valve n).nears false →
      (n = .vent ∧ m = .vapour) ∨ (n = .vapour ∧ m = .liquid) ∨ (n = .liquid ∧ m = .shutoff ∧ (s.spot i).car = none) →
      ((s.spot i).valve m).supervised = true → ((s.spot i).valve m).isShut = true → s.fe = true →
      ∃ t, exec (.limitChange (.spot i n) false true) s = .next t ∧
        t.frame = { s.frame with
          spots := s.spots.set i ((({ s.spot i with step := some (.stroking m false) }.setValve n
            (((s.spot i).valve n).arrived false))).setValve m (((s.spot i).valve m).opening (s.strokeOf m))) } ∧
        t.changes.spots.getLsbD i = true) ∧
    ((s.spot i).step = some (.stroking n true) → ((s.spot i).valve n).nears false →
      (n = .liquid ∧ (s.spot i).car ≠ none) ∨ (n = .shutoff ∧ (s.spot i).car = none) →
      ∃ t, exec (.limitChange (.spot i n) false true) s = .next t ∧
        t.frame = { s.frame with
          spots := s.spots.set i ({ (s.spot i).setValve n (((s.spot i).valve n).arrived false) with
            state := if (s.spot i).car = none then .vacant else .spotted, step := none, fault := none }.mapValves
              fun v => { v with retest := false })
          tests := { s.tests with spots := s.tests.spots.filter (· ≠ i) }
          siding := if s.siding = .commissioning ∧ (∀ j ∈ s.tests.spots, j = i) ∧ s.tests.comps = [] then .operating
            else s.siding } ∧
        t.changes.spots.getLsbD i = true)

/-- The direction-valve arrivals of a compressor carry its start, its reversal and its proof on. Where no head waits and the
grant queue is empty, a direction valve's arrival changes its compressor alone. The open arrival toward the compressor's
direction in VALVE_OPENING, of a STARTING or REVERSING compressor, turns the start output on in RUN_WAIT with the start
timer, the compressor STARTING. Where run feedback stands active already, the compressor is RUNNING at that event, after
which the arbiter scans, or without seats in RUN_ON with the run-on time, or STOPPED where that is 0. In REVERSING the shut
arrival of the valve of the old direction, the other SHUT, leads to DEAD_TIME. In PROOF: the shut arrival of either valve in
SETTLING, the other SHUT, leads to PUSH_STROKE, where a draw valve that has stood SHUT for the dead-time lets the push valve
be commanded OPEN at once; the open arrival of the stroked valve commands it shut; its shut arrival leads from PUSH_STROKE
to DRAW_STROKE and from DRAW_STROKE to RUN_WAIT; the push valve's open arrival in RUN_WAIT turns the start output on with
the start timer, or leads to PROOF_RUN at once where run feedback stands active; its shut arrival in STOPPING passes the
proof: STOPPED without direction or last fault, every retest mark cleared, the test no longer pending, and a COMMISSIONING
siding OPERATING where it was the last. An arrival SHUT sets the valve's mark to age 0, so that with a dead-time above 0 no
guard is proven by it yet. That the two halves of a stroke step are told apart by a field of the model's own is its choice
(log entry 9). -/
def Obligations.DirectionValveArrivalsMoveOn : Prop :=
  (∀ (s : State) (c : CompNo), s.fittedComp c = true → s.waitsNowhere → 0 < s.protection.deadTime →
     (∀ d, (s.comp c).state = .starting ∨ (s.comp c).state = .reversing → (s.comp c).step = some .valveOpening →
       (s.comp c).dir = some d → ((s.comp c).valve d).nears true → (s.comp c).run.active = false →
       ∃ t, exec (.limitChange (.direction c d) true false) s = .next t ∧
         t.frame = { s.frame with
           comps := s.comps.set c { (s.comp c).putValve d (((s.comp c).valve d).arrived true) with
             state := .starting, step := some .runWait, startOn := true
             startTimer := .seconds (s.site (·.startTime)) } } ∧
         t.changes.comps.getLsbD c = true) ∧
     (∀ d, (s.comp c).state = .reversing → (s.comp c).step = some .valvesShutting → (s.comp c).dir = some d →
       ((s.comp c).valve d.other).nears false → ((s.comp c).valve d).isShut = true →
       ∃ t, exec (.limitChange (.direction c d.other) false true) s = .next t ∧
         t.frame = { s.frame with
           comps := s.comps.set c { (s.comp c).putValve d.other (((s.comp c).valve d.other).arrived false) with
             step := some .deadTime } } ∧
         (t.comp c).mark d.other = some 0 ∧ t.changes.comps.getLsbD c = true) ∧
     ((s.comp c).state = .proof →
       ((s.comp c).step = some .settling → (s.comp c).draw.nears false → (s.comp c).push.isShut = true →
         ∃ t, exec (.limitChange (.direction c .draw) false true) s = .next t ∧
           t.frame = { s.frame with
             comps := s.comps.set c { (s.comp c).putValve .draw ((s.comp c).draw.arrived false) with
               step := some .pushStroke, stroked := false } } ∧
           (t.comp c).drawMark = some 0 ∧ t.changes.comps.getLsbD c = true) ∧
       ((s.comp c).step = some .settling → (s.comp c).push.nears false → (s.comp c).draw.isShut = true →
         ((s.comp c).drawMark = none ∨ (∃ age, (s.comp c).drawMark = some age ∧ age < s.protection.deadTime * 100) →
           ∃ t, exec (.limitChange (.direction c .push) false true) s = .next t ∧
             t.frame = { s.frame with
               comps := s.comps.set c { (s.comp c).putValve .push ((s.comp c).push.arrived false) with
                 step := some .pushStroke, stroked := false } } ∧
             (t.comp c).pushMark = some 0 ∧ t.changes.comps.getLsbD c = true) ∧
         (∀ age, (s.comp c).drawMark = some age → s.protection.deadTime * 100 ≤ age → s.fe = true →
           (s.comp c).push.command = .toShut →
           ∃ t, exec (.limitChange (.direction c .push) false true) s = .next t ∧
             t.frame = { s.frame with
               comps := s.comps.set c { s.comp c with
                 push := ((s.comp c).push.arrived false).opening s.strokeOfDirection, pushMark := none
                 step := some .pushStroke, stroked := false } } ∧
             t.changes.comps.getLsbD c = true)) ∧
       (∀ d st, (st = CompStep.pushStroke ∧ d = Direction.push) ∨ (st = .drawStroke ∧ d = .draw) →
         (s.comp c).step = some st → ((s.comp c).valve d.other).isOpen = false → (s.comp c).startOn = false →
         ((s.comp c).stroked = false → ((s.comp c).valve d).nears true →
           ∃ t, exec (.limitChange (.direction c d) true false) s = .next t ∧
             t.frame = { s.frame with
               comps := s.comps.set c
                 { (s.comp c).putValve d ((((s.comp c).valve d).arrived true).shutting s.strokeOfDirection) with
                   stroked := true } } ∧
             t.changes.comps.getLsbD c = true) ∧
         ((s.comp c).stroked = true → ((s.comp c).valve d).nears false →
           ∃ t, exec (.limitChange (.direction c d) false true) s = .next t ∧
             t.frame = { s.frame with
               comps := s.comps.set c { (s.comp c).putValve d (((s.comp c).valve d).arrived false) with
                 step := some (if d = .push then .drawStroke else .runWait), stroked := false } } ∧
             (t.comp c).mark d = some 0 ∧ t.changes.comps.getLsbD c = true)) ∧
       ((s.comp c).step = some .runWait → (s.comp c).startOn = false → (s.comp c).push.nears true →
         (s.comp c).run.active = false →
         ∃ t, exec (.limitChange (.direction c .push) true false) s = .next t ∧
           t.frame = { s.frame with
             comps := s.comps.set c { (s.comp c).putValve .push ((s.comp c).push.arrived true) with
               startOn := true, startTimer := .seconds (s.site (·.startTime)) } } ∧
           t.changes.comps.getLsbD c = true) ∧
       ((s.comp c).step = some .runWait → (s.comp c).startOn = false → (s.comp c).push.nears true →
         (s.comp c).run.active = true →
         ∃ t, exec (.limitChange (.direction c .push) true false) s = .next t ∧
           t.frame = { s.frame with
             comps := s.comps.set c { (s.comp c).putValve .push ((s.comp c).push.arrived true) with
               startOn := true, startTimer := .stopped, step := some .proofRun
               runTimer := .seconds (s.site (·.proofTime)) } } ∧
           t.changes.comps.getLsbD c = true) ∧
       ((s.comp c).step = some .stopping → (s.comp c).push.nears false →
         ∃ t, exec (.limitChange (.direction c .push) false true) s = .next t ∧
           t.frame = { s.frame with
             comps := s.comps.set c { s.comp c with
               state := .stopped, step := none, dir := none, fault := none, stroked := false, pushMark := some 0
               push := { (s.comp c).push.arrived false with retest := false }
               draw := { (s.comp c).draw with retest := false } }
             tests := { s.tests with comps := s.tests.comps.filter (· ≠ c) }
             siding := if s.siding = .commissioning ∧ s.tests.spots = [] ∧ (∀ k ∈ s.tests.comps, k = c) then .operating
               else s.siding } ∧
           t.changes.comps.getLsbD c = true))) ∧
  (∀ (s : State) (c : CompNo) (d : Direction), s.fittedComp c = true →
     (s.comp c).state = .starting ∨ (s.comp c).state = .reversing → (s.comp c).step = some .valveOpening →
     (s.comp c).dir = some d → ((s.comp c).valve d).nears true → (s.comp c).run.active = true →
     ((s.comp c).seated ≠ [] →
       ∃ t u, exec (.limitChange (.direction c d) true false) s = .next t ∧
         u.frame = { s.frame with
           comps := s.comps.set c { (s.comp c).putValve d (((s.comp c).valve d).arrived true) with
             state := .running, step := none, startOn := true, startTimer := .stopped } } ∧
         t.comps = (settle u).comps ∧ t.spots = (settle u).spots ∧ t.grants = (settle u).grants ∧
         t.changes.comps.getLsbD c = true ∧ s.sameStore t) ∧
     ((s.comp c).seated = [] → s.waitsNowhere → 0 < s.site (·.runOnTime) →
       ∃ t, exec (.limitChange (.direction c d) true false) s = .next t ∧
         t.frame = { s.frame with
           comps := s.comps.set c { (s.comp c).putValve d (((s.comp c).valve d).arrived true) with
             state := .runOn, step := none, startOn := true, startTimer := .stopped
             runTimer := .seconds (s.site (·.runOnTime)) } } ∧
         t.changes.comps.getLsbD c = true) ∧
     ((s.comp c).seated = [] → s.waitsNowhere → s.site (·.runOnTime) = 0 →
       ∃ t, exec (.limitChange (.direction c d) true false) s = .next t ∧ (t.comp c).state = .stopped ∧
         (t.comp c).step = none ∧ (t.comp c).dir = none ∧ (t.comp c).startOn = false ∧ (t.comp c).startTimer = .stopped ∧
         (t.comp c).runTimer = .stopped ∧
         (t.comp c).valve d = (((s.comp c).valve d).arrived true).shutting s.strokeOfDirection ∧
         (t.comp c).push.command = .toShut ∧ (t.comp c).draw.command = .toShut ∧ t.changes.comps.getLsbD c = true ∧
         t.frame = { s.frame with comps := s.comps.set c (t.comp c) }))

/-- A waiting head takes a seat of a working compressor, or starts a STOPPED one, and runs when its compressor does. A PLACE
ORDER whose vessel is not tripped, at a CONNECTED spot with an empty queue, with field enable on and no head waiting
anywhere else. Where no compressor works and compressor c is the lowest-numbered fitted STOPPED one, the head is WAITING on
a seat of c, which is STARTING toward the order's direction: in VALVE_OPENING with its direction valve starting to open
where the partner valve is SHUT and its mark as old as the dead-time, in DEAD_TIME where the mark is younger. Where
compressor c is the lowest-numbered one that works in the order's direction with a free seat, it seats the head; while it is
STARTING or REVERSING the head waits in STAGED; RUNNING or in RUN_ON it is RUNNING afterwards, and over an OPEN shutoff
valve and SHUT liquid and vapour valves the head runs at once: a LIQUID head in TRANSFER with its rate window running and
both valves commanded open, a RECOVERY head with residual inactive in RECOVERY with its timer running and the vapour valve
commanded open. The grant queue is empty afterwards, and the flags of the spot and the compressor are set. -/
def Obligations.OrdersTakeSeats : Prop :=
  ∀ (s : State) (via : Via) (place : Byte) (i : SpotNo) (tag : Word16) (kind : Byte) (target : Option Word32)
      (vessel : Option Byte) (closeAfter : Byte) (r : OrderRequest) (l : Option Liquid) (c : CompNo) (d : Direction),
    s.canTake via = true → s.namedSpot place = .ok i → s.siding = .operating → s.fe = true → (s.spot i).state = .connected →
    (s.spot i).orders = [] → (s.spot i).holds = .empty → (s.spot i).seat = none → s.waitsNowhere →
    orderRequestOf tag kind target vessel closeAfter = some r →
    (match r.liquid with
      | none => l = none
      | some lr => ∃ car v, s.boundCar i = some car ∧ s.judgeLiquid car lr = .ok v ∧ (s.vessel v).trip.active = false ∧
          l = some { target := lr.target, vessel := v, delivered := 0 }) →
    d = (if l.isSome then .push else .draw) → s.fittedComp c = true → (∀ k, (s.comp k).turning = none) →
    ((∀ k, (s.comp k).state.working = false) → (s.comp c).state = .stopped →
      (∀ k, k < c → s.fittedComp k = true → (s.comp k).state ≠ .stopped) →
      ((s.comp c).valve d.other).isShut = true → ((s.comp c).valve d).isShut = true →
      ((s.comp c).valve d).supervised = true →
      ∀ age, (s.comp c).mark d.other = some age →
        ∃ t, exec (.placeOrder via place tag kind target vessel closeAfter) s = .next t ∧
          (t.spot i).state = .staged ∧ (t.spot i).headIs .waiting = true ∧ (t.spot i).seat = some c ∧
          (t.comp c).state = .starting ∧ (t.comp c).dir = some d ∧ i ∈ (t.comp c).seated ∧ t.grants = [] ∧
          (s.protection.deadTime * 100 ≤ age → (t.comp c).step = some .valveOpening ∧
            (t.comp c).valve d = ((s.comp c).valve d).opening s.strokeOfDirection ∧ (t.comp c).mark d = none) ∧
          (age < s.protection.deadTime * 100 → (t.comp c).step = some .deadTime ∧
            (t.comp c).valve d = (s.comp c).valve d) ∧
          t.changes.spots.getLsbD i = true ∧ (∀ k, s.fittedComp k = true → t.changes.comps.getLsbD k = true) ∧
          s.sameStore t) ∧
    (s.hasSeat d c = true → (∀ k, k < c → s.hasSeat d k = false) →
      ((s.comp c).state = .starting ∨ (s.comp c).state = .reversing →
        ∃ t, exec (.placeOrder via place tag kind target vessel closeAfter) s = .next t ∧
          (t.spot i).state = .staged ∧ (t.spot i).headIs .waiting = true ∧ (t.spot i).seat = some c ∧
          t.comp c = { s.comp c with seated := insertSpot i (s.comp c).seated } ∧ t.grants = [] ∧
          t.changes.spots.getLsbD i = true ∧ (∀ k, s.fittedComp k = true → t.changes.comps.getLsbD k = true) ∧
          s.sameStore t) ∧
      ((s.comp c).state = .running ∨ (s.comp c).state = .runOn → (s.spot i).shutoff.isOpen = true →
        (s.spot i).liquid.isShut = true → (s.spot i).vapour.isShut = true → (s.spot i).residual.active = false →
        ∃ t, exec (.placeOrder via place tag kind target vessel closeAfter) s = .next t ∧
          (t.spot i).headIs .running = true ∧ (t.spot i).seat = some c ∧ (t.comp c).state = .running ∧
          (t.comp c).runTimer = (if (s.comp c).state = .runOn then .stopped else (s.comp c).runTimer) ∧
          (t.comp c).seated = insertSpot i (s.comp c).seated ∧ t.grants = [] ∧ (t.spot i).vapour.command = .toOpen ∧
          (l.isSome = true → (t.spot i).state = .transfer ∧ (t.spot i).liquid.command = .toOpen ∧
            ((s.spot i).liquid.supervised = true → (t.spot i).liquid.state = some .movingOpen) ∧
            (t.spot i).window = .seconds (t.spot i).active.window ∧ (t.spot i).windowCount = 0 ∧
            (t.spot i).stall = .stopped) ∧
          (l = none → (t.spot i).state = .recovery ∧
            (t.spot i).recoveryTimer = .seconds (t.spot i).active.recovery) ∧
          t.changes.spots.getLsbD i = true ∧ (∀ k, s.fittedComp k = true → t.changes.comps.getLsbD k = true) ∧
          s.sameStore t))

/-- A compressor that works the other way is marked TURNING for a waiting head, and reverses once it is empty. A PLACE ORDER as
for OrdersTakeSeats, where compressor c is the only fitted one that is not in PROOF or FAULTED, and works in the other
direction. With seats held, it is marked TURNING by the spot, whose head waits in STAGED with its grant-queue entry. In
RUN_ON, without seats and with its direction valve OPEN, it reverses at the same event: REVERSING toward the order's
direction in VALVES_SHUTTING with its start output off, and the head has its seat. And where a compressor TURNING by a
waiting spot loses its last seat, because the WAITING head seated on it is cancelled, it reverses toward the other
direction, no longer marked, and seats the spot that waits; the cancelled order's spot is CONNECTED. -/
def Obligations.CompressorsTurnForWaitingHeads : Prop :=
  (∀ (s : State) (via : Via) (place : Byte) (i : SpotNo) (tag : Word16) (kind : Byte) (target : Option Word32)
       (vessel : Option Byte) (closeAfter : Byte) (r : OrderRequest) (l : Option Liquid) (c : CompNo) (d : Direction),
     s.canTake via = true → s.namedSpot place = .ok i → s.siding = .operating → s.fe = true → (s.spot i).state = .connected →
     (s.spot i).orders = [] → (s.spot i).holds = .empty → (s.spot i).seat = none → s.waitsNowhere →
     orderRequestOf tag kind target vessel closeAfter = some r →
     (match r.liquid with
       | none => l = none
       | some lr => ∃ car v, s.boundCar i = some car ∧ s.judgeLiquid car lr = .ok v ∧ (s.vessel v).trip.active = false ∧
           l = some { target := lr.target, vessel := v, delivered := 0 }) →
     d = (if l.isSome then .push else .draw) → s.fittedComp c = true → (∀ k, (s.comp k).turning = none) →
     (s.comp c).state.working = true → (s.comp c).dir = some d.other →
     (∀ k, k ≠ c → s.fittedComp k = false ∨ (s.comp k).state = .proof ∨ (s.comp k).state = .faulted) →
     ((s.comp c).seated ≠ [] →
       ∃ t, exec (.placeOrder via place tag kind target vessel closeAfter) s = .next t ∧
         (t.spot i).state = .staged ∧ (t.spot i).headIs .waiting = true ∧ (t.spot i).seat = none ∧
         t.grants = [{ spot := i, dir := d }] ∧ t.comp c = { s.comp c with turning := some i } ∧
         t.changes.spots.getLsbD i = true ∧ (∀ k, s.fittedComp k = true → t.changes.comps.getLsbD k = true) ∧
         s.sameStore t) ∧
     ((s.comp c).seated = [] → (s.comp c).state = .runOn → ((s.comp c).valve d.other).isOpen = true →
       ((s.comp c).valve d.other).supervised = true → 0 < s.site (·.seats) →
       ∃ t, exec (.placeOrder via place tag kind target vessel closeAfter) s = .next t ∧
         (t.spot i).state = .staged ∧ (t.spot i).headIs .waiting = true ∧ (t.spot i).seat = some c ∧ t.grants = [] ∧
         (t.comp c).state = .reversing ∧ (t.comp c).step = some .valvesShutting ∧ (t.comp c).dir = some d ∧
         (t.comp c).turning = none ∧ (t.comp c).seated = [i] ∧ (t.comp c).startOn = false ∧
         (t.comp c).runTimer = .stopped ∧
         (t.comp c).valve d.other = ((s.comp c).valve d.other).shutting s.strokeOfDirection ∧
         t.changes.spots.getLsbD i = true ∧ (∀ k, s.fittedComp k = true → t.changes.comps.getLsbD k = true) ∧
         s.sameStore t)) ∧
  (∀ (s : State) (via : Via) (place : Byte) (i j : SpotNo) (o : Order) (c : CompNo) (d : Direction),
     s.canTake via = true → s.namedSpot place = .ok j → s.fe = true → i ≠ j →
     (s.spot j).state = .staged → (s.spot j).orders = [o] → o.state = .waiting → (s.spot j).seat = some c →
     (s.spot i).waits → (s.spot i).seat = none → s.grants = [{ spot := i, dir := d.other }] →
     (∀ k, k ≠ i → k ≠ j → ¬ (s.spot k).waits) →
     s.fittedComp c = true → (s.comp c).state.working = true → (s.comp c).dir = some d → (s.comp c).turning = some i →
     (s.comp c).seated = [j] → ((s.comp c).valve d).isOpen = true → ((s.comp c).valve d).supervised = true →
     0 < s.site (·.seats) →
     (∀ k, k ≠ c → s.fittedComp k = false ∨ (s.comp k).state = .proof ∨ (s.comp k).state = .faulted) →
     ∃ t, s.answers (.cancelOrder via place o.tag) .done [0] t ∧
       (t.spot j).state = .connected ∧ (t.spot j).orders = [] ∧ (t.spot j).seat = none ∧
       (t.spot i).seat = some c ∧ (t.spot i).state = .staged ∧ t.grants = [] ∧
       (t.comp c).state = .reversing ∧ (t.comp c).step = some .valvesShutting ∧ (t.comp c).dir = some d.other ∧
       (t.comp c).turning = none ∧ (t.comp c).seated = [i] ∧ (t.comp c).startOn = false ∧
       (t.comp c).valve d = ((s.comp c).valve d).shutting s.strokeOfDirection ∧
       t.changes.spots.getLsbD i = true ∧ t.changes.spots.getLsbD j = true ∧
       (∀ k, s.fittedComp k = true → t.changes.comps.getLsbD k = true) ∧ s.sameStore t)

end
end

