-- ==== Sys2Proof/Laws/State.lean ====
section
/-! SUPPORT. One lemma per field per update: what each named update leaves, and what it writes. -/

namespace Sys2Proof.Machine

section Fields

variable (s : State)

@[simp] theorem modSlot_spots (k : SlotNo) (f : CarSlot → CarSlot) : (s.modSlot k f).spots = s.spots := rfl
@[simp] theorem modSlot_vessels (k : SlotNo) (f : CarSlot → CarSlot) : (s.modSlot k f).vessels = s.vessels := rfl
@[simp] theorem modSlot_comps (k : SlotNo) (f : CarSlot → CarSlot) : (s.modSlot k f).comps = s.comps := rfl
@[simp] theorem modSlot_grants (k : SlotNo) (f : CarSlot → CarSlot) : (s.modSlot k f).grants = s.grants := rfl
@[simp] theorem modSlot_flashes (k : SlotNo) (f : CarSlot → CarSlot) : (s.modSlot k f).flashes = s.flashes := rfl
@[simp] theorem modSlot_inlets (k : SlotNo) (f : CarSlot → CarSlot) : (s.modSlot k f).inlets = s.inlets := rfl
@[simp] theorem modSlot_profile (k : SlotNo) (f : CarSlot → CarSlot) : (s.modSlot k f).profile = s.profile := rfl
@[simp] theorem modSlot_siding (k : SlotNo) (f : CarSlot → CarSlot) : (s.modSlot k f).siding = s.siding := rfl
@[simp] theorem modSlot_staged (k : SlotNo) (f : CarSlot → CarSlot) : (s.modSlot k f).staged = s.staged := rfl
@[simp] theorem modSlot_stagedVersion (k : SlotNo) (f : CarSlot → CarSlot) : (s.modSlot k f).stagedVersion = s.stagedVersion := rfl
@[simp] theorem modSlot_setpointHold (k : SlotNo) (f : CarSlot → CarSlot) : (s.modSlot k f).setpointHold = s.setpointHold := rfl
@[simp] theorem modSlot_tests (k : SlotNo) (f : CarSlot → CarSlot) : (s.modSlot k f).tests = s.tests := rfl
@[simp] theorem modSlot_lockTaken (k : SlotNo) (f : CarSlot → CarSlot) : (s.modSlot k f).lockTaken = s.lockTaken := rfl
@[simp] theorem modSlot_lock (k : SlotNo) (f : CarSlot → CarSlot) : (s.modSlot k f).lock = s.lock := rfl
@[simp] theorem modSlot_fe (k : SlotNo) (f : CarSlot → CarSlot) : (s.modSlot k f).fe = s.fe := rfl
@[simp] theorem modSlot_rearmRun (k : SlotNo) (f : CarSlot → CarSlot) : (s.modSlot k f).rearmRun = s.rearmRun := rfl
@[simp] theorem modSlot_beatTimer (k : SlotNo) (f : CarSlot → CarSlot) : (s.modSlot k f).beatTimer = s.beatTimer := rfl
@[simp] theorem modSlot_esdHigh (k : SlotNo) (f : CarSlot → CarSlot) : (s.modSlot k f).esdHigh = s.esdHigh := rfl
@[simp] theorem modSlot_link (k : SlotNo) (f : CarSlot → CarSlot) : (s.modSlot k f).link = s.link := rfl
@[simp] theorem modSlot_changes (k : SlotNo) (f : CarSlot → CarSlot) : (s.modSlot k f).changes = s.changes := rfl
@[simp] theorem modSlot_scratch (k : SlotNo) (f : CarSlot → CarSlot) : (s.modSlot k f).scratch = s.scratch := rfl
@[simp] theorem modSlot_freeCount (k : SlotNo) (f : CarSlot → CarSlot) : (s.modSlot k f).freeCount = s.freeCount := rfl
@[simp] theorem modSlot_pending (k : SlotNo) (f : CarSlot → CarSlot) : (s.modSlot k f).pending = s.pending := rfl

@[simp] theorem modSpot_cars (i : SpotNo) (f : Spot → Spot) : (s.modSpot i f).cars = s.cars := rfl
@[simp] theorem modSpot_vessels (i : SpotNo) (f : Spot → Spot) : (s.modSpot i f).vessels = s.vessels := rfl
@[simp] theorem modSpot_comps (i : SpotNo) (f : Spot → Spot) : (s.modSpot i f).comps = s.comps := rfl
@[simp] theorem modSpot_grants (i : SpotNo) (f : Spot → Spot) : (s.modSpot i f).grants = s.grants := rfl
@[simp] theorem modSpot_flashes (i : SpotNo) (f : Spot → Spot) : (s.modSpot i f).flashes = s.flashes := rfl
@[simp] theorem modSpot_inlets (i : SpotNo) (f : Spot → Spot) : (s.modSpot i f).inlets = s.inlets := rfl
@[simp] theorem modSpot_profile (i : SpotNo) (f : Spot → Spot) : (s.modSpot i f).profile = s.profile := rfl
@[simp] theorem modSpot_siding (i : SpotNo) (f : Spot → Spot) : (s.modSpot i f).siding = s.siding := rfl
@[simp] theorem modSpot_staged (i : SpotNo) (f : Spot → Spot) : (s.modSpot i f).staged = s.staged := rfl
@[simp] theorem modSpot_stagedVersion (i : SpotNo) (f : Spot → Spot) : (s.modSpot i f).stagedVersion = s.stagedVersion := rfl
@[simp] theorem modSpot_setpointHold (i : SpotNo) (f : Spot → Spot) : (s.modSpot i f).setpointHold = s.setpointHold := rfl
@[simp] theorem modSpot_tests (i : SpotNo) (f : Spot → Spot) : (s.modSpot i f).tests = s.tests := rfl
@[simp] theorem modSpot_lockTaken (i : SpotNo) (f : Spot → Spot) : (s.modSpot i f).lockTaken = s.lockTaken := rfl
@[simp] theorem modSpot_lock (i : SpotNo) (f : Spot → Spot) : (s.modSpot i f).lock = s.lock := rfl
@[simp] theorem modSpot_fe (i : SpotNo) (f : Spot → Spot) : (s.modSpot i f).fe = s.fe := rfl
@[simp] theorem modSpot_rearmRun (i : SpotNo) (f : Spot → Spot) : (s.modSpot i f).rearmRun = s.rearmRun := rfl
@[simp] theorem modSpot_beatTimer (i : SpotNo) (f : Spot → Spot) : (s.modSpot i f).beatTimer = s.beatTimer := rfl
@[simp] theorem modSpot_esdHigh (i : SpotNo) (f : Spot → Spot) : (s.modSpot i f).esdHigh = s.esdHigh := rfl
@[simp] theorem modSpot_link (i : SpotNo) (f : Spot → Spot) : (s.modSpot i f).link = s.link := rfl
@[simp] theorem modSpot_changes (i : SpotNo) (f : Spot → Spot) : (s.modSpot i f).changes = s.changes := rfl
@[simp] theorem modSpot_scratch (i : SpotNo) (f : Spot → Spot) : (s.modSpot i f).scratch = s.scratch := rfl
@[simp] theorem modSpot_freeCount (i : SpotNo) (f : Spot → Spot) : (s.modSpot i f).freeCount = s.freeCount := rfl
@[simp] theorem modSpot_pending (i : SpotNo) (f : Spot → Spot) : (s.modSpot i f).pending = s.pending := rfl

@[simp] theorem modVessel_cars (v : VesselNo) (f : Vessel → Vessel) : (s.modVessel v f).cars = s.cars := rfl
@[simp] theorem modVessel_spots (v : VesselNo) (f : Vessel → Vessel) : (s.modVessel v f).spots = s.spots := rfl
@[simp] theorem modVessel_comps (v : VesselNo) (f : Vessel → Vessel) : (s.modVessel v f).comps = s.comps := rfl
@[simp] theorem modVessel_grants (v : VesselNo) (f : Vessel → Vessel) : (s.modVessel v f).grants = s.grants := rfl
@[simp] theorem modVessel_flashes (v : VesselNo) (f : Vessel → Vessel) : (s.modVessel v f).flashes = s.flashes := rfl
@[simp] theorem modVessel_inlets (v : VesselNo) (f : Vessel → Vessel) : (s.modVessel v f).inlets = s.inlets := rfl
@[simp] theorem modVessel_profile (v : VesselNo) (f : Vessel → Vessel) : (s.modVessel v f).profile = s.profile := rfl
@[simp] theorem modVessel_siding (v : VesselNo) (f : Vessel → Vessel) : (s.modVessel v f).siding = s.siding := rfl
@[simp] theorem modVessel_staged (v : VesselNo) (f : Vessel → Vessel) : (s.modVessel v f).staged = s.staged := rfl
@[simp] theorem modVessel_stagedVersion (v : VesselNo) (f : Vessel → Vessel) : (s.modVessel v f).stagedVersion = s.stagedVersion := rfl
@[simp] theorem modVessel_setpointHold (v : VesselNo) (f : Vessel → Vessel) : (s.modVessel v f).setpointHold = s.setpointHold := rfl
@[simp] theorem modVessel_tests (v : VesselNo) (f : Vessel → Vessel) : (s.modVessel v f).tests = s.tests := rfl
@[simp] theorem modVessel_lockTaken (v : VesselNo) (f : Vessel → Vessel) : (s.modVessel v f).lockTaken = s.lockTaken := rfl
@[simp] theorem modVessel_lock (v : VesselNo) (f : Vessel → Vessel) : (s.modVessel v f).lock = s.lock := rfl
@[simp] theorem modVessel_fe (v : VesselNo) (f : Vessel → Vessel) : (s.modVessel v f).fe = s.fe := rfl
@[simp] theorem modVessel_rearmRun (v : VesselNo) (f : Vessel → Vessel) : (s.modVessel v f).rearmRun = s.rearmRun := rfl
@[simp] theorem modVessel_beatTimer (v : VesselNo) (f : Vessel → Vessel) : (s.modVessel v f).beatTimer = s.beatTimer := rfl
@[simp] theorem modVessel_esdHigh (v : VesselNo) (f : Vessel → Vessel) : (s.modVessel v f).esdHigh = s.esdHigh := rfl
@[simp] theorem modVessel_link (v : VesselNo) (f : Vessel → Vessel) : (s.modVessel v f).link = s.link := rfl
@[simp] theorem modVessel_changes (v : VesselNo) (f : Vessel → Vessel) : (s.modVessel v f).changes = s.changes := rfl
@[simp] theorem modVessel_scratch (v : VesselNo) (f : Vessel → Vessel) : (s.modVessel v f).scratch = s.scratch := rfl
@[simp] theorem modVessel_freeCount (v : VesselNo) (f : Vessel → Vessel) : (s.modVessel v f).freeCount = s.freeCount := rfl
@[simp] theorem modVessel_pending (v : VesselNo) (f : Vessel → Vessel) : (s.modVessel v f).pending = s.pending := rfl

@[simp] theorem modComp_cars (c : CompNo) (f : Comp → Comp) : (s.modComp c f).cars = s.cars := rfl
@[simp] theorem modComp_spots (c : CompNo) (f : Comp → Comp) : (s.modComp c f).spots = s.spots := rfl
@[simp] theorem modComp_vessels (c : CompNo) (f : Comp → Comp) : (s.modComp c f).vessels = s.vessels := rfl
@[simp] theorem modComp_grants (c : CompNo) (f : Comp → Comp) : (s.modComp c f).grants = s.grants := rfl
@[simp] theorem modComp_flashes (c : CompNo) (f : Comp → Comp) : (s.modComp c f).flashes = s.flashes := rfl
@[simp] theorem modComp_inlets (c : CompNo) (f : Comp → Comp) : (s.modComp c f).inlets = s.inlets := rfl
@[simp] theorem modComp_profile (c : CompNo) (f : Comp → Comp) : (s.modComp c f).profile = s.profile := rfl
@[simp] theorem modComp_siding (c : CompNo) (f : Comp → Comp) : (s.modComp c f).siding = s.siding := rfl
@[simp] theorem modComp_staged (c : CompNo) (f : Comp → Comp) : (s.modComp c f).staged = s.staged := rfl
@[simp] theorem modComp_stagedVersion (c : CompNo) (f : Comp → Comp) : (s.modComp c f).stagedVersion = s.stagedVersion := rfl
@[simp] theorem modComp_setpointHold (c : CompNo) (f : Comp → Comp) : (s.modComp c f).setpointHold = s.setpointHold := rfl
@[simp] theorem modComp_tests (c : CompNo) (f : Comp → Comp) : (s.modComp c f).tests = s.tests := rfl
@[simp] theorem modComp_lockTaken (c : CompNo) (f : Comp → Comp) : (s.modComp c f).lockTaken = s.lockTaken := rfl
@[simp] theorem modComp_lock (c : CompNo) (f : Comp → Comp) : (s.modComp c f).lock = s.lock := rfl
@[simp] theorem modComp_fe (c : CompNo) (f : Comp → Comp) : (s.modComp c f).fe = s.fe := rfl
@[simp] theorem modComp_rearmRun (c : CompNo) (f : Comp → Comp) : (s.modComp c f).rearmRun = s.rearmRun := rfl
@[simp] theorem modComp_beatTimer (c : CompNo) (f : Comp → Comp) : (s.modComp c f).beatTimer = s.beatTimer := rfl
@[simp] theorem modComp_esdHigh (c : CompNo) (f : Comp → Comp) : (s.modComp c f).esdHigh = s.esdHigh := rfl
@[simp] theorem modComp_link (c : CompNo) (f : Comp → Comp) : (s.modComp c f).link = s.link := rfl
@[simp] theorem modComp_changes (c : CompNo) (f : Comp → Comp) : (s.modComp c f).changes = s.changes := rfl
@[simp] theorem modComp_scratch (c : CompNo) (f : Comp → Comp) : (s.modComp c f).scratch = s.scratch := rfl
@[simp] theorem modComp_freeCount (c : CompNo) (f : Comp → Comp) : (s.modComp c f).freeCount = s.freeCount := rfl
@[simp] theorem modComp_pending (c : CompNo) (f : Comp → Comp) : (s.modComp c f).pending = s.pending := rfl

@[simp] theorem modLink_cars (f : Link → Link) : (s.modLink f).cars = s.cars := rfl
@[simp] theorem modLink_spots (f : Link → Link) : (s.modLink f).spots = s.spots := rfl
@[simp] theorem modLink_vessels (f : Link → Link) : (s.modLink f).vessels = s.vessels := rfl
@[simp] theorem modLink_comps (f : Link → Link) : (s.modLink f).comps = s.comps := rfl
@[simp] theorem modLink_grants (f : Link → Link) : (s.modLink f).grants = s.grants := rfl
@[simp] theorem modLink_flashes (f : Link → Link) : (s.modLink f).flashes = s.flashes := rfl
@[simp] theorem modLink_inlets (f : Link → Link) : (s.modLink f).inlets = s.inlets := rfl
@[simp] theorem modLink_profile (f : Link → Link) : (s.modLink f).profile = s.profile := rfl
@[simp] theorem modLink_siding (f : Link → Link) : (s.modLink f).siding = s.siding := rfl
@[simp] theorem modLink_staged (f : Link → Link) : (s.modLink f).staged = s.staged := rfl
@[simp] theorem modLink_stagedVersion (f : Link → Link) : (s.modLink f).stagedVersion = s.stagedVersion := rfl
@[simp] theorem modLink_setpointHold (f : Link → Link) : (s.modLink f).setpointHold = s.setpointHold := rfl
@[simp] theorem modLink_tests (f : Link → Link) : (s.modLink f).tests = s.tests := rfl
@[simp] theorem modLink_lockTaken (f : Link → Link) : (s.modLink f).lockTaken = s.lockTaken := rfl
@[simp] theorem modLink_lock (f : Link → Link) : (s.modLink f).lock = s.lock := rfl
@[simp] theorem modLink_fe (f : Link → Link) : (s.modLink f).fe = s.fe := rfl
@[simp] theorem modLink_rearmRun (f : Link → Link) : (s.modLink f).rearmRun = s.rearmRun := rfl
@[simp] theorem modLink_beatTimer (f : Link → Link) : (s.modLink f).beatTimer = s.beatTimer := rfl
@[simp] theorem modLink_esdHigh (f : Link → Link) : (s.modLink f).esdHigh = s.esdHigh := rfl
@[simp] theorem modLink_changes (f : Link → Link) : (s.modLink f).changes = s.changes := rfl
@[simp] theorem modLink_scratch (f : Link → Link) : (s.modLink f).scratch = s.scratch := rfl
@[simp] theorem modLink_freeCount (f : Link → Link) : (s.modLink f).freeCount = s.freeCount := rfl
@[simp] theorem modLink_pending (f : Link → Link) : (s.modLink f).pending = s.pending := rfl

@[simp] theorem useFree_cars : (s.useFree).cars = s.cars := rfl
@[simp] theorem useFree_spots : (s.useFree).spots = s.spots := rfl
@[simp] theorem useFree_vessels : (s.useFree).vessels = s.vessels := rfl
@[simp] theorem useFree_comps : (s.useFree).comps = s.comps := rfl
@[simp] theorem useFree_grants : (s.useFree).grants = s.grants := rfl
@[simp] theorem useFree_flashes : (s.useFree).flashes = s.flashes := rfl
@[simp] theorem useFree_inlets : (s.useFree).inlets = s.inlets := rfl
@[simp] theorem useFree_profile : (s.useFree).profile = s.profile := rfl
@[simp] theorem useFree_siding : (s.useFree).siding = s.siding := rfl
@[simp] theorem useFree_staged : (s.useFree).staged = s.staged := rfl
@[simp] theorem useFree_stagedVersion : (s.useFree).stagedVersion = s.stagedVersion := rfl
@[simp] theorem useFree_setpointHold : (s.useFree).setpointHold = s.setpointHold := rfl
@[simp] theorem useFree_tests : (s.useFree).tests = s.tests := rfl
@[simp] theorem useFree_lockTaken : (s.useFree).lockTaken = s.lockTaken := rfl
@[simp] theorem useFree_lock : (s.useFree).lock = s.lock := rfl
@[simp] theorem useFree_fe : (s.useFree).fe = s.fe := rfl
@[simp] theorem useFree_rearmRun : (s.useFree).rearmRun = s.rearmRun := rfl
@[simp] theorem useFree_beatTimer : (s.useFree).beatTimer = s.beatTimer := rfl
@[simp] theorem useFree_esdHigh : (s.useFree).esdHigh = s.esdHigh := rfl
@[simp] theorem useFree_link : (s.useFree).link = s.link := rfl
@[simp] theorem useFree_changes : (s.useFree).changes = s.changes := rfl
@[simp] theorem useFree_scratch : (s.useFree).scratch = s.scratch := rfl
@[simp] theorem useFree_pending : (s.useFree).pending = s.pending := rfl

@[simp] theorem flagSlot_cars (k : SlotNo) : (s.flagSlot k).cars = s.cars := rfl
@[simp] theorem flagSlot_spots (k : SlotNo) : (s.flagSlot k).spots = s.spots := rfl
@[simp] theorem flagSlot_vessels (k : SlotNo) : (s.flagSlot k).vessels = s.vessels := rfl
@[simp] theorem flagSlot_comps (k : SlotNo) : (s.flagSlot k).comps = s.comps := rfl
@[simp] theorem flagSlot_grants (k : SlotNo) : (s.flagSlot k).grants = s.grants := rfl
@[simp] theorem flagSlot_flashes (k : SlotNo) : (s.flagSlot k).flashes = s.flashes := rfl
@[simp] theorem flagSlot_inlets (k : SlotNo) : (s.flagSlot k).inlets = s.inlets := rfl
@[simp] theorem flagSlot_profile (k : SlotNo) : (s.flagSlot k).profile = s.profile := rfl
@[simp] theorem flagSlot_siding (k : SlotNo) : (s.flagSlot k).siding = s.siding := rfl
@[simp] theorem flagSlot_staged (k : SlotNo) : (s.flagSlot k).staged = s.staged := rfl
@[simp] theorem flagSlot_stagedVersion (k : SlotNo) : (s.flagSlot k).stagedVersion = s.stagedVersion := rfl
@[simp] theorem flagSlot_setpointHold (k : SlotNo) : (s.flagSlot k).setpointHold = s.setpointHold := rfl
@[simp] theorem flagSlot_tests (k : SlotNo) : (s.flagSlot k).tests = s.tests := rfl
@[simp] theorem flagSlot_lockTaken (k : SlotNo) : (s.flagSlot k).lockTaken = s.lockTaken := rfl
@[simp] theorem flagSlot_lock (k : SlotNo) : (s.flagSlot k).lock = s.lock := rfl
@[simp] theorem flagSlot_fe (k : SlotNo) : (s.flagSlot k).fe = s.fe := rfl
@[simp] theorem flagSlot_rearmRun (k : SlotNo) : (s.flagSlot k).rearmRun = s.rearmRun := rfl
@[simp] theorem flagSlot_beatTimer (k : SlotNo) : (s.flagSlot k).beatTimer = s.beatTimer := rfl
@[simp] theorem flagSlot_esdHigh (k : SlotNo) : (s.flagSlot k).esdHigh = s.esdHigh := rfl
@[simp] theorem flagSlot_link (k : SlotNo) : (s.flagSlot k).link = s.link := rfl
@[simp] theorem flagSlot_scratch (k : SlotNo) : (s.flagSlot k).scratch = s.scratch := rfl
@[simp] theorem flagSlot_freeCount (k : SlotNo) : (s.flagSlot k).freeCount = s.freeCount := rfl
@[simp] theorem flagSlot_pending (k : SlotNo) : (s.flagSlot k).pending = s.pending := rfl

@[simp] theorem flagSiding_cars : (s.flagSiding).cars = s.cars := rfl
@[simp] theorem flagSiding_spots : (s.flagSiding).spots = s.spots := rfl
@[simp] theorem flagSiding_vessels : (s.flagSiding).vessels = s.vessels := rfl
@[simp] theorem flagSiding_comps : (s.flagSiding).comps = s.comps := rfl
@[simp] theorem flagSiding_grants : (s.flagSiding).grants = s.grants := rfl
@[simp] theorem flagSiding_flashes : (s.flagSiding).flashes = s.flashes := rfl
@[simp] theorem flagSiding_inlets : (s.flagSiding).inlets = s.inlets := rfl
@[simp] theorem flagSiding_profile : (s.flagSiding).profile = s.profile := rfl
@[simp] theorem flagSiding_siding : (s.flagSiding).siding = s.siding := rfl
@[simp] theorem flagSiding_staged : (s.flagSiding).staged = s.staged := rfl
@[simp] theorem flagSiding_stagedVersion : (s.flagSiding).stagedVersion = s.stagedVersion := rfl
@[simp] theorem flagSiding_setpointHold : (s.flagSiding).setpointHold = s.setpointHold := rfl
@[simp] theorem flagSiding_tests : (s.flagSiding).tests = s.tests := rfl
@[simp] theorem flagSiding_lockTaken : (s.flagSiding).lockTaken = s.lockTaken := rfl
@[simp] theorem flagSiding_lock : (s.flagSiding).lock = s.lock := rfl
@[simp] theorem flagSiding_fe : (s.flagSiding).fe = s.fe := rfl
@[simp] theorem flagSiding_rearmRun : (s.flagSiding).rearmRun = s.rearmRun := rfl
@[simp] theorem flagSiding_beatTimer : (s.flagSiding).beatTimer = s.beatTimer := rfl
@[simp] theorem flagSiding_esdHigh : (s.flagSiding).esdHigh = s.esdHigh := rfl
@[simp] theorem flagSiding_link : (s.flagSiding).link = s.link := rfl
@[simp] theorem flagSiding_scratch : (s.flagSiding).scratch = s.scratch := rfl
@[simp] theorem flagSiding_freeCount : (s.flagSiding).freeCount = s.freeCount := rfl
@[simp] theorem flagSiding_pending : (s.flagSiding).pending = s.pending := rfl

@[simp] theorem modCar_spots (k : SlotNo) (f : Car → Car) : (s.modCar k f).spots = s.spots := rfl
@[simp] theorem modCar_vessels (k : SlotNo) (f : Car → Car) : (s.modCar k f).vessels = s.vessels := rfl
@[simp] theorem modCar_comps (k : SlotNo) (f : Car → Car) : (s.modCar k f).comps = s.comps := rfl
@[simp] theorem modCar_grants (k : SlotNo) (f : Car → Car) : (s.modCar k f).grants = s.grants := rfl
@[simp] theorem modCar_flashes (k : SlotNo) (f : Car → Car) : (s.modCar k f).flashes = s.flashes := rfl
@[simp] theorem modCar_inlets (k : SlotNo) (f : Car → Car) : (s.modCar k f).inlets = s.inlets := rfl
@[simp] theorem modCar_profile (k : SlotNo) (f : Car → Car) : (s.modCar k f).profile = s.profile := rfl
@[simp] theorem modCar_siding (k : SlotNo) (f : Car → Car) : (s.modCar k f).siding = s.siding := rfl
@[simp] theorem modCar_staged (k : SlotNo) (f : Car → Car) : (s.modCar k f).staged = s.staged := rfl
@[simp] theorem modCar_stagedVersion (k : SlotNo) (f : Car → Car) : (s.modCar k f).stagedVersion = s.stagedVersion := rfl
@[simp] theorem modCar_setpointHold (k : SlotNo) (f : Car → Car) : (s.modCar k f).setpointHold = s.setpointHold := rfl
@[simp] theorem modCar_tests (k : SlotNo) (f : Car → Car) : (s.modCar k f).tests = s.tests := rfl
@[simp] theorem modCar_lockTaken (k : SlotNo) (f : Car → Car) : (s.modCar k f).lockTaken = s.lockTaken := rfl
@[simp] theorem modCar_lock (k : SlotNo) (f : Car → Car) : (s.modCar k f).lock = s.lock := rfl
@[simp] theorem modCar_fe (k : SlotNo) (f : Car → Car) : (s.modCar k f).fe = s.fe := rfl
@[simp] theorem modCar_rearmRun (k : SlotNo) (f : Car → Car) : (s.modCar k f).rearmRun = s.rearmRun := rfl
@[simp] theorem modCar_beatTimer (k : SlotNo) (f : Car → Car) : (s.modCar k f).beatTimer = s.beatTimer := rfl
@[simp] theorem modCar_esdHigh (k : SlotNo) (f : Car → Car) : (s.modCar k f).esdHigh = s.esdHigh := rfl
@[simp] theorem modCar_link (k : SlotNo) (f : Car → Car) : (s.modCar k f).link = s.link := rfl
@[simp] theorem modCar_changes (k : SlotNo) (f : Car → Car) : (s.modCar k f).changes = s.changes := rfl
@[simp] theorem modCar_freeCount (k : SlotNo) (f : Car → Car) : (s.modCar k f).freeCount = s.freeCount := rfl
@[simp] theorem modCar_pending (k : SlotNo) (f : Car → Car) : (s.modCar k f).pending = s.pending := rfl

@[simp] theorem touchSpot_cars (i : SpotNo) : (s.touchSpot i).cars = s.cars := rfl
@[simp] theorem touchSpot_spots (i : SpotNo) : (s.touchSpot i).spots = s.spots := rfl
@[simp] theorem touchSpot_vessels (i : SpotNo) : (s.touchSpot i).vessels = s.vessels := rfl
@[simp] theorem touchSpot_comps (i : SpotNo) : (s.touchSpot i).comps = s.comps := rfl
@[simp] theorem touchSpot_grants (i : SpotNo) : (s.touchSpot i).grants = s.grants := rfl
@[simp] theorem touchSpot_flashes (i : SpotNo) : (s.touchSpot i).flashes = s.flashes := rfl
@[simp] theorem touchSpot_inlets (i : SpotNo) : (s.touchSpot i).inlets = s.inlets := rfl
@[simp] theorem touchSpot_profile (i : SpotNo) : (s.touchSpot i).profile = s.profile := rfl
@[simp] theorem touchSpot_siding (i : SpotNo) : (s.touchSpot i).siding = s.siding := rfl
@[simp] theorem touchSpot_staged (i : SpotNo) : (s.touchSpot i).staged = s.staged := rfl
@[simp] theorem touchSpot_stagedVersion (i : SpotNo) : (s.touchSpot i).stagedVersion = s.stagedVersion := rfl
@[simp] theorem touchSpot_setpointHold (i : SpotNo) : (s.touchSpot i).setpointHold = s.setpointHold := rfl
@[simp] theorem touchSpot_tests (i : SpotNo) : (s.touchSpot i).tests = s.tests := rfl
@[simp] theorem touchSpot_lockTaken (i : SpotNo) : (s.touchSpot i).lockTaken = s.lockTaken := rfl
@[simp] theorem touchSpot_lock (i : SpotNo) : (s.touchSpot i).lock = s.lock := rfl
@[simp] theorem touchSpot_fe (i : SpotNo) : (s.touchSpot i).fe = s.fe := rfl
@[simp] theorem touchSpot_rearmRun (i : SpotNo) : (s.touchSpot i).rearmRun = s.rearmRun := rfl
@[simp] theorem touchSpot_beatTimer (i : SpotNo) : (s.touchSpot i).beatTimer = s.beatTimer := rfl
@[simp] theorem touchSpot_esdHigh (i : SpotNo) : (s.touchSpot i).esdHigh = s.esdHigh := rfl
@[simp] theorem touchSpot_link (i : SpotNo) : (s.touchSpot i).link = s.link := rfl
@[simp] theorem touchSpot_changes (i : SpotNo) : (s.touchSpot i).changes = s.changes := rfl
@[simp] theorem touchSpot_freeCount (i : SpotNo) : (s.touchSpot i).freeCount = s.freeCount := rfl
@[simp] theorem touchSpot_pending (i : SpotNo) : (s.touchSpot i).pending = s.pending := rfl

@[simp] theorem touchVessel_cars (v : VesselNo) : (s.touchVessel v).cars = s.cars := rfl
@[simp] theorem touchVessel_spots (v : VesselNo) : (s.touchVessel v).spots = s.spots := rfl
@[simp] theorem touchVessel_vessels (v : VesselNo) : (s.touchVessel v).vessels = s.vessels := rfl
@[simp] theorem touchVessel_comps (v : VesselNo) : (s.touchVessel v).comps = s.comps := rfl
@[simp] theorem touchVessel_grants (v : VesselNo) : (s.touchVessel v).grants = s.grants := rfl
@[simp] theorem touchVessel_flashes (v : VesselNo) : (s.touchVessel v).flashes = s.flashes := rfl
@[simp] theorem touchVessel_inlets (v : VesselNo) : (s.touchVessel v).inlets = s.inlets := rfl
@[simp] theorem touchVessel_profile (v : VesselNo) : (s.touchVessel v).profile = s.profile := rfl
@[simp] theorem touchVessel_siding (v : VesselNo) : (s.touchVessel v).siding = s.siding := rfl
@[simp] theorem touchVessel_staged (v : VesselNo) : (s.touchVessel v).staged = s.staged := rfl
@[simp] theorem touchVessel_stagedVersion (v : VesselNo) : (s.touchVessel v).stagedVersion = s.stagedVersion := rfl
@[simp] theorem touchVessel_setpointHold (v : VesselNo) : (s.touchVessel v).setpointHold = s.setpointHold := rfl
@[simp] theorem touchVessel_tests (v : VesselNo) : (s.touchVessel v).tests = s.tests := rfl
@[simp] theorem touchVessel_lockTaken (v : VesselNo) : (s.touchVessel v).lockTaken = s.lockTaken := rfl
@[simp] theorem touchVessel_lock (v : VesselNo) : (s.touchVessel v).lock = s.lock := rfl
@[simp] theorem touchVessel_fe (v : VesselNo) : (s.touchVessel v).fe = s.fe := rfl
@[simp] theorem touchVessel_rearmRun (v : VesselNo) : (s.touchVessel v).rearmRun = s.rearmRun := rfl
@[simp] theorem touchVessel_beatTimer (v : VesselNo) : (s.touchVessel v).beatTimer = s.beatTimer := rfl
@[simp] theorem touchVessel_esdHigh (v : VesselNo) : (s.touchVessel v).esdHigh = s.esdHigh := rfl
@[simp] theorem touchVessel_link (v : VesselNo) : (s.touchVessel v).link = s.link := rfl
@[simp] theorem touchVessel_changes (v : VesselNo) : (s.touchVessel v).changes = s.changes := rfl
@[simp] theorem touchVessel_freeCount (v : VesselNo) : (s.touchVessel v).freeCount = s.freeCount := rfl
@[simp] theorem touchVessel_pending (v : VesselNo) : (s.touchVessel v).pending = s.pending := rfl

@[simp] theorem touchComp_cars (c : CompNo) : (s.touchComp c).cars = s.cars := rfl
@[simp] theorem touchComp_spots (c : CompNo) : (s.touchComp c).spots = s.spots := rfl
@[simp] theorem touchComp_vessels (c : CompNo) : (s.touchComp c).vessels = s.vessels := rfl
@[simp] theorem touchComp_comps (c : CompNo) : (s.touchComp c).comps = s.comps := rfl
@[simp] theorem touchComp_grants (c : CompNo) : (s.touchComp c).grants = s.grants := rfl
@[simp] theorem touchComp_flashes (c : CompNo) : (s.touchComp c).flashes = s.flashes := rfl
@[simp] theorem touchComp_inlets (c : CompNo) : (s.touchComp c).inlets = s.inlets := rfl
@[simp] theorem touchComp_profile (c : CompNo) : (s.touchComp c).profile = s.profile := rfl
@[simp] theorem touchComp_siding (c : CompNo) : (s.touchComp c).siding = s.siding := rfl
@[simp] theorem touchComp_staged (c : CompNo) : (s.touchComp c).staged = s.staged := rfl
@[simp] theorem touchComp_stagedVersion (c : CompNo) : (s.touchComp c).stagedVersion = s.stagedVersion := rfl
@[simp] theorem touchComp_setpointHold (c : CompNo) : (s.touchComp c).setpointHold = s.setpointHold := rfl
@[simp] theorem touchComp_tests (c : CompNo) : (s.touchComp c).tests = s.tests := rfl
@[simp] theorem touchComp_lockTaken (c : CompNo) : (s.touchComp c).lockTaken = s.lockTaken := rfl
@[simp] theorem touchComp_lock (c : CompNo) : (s.touchComp c).lock = s.lock := rfl
@[simp] theorem touchComp_fe (c : CompNo) : (s.touchComp c).fe = s.fe := rfl
@[simp] theorem touchComp_rearmRun (c : CompNo) : (s.touchComp c).rearmRun = s.rearmRun := rfl
@[simp] theorem touchComp_beatTimer (c : CompNo) : (s.touchComp c).beatTimer = s.beatTimer := rfl
@[simp] theorem touchComp_esdHigh (c : CompNo) : (s.touchComp c).esdHigh = s.esdHigh := rfl
@[simp] theorem touchComp_link (c : CompNo) : (s.touchComp c).link = s.link := rfl
@[simp] theorem touchComp_changes (c : CompNo) : (s.touchComp c).changes = s.changes := rfl
@[simp] theorem touchComp_freeCount (c : CompNo) : (s.touchComp c).freeCount = s.freeCount := rfl
@[simp] theorem touchComp_pending (c : CompNo) : (s.touchComp c).pending = s.pending := rfl

@[simp] theorem touchQueue_cars : (s.touchQueue).cars = s.cars := rfl
@[simp] theorem touchQueue_spots : (s.touchQueue).spots = s.spots := rfl
@[simp] theorem touchQueue_vessels : (s.touchQueue).vessels = s.vessels := rfl
@[simp] theorem touchQueue_comps : (s.touchQueue).comps = s.comps := rfl
@[simp] theorem touchQueue_grants : (s.touchQueue).grants = s.grants := rfl
@[simp] theorem touchQueue_flashes : (s.touchQueue).flashes = s.flashes := rfl
@[simp] theorem touchQueue_inlets : (s.touchQueue).inlets = s.inlets := rfl
@[simp] theorem touchQueue_profile : (s.touchQueue).profile = s.profile := rfl
@[simp] theorem touchQueue_siding : (s.touchQueue).siding = s.siding := rfl
@[simp] theorem touchQueue_staged : (s.touchQueue).staged = s.staged := rfl
@[simp] theorem touchQueue_stagedVersion : (s.touchQueue).stagedVersion = s.stagedVersion := rfl
@[simp] theorem touchQueue_setpointHold : (s.touchQueue).setpointHold = s.setpointHold := rfl
@[simp] theorem touchQueue_tests : (s.touchQueue).tests = s.tests := rfl
@[simp] theorem touchQueue_lockTaken : (s.touchQueue).lockTaken = s.lockTaken := rfl
@[simp] theorem touchQueue_lock : (s.touchQueue).lock = s.lock := rfl
@[simp] theorem touchQueue_fe : (s.touchQueue).fe = s.fe := rfl
@[simp] theorem touchQueue_rearmRun : (s.touchQueue).rearmRun = s.rearmRun := rfl
@[simp] theorem touchQueue_beatTimer : (s.touchQueue).beatTimer = s.beatTimer := rfl
@[simp] theorem touchQueue_esdHigh : (s.touchQueue).esdHigh = s.esdHigh := rfl
@[simp] theorem touchQueue_link : (s.touchQueue).link = s.link := rfl
@[simp] theorem touchQueue_changes : (s.touchQueue).changes = s.changes := rfl
@[simp] theorem touchQueue_freeCount : (s.touchQueue).freeCount = s.freeCount := rfl
@[simp] theorem touchQueue_pending : (s.touchQueue).pending = s.pending := rfl

@[simp] theorem clearScratch_cars : (clearScratch s).cars = s.cars := rfl
@[simp] theorem clearScratch_spots : (clearScratch s).spots = s.spots := rfl
@[simp] theorem clearScratch_vessels : (clearScratch s).vessels = s.vessels := rfl
@[simp] theorem clearScratch_comps : (clearScratch s).comps = s.comps := rfl
@[simp] theorem clearScratch_grants : (clearScratch s).grants = s.grants := rfl
@[simp] theorem clearScratch_flashes : (clearScratch s).flashes = s.flashes := rfl
@[simp] theorem clearScratch_inlets : (clearScratch s).inlets = s.inlets := rfl
@[simp] theorem clearScratch_profile : (clearScratch s).profile = s.profile := rfl
@[simp] theorem clearScratch_siding : (clearScratch s).siding = s.siding := rfl
@[simp] theorem clearScratch_staged : (clearScratch s).staged = s.staged := rfl
@[simp] theorem clearScratch_stagedVersion : (clearScratch s).stagedVersion = s.stagedVersion := rfl
@[simp] theorem clearScratch_setpointHold : (clearScratch s).setpointHold = s.setpointHold := rfl
@[simp] theorem clearScratch_tests : (clearScratch s).tests = s.tests := rfl
@[simp] theorem clearScratch_lockTaken : (clearScratch s).lockTaken = s.lockTaken := rfl
@[simp] theorem clearScratch_lock : (clearScratch s).lock = s.lock := rfl
@[simp] theorem clearScratch_fe : (clearScratch s).fe = s.fe := rfl
@[simp] theorem clearScratch_rearmRun : (clearScratch s).rearmRun = s.rearmRun := rfl
@[simp] theorem clearScratch_beatTimer : (clearScratch s).beatTimer = s.beatTimer := rfl
@[simp] theorem clearScratch_esdHigh : (clearScratch s).esdHigh = s.esdHigh := rfl
@[simp] theorem clearScratch_link : (clearScratch s).link = s.link := rfl
@[simp] theorem clearScratch_changes : (clearScratch s).changes = s.changes := rfl
@[simp] theorem clearScratch_freeCount : (clearScratch s).freeCount = s.freeCount := rfl
@[simp] theorem clearScratch_pending : (clearScratch s).pending = s.pending := rfl

@[simp] theorem refreshInlets_cars : (s.refreshInlets).cars = s.cars := rfl
@[simp] theorem refreshInlets_spots : (s.refreshInlets).spots = s.spots := rfl
@[simp] theorem refreshInlets_vessels : (s.refreshInlets).vessels = s.vessels := rfl
@[simp] theorem refreshInlets_comps : (s.refreshInlets).comps = s.comps := rfl
@[simp] theorem refreshInlets_grants : (s.refreshInlets).grants = s.grants := rfl
@[simp] theorem refreshInlets_flashes : (s.refreshInlets).flashes = s.flashes := rfl
@[simp] theorem refreshInlets_profile : (s.refreshInlets).profile = s.profile := rfl
@[simp] theorem refreshInlets_siding : (s.refreshInlets).siding = s.siding := rfl
@[simp] theorem refreshInlets_staged : (s.refreshInlets).staged = s.staged := rfl
@[simp] theorem refreshInlets_stagedVersion : (s.refreshInlets).stagedVersion = s.stagedVersion := rfl
@[simp] theorem refreshInlets_setpointHold : (s.refreshInlets).setpointHold = s.setpointHold := rfl
@[simp] theorem refreshInlets_tests : (s.refreshInlets).tests = s.tests := rfl
@[simp] theorem refreshInlets_lockTaken : (s.refreshInlets).lockTaken = s.lockTaken := rfl
@[simp] theorem refreshInlets_lock : (s.refreshInlets).lock = s.lock := rfl
@[simp] theorem refreshInlets_fe : (s.refreshInlets).fe = s.fe := rfl
@[simp] theorem refreshInlets_rearmRun : (s.refreshInlets).rearmRun = s.rearmRun := rfl
@[simp] theorem refreshInlets_beatTimer : (s.refreshInlets).beatTimer = s.beatTimer := rfl
@[simp] theorem refreshInlets_esdHigh : (s.refreshInlets).esdHigh = s.esdHigh := rfl
@[simp] theorem refreshInlets_link : (s.refreshInlets).link = s.link := rfl
@[simp] theorem refreshInlets_changes : (s.refreshInlets).changes = s.changes := rfl
@[simp] theorem refreshInlets_scratch : (s.refreshInlets).scratch = s.scratch := rfl
@[simp] theorem refreshInlets_freeCount : (s.refreshInlets).freeCount = s.freeCount := rfl
@[simp] theorem refreshInlets_pending : (s.refreshInlets).pending = s.pending := rfl

@[simp] theorem modLink_link (f : Link → Link) : (s.modLink f).link = f s.link := rfl
@[simp] theorem clearScratch_scratch : (clearScratch s).scratch = .empty := rfl
@[simp] theorem useFree_freeCount : s.useFree.freeCount = s.freeCount + 1 := rfl
@[simp] theorem modCar_departed (k : SlotNo) (f : Car → Car) : (s.modCar k f).scratch.departed = s.scratch.departed := rfl
@[simp] theorem modCar_touched (k : SlotNo) (f : Car → Car) :
    (s.modCar k f).scratch.touched = s.scratch.touched ||| BitVec.twoPow 24 k := rfl
@[simp] theorem touchSpot_touched (i : SpotNo) : (s.touchSpot i).scratch.touched = s.scratch.touched := rfl
@[simp] theorem touchSpot_departed (i : SpotNo) : (s.touchSpot i).scratch.departed = s.scratch.departed := rfl
@[simp] theorem touchSpot_touchedVessels (i : SpotNo) : (s.touchSpot i).scratch.vessels = s.scratch.vessels := rfl
@[simp] theorem touchSpot_touchedComps (i : SpotNo) : (s.touchSpot i).scratch.comps = s.scratch.comps := rfl
@[simp] theorem touchVessel_touched (v : VesselNo) : (s.touchVessel v).scratch.touched = s.scratch.touched := rfl
@[simp] theorem touchVessel_departed (v : VesselNo) : (s.touchVessel v).scratch.departed = s.scratch.departed := rfl
@[simp] theorem touchVessel_touchedSpots (v : VesselNo) : (s.touchVessel v).scratch.spots = s.scratch.spots := rfl
@[simp] theorem touchVessel_touchedComps (v : VesselNo) : (s.touchVessel v).scratch.comps = s.scratch.comps := rfl
@[simp] theorem touchComp_touched (c : CompNo) : (s.touchComp c).scratch.touched = s.scratch.touched := rfl
@[simp] theorem touchComp_departed (c : CompNo) : (s.touchComp c).scratch.departed = s.scratch.departed := rfl
@[simp] theorem touchComp_touchedSpots (c : CompNo) : (s.touchComp c).scratch.spots = s.scratch.spots := rfl
@[simp] theorem touchComp_touchedVessels (c : CompNo) : (s.touchComp c).scratch.vessels = s.scratch.vessels := rfl
@[simp] theorem touchQueue_touched : (s.touchQueue).scratch.touched = s.scratch.touched := rfl
@[simp] theorem touchQueue_departed : (s.touchQueue).scratch.departed = s.scratch.departed := rfl
@[simp] theorem touchQueue_touchedSpots : (s.touchQueue).scratch.spots = s.scratch.spots := rfl
@[simp] theorem touchQueue_touchedVessels : (s.touchQueue).scratch.vessels = s.scratch.vessels := rfl
@[simp] theorem modCar_touchedSpots (k : SlotNo) (f : Car → Car) : (s.modCar k f).scratch.spots = s.scratch.spots := rfl
@[simp] theorem modCar_touchedVessels (k : SlotNo) (f : Car → Car) : (s.modCar k f).scratch.vessels = s.scratch.vessels := rfl
@[simp] theorem modCar_touchedComps (k : SlotNo) (f : Car → Car) : (s.modCar k f).scratch.comps = s.scratch.comps := rfl
@[simp] theorem touchSpot_touchedSpots (i : SpotNo) :
    (s.touchSpot i).scratch.spots = s.scratch.spots ||| BitVec.twoPow 8 i := rfl
@[simp] theorem touchVessel_touchedVessels (v : VesselNo) :
    (s.touchVessel v).scratch.vessels = s.scratch.vessels ||| BitVec.twoPow 6 v := rfl
@[simp] theorem touchComp_touchedComps (c : CompNo) :
    (s.touchComp c).scratch.comps = s.scratch.comps ||| BitVec.twoPow 2 c := rfl
@[simp] theorem touchQueue_touchedComps :
    s.touchQueue.scratch.comps = s.scratch.comps ||| BitVec.ofFnLE fun c => s.fittedComp c := rfl

@[simp] theorem modSlot_spot (k : SlotNo) (f : CarSlot → CarSlot) (i' : SpotNo) : (s.modSlot k f).spot i' = s.spot i' := rfl
@[simp] theorem modSlot_vessel (k : SlotNo) (f : CarSlot → CarSlot) (v' : VesselNo) : (s.modSlot k f).vessel v' = s.vessel v' := rfl
@[simp] theorem modSlot_comp (k : SlotNo) (f : CarSlot → CarSlot) (c' : CompNo) : (s.modSlot k f).comp c' = s.comp c' := rfl
@[simp] theorem modSlot_flash (k : SlotNo) (f : CarSlot → CarSlot) (i' : SpotNo) : (s.modSlot k f).flash i' = s.flash i' := rfl

@[simp] theorem modSpot_vessel (i : SpotNo) (f : Spot → Spot) (v' : VesselNo) : (s.modSpot i f).vessel v' = s.vessel v' := rfl
@[simp] theorem modSpot_comp (i : SpotNo) (f : Spot → Spot) (c' : CompNo) : (s.modSpot i f).comp c' = s.comp c' := rfl
@[simp] theorem modSpot_carSlot (i : SpotNo) (f : Spot → Spot) (k' : SlotNo) : (s.modSpot i f).carSlot k' = s.carSlot k' := rfl
@[simp] theorem modSpot_flash (i : SpotNo) (f : Spot → Spot) (i' : SpotNo) : (s.modSpot i f).flash i' = s.flash i' := rfl
@[simp] theorem modSpot_car (i : SpotNo) (f : Spot → Spot) (k' : SlotNo) : (s.modSpot i f).car k' = s.car k' := rfl

@[simp] theorem modVessel_spot (v : VesselNo) (f : Vessel → Vessel) (i' : SpotNo) : (s.modVessel v f).spot i' = s.spot i' := rfl
@[simp] theorem modVessel_comp (v : VesselNo) (f : Vessel → Vessel) (c' : CompNo) : (s.modVessel v f).comp c' = s.comp c' := rfl
@[simp] theorem modVessel_carSlot (v : VesselNo) (f : Vessel → Vessel) (k' : SlotNo) : (s.modVessel v f).carSlot k' = s.carSlot k' := rfl
@[simp] theorem modVessel_flash (v : VesselNo) (f : Vessel → Vessel) (i' : SpotNo) : (s.modVessel v f).flash i' = s.flash i' := rfl
@[simp] theorem modVessel_car (v : VesselNo) (f : Vessel → Vessel) (k' : SlotNo) : (s.modVessel v f).car k' = s.car k' := rfl

@[simp] theorem modComp_spot (c : CompNo) (f : Comp → Comp) (i' : SpotNo) : (s.modComp c f).spot i' = s.spot i' := rfl
@[simp] theorem modComp_vessel (c : CompNo) (f : Comp → Comp) (v' : VesselNo) : (s.modComp c f).vessel v' = s.vessel v' := rfl
@[simp] theorem modComp_carSlot (c : CompNo) (f : Comp → Comp) (k' : SlotNo) : (s.modComp c f).carSlot k' = s.carSlot k' := rfl
@[simp] theorem modComp_flash (c : CompNo) (f : Comp → Comp) (i' : SpotNo) : (s.modComp c f).flash i' = s.flash i' := rfl
@[simp] theorem modComp_car (c : CompNo) (f : Comp → Comp) (k' : SlotNo) : (s.modComp c f).car k' = s.car k' := rfl

@[simp] theorem modLink_spot (f : Link → Link) (i' : SpotNo) : (s.modLink f).spot i' = s.spot i' := rfl
@[simp] theorem modLink_vessel (f : Link → Link) (v' : VesselNo) : (s.modLink f).vessel v' = s.vessel v' := rfl
@[simp] theorem modLink_comp (f : Link → Link) (c' : CompNo) : (s.modLink f).comp c' = s.comp c' := rfl
@[simp] theorem modLink_carSlot (f : Link → Link) (k' : SlotNo) : (s.modLink f).carSlot k' = s.carSlot k' := rfl
@[simp] theorem modLink_flash (f : Link → Link) (i' : SpotNo) : (s.modLink f).flash i' = s.flash i' := rfl
@[simp] theorem modLink_car (f : Link → Link) (k' : SlotNo) : (s.modLink f).car k' = s.car k' := rfl

@[simp] theorem useFree_spot (i' : SpotNo) : (s.useFree).spot i' = s.spot i' := rfl
@[simp] theorem useFree_vessel (v' : VesselNo) : (s.useFree).vessel v' = s.vessel v' := rfl
@[simp] theorem useFree_comp (c' : CompNo) : (s.useFree).comp c' = s.comp c' := rfl
@[simp] theorem useFree_carSlot (k' : SlotNo) : (s.useFree).carSlot k' = s.carSlot k' := rfl
@[simp] theorem useFree_flash (i' : SpotNo) : (s.useFree).flash i' = s.flash i' := rfl
@[simp] theorem useFree_car (k' : SlotNo) : (s.useFree).car k' = s.car k' := rfl

@[simp] theorem flagSlot_spot (k : SlotNo) (i' : SpotNo) : (s.flagSlot k).spot i' = s.spot i' := rfl
@[simp] theorem flagSlot_vessel (k : SlotNo) (v' : VesselNo) : (s.flagSlot k).vessel v' = s.vessel v' := rfl
@[simp] theorem flagSlot_comp (k : SlotNo) (c' : CompNo) : (s.flagSlot k).comp c' = s.comp c' := rfl
@[simp] theorem flagSlot_carSlot (k : SlotNo) (k' : SlotNo) : (s.flagSlot k).carSlot k' = s.carSlot k' := rfl
@[simp] theorem flagSlot_flash (k : SlotNo) (i' : SpotNo) : (s.flagSlot k).flash i' = s.flash i' := rfl
@[simp] theorem flagSlot_car (k : SlotNo) (k' : SlotNo) : (s.flagSlot k).car k' = s.car k' := rfl

@[simp] theorem flagSiding_spot (i' : SpotNo) : (s.flagSiding).spot i' = s.spot i' := rfl
@[simp] theorem flagSiding_vessel (v' : VesselNo) : (s.flagSiding).vessel v' = s.vessel v' := rfl
@[simp] theorem flagSiding_comp (c' : CompNo) : (s.flagSiding).comp c' = s.comp c' := rfl
@[simp] theorem flagSiding_carSlot (k' : SlotNo) : (s.flagSiding).carSlot k' = s.carSlot k' := rfl
@[simp] theorem flagSiding_flash (i' : SpotNo) : (s.flagSiding).flash i' = s.flash i' := rfl
@[simp] theorem flagSiding_car (k' : SlotNo) : (s.flagSiding).car k' = s.car k' := rfl

@[simp] theorem modCar_spot (k : SlotNo) (f : Car → Car) (i' : SpotNo) : (s.modCar k f).spot i' = s.spot i' := rfl
@[simp] theorem modCar_vessel (k : SlotNo) (f : Car → Car) (v' : VesselNo) : (s.modCar k f).vessel v' = s.vessel v' := rfl
@[simp] theorem modCar_comp (k : SlotNo) (f : Car → Car) (c' : CompNo) : (s.modCar k f).comp c' = s.comp c' := rfl
@[simp] theorem modCar_flash (k : SlotNo) (f : Car → Car) (i' : SpotNo) : (s.modCar k f).flash i' = s.flash i' := rfl

@[simp] theorem touchSpot_spot (i : SpotNo) (i' : SpotNo) : (s.touchSpot i).spot i' = s.spot i' := rfl
@[simp] theorem touchSpot_vessel (i : SpotNo) (v' : VesselNo) : (s.touchSpot i).vessel v' = s.vessel v' := rfl
@[simp] theorem touchSpot_comp (i : SpotNo) (c' : CompNo) : (s.touchSpot i).comp c' = s.comp c' := rfl
@[simp] theorem touchSpot_carSlot (i : SpotNo) (k' : SlotNo) : (s.touchSpot i).carSlot k' = s.carSlot k' := rfl
@[simp] theorem touchSpot_flash (i : SpotNo) (i' : SpotNo) : (s.touchSpot i).flash i' = s.flash i' := rfl
@[simp] theorem touchSpot_car (i : SpotNo) (k' : SlotNo) : (s.touchSpot i).car k' = s.car k' := rfl

@[simp] theorem touchVessel_spot (v : VesselNo) (i' : SpotNo) : (s.touchVessel v).spot i' = s.spot i' := rfl
@[simp] theorem touchVessel_vessel (v : VesselNo) (v' : VesselNo) : (s.touchVessel v).vessel v' = s.vessel v' := rfl
@[simp] theorem touchVessel_comp (v : VesselNo) (c' : CompNo) : (s.touchVessel v).comp c' = s.comp c' := rfl
@[simp] theorem touchVessel_carSlot (v : VesselNo) (k' : SlotNo) : (s.touchVessel v).carSlot k' = s.carSlot k' := rfl
@[simp] theorem touchVessel_flash (v : VesselNo) (i' : SpotNo) : (s.touchVessel v).flash i' = s.flash i' := rfl
@[simp] theorem touchVessel_car (v : VesselNo) (k' : SlotNo) : (s.touchVessel v).car k' = s.car k' := rfl

@[simp] theorem touchComp_spot (c : CompNo) (i' : SpotNo) : (s.touchComp c).spot i' = s.spot i' := rfl
@[simp] theorem touchComp_vessel (c : CompNo) (v' : VesselNo) : (s.touchComp c).vessel v' = s.vessel v' := rfl
@[simp] theorem touchComp_comp (c : CompNo) (c' : CompNo) : (s.touchComp c).comp c' = s.comp c' := rfl
@[simp] theorem touchComp_carSlot (c : CompNo) (k' : SlotNo) : (s.touchComp c).carSlot k' = s.carSlot k' := rfl
@[simp] theorem touchComp_flash (c : CompNo) (i' : SpotNo) : (s.touchComp c).flash i' = s.flash i' := rfl
@[simp] theorem touchComp_car (c : CompNo) (k' : SlotNo) : (s.touchComp c).car k' = s.car k' := rfl

@[simp] theorem touchQueue_spot (i' : SpotNo) : (s.touchQueue).spot i' = s.spot i' := rfl
@[simp] theorem touchQueue_vessel (v' : VesselNo) : (s.touchQueue).vessel v' = s.vessel v' := rfl
@[simp] theorem touchQueue_comp (c' : CompNo) : (s.touchQueue).comp c' = s.comp c' := rfl
@[simp] theorem touchQueue_carSlot (k' : SlotNo) : (s.touchQueue).carSlot k' = s.carSlot k' := rfl
@[simp] theorem touchQueue_flash (i' : SpotNo) : (s.touchQueue).flash i' = s.flash i' := rfl
@[simp] theorem touchQueue_car (k' : SlotNo) : (s.touchQueue).car k' = s.car k' := rfl

@[simp] theorem clearScratch_spot (i' : SpotNo) : (clearScratch s).spot i' = s.spot i' := rfl
@[simp] theorem clearScratch_vessel (v' : VesselNo) : (clearScratch s).vessel v' = s.vessel v' := rfl
@[simp] theorem clearScratch_comp (c' : CompNo) : (clearScratch s).comp c' = s.comp c' := rfl
@[simp] theorem clearScratch_carSlot (k' : SlotNo) : (clearScratch s).carSlot k' = s.carSlot k' := rfl
@[simp] theorem clearScratch_flash (i' : SpotNo) : (clearScratch s).flash i' = s.flash i' := rfl
@[simp] theorem clearScratch_car (k' : SlotNo) : (clearScratch s).car k' = s.car k' := rfl

@[simp] theorem refreshInlets_spot (i' : SpotNo) : (s.refreshInlets).spot i' = s.spot i' := rfl
@[simp] theorem refreshInlets_vessel (v' : VesselNo) : (s.refreshInlets).vessel v' = s.vessel v' := rfl
@[simp] theorem refreshInlets_comp (c' : CompNo) : (s.refreshInlets).comp c' = s.comp c' := rfl
@[simp] theorem refreshInlets_carSlot (k' : SlotNo) : (s.refreshInlets).carSlot k' = s.carSlot k' := rfl
@[simp] theorem refreshInlets_flash (i' : SpotNo) : (s.refreshInlets).flash i' = s.flash i' := rfl
@[simp] theorem refreshInlets_car (k' : SlotNo) : (s.refreshInlets).car k' = s.car k' := rfl

@[simp] theorem modSlot_site (k : SlotNo) (f : CarSlot → CarSlot) (g : Site → Nat) : (s.modSlot k f).site g = s.site g := rfl
@[simp] theorem modSlot_protection (k : SlotNo) (f : CarSlot → CarSlot) : (s.modSlot k f).protection = s.protection := rfl
@[simp] theorem modSlot_strokeOfDirection (k : SlotNo) (f : CarSlot → CarSlot) : (s.modSlot k f).strokeOfDirection = s.strokeOfDirection := rfl
@[simp] theorem modSlot_esdActive (k : SlotNo) (f : CarSlot → CarSlot) : (s.modSlot k f).esdActive = s.esdActive := rfl
@[simp] theorem modSlot_strokeOf (k : SlotNo) (f : CarSlot → CarSlot) (n' : ValveName) : (s.modSlot k f).strokeOf n' = s.strokeOf n' := rfl
@[simp] theorem modSlot_fittedSpot (k : SlotNo) (f : CarSlot → CarSlot) (x : SpotNo) : (s.modSlot k f).fittedSpot x = s.fittedSpot x := rfl
@[simp] theorem modSlot_fittedVessel (k : SlotNo) (f : CarSlot → CarSlot) (x : VesselNo) : (s.modSlot k f).fittedVessel x = s.fittedVessel x := rfl
@[simp] theorem modSlot_fittedComp (k : SlotNo) (f : CarSlot → CarSlot) (x : CompNo) : (s.modSlot k f).fittedComp x = s.fittedComp x := rfl
@[simp] theorem modSlot_divisor (k : SlotNo) (f : CarSlot → CarSlot) (x : SpotNo) : (s.modSlot k f).divisor x = s.divisor x := rfl
@[simp] theorem modSlot_vesselData (k : SlotNo) (f : CarSlot → CarSlot) (x : VesselNo) : (s.modSlot k f).vesselData x = s.vesselData x := rfl

@[simp] theorem modSpot_site (i : SpotNo) (f : Spot → Spot) (g : Site → Nat) : (s.modSpot i f).site g = s.site g := rfl
@[simp] theorem modSpot_protection (i : SpotNo) (f : Spot → Spot) : (s.modSpot i f).protection = s.protection := rfl
@[simp] theorem modSpot_strokeOfDirection (i : SpotNo) (f : Spot → Spot) : (s.modSpot i f).strokeOfDirection = s.strokeOfDirection := rfl
@[simp] theorem modSpot_esdActive (i : SpotNo) (f : Spot → Spot) : (s.modSpot i f).esdActive = s.esdActive := rfl
@[simp] theorem modSpot_strokeOf (i : SpotNo) (f : Spot → Spot) (n' : ValveName) : (s.modSpot i f).strokeOf n' = s.strokeOf n' := rfl
@[simp] theorem modSpot_fittedSpot (i : SpotNo) (f : Spot → Spot) (x : SpotNo) : (s.modSpot i f).fittedSpot x = s.fittedSpot x := rfl
@[simp] theorem modSpot_fittedVessel (i : SpotNo) (f : Spot → Spot) (x : VesselNo) : (s.modSpot i f).fittedVessel x = s.fittedVessel x := rfl
@[simp] theorem modSpot_fittedComp (i : SpotNo) (f : Spot → Spot) (x : CompNo) : (s.modSpot i f).fittedComp x = s.fittedComp x := rfl
@[simp] theorem modSpot_divisor (i : SpotNo) (f : Spot → Spot) (x : SpotNo) : (s.modSpot i f).divisor x = s.divisor x := rfl
@[simp] theorem modSpot_vesselData (i : SpotNo) (f : Spot → Spot) (x : VesselNo) : (s.modSpot i f).vesselData x = s.vesselData x := rfl

@[simp] theorem modVessel_site (v : VesselNo) (f : Vessel → Vessel) (g : Site → Nat) : (s.modVessel v f).site g = s.site g := rfl
@[simp] theorem modVessel_protection (v : VesselNo) (f : Vessel → Vessel) : (s.modVessel v f).protection = s.protection := rfl
@[simp] theorem modVessel_strokeOfDirection (v : VesselNo) (f : Vessel → Vessel) : (s.modVessel v f).strokeOfDirection = s.strokeOfDirection := rfl
@[simp] theorem modVessel_esdActive (v : VesselNo) (f : Vessel → Vessel) : (s.modVessel v f).esdActive = s.esdActive := rfl
@[simp] theorem modVessel_strokeOf (v : VesselNo) (f : Vessel → Vessel) (n' : ValveName) : (s.modVessel v f).strokeOf n' = s.strokeOf n' := rfl
@[simp] theorem modVessel_fittedSpot (v : VesselNo) (f : Vessel → Vessel) (x : SpotNo) : (s.modVessel v f).fittedSpot x = s.fittedSpot x := rfl
@[simp] theorem modVessel_fittedVessel (v : VesselNo) (f : Vessel → Vessel) (x : VesselNo) : (s.modVessel v f).fittedVessel x = s.fittedVessel x := rfl
@[simp] theorem modVessel_fittedComp (v : VesselNo) (f : Vessel → Vessel) (x : CompNo) : (s.modVessel v f).fittedComp x = s.fittedComp x := rfl
@[simp] theorem modVessel_divisor (v : VesselNo) (f : Vessel → Vessel) (x : SpotNo) : (s.modVessel v f).divisor x = s.divisor x := rfl
@[simp] theorem modVessel_vesselData (v : VesselNo) (f : Vessel → Vessel) (x : VesselNo) : (s.modVessel v f).vesselData x = s.vesselData x := rfl

@[simp] theorem modComp_site (c : CompNo) (f : Comp → Comp) (g : Site → Nat) : (s.modComp c f).site g = s.site g := rfl
@[simp] theorem modComp_protection (c : CompNo) (f : Comp → Comp) : (s.modComp c f).protection = s.protection := rfl
@[simp] theorem modComp_strokeOfDirection (c : CompNo) (f : Comp → Comp) : (s.modComp c f).strokeOfDirection = s.strokeOfDirection := rfl
@[simp] theorem modComp_esdActive (c : CompNo) (f : Comp → Comp) : (s.modComp c f).esdActive = s.esdActive := rfl
@[simp] theorem modComp_strokeOf (c : CompNo) (f : Comp → Comp) (n' : ValveName) : (s.modComp c f).strokeOf n' = s.strokeOf n' := rfl
@[simp] theorem modComp_fittedSpot (c : CompNo) (f : Comp → Comp) (x : SpotNo) : (s.modComp c f).fittedSpot x = s.fittedSpot x := rfl
@[simp] theorem modComp_fittedVessel (c : CompNo) (f : Comp → Comp) (x : VesselNo) : (s.modComp c f).fittedVessel x = s.fittedVessel x := rfl
@[simp] theorem modComp_fittedComp (c : CompNo) (f : Comp → Comp) (x : CompNo) : (s.modComp c f).fittedComp x = s.fittedComp x := rfl
@[simp] theorem modComp_divisor (c : CompNo) (f : Comp → Comp) (x : SpotNo) : (s.modComp c f).divisor x = s.divisor x := rfl
@[simp] theorem modComp_vesselData (c : CompNo) (f : Comp → Comp) (x : VesselNo) : (s.modComp c f).vesselData x = s.vesselData x := rfl

@[simp] theorem modLink_site (f : Link → Link) (g : Site → Nat) : (s.modLink f).site g = s.site g := rfl
@[simp] theorem modLink_protection (f : Link → Link) : (s.modLink f).protection = s.protection := rfl
@[simp] theorem modLink_strokeOfDirection (f : Link → Link) : (s.modLink f).strokeOfDirection = s.strokeOfDirection := rfl
@[simp] theorem modLink_esdActive (f : Link → Link) : (s.modLink f).esdActive = s.esdActive := rfl
@[simp] theorem modLink_strokeOf (f : Link → Link) (n' : ValveName) : (s.modLink f).strokeOf n' = s.strokeOf n' := rfl
@[simp] theorem modLink_fittedSpot (f : Link → Link) (x : SpotNo) : (s.modLink f).fittedSpot x = s.fittedSpot x := rfl
@[simp] theorem modLink_fittedVessel (f : Link → Link) (x : VesselNo) : (s.modLink f).fittedVessel x = s.fittedVessel x := rfl
@[simp] theorem modLink_fittedComp (f : Link → Link) (x : CompNo) : (s.modLink f).fittedComp x = s.fittedComp x := rfl
@[simp] theorem modLink_divisor (f : Link → Link) (x : SpotNo) : (s.modLink f).divisor x = s.divisor x := rfl
@[simp] theorem modLink_vesselData (f : Link → Link) (x : VesselNo) : (s.modLink f).vesselData x = s.vesselData x := rfl

@[simp] theorem useFree_site (g : Site → Nat) : (s.useFree).site g = s.site g := rfl
@[simp] theorem useFree_protection : (s.useFree).protection = s.protection := rfl
@[simp] theorem useFree_strokeOfDirection : (s.useFree).strokeOfDirection = s.strokeOfDirection := rfl
@[simp] theorem useFree_esdActive : (s.useFree).esdActive = s.esdActive := rfl
@[simp] theorem useFree_strokeOf (n' : ValveName) : (s.useFree).strokeOf n' = s.strokeOf n' := rfl
@[simp] theorem useFree_fittedSpot (x : SpotNo) : (s.useFree).fittedSpot x = s.fittedSpot x := rfl
@[simp] theorem useFree_fittedVessel (x : VesselNo) : (s.useFree).fittedVessel x = s.fittedVessel x := rfl
@[simp] theorem useFree_fittedComp (x : CompNo) : (s.useFree).fittedComp x = s.fittedComp x := rfl
@[simp] theorem useFree_divisor (x : SpotNo) : (s.useFree).divisor x = s.divisor x := rfl
@[simp] theorem useFree_vesselData (x : VesselNo) : (s.useFree).vesselData x = s.vesselData x := rfl

@[simp] theorem flagSlot_site (k : SlotNo) (g : Site → Nat) : (s.flagSlot k).site g = s.site g := rfl
@[simp] theorem flagSlot_protection (k : SlotNo) : (s.flagSlot k).protection = s.protection := rfl
@[simp] theorem flagSlot_strokeOfDirection (k : SlotNo) : (s.flagSlot k).strokeOfDirection = s.strokeOfDirection := rfl
@[simp] theorem flagSlot_esdActive (k : SlotNo) : (s.flagSlot k).esdActive = s.esdActive := rfl
@[simp] theorem flagSlot_strokeOf (k : SlotNo) (n' : ValveName) : (s.flagSlot k).strokeOf n' = s.strokeOf n' := rfl
@[simp] theorem flagSlot_fittedSpot (k : SlotNo) (x : SpotNo) : (s.flagSlot k).fittedSpot x = s.fittedSpot x := rfl
@[simp] theorem flagSlot_fittedVessel (k : SlotNo) (x : VesselNo) : (s.flagSlot k).fittedVessel x = s.fittedVessel x := rfl
@[simp] theorem flagSlot_fittedComp (k : SlotNo) (x : CompNo) : (s.flagSlot k).fittedComp x = s.fittedComp x := rfl
@[simp] theorem flagSlot_divisor (k : SlotNo) (x : SpotNo) : (s.flagSlot k).divisor x = s.divisor x := rfl
@[simp] theorem flagSlot_vesselData (k : SlotNo) (x : VesselNo) : (s.flagSlot k).vesselData x = s.vesselData x := rfl

@[simp] theorem flagSiding_site (g : Site → Nat) : (s.flagSiding).site g = s.site g := rfl
@[simp] theorem flagSiding_protection : (s.flagSiding).protection = s.protection := rfl
@[simp] theorem flagSiding_strokeOfDirection : (s.flagSiding).strokeOfDirection = s.strokeOfDirection := rfl
@[simp] theorem flagSiding_esdActive : (s.flagSiding).esdActive = s.esdActive := rfl
@[simp] theorem flagSiding_strokeOf (n' : ValveName) : (s.flagSiding).strokeOf n' = s.strokeOf n' := rfl
@[simp] theorem flagSiding_fittedSpot (x : SpotNo) : (s.flagSiding).fittedSpot x = s.fittedSpot x := rfl
@[simp] theorem flagSiding_fittedVessel (x : VesselNo) : (s.flagSiding).fittedVessel x = s.fittedVessel x := rfl
@[simp] theorem flagSiding_fittedComp (x : CompNo) : (s.flagSiding).fittedComp x = s.fittedComp x := rfl
@[simp] theorem flagSiding_divisor (x : SpotNo) : (s.flagSiding).divisor x = s.divisor x := rfl
@[simp] theorem flagSiding_vesselData (x : VesselNo) : (s.flagSiding).vesselData x = s.vesselData x := rfl

@[simp] theorem modCar_site (k : SlotNo) (f : Car → Car) (g : Site → Nat) : (s.modCar k f).site g = s.site g := rfl
@[simp] theorem modCar_protection (k : SlotNo) (f : Car → Car) : (s.modCar k f).protection = s.protection := rfl
@[simp] theorem modCar_strokeOfDirection (k : SlotNo) (f : Car → Car) : (s.modCar k f).strokeOfDirection = s.strokeOfDirection := rfl
@[simp] theorem modCar_esdActive (k : SlotNo) (f : Car → Car) : (s.modCar k f).esdActive = s.esdActive := rfl
@[simp] theorem modCar_strokeOf (k : SlotNo) (f : Car → Car) (n' : ValveName) : (s.modCar k f).strokeOf n' = s.strokeOf n' := rfl
@[simp] theorem modCar_fittedSpot (k : SlotNo) (f : Car → Car) (x : SpotNo) : (s.modCar k f).fittedSpot x = s.fittedSpot x := rfl
@[simp] theorem modCar_fittedVessel (k : SlotNo) (f : Car → Car) (x : VesselNo) : (s.modCar k f).fittedVessel x = s.fittedVessel x := rfl
@[simp] theorem modCar_fittedComp (k : SlotNo) (f : Car → Car) (x : CompNo) : (s.modCar k f).fittedComp x = s.fittedComp x := rfl
@[simp] theorem modCar_divisor (k : SlotNo) (f : Car → Car) (x : SpotNo) : (s.modCar k f).divisor x = s.divisor x := rfl
@[simp] theorem modCar_vesselData (k : SlotNo) (f : Car → Car) (x : VesselNo) : (s.modCar k f).vesselData x = s.vesselData x := rfl

@[simp] theorem touchSpot_site (i : SpotNo) (g : Site → Nat) : (s.touchSpot i).site g = s.site g := rfl
@[simp] theorem touchSpot_protection (i : SpotNo) : (s.touchSpot i).protection = s.protection := rfl
@[simp] theorem touchSpot_strokeOfDirection (i : SpotNo) : (s.touchSpot i).strokeOfDirection = s.strokeOfDirection := rfl
@[simp] theorem touchSpot_esdActive (i : SpotNo) : (s.touchSpot i).esdActive = s.esdActive := rfl
@[simp] theorem touchSpot_strokeOf (i : SpotNo) (n' : ValveName) : (s.touchSpot i).strokeOf n' = s.strokeOf n' := rfl
@[simp] theorem touchSpot_fittedSpot (i : SpotNo) (x : SpotNo) : (s.touchSpot i).fittedSpot x = s.fittedSpot x := rfl
@[simp] theorem touchSpot_fittedVessel (i : SpotNo) (x : VesselNo) : (s.touchSpot i).fittedVessel x = s.fittedVessel x := rfl
@[simp] theorem touchSpot_fittedComp (i : SpotNo) (x : CompNo) : (s.touchSpot i).fittedComp x = s.fittedComp x := rfl
@[simp] theorem touchSpot_divisor (i : SpotNo) (x : SpotNo) : (s.touchSpot i).divisor x = s.divisor x := rfl
@[simp] theorem touchSpot_vesselData (i : SpotNo) (x : VesselNo) : (s.touchSpot i).vesselData x = s.vesselData x := rfl

@[simp] theorem touchVessel_site (v : VesselNo) (g : Site → Nat) : (s.touchVessel v).site g = s.site g := rfl
@[simp] theorem touchVessel_protection (v : VesselNo) : (s.touchVessel v).protection = s.protection := rfl
@[simp] theorem touchVessel_strokeOfDirection (v : VesselNo) : (s.touchVessel v).strokeOfDirection = s.strokeOfDirection := rfl
@[simp] theorem touchVessel_esdActive (v : VesselNo) : (s.touchVessel v).esdActive = s.esdActive := rfl
@[simp] theorem touchVessel_strokeOf (v : VesselNo) (n' : ValveName) : (s.touchVessel v).strokeOf n' = s.strokeOf n' := rfl
@[simp] theorem touchVessel_fittedSpot (v : VesselNo) (x : SpotNo) : (s.touchVessel v).fittedSpot x = s.fittedSpot x := rfl
@[simp] theorem touchVessel_fittedVessel (v : VesselNo) (x : VesselNo) : (s.touchVessel v).fittedVessel x = s.fittedVessel x := rfl
@[simp] theorem touchVessel_fittedComp (v : VesselNo) (x : CompNo) : (s.touchVessel v).fittedComp x = s.fittedComp x := rfl
@[simp] theorem touchVessel_divisor (v : VesselNo) (x : SpotNo) : (s.touchVessel v).divisor x = s.divisor x := rfl
@[simp] theorem touchVessel_vesselData (v : VesselNo) (x : VesselNo) : (s.touchVessel v).vesselData x = s.vesselData x := rfl

@[simp] theorem touchComp_site (c : CompNo) (g : Site → Nat) : (s.touchComp c).site g = s.site g := rfl
@[simp] theorem touchComp_protection (c : CompNo) : (s.touchComp c).protection = s.protection := rfl
@[simp] theorem touchComp_strokeOfDirection (c : CompNo) : (s.touchComp c).strokeOfDirection = s.strokeOfDirection := rfl
@[simp] theorem touchComp_esdActive (c : CompNo) : (s.touchComp c).esdActive = s.esdActive := rfl
@[simp] theorem touchComp_strokeOf (c : CompNo) (n' : ValveName) : (s.touchComp c).strokeOf n' = s.strokeOf n' := rfl
@[simp] theorem touchComp_fittedSpot (c : CompNo) (x : SpotNo) : (s.touchComp c).fittedSpot x = s.fittedSpot x := rfl
@[simp] theorem touchComp_fittedVessel (c : CompNo) (x : VesselNo) : (s.touchComp c).fittedVessel x = s.fittedVessel x := rfl
@[simp] theorem touchComp_fittedComp (c : CompNo) (x : CompNo) : (s.touchComp c).fittedComp x = s.fittedComp x := rfl
@[simp] theorem touchComp_divisor (c : CompNo) (x : SpotNo) : (s.touchComp c).divisor x = s.divisor x := rfl
@[simp] theorem touchComp_vesselData (c : CompNo) (x : VesselNo) : (s.touchComp c).vesselData x = s.vesselData x := rfl

@[simp] theorem touchQueue_site (g : Site → Nat) : (s.touchQueue).site g = s.site g := rfl
@[simp] theorem touchQueue_protection : (s.touchQueue).protection = s.protection := rfl
@[simp] theorem touchQueue_strokeOfDirection : (s.touchQueue).strokeOfDirection = s.strokeOfDirection := rfl
@[simp] theorem touchQueue_esdActive : (s.touchQueue).esdActive = s.esdActive := rfl
@[simp] theorem touchQueue_strokeOf (n' : ValveName) : (s.touchQueue).strokeOf n' = s.strokeOf n' := rfl
@[simp] theorem touchQueue_fittedSpot (x : SpotNo) : (s.touchQueue).fittedSpot x = s.fittedSpot x := rfl
@[simp] theorem touchQueue_fittedVessel (x : VesselNo) : (s.touchQueue).fittedVessel x = s.fittedVessel x := rfl
@[simp] theorem touchQueue_fittedComp (x : CompNo) : (s.touchQueue).fittedComp x = s.fittedComp x := rfl
@[simp] theorem touchQueue_divisor (x : SpotNo) : (s.touchQueue).divisor x = s.divisor x := rfl
@[simp] theorem touchQueue_vesselData (x : VesselNo) : (s.touchQueue).vesselData x = s.vesselData x := rfl

@[simp] theorem clearScratch_site (g : Site → Nat) : (clearScratch s).site g = s.site g := rfl
@[simp] theorem clearScratch_protection : (clearScratch s).protection = s.protection := rfl
@[simp] theorem clearScratch_strokeOfDirection : (clearScratch s).strokeOfDirection = s.strokeOfDirection := rfl
@[simp] theorem clearScratch_esdActive : (clearScratch s).esdActive = s.esdActive := rfl
@[simp] theorem clearScratch_strokeOf (n' : ValveName) : (clearScratch s).strokeOf n' = s.strokeOf n' := rfl
@[simp] theorem clearScratch_fittedSpot (x : SpotNo) : (clearScratch s).fittedSpot x = s.fittedSpot x := rfl
@[simp] theorem clearScratch_fittedVessel (x : VesselNo) : (clearScratch s).fittedVessel x = s.fittedVessel x := rfl
@[simp] theorem clearScratch_fittedComp (x : CompNo) : (clearScratch s).fittedComp x = s.fittedComp x := rfl
@[simp] theorem clearScratch_divisor (x : SpotNo) : (clearScratch s).divisor x = s.divisor x := rfl
@[simp] theorem clearScratch_vesselData (x : VesselNo) : (clearScratch s).vesselData x = s.vesselData x := rfl

@[simp] theorem refreshInlets_site (g : Site → Nat) : (s.refreshInlets).site g = s.site g := rfl
@[simp] theorem refreshInlets_protection : (s.refreshInlets).protection = s.protection := rfl
@[simp] theorem refreshInlets_strokeOfDirection : (s.refreshInlets).strokeOfDirection = s.strokeOfDirection := rfl
@[simp] theorem refreshInlets_esdActive : (s.refreshInlets).esdActive = s.esdActive := rfl
@[simp] theorem refreshInlets_strokeOf (n' : ValveName) : (s.refreshInlets).strokeOf n' = s.strokeOf n' := rfl
@[simp] theorem refreshInlets_fittedSpot (x : SpotNo) : (s.refreshInlets).fittedSpot x = s.fittedSpot x := rfl
@[simp] theorem refreshInlets_fittedVessel (x : VesselNo) : (s.refreshInlets).fittedVessel x = s.fittedVessel x := rfl
@[simp] theorem refreshInlets_fittedComp (x : CompNo) : (s.refreshInlets).fittedComp x = s.fittedComp x := rfl
@[simp] theorem refreshInlets_divisor (x : SpotNo) : (s.refreshInlets).divisor x = s.divisor x := rfl
@[simp] theorem refreshInlets_vesselData (x : VesselNo) : (s.refreshInlets).vesselData x = s.vesselData x := rfl

end Fields

/-! ## Writing and reading back one record -/

section ReadBack

variable (s : State)

@[simp] theorem modSpot_spot_same (i : SpotNo) (f : Spot → Spot) : (s.modSpot i f).spot i = f (s.spot i) := by
  simp [State.modSpot, State.spot]

theorem modSpot_spot_other (i j : SpotNo) (f : Spot → Spot) (h : j ≠ i) : (s.modSpot i f).spot j = s.spot j := by
  have h' : i.val ≠ j.val := fun e => h (Fin.ext e.symm)
  simp [State.modSpot, State.spot, h']

theorem modSpot_spot (i j : SpotNo) (f : Spot → Spot) :
    (s.modSpot i f).spot j = if j = i then f (s.spot j) else s.spot j := by
  by_cases h : j = i
  · subst h; simp
  · simp [h, modSpot_spot_other s i j f h]

@[simp] theorem modVessel_vessel_same (i : VesselNo) (f : Vessel → Vessel) : (s.modVessel i f).vessel i = f (s.vessel i) := by
  simp [State.modVessel, State.vessel]

theorem modVessel_vessel_other (i j : VesselNo) (f : Vessel → Vessel) (h : j ≠ i) : (s.modVessel i f).vessel j = s.vessel j := by
  have h' : i.val ≠ j.val := fun e => h (Fin.ext e.symm)
  simp [State.modVessel, State.vessel, h']

theorem modVessel_vessel (i j : VesselNo) (f : Vessel → Vessel) :
    (s.modVessel i f).vessel j = if j = i then f (s.vessel j) else s.vessel j := by
  by_cases h : j = i
  · subst h; simp
  · simp [h, modVessel_vessel_other s i j f h]

@[simp] theorem modComp_comp_same (i : CompNo) (f : Comp → Comp) : (s.modComp i f).comp i = f (s.comp i) := by
  simp [State.modComp, State.comp]

theorem modComp_comp_other (i j : CompNo) (f : Comp → Comp) (h : j ≠ i) : (s.modComp i f).comp j = s.comp j := by
  have h' : i.val ≠ j.val := fun e => h (Fin.ext e.symm)
  simp [State.modComp, State.comp, h']

theorem modComp_comp (i j : CompNo) (f : Comp → Comp) :
    (s.modComp i f).comp j = if j = i then f (s.comp j) else s.comp j := by
  by_cases h : j = i
  · subst h; simp
  · simp [h, modComp_comp_other s i j f h]

@[simp] theorem modSlot_carSlot_same (i : SlotNo) (f : CarSlot → CarSlot) : (s.modSlot i f).carSlot i = f (s.carSlot i) := by
  simp [State.modSlot, State.carSlot]

theorem modSlot_carSlot_other (i j : SlotNo) (f : CarSlot → CarSlot) (h : j ≠ i) : (s.modSlot i f).carSlot j = s.carSlot j := by
  have h' : i.val ≠ j.val := fun e => h (Fin.ext e.symm)
  simp [State.modSlot, State.carSlot, h']

theorem modSlot_carSlot (i j : SlotNo) (f : CarSlot → CarSlot) :
    (s.modSlot i f).carSlot j = if j = i then f (s.carSlot j) else s.carSlot j := by
  by_cases h : j = i
  · subst h; simp
  · simp [h, modSlot_carSlot_other s i j f h]

theorem modSlot_car (k j : SlotNo) (f : CarSlot → CarSlot) :
    (s.modSlot k f).car j = if j = k then (f (s.carSlot j)).car else s.car j := by
  unfold State.car; rw [modSlot_carSlot]; split <;> rfl

theorem modCar_carSlot (k j : SlotNo) (f : Car → Car) :
    (s.modCar k f).carSlot j = if j = k then { s.carSlot j with car := (s.carSlot j).car.map f } else s.carSlot j := by
  show (s.modSlot k fun sl => { sl with car := sl.car.map f }).carSlot j = _
  rw [modSlot_carSlot]

theorem modCar_car (k j : SlotNo) (f : Car → Car) :
    (s.modCar k f).car j = if j = k then (s.car j).map f else s.car j := by
  unfold State.car; rw [modCar_carSlot]; split <;> rfl

end ReadBack

/-! ## Timers -/

theorem Timer.isDue_iff (t : Timer) : t.isDue = true ↔ t = .running 0 := by
  unfold Timer.isDue; split <;> simp_all

@[simp] theorem Timer.isDue_stopped : Timer.stopped.isDue = false := rfl
@[simp] theorem Timer.isDue_zero : (Timer.running 0).isDue = true := rfl
@[simp] theorem Timer.isDue_succ (n : Nat) : (Timer.running (n + 1)).isDue = false := rfl

end Sys2Proof.Machine
end

