-- ==== Sys2Proof/Laws/Frame.lean ====
section
/-! SUPPORT. The ground of a state: what the work of spots, orders, valves, compressors and the arbiter never touches. One lemma
per shared operation says that it keeps the ground, so that a statement about the ground unfolds no operation. -/

namespace Sys2Proof.Machine

/-- What no work at a spot, a compressor or a reservation list changes in a car record. -/
structure Account where
  mark : List Byte
  grade : Grade
  load : Nat
  spot : Option SpotNo
  delivered : Word32
  revision : Word16

/-- The ground of a state. -/
structure Ground where
  profile : Profile
  staged : Setpoints
  stagedVersion : Word16
  setpointHold : Bool
  lockTaken : Bool
  lock : Nat
  fe : Bool
  rearmRun : Nat
  beatTimer : Timer
  esdHigh : Bool
  link : Link
  changes : Changes
  flashes : Vector Flash 8
  inlets : BitVec 6
  freeCount : Nat
  pending : List Instr
  issues : SlotNo → Byte
  accounts : SlotNo → Option Account
  stores : VesselNo → Vessel
  stage : Fin 3

/-- How far the siding has come, with COMMISSIONING and OPERATING told apart by nobody: the end of a test may bring the one to the
other (R180). -/
def SidingState.stage : SidingState → Fin 3
  | .unconfigured => 0
  | .configured => 1
  | .commissioning | .operating => 2

def Car.account (c : Car) : Account :=
  { mark := c.mark, grade := c.grade, load := c.load, spot := c.spot, delivered := c.delivered, revision := c.revision }

/-- A vessel without its reservation list. -/
def Vessel.store (r : Vessel) : Vessel := { r with entries := [] }

def State.ground (s : State) : Ground :=
  { profile := s.profile, staged := s.staged, stagedVersion := s.stagedVersion, setpointHold := s.setpointHold,
    lockTaken := s.lockTaken, lock := s.lock, fe := s.fe, rearmRun := s.rearmRun, beatTimer := s.beatTimer,
    esdHigh := s.esdHigh, link := s.link, changes := s.changes, flashes := s.flashes, inlets := s.inlets,
    freeCount := s.freeCount, pending := s.pending, issues := fun k => (s.carSlot k).issue
    accounts := fun k => (s.car k).map Car.account, stores := fun v => (s.vessel v).store, stage := s.siding.stage }

/-! ## The ground under single updates -/

@[simp] theorem ground_modSpot (i : SpotNo) (f : Spot → Spot) (s : State) : (s.modSpot i f).ground = s.ground := rfl
@[simp] theorem ground_modComp (c : CompNo) (f : Comp → Comp) (s : State) : (s.modComp c f).ground = s.ground := rfl
@[simp] theorem ground_touchSpot (i : SpotNo) (s : State) : (s.touchSpot i).ground = s.ground := rfl
@[simp] theorem ground_touchVessel (v : VesselNo) (s : State) : (s.touchVessel v).ground = s.ground := rfl
@[simp] theorem ground_touchComp (c : CompNo) (s : State) : (s.touchComp c).ground = s.ground := rfl
@[simp] theorem ground_touchQueue (s : State) : s.touchQueue.ground = s.ground := rfl

theorem ground_modVessel (v : VesselNo) (f : Vessel → Vessel) (s : State) (h : ∀ r, (f r).store = r.store) :
    (s.modVessel v f).ground = s.ground := by
  have hs : (fun w => ((s.modVessel v f).vessel w).store) = fun w => (s.vessel w).store := by
    funext w; rw [modVessel_vessel]; split <;> simp [h]
  simp only [State.ground, hs]
  rfl

theorem ground_modCar (k : SlotNo) (f : Car → Car) (s : State) (h : ∀ c, (f c).account = c.account) :
    (s.modCar k f).ground = s.ground := by
  have h1 : (fun j => ((s.modCar k f).carSlot j).issue) = fun j => (s.carSlot j).issue := by
    funext j; rw [modCar_carSlot]; split <;> rfl
  have h2 : (fun j => ((s.modCar k f).car j).map Car.account) = fun j => (s.car j).map Car.account := by
    funext j; rw [modCar_car]; split
    · cases s.car j <;> simp [h]
    · rfl
  simp only [State.ground, h1, h2]
  rfl

@[simp] theorem ground_unreserve (i : SpotNo) (tag : Word16) (v : VesselNo) (s : State) :
    (s.modVessel v (Vessel.unreserve i tag)).ground = s.ground := ground_modVessel v _ s fun _ => rfl
@[simp] theorem ground_lower (i : SpotNo) (tag : Word16) (n : Nat) (v : VesselNo) (s : State) :
    (s.modVessel v (Vessel.lower i tag n)).ground = s.ground := ground_modVessel v _ s fun _ => rfl
@[simp] theorem ground_reserve (i : SpotNo) (tag : Word16) (n : Nat) (v : VesselNo) (s : State) :
    (s.modVessel v (Vessel.reserve i tag n)).ground = s.ground := ground_modVessel v _ s fun _ => rfl

theorem Vessel.store_afterCuts (r : Vessel) : r.afterCuts.store = r.store := by
  unfold Vessel.afterCuts; split <;> rfl

@[simp] theorem ground_afterCuts (v : VesselNo) (s : State) :
    (s.modVessel v Vessel.afterCuts).ground = s.ground := ground_modVessel v _ s Vessel.store_afterCuts

@[simp] theorem ground_scratch (s : State) (x : Scratch) : { s with scratch := x }.ground = s.ground := rfl
@[simp] theorem ground_tests (s : State) (x : PendingTests) : { s with tests := x }.ground = s.ground := rfl
@[simp] theorem ground_grants (s : State) (x : List Grant) : { s with grants := x }.ground = s.ground := rfl

/-- A fold keeps what each of its steps keeps. -/
theorem foldl_keeps {α β σ : Type} (g : σ → β) (f : σ → α → σ) (h : ∀ s a, g (f s a) = g s) :
    ∀ (l : List α) (s : σ), g (l.foldl f s) = g s
  | [], _ => rfl
  | a :: l, s => by rw [List.foldl_cons, foldl_keeps g f h l, h]

theorem ground_eachSpot (f : SpotNo → State → State) (h : ∀ i s, (f i s).ground = s.ground) (s : State) :
    (eachSpot f s).ground = s.ground := foldl_keeps _ _ (fun s i => h i s) _ _

theorem ground_eachComp (f : CompNo → State → State) (h : ∀ c s, (f c s).ground = s.ground) (s : State) :
    (eachComp f s).ground = s.ground := foldl_keeps _ _ (fun s c => h c s) _ _

theorem ground_eachFittedSpot (f : SpotNo → State → State) (h : ∀ i s, (f i s).ground = s.ground) (s : State) :
    (eachFittedSpot f s).ground = s.ground := by
  apply ground_eachSpot; intro i s; split <;> simp [h]

theorem ground_eachFittedComp (f : CompNo → State → State) (h : ∀ c s, (f c s).ground = s.ground) (s : State) :
    (eachFittedComp f s).ground = s.ground := by
  apply ground_eachComp; intro c s; split <;> simp [h]

/-! ## Valves -/

@[simp] theorem ground_pursueSpot (i : SpotNo) (n : ValveName) (s : State) : (pursueSpot i n s).ground = s.ground := rfl
@[simp] theorem ground_commandSpot (i : SpotNo) (n : ValveName) (c : Command) (s : State) :
    (commandSpot i n c s).ground = s.ground := rfl
@[simp] theorem ground_pursueSpotAll (i : SpotNo) (s : State) : (pursueSpotAll i s).ground = s.ground := rfl
@[simp] theorem ground_shutLines (i : SpotNo) (s : State) : (shutLines i s).ground = s.ground := rfl
@[simp] theorem ground_shutAll (i : SpotNo) (s : State) : (shutAll i s).ground = s.ground := rfl
@[simp] theorem ground_pursueDir (c : CompNo) (d : Direction) (s : State) : (pursueDir c d s).ground = s.ground := rfl
@[simp] theorem ground_commandDir (c : CompNo) (d : Direction) (x : Command) (s : State) :
    (commandDir c d x s).ground = s.ground := rfl
@[simp] theorem ground_shutDirs (c : CompNo) (s : State) : (shutDirs c s).ground = s.ground := rfl
@[simp] theorem ground_pursueDirAll (c : CompNo) (s : State) : (pursueDirAll c s).ground = s.ground := rfl

/-! ## Compressors -/

@[simp] theorem ground_settleTests (s : State) : (settleTests s).ground = s.ground := by
  unfold settleTests; split
  · rename_i h; simp only [State.ground, h.1]; rfl
  · rfl
@[simp] theorem ground_endCompTest (c : CompNo) (s : State) : (endCompTest c s).ground = s.ground := by
  simp [endCompTest]
@[simp] theorem ground_endSpotTest (i : SpotNo) (s : State) : (endSpotTest i s).ground = s.ground := by
  simp [endSpotTest]
@[simp] theorem ground_stopComp (c : CompNo) (s : State) : (stopComp c s).ground = s.ground := rfl
@[simp] theorem ground_enterRunOn (c : CompNo) (s : State) : (enterRunOn c s).ground = s.ground := by
  unfold enterRunOn; split <;> simp
@[simp] theorem ground_enterRunWait (c : CompNo) (s : State) : (enterRunWait c s).ground = s.ground := rfl
@[simp] theorem ground_compOnOpen (c : CompNo) (s : State) : (compOnOpen c s).ground = s.ground := by
  unfold compOnOpen; simp only; repeat' split
  all_goals simp
@[simp] theorem ground_compOnRun (c : CompNo) (s : State) : (compOnRun c s).ground = s.ground := by
  unfold compOnRun; simp only; repeat' split
  all_goals simp
@[simp] theorem ground_passProof (c : CompNo) (s : State) : (passProof c s).ground = s.ground := by simp [passProof]
@[simp] theorem ground_compOnShut (c : CompNo) (s : State) : (compOnShut c s).ground = s.ground := by
  unfold compOnShut; simp only; repeat' split
  all_goals simp
@[simp] theorem ground_compOnGuard (c : CompNo) (s : State) : (compOnGuard c s).ground = s.ground := by
  unfold compOnGuard; simp only; repeat' split
  all_goals simp
@[simp] theorem ground_compPassGuard (c : CompNo) (s : State) : (compPassGuard c s).ground = s.ground := by
  simp [compPassGuard]
@[simp] theorem ground_compOnArrivals (c : CompNo) (s : State) : (compOnArrivals c s).ground = s.ground := by
  simp [compOnArrivals]
@[simp] theorem ground_compAdvance (c : CompNo) (s : State) : (compAdvance c s).ground = s.ground := by simp [compAdvance]
@[simp] theorem ground_compReported (b : State) (c : CompNo) (s : State) : (compReported b c s).ground = s.ground := by
  unfold compReported; simp only; split <;> simp
@[simp] theorem ground_startComp (c : CompNo) (d : Direction) (s : State) : (startComp c d s).ground = s.ground := by
  simp [startComp]
@[simp] theorem ground_enterReversing (c : CompNo) (d : Direction) (s : State) :
    (enterReversing c d s).ground = s.ground := by simp [enterReversing]
@[simp] theorem ground_compOnEmpty (c : CompNo) (s : State) : (compOnEmpty c s).ground = s.ground := by
  unfold compOnEmpty; simp only; repeat' split
  all_goals simp
@[simp] theorem ground_releaseSeat (i : SpotNo) (s : State) : (releaseSeat i s).ground = s.ground := by
  unfold releaseSeat; split <;> simp
@[simp] theorem ground_clearTurning (i : SpotNo) (c : CompNo) (s : State) :
    (clearTurning i c s).ground = s.ground := by unfold clearTurning; split <;> simp
@[simp] theorem ground_dropGrant (i : SpotNo) (s : State) : (dropGrant i s).ground = s.ground := by
  unfold dropGrant; simp only; rw [ground_eachComp _ (ground_clearTurning i)]; split <;> rfl
@[simp] theorem ground_leaveCompressors (i : SpotNo) (s : State) : (leaveCompressors i s).ground = s.ground := by
  simp [leaveCompressors]
@[simp] theorem ground_enterProof (c : CompNo) (s : State) : (enterProof c s).ground = s.ground := rfl
@[simp] theorem ground_haltComp (k : Bool) (c : CompNo) (s : State) : (haltComp k c s).ground = s.ground := by
  have h : ∀ t : State, (eachSpot (fun i s => s.modSpot i fun sp =>
      if sp.seat = some c then { sp with seat := none } else sp) t).ground = t.ground :=
    ground_eachSpot _ (by intros; simp)
  unfold haltComp; simp only
  repeat' split
  all_goals simp [h]

/-! ## Spots and orders -/

@[simp] theorem ground_depart (i : SpotNo) (o : Order) (s : State) : (depart i o s).ground = s.ground := by
  unfold depart; simp only; split
  · exact (ground_scratch _ _).trans (by rw [ground_unreserve]; rfl)
  · rfl
@[simp] theorem ground_departAll (i : SpotNo) (f : Order → Order) (l : List Order) (s : State) :
    (l.foldl (fun s o => depart i (f o) s) s).ground = s.ground := foldl_keeps _ _ (fun s o => ground_depart i (f o) s) _ _
@[simp] theorem ground_addHold (i : SpotNo) (r : HoldReason) (s : State) : (addHold i r s).ground = s.ground := by
  unfold addHold; simp only; repeat' split
  all_goals simp
@[simp] theorem ground_removeHold (i : SpotNo) (r : HoldReason) (s : State) : (removeHold i r s).ground = s.ground := rfl
@[simp] theorem ground_becomeHead (i : SpotNo) (s : State) : (becomeHead i s).ground = s.ground := by
  unfold becomeHead; simp only; repeat' split
  all_goals simp
@[simp] theorem ground_nextHead (i : SpotNo) (s : State) : (nextHead i s).ground = s.ground := by
  unfold nextHead; simp only; repeat' split
  all_goals simp
@[simp] theorem ground_endQueue (a b : EndReason) (i : SpotNo) (s : State) : (endQueue a b i s).ground = s.ground := by
  unfold endQueue; split
  · rfl
  · simp only; rw [foldl_keeps State.ground _ (fun s o => ground_depart i _ s)]; repeat' split
    all_goals simp
@[simp] theorem ground_enterIsolating (a b : EndReason) (f : Option SpotFault) (i : SpotNo) (s : State) :
    (enterIsolating a b f i s).ground = s.ground := by simp [enterIsolating]
@[simp] theorem ground_failProving (f : SpotFault) (i : SpotNo) (s : State) : (failProving f i s).ground = s.ground := by
  simp [failProving]
@[simp] theorem ground_headGone (i : SpotNo) (b : Bool) (s : State) : (headGone i b s).ground = s.ground := by
  unfold headGone; split <;> simp
@[simp] theorem ground_drainHead (i : SpotNo) (r : EndReason) (s : State) : (drainHead i r s).ground = s.ground := by
  simp [drainHead]
@[simp] theorem ground_headLeaves (i : SpotNo) (h : Order) (r : EndReason) (s : State) :
    (headLeaves i h r s).ground = s.ground := by unfold headLeaves; simp only; split <;> simp
@[simp] theorem ground_endHead (i : SpotNo) (r : EndReason) (s : State) : (endHead i r s).ground = s.ground := by
  unfold endHead; repeat' split
  all_goals simp
@[simp] theorem ground_endOrder (i : SpotNo) (t : Word16) (r : EndReason) (s : State) :
    (endOrder i t r s).ground = s.ground := by
  unfold endOrder; repeat' split
  all_goals simp
@[simp] theorem ground_serveUnloading (i : SpotNo) (s : State) : (serveUnloading i s).ground = s.ground := by
  unfold serveUnloading; repeat' split
  all_goals first | rfl | exact ground_modCar _ _ _ fun _ => rfl
@[simp] theorem ground_faultSpot (f : SpotFault) (i : SpotNo) (s : State) : (faultSpot f i s).ground = s.ground := by
  simp [faultSpot, foldl_keeps State.ground _ (fun s (o : Order) => ground_depart i { o with reason := some .fault } s)]
@[simp] theorem ground_failStroke (k : Bool) (f : SpotFault) (i : SpotNo) (s : State) :
    (failStroke k f i s).ground = s.ground := by unfold failStroke; simp only; split <;> simp
@[simp] theorem ground_spotValveFault (i : SpotNo) (n : ValveName) (s : State) :
    (spotValveFault i n s).ground = s.ground := by unfold spotValveFault; split <;> simp
@[simp] theorem ground_enterStroking (i : SpotNo) (s : State) : (enterStroking i s).ground = s.ground := by
  have h : ∀ (l : List ValveName) (t : State), (l.foldl (fun s n =>
      s.modSpot i fun sp => sp.setValve n ((sp.valve n).beginTest (s.strokeOf n))) t).ground = t.ground :=
    foldl_keeps State.ground _ (by intros; simp)
  unfold enterStroking; simp only; split <;> simp [h]
@[simp] theorem ground_passStroke (i : SpotNo) (s : State) : (passStroke i s).ground = s.ground := by simp [passStroke]
@[simp] theorem ground_onShutoffOpen (i : SpotNo) (s : State) : (onShutoffOpen i s).ground = s.ground := by
  unfold onShutoffOpen; simp only; split <;> simp
@[simp] theorem ground_onLiquidOpen (i : SpotNo) (s : State) : (onLiquidOpen i s).ground = s.ground := by
  unfold onLiquidOpen; simp only; split <;> simp
@[simp] theorem ground_onDrained (i : SpotNo) (s : State) : (onDrained i s).ground = s.ground := by
  unfold onDrained; repeat' split
  all_goals simp
@[simp] theorem ground_onResumed (i : SpotNo) (s : State) : (onResumed i s).ground = s.ground := by
  unfold onResumed; simp only; split <;> simp
@[simp] theorem ground_onLinesShut (i : SpotNo) (s : State) : (onLinesShut i s).ground = s.ground := by
  unfold onLinesShut; simp only; split <;> simp
@[simp] theorem ground_onVentOpen (i : SpotNo) (s : State) : (onVentOpen i s).ground = s.ground := by
  unfold onVentOpen; simp only; split <;> simp
theorem ground_modCarAt (i : SpotNo) (f : Car → Car) (s : State) (h : ∀ c, (f c).account = c.account) :
    (s.modCarAt i f).ground = s.ground := by
  unfold State.modCarAt; split
  · exact ground_modCar _ _ _ h
  · rfl
@[simp] theorem ground_onVentShut (i : SpotNo) (s : State) : (onVentShut i s).ground = s.ground := by
  unfold onVentShut; simp only; split
  · refine (ground_modCarAt _ _ _ ?_).trans (ground_modSpot _ _ _); intro c; rfl
  · rfl
@[simp] theorem ground_onStrokeOpen (i : SpotNo) (s : State) : (onStrokeOpen i s).ground = s.ground := by
  unfold onStrokeOpen; simp only; repeat' split
  all_goals simp
@[simp] theorem ground_onStrokeShut (i : SpotNo) (s : State) : (onStrokeShut i s).ground = s.ground := by
  unfold onStrokeShut; simp only; repeat' split
  all_goals simp
@[simp] theorem ground_onStrokeTurn (i : SpotNo) (s : State) : (onStrokeTurn i s).ground = s.ground := by
  unfold onStrokeTurn; simp only; repeat' split
  all_goals simp
@[simp] theorem ground_advanceSpot (i : SpotNo) (s : State) : (advanceSpot i s).ground = s.ground := by
  simp [advanceSpot]
@[simp] theorem ground_holdSpot (i : SpotNo) (r : HoldReason) (s : State) : (holdSpot i r s).ground = s.ground := by
  simp [holdSpot]
@[simp] theorem ground_faultComp (f : CompFault) (c : CompNo) (s : State) : (faultComp f c s).ground = s.ground := by
  have h : ∀ (l : List SpotNo) (t : State), (l.foldl (fun s i =>
      holdSpot i .compressor ((s.touchSpot i).modSpot i fun sp => { sp with seat := none })) t).ground = t.ground :=
    foldl_keeps State.ground _ (by intros; simp)
  unfold faultComp; simp only
  repeat' split
  all_goals simp [h]
@[simp] theorem ground_sweepCut (i : SpotNo) (s : State) : (sweepCut i s).ground = s.ground := by
  unfold sweepCut; simp only; repeat' split
  all_goals simp [foldl_keeps State.ground]
@[simp] theorem ground_applyCuts (v : VesselNo) (s : State) : (applyCuts v s).ground = s.ground := by
  unfold applyCuts; exact (foldl_keeps State.ground _ (by intros; simp) _ _).trans (by simp)
@[simp] theorem ground_runCut (v : VesselNo) (s : State) : (runCut v s).ground = s.ground := by
  unfold runCut; split
  · rfl
  · rw [ground_eachSpot _ (fun i s => by simp)]; simp

/-! ## The arbiter -/

@[simp] theorem ground_runHead (i : SpotNo) (s : State) : (runHead i s).ground = s.ground := by
  unfold runHead; simp only; repeat' split
  all_goals simp
@[simp] theorem ground_joinGrants (s : State) : (joinGrants s).ground = s.ground := rfl
@[simp] theorem ground_grantSeat (c : CompNo) (g : Grant) (s : State) : (grantSeat c g s).ground = s.ground := by
  unfold grantSeat; simp only; split <;> simp
@[simp] theorem ground_markTurning (i : SpotNo) (c : CompNo) (s : State) : (markTurning i c s).ground = s.ground := by
  simp [markTurning]
@[simp] theorem ground_performDue (d : Due) (s : State) : (performDue d s).ground = s.ground := by
  unfold performDue; split <;> simp
theorem ground_settleFor : ∀ (n : Nat) (s : State), (settleFor n s).ground = s.ground
  | 0, _ => rfl
  | n + 1, s => by
    unfold settleFor; split
    · rfl
    · rw [ground_settleFor n]; simp
@[simp] theorem ground_settle (s : State) : (settle s).ground = s.ground := ground_settleFor _ s

end Sys2Proof.Machine
end

