-- ==== Sys2Proof/Laws/Flags.lean ====
section
/-! SUPPORT. What the close of an event leaves, and what it writes: the last ends and revisions of the car records, the lamps, the
inlet permissives and the change sets (R5, R9, R51, R102, R195). -/

namespace Sys2Proof.Machine

/-! ## The last ends -/

theorem writeLastEnd_rest (b : State) (i : SpotNo) (s : State) :
    ∃ (x : Vector CarSlot 24) (w : Scratch), writeLastEnd b i s = { s with cars := x, scratch := w } := by
  unfold writeLastEnd; simp only; split
  · exact ⟨s.cars, s.scratch, rfl⟩
  · unfold State.modCarAt; split
    · exact ⟨_, _, rfl⟩
    · exact ⟨s.cars, s.scratch, rfl⟩

theorem eachLastEnd_rest (b s : State) :
    ∃ (x : Vector CarSlot 24) (w : Scratch), eachSpot (writeLastEnd b) s = { s with cars := x, scratch := w } := by
  unfold eachSpot
  generalize allSpots = l
  induction l generalizing s with
  | nil => exact ⟨s.cars, s.scratch, rfl⟩
  | cons i l ih =>
    obtain ⟨x, w, h⟩ := writeLastEnd_rest b i s
    obtain ⟨x', w', h'⟩ := ih (writeLastEnd b i s)
    exact ⟨x', w', by rw [List.foldl_cons, h', h]⟩

/-- The scratch of `w` names the spots, vessels and compressors that the scratch of `s` names. -/
def Scratch.sameTouched (w s : Scratch) : Prop := w.spots = s.spots ∧ w.vessels = s.vessels ∧ w.comps = s.comps

theorem writeLastEnd_touched (b : State) (i : SpotNo) (s : State) :
    ∃ (x : Vector CarSlot 24) (w : Scratch), writeLastEnd b i s = { s with cars := x, scratch := w } ∧
      w.sameTouched s.scratch := by
  unfold writeLastEnd; simp only; split
  · exact ⟨s.cars, s.scratch, rfl, rfl, rfl, rfl⟩
  · unfold State.modCarAt; split
    · exact ⟨_, _, rfl, rfl, rfl, rfl⟩
    · exact ⟨s.cars, s.scratch, rfl, rfl, rfl, rfl⟩

theorem eachLastEnd_touched (b s : State) :
    ∃ (x : Vector CarSlot 24) (w : Scratch), eachSpot (writeLastEnd b) s = { s with cars := x, scratch := w } ∧
      w.sameTouched s.scratch := by
  unfold eachSpot
  generalize allSpots = l
  induction l generalizing s with
  | nil => exact ⟨s.cars, s.scratch, rfl, rfl, rfl, rfl⟩
  | cons i l ih =>
    obtain ⟨x, w, h, k⟩ := writeLastEnd_touched b i s
    obtain ⟨x', w', h', k'⟩ := ih (writeLastEnd b i s)
    refine ⟨x', w', by rw [List.foldl_cons, h', h], ?_⟩
    rw [h] at k'
    exact ⟨k'.1.trans k.1, k'.2.1.trans k.2.1, k'.2.2.trans k.2.2⟩

theorem writeLastEnd_none (b : State) (i : SpotNo) (s : State)
    (h : ∀ d ∈ s.scratch.departed, d.spot ≠ i) : writeLastEnd b i s = s := by
  have hf : (s.scratch.departed.filter fun d => d.spot = i) = [] := by
    rw [List.filter_eq_nil_iff]; intro d hd; simpa using h d hd
  unfold writeLastEnd
  simp only [hf, List.map_nil, tailMost]

theorem eachLastEnd_none (b s : State) (h : s.scratch.departed = []) : eachSpot (writeLastEnd b) s = s := by
  unfold eachSpot
  induction allSpots with
  | nil => rfl
  | cons i l ih => rw [List.foldl_cons, writeLastEnd_none b i s (by simp [h])]; exact ih

@[simp] theorem writeLastEnd_departed (b : State) (i : SpotNo) (s : State) :
    (writeLastEnd b i s).scratch.departed = s.scratch.departed := by
  unfold writeLastEnd; simp only; split
  · rfl
  · unfold State.modCarAt; split <;> rfl

/-- Where only orders of one spot have left, only that spot's car is written. -/
theorem eachLastEnd_one (b s : State) (i : SpotNo) (h : ∀ d ∈ s.scratch.departed, d.spot = i) :
    eachSpot (writeLastEnd b) s = writeLastEnd b i s := by
  have skip : ∀ (j : SpotNo) (t : State), j ≠ i → t.scratch.departed = s.scratch.departed → writeLastEnd b j t = t := by
    intro j t hj ht
    refine writeLastEnd_none b j t fun d hd => ?_
    rw [ht] at hd; rw [h d hd]; exact fun e => hj e.symm
  have run : ∀ (l : List SpotNo) (t : State), i ∉ l → t.scratch.departed = s.scratch.departed →
      l.foldl (fun s j => writeLastEnd b j s) t = t := by
    intro l
    induction l with
    | nil => intros; rfl
    | cons j l ih =>
      intro t hj ht
      rw [List.foldl_cons, skip j t (fun e => hj (by simp [e])) ht]
      exact ih t (fun e => hj (by simp [e])) ht
  have split : ∃ l r, allSpots = l ++ i :: r ∧ i ∉ l ∧ i ∉ r := by
    have key : ∀ i : SpotNo, ∃ l r, allSpots = l ++ i :: r ∧ i ∉ l ∧ i ∉ r := by
      intro i
      refine ⟨allSpots.take i.val, allSpots.drop (i.val + 1), ?_⟩
      revert i; decide
    exact key i
  obtain ⟨l, r, hs, hl, hr⟩ := split
  unfold eachSpot
  rw [hs, List.foldl_append, run l s hl rfl, List.foldl_cons]
  exact run r _ hr (writeLastEnd_departed b i s)

/-! ## The close of an event -/

theorem bumpRevisions_rest (s : State) :
    ∃ (x : Vector CarSlot 24) (c : Changes), bumpRevisions s = { s with cars := x, changes := c } := by
  unfold bumpRevisions; split
  · exact ⟨s.cars, s.changes, rfl⟩
  · exact ⟨_, _, rfl⟩

theorem bumpRevisions_flags (s : State) :
    ∃ (x : Vector CarSlot 24) (c : Changes), bumpRevisions s = { s with cars := x, changes := c } ∧
      c.spots = s.changes.spots ∧ c.vessels = s.changes.vessels ∧ c.comps = s.changes.comps := by
  unfold bumpRevisions; split
  · exact ⟨s.cars, s.changes, rfl, rfl, rfl, rfl⟩
  · exact ⟨_, _, rfl, rfl, rfl, rfl⟩

theorem followLamps_rest (b s : State) : ∃ f : Vector Flash 8, followLamps b s = { s with flashes := f } := ⟨_, rfl⟩

theorem raiseFlags_rest (b s : State) : ∃ c : Changes, raiseFlags b s = { s with changes := c } := ⟨_, rfl⟩

theorem closeEvent_rest (b s : State) :
    ∃ (x : Vector CarSlot 24) (c : Changes) (f : Vector Flash 8) (n : BitVec 6),
      closeEvent b s = { s with cars := x, changes := c, flashes := f, inlets := n, scratch := .empty } := by
  obtain ⟨x, w, h⟩ := eachLastEnd_rest b s.refreshInlets
  obtain ⟨x2, c2, h2⟩ := bumpRevisions_rest { s.refreshInlets with cars := x, scratch := w }
  obtain ⟨f, h3⟩ := followLamps_rest b { { s.refreshInlets with cars := x, scratch := w } with cars := x2, changes := c2 }
  obtain ⟨c, h4⟩ := raiseFlags_rest b
    { { { s.refreshInlets with cars := x, scratch := w } with cars := x2, changes := c2 } with flashes := f }
  refine ⟨x2, c, f, s.refreshInlets.inlets, ?_⟩
  unfold closeEvent
  rw [h, h2, h3, h4]
  rfl

@[simp] theorem closeEvent_scratch (b s : State) : (closeEvent b s).scratch = .empty := rfl
@[simp] theorem closeEvent_spots (b s : State) : (closeEvent b s).spots = s.spots := by
  obtain ⟨x, c, f, n, h⟩ := closeEvent_rest b s; rw [h]
@[simp] theorem closeEvent_vessels (b s : State) : (closeEvent b s).vessels = s.vessels := by
  obtain ⟨x, c, f, n, h⟩ := closeEvent_rest b s; rw [h]
@[simp] theorem closeEvent_comps (b s : State) : (closeEvent b s).comps = s.comps := by
  obtain ⟨x, c, f, n, h⟩ := closeEvent_rest b s; rw [h]
@[simp] theorem closeEvent_grants (b s : State) : (closeEvent b s).grants = s.grants := by
  obtain ⟨x, c, f, n, h⟩ := closeEvent_rest b s; rw [h]
@[simp] theorem closeEvent_profile (b s : State) : (closeEvent b s).profile = s.profile := by
  obtain ⟨x, c, f, n, h⟩ := closeEvent_rest b s; rw [h]
@[simp] theorem closeEvent_siding (b s : State) : (closeEvent b s).siding = s.siding := by
  obtain ⟨x, c, f, n, h⟩ := closeEvent_rest b s; rw [h]
@[simp] theorem closeEvent_staged (b s : State) : (closeEvent b s).staged = s.staged := by
  obtain ⟨x, c, f, n, h⟩ := closeEvent_rest b s; rw [h]
@[simp] theorem closeEvent_stagedVersion (b s : State) : (closeEvent b s).stagedVersion = s.stagedVersion := by
  obtain ⟨x, c, f, n, h⟩ := closeEvent_rest b s; rw [h]
@[simp] theorem closeEvent_setpointHold (b s : State) : (closeEvent b s).setpointHold = s.setpointHold := by
  obtain ⟨x, c, f, n, h⟩ := closeEvent_rest b s; rw [h]
@[simp] theorem closeEvent_tests (b s : State) : (closeEvent b s).tests = s.tests := by
  obtain ⟨x, c, f, n, h⟩ := closeEvent_rest b s; rw [h]
@[simp] theorem closeEvent_lockTaken (b s : State) : (closeEvent b s).lockTaken = s.lockTaken := by
  obtain ⟨x, c, f, n, h⟩ := closeEvent_rest b s; rw [h]
@[simp] theorem closeEvent_lock (b s : State) : (closeEvent b s).lock = s.lock := by
  obtain ⟨x, c, f, n, h⟩ := closeEvent_rest b s; rw [h]
@[simp] theorem closeEvent_fe (b s : State) : (closeEvent b s).fe = s.fe := by
  obtain ⟨x, c, f, n, h⟩ := closeEvent_rest b s; rw [h]
@[simp] theorem closeEvent_rearmRun (b s : State) : (closeEvent b s).rearmRun = s.rearmRun := by
  obtain ⟨x, c, f, n, h⟩ := closeEvent_rest b s; rw [h]
@[simp] theorem closeEvent_beatTimer (b s : State) : (closeEvent b s).beatTimer = s.beatTimer := by
  obtain ⟨x, c, f, n, h⟩ := closeEvent_rest b s; rw [h]
@[simp] theorem closeEvent_esdHigh (b s : State) : (closeEvent b s).esdHigh = s.esdHigh := by
  obtain ⟨x, c, f, n, h⟩ := closeEvent_rest b s; rw [h]
@[simp] theorem closeEvent_link (b s : State) : (closeEvent b s).link = s.link := by
  obtain ⟨x, c, f, n, h⟩ := closeEvent_rest b s; rw [h]
@[simp] theorem closeEvent_freeCount (b s : State) : (closeEvent b s).freeCount = s.freeCount := by
  obtain ⟨x, c, f, n, h⟩ := closeEvent_rest b s; rw [h]
@[simp] theorem closeEvent_pending (b s : State) : (closeEvent b s).pending = s.pending := by
  obtain ⟨x, c, f, n, h⟩ := closeEvent_rest b s; rw [h]
@[simp] theorem closeEvent_spot (b s : State) (i : SpotNo) : (closeEvent b s).spot i = s.spot i :=
  congrArg (fun x : Vector Spot 8 => x[i]) (closeEvent_spots b s)
@[simp] theorem closeEvent_vessel (b s : State) (v : VesselNo) : (closeEvent b s).vessel v = s.vessel v :=
  congrArg (fun x : Vector Vessel 6 => x[v]) (closeEvent_vessels b s)
@[simp] theorem closeEvent_comp (b s : State) (c : CompNo) : (closeEvent b s).comp c = s.comp c :=
  congrArg (fun x : Vector Comp 2 => x[c]) (closeEvent_comps b s)

/-- What the close leaves of the frame: everything but the car table. -/
theorem closeEvent_frame (b s : State) : (closeEvent b s).frame = { s.frame with cars := (closeEvent b s).cars } := by
  simp only [State.frame, closeEvent_spots, closeEvent_vessels, closeEvent_comps, closeEvent_grants, closeEvent_profile, closeEvent_siding, closeEvent_staged, closeEvent_stagedVersion, closeEvent_setpointHold, closeEvent_tests, closeEvent_lockTaken, closeEvent_lock, closeEvent_fe, closeEvent_rearmRun, closeEvent_beatTimer, closeEvent_esdHigh, closeEvent_link, closeEvent_freeCount, closeEvent_pending]

/-- The car table after the close of an event at which no order has left: each changed record's revision is one on. -/
theorem closeEvent_carSlot (b s : State) (k : SlotNo) (h : s.scratch.departed = []) :
    (closeEvent b s).carSlot k =
      if s.scratch.touched.getLsbD k then
        { s.carSlot k with car := (s.car k).map fun c => { c with revision := c.revision + 1 } }
      else s.carSlot k := by
  have hd : s.refreshInlets.scratch.departed = [] := h
  unfold closeEvent
  rw [eachLastEnd_none b _ hd]
  have hb : ∀ t : State, (bumpRevisions t).carSlot k =
      if t.scratch.touched.getLsbD k then
        { t.carSlot k with car := (t.car k).map fun c => { c with revision := c.revision + 1 } }
      else t.carSlot k := by
    intro t
    unfold bumpRevisions
    by_cases h0 : t.scratch.touched = 0
    · rw [if_pos h0, h0]; simp
    · rw [if_neg h0]; simp [State.carSlot, State.car]
  exact hb _

/-- No record changed and no order gone: the car table stands. -/
theorem closeEvent_cars_quiet (b s : State) (h : s.scratch.departed = []) (ht : s.scratch.touched = 0) :
    (closeEvent b s).cars = s.cars := by
  have hd : s.refreshInlets.scratch.departed = [] := h
  unfold closeEvent
  rw [eachLastEnd_none b _ hd]
  have hb : bumpRevisions s.refreshInlets = s.refreshInlets := by
    unfold bumpRevisions; exact if_pos ht
  rw [hb]
  rfl

/-- The car table after the close of an event at which orders of one spot alone have left. -/
theorem closeEvent_carSlot_one (b s : State) (i : SpotNo) (k : SlotNo) (h : ∀ d ∈ s.scratch.departed, d.spot = i) :
    (closeEvent b s).carSlot k =
      if (writeLastEnd b i s).scratch.touched.getLsbD k then
        { (writeLastEnd b i s).carSlot k with
          car := ((writeLastEnd b i s).car k).map fun c => { c with revision := c.revision + 1 } }
      else (writeLastEnd b i s).carSlot k := by
  have hd : ∀ d ∈ s.refreshInlets.scratch.departed, d.spot = i := h
  have he : writeLastEnd b i s.refreshInlets = (writeLastEnd b i s).refreshInlets := by
    unfold writeLastEnd; simp only [State.refreshInlets]; split
    · rfl
    · unfold State.modCarAt; split
      · rename_i g hg; split
        · rename_i g' hg'; have : g = g' := by simpa [State.spot] using hg.symm.trans hg'
          subst this; rfl
        · rename_i hg'; rw [show s.spot i = { s with inlets := _ }.spot i from rfl] at hg'; simp_all [State.spot]
      · rename_i hg; split
        · rename_i g' hg'; simp_all [State.spot]
        · rfl
  unfold closeEvent
  rw [eachLastEnd_one b _ i hd, he]
  have hb : ∀ t : State, (bumpRevisions t).carSlot k =
      if t.scratch.touched.getLsbD k then
        { t.carSlot k with car := (t.car k).map fun c => { c with revision := c.revision + 1 } }
      else t.carSlot k := by
    intro t
    unfold bumpRevisions
    by_cases h0 : t.scratch.touched = 0
    · rw [if_pos h0, h0]; simp
    · rw [if_neg h0]; simp [State.carSlot, State.car]
  exact hb _

/-! ## Flags and outputs after the close -/

theorem ofFnLE_bit {n : Nat} (f : Fin n → Bool) (v : Fin n) : (BitVec.ofFnLE f).getLsbD v = f v := by simp

theorem bumpRevisions_sidingView (s : State) : (bumpRevisions s).sidingView = s.sidingView := by
  obtain ⟨x, c, h⟩ := bumpRevisions_rest s; rw [h]; rfl
theorem bumpRevisions_sidingFlag (s : State) : (bumpRevisions s).changes.siding = s.changes.siding := by
  unfold bumpRevisions; split <;> rfl
theorem bumpRevisions_inlets (s : State) : (bumpRevisions s).inlets = s.inlets := by
  unfold bumpRevisions; split <;> rfl

/-- The close of an event up to its flags: the car table, the revisions, the inlet permissives and the lamps are written, and the
scratch names the spots, vessels and compressors that the event has changed as it did before. -/
theorem closeEvent_flags (b s : State) :
    ∃ t : State, closeEvent b s = clearScratch (raiseFlags b t) ∧ (∀ i, t.spotView i = s.spotView i) ∧
      (∀ v, t.vesselView v = s.refreshInlets.vesselView v) ∧ (∀ c, t.compView c = s.compView c) ∧
      t.scratch.spots = s.scratch.spots ∧ t.scratch.vessels = s.scratch.vessels ∧ t.scratch.comps = s.scratch.comps ∧
      t.changes.spots = s.changes.spots ∧ t.changes.vessels = s.changes.vessels ∧ t.changes.comps = s.changes.comps := by
  obtain ⟨x, w, h, hw⟩ := eachLastEnd_touched b s.refreshInlets
  obtain ⟨x2, c2, h2, hc⟩ := bumpRevisions_flags { s.refreshInlets with cars := x, scratch := w }
  refine ⟨_, rfl, ?_⟩
  rw [h, h2]
  exact ⟨fun _ => rfl, fun _ => rfl, fun _ => rfl, hw.1, hw.2.1, hw.2.2, hc.1, hc.2.1, hc.2.2⟩

/-- The flags of the spots after an event: those set before, those of spots a rule of the event has changed, and those whose
reported values differ (R195). -/
theorem closeEvent_spotFlag (b s : State) (i : SpotNo) :
    (closeEvent b s).changes.spots.getLsbD i
      = (s.changes.spots.getLsbD i || s.scratch.spots.getLsbD i || decide (b.spotView i ≠ s.spotView i)) := by
  obtain ⟨t, h, hv, _, _, hs, _, _, hc, _, _⟩ := closeEvent_flags b s
  rw [h, ← hs, ← hc]
  simp only [clearScratch, raiseFlags, BitVec.getLsbD_or, ofFnLE_bit, hv]

/-- The flags of the vessels after an event (R195). -/
theorem closeEvent_vesselFlag (b s : State) (v : VesselNo) :
    (closeEvent b s).changes.vessels.getLsbD v
      = (s.changes.vessels.getLsbD v || s.scratch.vessels.getLsbD v
          || decide (b.vesselView v ≠ s.refreshInlets.vesselView v)) := by
  obtain ⟨t, h, _, hv, _, _, hs, _, _, hc, _⟩ := closeEvent_flags b s
  rw [h, ← hs, ← hc]
  simp only [clearScratch, raiseFlags, BitVec.getLsbD_or, ofFnLE_bit, hv]

/-- The flags of the compressors after an event (R195). -/
theorem closeEvent_compFlag (b s : State) (c : CompNo) :
    (closeEvent b s).changes.comps.getLsbD c
      = (s.changes.comps.getLsbD c || s.scratch.comps.getLsbD c || decide (b.compView c ≠ s.compView c)) := by
  obtain ⟨t, h, _, _, hv, _, _, hs, _, _, hc⟩ := closeEvent_flags b s
  rw [h, ← hs, ← hc]
  simp only [clearScratch, raiseFlags, BitVec.getLsbD_or, ofFnLE_bit, hv]

/-- The siding's flag after an event (R195). -/
theorem closeEvent_sidingFlag (b s : State) :
    (closeEvent b s).changes.siding = (s.changes.siding || decide (b.sidingView ≠ s.sidingView)) := by
  obtain ⟨x, w, h⟩ := eachLastEnd_rest b s.refreshInlets
  unfold closeEvent
  rw [h]
  have hr : ∀ t : State, (clearScratch (raiseFlags b (followLamps b t))).changes.siding
      = (t.changes.siding || decide (b.sidingView ≠ t.sidingView)) := fun _ => rfl
  rw [hr, bumpRevisions_sidingFlag, bumpRevisions_sidingView]
  rfl

theorem closeEvent_inlets (b s : State) : (closeEvent b s).inlets = BitVec.ofFnLE fun v => s.inletFor v := by
  obtain ⟨x, w, h⟩ := eachLastEnd_rest b s.refreshInlets
  unfold closeEvent
  rw [h]
  have hr : ∀ t : State, (clearScratch (raiseFlags b (followLamps b t))).inlets = t.inlets := fun _ => rfl
  rw [hr, bumpRevisions_inlets]
  rfl

theorem closeEvent_inletFor (b s : State) (v : VesselNo) : (closeEvent b s).inletFor v = s.inletFor v := by
  unfold State.inletFor State.fittedVessel State.site
  simp only [closeEvent_profile, closeEvent_spot]

/-- R102: after the close every inlet permissive stands as the rule works it out. -/
theorem closeEvent_inletsFollow (b s : State) : (closeEvent b s).inletsFollow := by
  intro v; rw [closeEvent_inletFor, closeEvent_inlets, ofFnLE_bit]

end Sys2Proof.Machine
end

