-- ==== Sys2Proof/Laws/Link.lean ====
section
/-! SUPPORT. What the link does with a whole request that the part can take: the head may lock the form, the owner executes the
request on the records as they stand, and the reply is placed (R185, R189, R193, R194). -/

namespace Sys2Proof.Machine

/-- A reply put where the host finds it. -/
def placeReply (via : Via) (p : State × Reply) : State :=
  match via with
  | .clocked => bufferReply p.2 p.1
  | .async _ => p.1.modLink fun l => { l with sending := some (.begin p.2 false), answered := true }

/-- The state in which an owner finds a request: the records of `s`, with the link past the request's characters. -/
structure Reached (s u : State) (via : Via) : Prop where
  records : u = { s with link := u.link, changes := (lockForm via.line s).changes }
  unit : u.link.unit = s.link.unit
  form : u.link.form = (lockForm via.line s).link.form

theorem Reached.frame {s u : State} {via : Via} (h : Reached s u via) : u.frame = s.frame := by
  have hu := h.unit
  rw [h.records] at hu ⊢
  simp only [State.frame]
  simp only at hu
  rw [hu]

theorem lockForm_rest (line : Line) (s : State) :
    lockForm line s = { s with link := (lockForm line s).link, changes := (lockForm line s).changes } := by
  unfold lockForm; split <;> rfl

theorem lockForm_unit (line : Line) (s : State) : (lockForm line s).link.unit = s.link.unit := by
  unfold lockForm; split <;> rfl

theorem lockForm_sending (line : Line) (s : State) : (lockForm line s).link.sending = s.link.sending := by
  unfold lockForm; split <;> rfl

theorem endFetch_rest (s : State) : ∃ f d, endFetch s = { s with link := { s.link with fetching := f, discarded := d } } := by
  unfold endFetch; split
  · exact ⟨s.link.fetching, s.link.discarded, rfl⟩
  · exact ⟨_, _, rfl⟩

theorem discardPartial_rest (s : State) :
    ∃ p d, discardPartial s = { s with link := { s.link with incoming := p, discarded := d } } := by
  unfold discardPartial; split
  · exact ⟨s.link.incoming, s.link.discarded, rfl⟩
  · exact ⟨_, _, rfl⟩

theorem openRequest_rest (line : Line) (c : Byte) (s : State) :
    openRequest line c s
      = { s with link := (openRequest line c s).link, changes := (lockForm line s).changes } ∧
    (openRequest line c s).link.unit = s.link.unit ∧
    (openRequest line c s).link.form = (lockForm line s).link.form ∧
    (openRequest line c s).link.sending = s.link.sending := by
  have h0 := lockForm_rest line s
  have hu := lockForm_unit line s
  have hs := lockForm_sending line s
  unfold openRequest
  simp only
  split
  · obtain ⟨f, d, h1⟩ := endFetch_rest (lockForm line s)
    obtain ⟨p, e, h2⟩ := discardPartial_rest (endFetch (lockForm line s))
    rw [h2, h1]
    refine ⟨?_, hu, rfl, hs⟩
    rw [h0]; rfl
  · exact ⟨h0, hu, rfl, hs⟩

/-- The head of a request that the part can take is heard. -/
theorem hears_of_canTake (s : State) (via : Via) (h : s.canTake via = true) :
    (lockForm via.line s).link.form.hears via.line = true := by
  cases via with
  | clocked =>
    unfold lockForm
    split
    · rfl
    · rename_i h1
      simp only [State.canTake, bne_iff_ne, ne_eq] at h
      cases hf : s.link.form <;> simp_all [LinkForm.hears, Via.line]
  | async a =>
    unfold lockForm
    split
    · rfl
    · rename_i h1
      simp only [State.canTake, Bool.and_eq_true, bne_iff_ne, ne_eq] at h
      cases hf : s.link.form <;> simp_all [LinkForm.hears, Via.line]

theorem lockForm_locked (line : Line) (s : State) (h : s.link.form ≠ .unlocked) : lockForm line s = s := by
  unfold lockForm; rw [if_neg h]

/-- The state the owner finds when a request arrives whole. -/
theorem deliver_opened (c : Instr) (s : State) :
    ∃ u, Reached s u (route c) ∧ u.link.sending = s.link.sending ∧
      deliver c s =
        if u.link.form.hears (route c).line then
          match route c with
          | .clocked => complete .own c (u.modLink fun l => { l with incoming := none })
          | .async a => match (u.modLink fun l => { l with incoming := none }).addressed (code c) a with
            | some d => complete d c (u.modLink fun l => { l with incoming := none })
            | none => u.modLink fun l => { l with incoming := none }
        else u := by
  by_cases hc : s.continues c = true
  · have hl : s.link.form ≠ .unlocked := by
      unfold State.continues at hc
      split at hc
      · simp at hc
      · split at hc <;> intro hf <;> simp [hf] at hc
    have hk : lockForm (route c).line s = s := lockForm_locked _ s hl
    refine ⟨s, ⟨by rw [hk], rfl, by rw [hk]⟩, rfl, ?_⟩
    unfold deliver; simp only [hc, if_true]; try rfl
  · obtain ⟨h1, h2, h3, h4⟩ := openRequest_rest (route c).line (code c) s
    refine ⟨openRequest (route c).line (code c) s, ⟨h1, h2, h3⟩, h4, ?_⟩
    unfold deliver; simp only [hc, if_false, Bool.false_eq_true]; try rfl

theorem complete_clocked (a : Addressing) (c : Instr) (s : State) (h : s.link.form = .clocked) (hc : code c ≠ 34) :
    complete a c s = placeReply .clocked (execute c s) := by
  unfold complete; rw [h]; simp only; rw [if_neg hc]; rfl

theorem complete_own (c : Instr) (s : State) (a : Byte) (h : s.link.form = .asynchronous)
    (hn : s.link.sending = none) : complete .own c s = placeReply (.async a) (execute c s) := by
  unfold complete; rw [h]; simp only; rw [hn]; rfl

theorem complete_broadcast (c : Instr) (s : State) (h : s.link.form = .asynchronous) (hn : s.link.sending = none) :
    complete .broadcast c s = (execute c s).1 := by
  unfold complete; rw [h]; simp only; rw [hn]; rfl

/-- A request that the part can take is executed by its owner on the records as they stand, and its reply placed. -/
theorem deliver_taken (c : Instr) (s : State) (h : s.canTake (route c) = true) (hf : code c ≠ 34 ∨ route c ≠ .clocked) :
    ∃ u, Reached s u (route c) ∧ deliver c s = placeReply (route c) (execute c u) := by
  obtain ⟨u, hu, hs, hd⟩ := deliver_opened c s
  refine ⟨u.modLink fun l => { l with incoming := none }, ⟨?_, hu.unit, hu.form⟩, ?_⟩
  · have := hu.records
    rw [this]; rfl
  have hh : u.link.form.hears (route c).line = true := by rw [hu.form]; exact hears_of_canTake s _ h
  rw [hd, if_pos hh]
  cases hv : route c with
  | clocked =>
    rw [hv] at hh hf
    have hform : u.link.form = .clocked := by
      cases hx : u.link.form <;> simp [hx, LinkForm.hears, Via.line] at hh ⊢
    have h34 : code c ≠ 34 := by simpa using hf
    exact complete_clocked .own c _ hform h34
  | async a =>
    rw [hv] at hh h hu
    have hform : u.link.form = .asynchronous := by
      cases hx : u.link.form <;> simp [hx, LinkForm.hears, Via.line] at hh ⊢
    simp only [State.canTake, Bool.and_eq_true, beq_iff_eq] at h
    have ha : (u.modLink fun l => { l with incoming := none }).addressed (code c) a = some .own := by
      unfold State.addressed
      rw [if_pos]
      show a = u.link.unit.setWidth 8
      rw [hu.unit]; exact h.1.2
    have hn : u.link.sending = none := by rw [hs]; simpa using h.2
    simp only [ha]
    exact complete_own c _ a hform hn

/-- A broadcast that the part executes reaches its owner, and gets no reply (R188). -/
theorem deliver_broadcast (c : Instr) (s : State) (hr : route c = .async Config.broadcastAddress)
    (hf : s.link.form ≠ .clocked) (hw : writingCode (code c) = true) (hn : s.link.sending = none) :
    ∃ u, Reached s u (route c) ∧ deliver c s = (execute c u).1 := by
  obtain ⟨u, hu, hs, hd⟩ := deliver_opened c s
  refine ⟨u.modLink fun l => { l with incoming := none }, ⟨?_, hu.unit, hu.form⟩, ?_⟩
  · have := hu.records
    rw [this]; rfl
  have hh : u.link.form = .asynchronous := by
    rw [hu.form, hr]
    unfold lockForm; split
    · rfl
    · cases hx : s.link.form <;> simp_all
  rw [hd, hr]
  have hb : (u.modLink fun l => { l with incoming := none }).addressed (code c) Config.broadcastAddress
      = some .broadcast := by
    unfold State.addressed
    rw [if_neg, if_pos ⟨rfl, hw⟩]
    show ¬ Config.broadcastAddress = (u.link.unit.setWidth 8 : Byte)
    generalize u.link.unit = x
    revert x; decide
  rw [if_pos (by rw [hh]; rfl)]
  simp only [hb]
  exact complete_broadcast c _ hh (hs.trans hn)

theorem placeReply_frame (via : Via) (p : State × Reply) : (placeReply via p).frame = p.1.frame := by
  cases via <;> rfl

theorem placeReply_changes (via : Via) (p : State × Reply) : (placeReply via p).changes = p.1.changes := by
  cases via <;> rfl

theorem placeReply_replied (via : Via) (p : State × Reply) : (placeReply via p).replied via p.2.status p.2.body := by
  cases via <;> rfl

/-- A writing request is one event. -/
theorem execute_writing (c : Instr) (u : State) (h : writingCode (code c) = true) :
    execute c u = (closeEvent u (answer c (clearScratch u)).1, (answer c (clearScratch u)).2) := by
  unfold execute; rw [if_pos h]

theorem execute_reading (c : Instr) (u : State) (h : writingCode (code c) = false) : execute c u = answer c u := by
  unfold execute; rw [if_neg (by simp [h])]

/-! ## The characters of a reply -/

/-- A reply has as many characters as an outgoing reply counts: status, flags and body. -/
theorem Reply.characters_length (r : Reply) (flags : Byte) (b : Bool) :
    (r.characters flags).length = (Outgoing.begin r b).length := by
  simp [Reply.characters, Outgoing.begin, Outgoing.length]; omega

/-- The flags character moves nothing but the link. -/
theorem sendFlags_keeps (s : State) : (sendFlags s).frame = s.frame ∧ (sendFlags s).changes = s.changes := by
  unfold sendFlags; repeat' split
  all_goals exact ⟨rfl, rfl⟩

/-- A filler of a FETCH moves nothing but the link. -/
theorem shiftOut_keeps (o : Outgoing) (s : State) : (shiftOut o s).frame = s.frame ∧ (shiftOut o s).changes = s.changes := by
  unfold shiftOut; repeat' split
  · exact sendFlags_keeps s
  all_goals exact ⟨rfl, rfl⟩

/-- A filler after the last character changes nothing. -/
theorem shiftOut_past (o : Outgoing) (s : State) (h : o.length ≤ o.sent) : shiftOut o s = s := by
  have : 2 ≤ o.length := by unfold Outgoing.length; omega
  unfold shiftOut; rw [if_neg (by omega), if_neg (by omega)]

end Sys2Proof.Machine
end

