-- ==== Sys2Proof/Laws/Local.lean ====
section
/-! SUPPORT. Where the work of one spot or one compressor reaches: an operation at spot `i` leaves every other spot as it was, the
work of a compressor leaves every spot, and the arbiter leaves every spot whose head does not wait, its seat apart. -/

namespace Sys2Proof.Machine

/-! ## Compressors leave the spots -/

@[simp] theorem spots_commandDir (c : CompNo) (d : Direction) (x : Command) (s : State) :
    (commandDir c d x s).spots = s.spots := rfl
@[simp] theorem spots_pursueDirAll (c : CompNo) (s : State) : (pursueDirAll c s).spots = s.spots := rfl
@[simp] theorem spots_shutDirs (c : CompNo) (s : State) : (shutDirs c s).spots = s.spots := rfl
@[simp] theorem spots_settleTests (s : State) : (settleTests s).spots = s.spots := by
  unfold settleTests; split <;> rfl
@[simp] theorem spots_endCompTest (c : CompNo) (s : State) : (endCompTest c s).spots = s.spots := by simp [endCompTest]
@[simp] theorem spots_endSpotTest (i : SpotNo) (s : State) : (endSpotTest i s).spots = s.spots := by simp [endSpotTest]
@[simp] theorem spots_stopComp (c : CompNo) (s : State) : (stopComp c s).spots = s.spots := rfl
@[simp] theorem spots_enterRunOn (c : CompNo) (s : State) : (enterRunOn c s).spots = s.spots := by
  unfold enterRunOn; split <;> simp
@[simp] theorem spots_enterRunWait (c : CompNo) (s : State) : (enterRunWait c s).spots = s.spots := rfl
@[simp] theorem spots_compOnOpen (c : CompNo) (s : State) : (compOnOpen c s).spots = s.spots := by
  unfold compOnOpen; simp only; repeat' split
  all_goals simp
@[simp] theorem spots_compOnRun (c : CompNo) (s : State) : (compOnRun c s).spots = s.spots := by
  unfold compOnRun; simp only; repeat' split
  all_goals simp
@[simp] theorem spots_passProof (c : CompNo) (s : State) : (passProof c s).spots = s.spots := by simp [passProof]
@[simp] theorem spots_compOnShut (c : CompNo) (s : State) : (compOnShut c s).spots = s.spots := by
  unfold compOnShut; simp only; repeat' split
  all_goals simp
@[simp] theorem spots_compOnGuard (c : CompNo) (s : State) : (compOnGuard c s).spots = s.spots := by
  unfold compOnGuard; simp only; repeat' split
  all_goals simp
@[simp] theorem spots_compPassGuard (c : CompNo) (s : State) : (compPassGuard c s).spots = s.spots := by
  simp [compPassGuard]
@[simp] theorem spots_compOnArrivals (c : CompNo) (s : State) : (compOnArrivals c s).spots = s.spots := by
  simp [compOnArrivals]
@[simp] theorem spots_compAdvance (c : CompNo) (s : State) : (compAdvance c s).spots = s.spots := by simp [compAdvance]
@[simp] theorem spots_compReported (b : State) (c : CompNo) (s : State) : (compReported b c s).spots = s.spots := by
  unfold compReported; simp only; split <;> simp
/-- A report that finds no guard met carries the compressor as far as it goes. -/
theorem compReported_of_unmet (b : State) (c : CompNo) (s : State) (h : b.guardMet c = false) :
    compReported b c s = compAdvance c s := by
  simp [compReported, compAdvance, h]
@[simp] theorem spots_startComp (c : CompNo) (d : Direction) (s : State) : (startComp c d s).spots = s.spots := by
  simp [startComp]
@[simp] theorem spots_enterReversing (c : CompNo) (d : Direction) (s : State) :
    (enterReversing c d s).spots = s.spots := by simp [enterReversing]
@[simp] theorem spots_compOnEmpty (c : CompNo) (s : State) : (compOnEmpty c s).spots = s.spots := by
  unfold compOnEmpty; simp only; repeat' split
  all_goals simp
@[simp] theorem spots_clearTurning (i : SpotNo) (c : CompNo) (s : State) : (clearTurning i c s).spots = s.spots := by
  unfold clearTurning; split <;> rfl
@[simp] theorem spots_dropGrant (i : SpotNo) (s : State) : (dropGrant i s).spots = s.spots := by
  unfold dropGrant; simp only
  refine (foldl_keeps State.spots _ (fun s c => spots_clearTurning i c s) _ _).trans ?_
  split <;> rfl

/-- Equal spots tables read alike. -/
theorem spot_of_spots {s t : State} (h : t.spots = s.spots) (i : SpotNo) : t.spot i = s.spot i :=
  congrArg (fun x : Vector Spot 8 => x[i]) h

/-! ## Work at one spot leaves the others -/

section Elsewhere

variable {i j : SpotNo} (h : j ≠ i)

include h

theorem off_modSpot (f : Spot → Spot) (s : State) : (s.modSpot i f).spot j = s.spot j := modSpot_spot_other s i j f h
theorem off_pursueSpot (n : ValveName) (s : State) : (pursueSpot i n s).spot j = s.spot j := off_modSpot h _ s
theorem off_commandSpot (n : ValveName) (c : Command) (s : State) : (commandSpot i n c s).spot j = s.spot j :=
  (off_pursueSpot h n _).trans (off_modSpot h _ s)
theorem off_pursueSpotAll (s : State) : (pursueSpotAll i s).spot j = s.spot j := by
  simp only [pursueSpotAll, allValveNames, List.foldl_cons, List.foldl_nil, off_pursueSpot h]
theorem off_shutLines (s : State) : (shutLines i s).spot j = s.spot j := by simp only [shutLines, off_commandSpot h]
theorem off_shutAll (s : State) : (shutAll i s).spot j = s.spot j := by
  simp only [shutAll, off_commandSpot h, off_shutLines h]
theorem off_releaseSeat (s : State) : (releaseSeat i s).spot j = s.spot j := by
  unfold releaseSeat; split
  · rfl
  · exact (spot_of_spots (spots_compOnEmpty _ _) j).trans (off_modSpot h (fun sp => { sp with seat := none }) s)
theorem off_leaveCompressors (s : State) : (leaveCompressors i s).spot j = s.spot j :=
  (spot_of_spots (spots_dropGrant _ _) j).trans (off_releaseSeat h s)
theorem off_depart (o : Order) (s : State) : (depart i o s).spot j = s.spot j := by
  have e := off_modSpot h (fun sp => { sp with orders := sp.orders.filter fun p => p.tag ≠ o.tag }) s
  unfold depart; simp only; split <;> exact e
theorem off_departs (f : Order → Order) (l : List Order) (s : State) :
    (l.foldl (fun s o => depart i (f o) s) s).spot j = s.spot j :=
  foldl_keeps (fun s => s.spot j) _ (fun s o => off_depart h (f o) s) l s
theorem off_addHold (r : HoldReason) (s : State) : (addHold i r s).spot j = s.spot j := by
  unfold addHold; simp only
  repeat' split
  all_goals simp only [off_leaveCompressors h, off_commandSpot h, off_modSpot h, touchSpot_spot]
theorem off_becomeHead (s : State) : (becomeHead i s).spot j = s.spot j := by
  unfold becomeHead; simp only
  repeat' split
  all_goals simp only [off_addHold h, off_modSpot h, touchSpot_spot]
theorem off_nextHead (s : State) : (nextHead i s).spot j = s.spot j := by
  unfold nextHead; simp only [removeHold]
  repeat' split
  all_goals simp only [off_becomeHead h, off_modSpot h]
theorem off_endQueue (a b : EndReason) (s : State) : (endQueue a b i s).spot j = s.spot j := by
  unfold endQueue; split
  · rfl
  · simp only [off_departs h]
    repeat' split
    all_goals simp only [off_depart h, off_modSpot h]
theorem off_enterIsolating (a b : EndReason) (f : Option SpotFault) (s : State) :
    (enterIsolating a b f i s).spot j = s.spot j := by
  simp only [enterIsolating, off_shutAll h, off_modSpot h, touchSpot_spot, off_leaveCompressors h, off_endQueue h]
theorem off_failProving (f : SpotFault) (s : State) : (failProving f i s).spot j = s.spot j :=
  off_enterIsolating h _ _ _ s
theorem off_headGone (b : Bool) (s : State) : (headGone i b s).spot j = s.spot j := by
  unfold headGone; split <;> simp only [off_enterIsolating h, off_nextHead h]
theorem off_drainHead (r : EndReason) (s : State) : (drainHead i r s).spot j = s.spot j := by
  simp only [drainHead, off_commandSpot h, off_leaveCompressors h, off_modSpot h, touchSpot_spot]
theorem off_headLeaves (o : Order) (r : EndReason) (s : State) : (headLeaves i o r s).spot j = s.spot j := by
  simp only [headLeaves, off_headGone h, off_depart h, off_leaveCompressors h]
  split <;> simp only [off_commandSpot h, off_modSpot h]
theorem off_endHead (r : EndReason) (s : State) : (endHead i r s).spot j = s.spot j := by
  unfold endHead
  repeat' split
  all_goals simp only [off_drainHead h, off_headLeaves h]
theorem off_endOrder (t : Word16) (r : EndReason) (s : State) : (endOrder i t r s).spot j = s.spot j := by
  unfold endOrder
  repeat' split
  all_goals simp only [off_endHead h, off_depart h]
omit h in
@[simp] theorem spots_serveUnloading (i : SpotNo) (s : State) : (serveUnloading i s).spots = s.spots := by
  unfold serveUnloading
  repeat' split
  all_goals rfl
omit h in
theorem off_serveUnloading (s : State) : (serveUnloading i s).spot j = s.spot j :=
  spot_of_spots (spots_serveUnloading i s) j
theorem off_faultSpot (f : SpotFault) (s : State) : (faultSpot f i s).spot j = s.spot j := by
  simp only [faultSpot, off_serveUnloading, off_shutAll h, off_modSpot h, touchSpot_spot, off_leaveCompressors h,
    off_departs h fun o => { o with reason := some .fault }]
theorem off_failStroke (k : Bool) (f : SpotFault) (s : State) : (failStroke k f i s).spot j = s.spot j := by
  unfold failStroke; simp only
  rw [spot_of_spots (spots_endSpotTest _ _)]
  split <;> simp only [off_modSpot h, touchSpot_spot, off_shutAll h]
theorem off_spotValveFault (n : ValveName) (s : State) : (spotValveFault i n s).spot j = s.spot j := by
  unfold spotValveFault; split <;> simp only [off_failStroke h, off_faultSpot h, touchSpot_spot]
theorem off_passStroke (s : State) : (passStroke i s).spot j = s.spot j :=
  (spot_of_spots (spots_endSpotTest _ _) j).trans (off_modSpot h _ (s.touchSpot i))
theorem off_onShutoffOpen (s : State) : (onShutoffOpen i s).spot j = s.spot j := by
  unfold onShutoffOpen; simp only; split <;> simp only [off_modSpot h]
theorem off_onLiquidOpen (s : State) : (onLiquidOpen i s).spot j = s.spot j := by
  unfold onLiquidOpen; simp only; split <;> simp only [off_modSpot h]
theorem off_onDrained (s : State) : (onDrained i s).spot j = s.spot j := by
  unfold onDrained; simp only
  repeat' split
  all_goals simp only [off_headGone h, off_depart h, off_leaveCompressors h, off_commandSpot h]
theorem off_onResumed (s : State) : (onResumed i s).spot j = s.spot j := by
  unfold onResumed; simp only; split <;> simp only [off_modSpot h, touchSpot_spot]
theorem off_onLinesShut (s : State) : (onLinesShut i s).spot j = s.spot j := by
  unfold onLinesShut; simp only; split <;> simp only [off_commandSpot h, off_modSpot h]
theorem off_onVentOpen (s : State) : (onVentOpen i s).spot j = s.spot j := by
  unfold onVentOpen; simp only; split <;> simp only [off_modSpot h]
omit h in
@[simp] theorem spots_modCarAt (i : SpotNo) (f : Car → Car) (s : State) : (s.modCarAt i f).spots = s.spots := by
  unfold State.modCarAt; split <;> rfl
theorem off_onVentShut (s : State) : (onVentShut i s).spot j = s.spot j := by
  unfold onVentShut; simp only; split
  · exact (spot_of_spots (spots_modCarAt _ _ _) j).trans (off_modSpot h _ s)
  · rfl
theorem off_onStrokeOpen (s : State) : (onStrokeOpen i s).spot j = s.spot j := by
  unfold onStrokeOpen; simp only
  repeat' split
  all_goals simp only [off_commandSpot h, off_modSpot h]
theorem off_onStrokeShut (s : State) : (onStrokeShut i s).spot j = s.spot j := by
  unfold onStrokeShut; simp only
  repeat' split
  all_goals simp only [off_passStroke h, off_modSpot h]
theorem off_onStrokeTurn (s : State) : (onStrokeTurn i s).spot j = s.spot j := by
  unfold onStrokeTurn; simp only
  repeat' split
  all_goals simp only [off_commandSpot h]
theorem off_advanceSpot (s : State) : (advanceSpot i s).spot j = s.spot j := by
  simp only [advanceSpot, off_onStrokeTurn h, off_onStrokeShut h, off_onStrokeOpen h, off_onVentShut h, off_onVentOpen h,
    off_onLinesShut h, off_onResumed h, off_onDrained h, off_onLiquidOpen h, off_onShutoffOpen h]
theorem off_holdSpot (r : HoldReason) (s : State) : (holdSpot i r s).spot j = s.spot j := by
  simp only [holdSpot, off_advanceSpot h, off_addHold h]
theorem off_runHead (s : State) : (runHead i s).spot j = s.spot j := by
  unfold runHead; simp only
  repeat' split
  all_goals simp only [off_advanceSpot h, off_endHead h, off_commandSpot h, off_modSpot h, touchSpot_spot]
theorem off_isolateSpot (s : State) : (isolateSpot i s).spot j = s.spot j := by
  unfold isolateSpot; rw [off_advanceSpot h]; split <;> simp only [off_failProving h, off_enterIsolating h]

end Elsewhere

/-! ## The grant queue only shrinks at a spot's work -/

/-- No entry of the grant queue is new. -/
def GrantsShrink (s t : State) : Prop := ∀ g, g ∈ t.grants → g ∈ s.grants

theorem GrantsShrink.refl (s : State) : GrantsShrink s s := fun _ h => h
theorem GrantsShrink.trans {s t u : State} (h : GrantsShrink s t) (k : GrantsShrink t u) : GrantsShrink s u :=
  fun g hg => h g (k g hg)
theorem GrantsShrink.of_eq {s t : State} (h : t.grants = s.grants) : GrantsShrink s t := fun g hg => by rwa [← h]

@[simp] theorem grants_settleTests (s : State) : (settleTests s).grants = s.grants := by
  unfold settleTests; split <;> rfl
@[simp] theorem grants_endCompTest (c : CompNo) (s : State) : (endCompTest c s).grants = s.grants := by
  simp [endCompTest]
@[simp] theorem grants_endSpotTest (i : SpotNo) (s : State) : (endSpotTest i s).grants = s.grants := by
  simp [endSpotTest]
@[simp] theorem grants_commandDir (c : CompNo) (d : Direction) (x : Command) (s : State) :
    (commandDir c d x s).grants = s.grants := rfl
@[simp] theorem grants_stopComp (c : CompNo) (s : State) : (stopComp c s).grants = s.grants := rfl
@[simp] theorem grants_shutDirs (c : CompNo) (s : State) : (shutDirs c s).grants = s.grants := rfl
@[simp] theorem grants_enterRunOn (c : CompNo) (s : State) : (enterRunOn c s).grants = s.grants := by
  unfold enterRunOn; split <;> simp
@[simp] theorem grants_enterRunWait (c : CompNo) (s : State) : (enterRunWait c s).grants = s.grants := rfl
@[simp] theorem grants_compOnOpen (c : CompNo) (s : State) : (compOnOpen c s).grants = s.grants := by
  unfold compOnOpen; simp only; repeat' split
  all_goals simp
@[simp] theorem grants_compOnRun (c : CompNo) (s : State) : (compOnRun c s).grants = s.grants := by
  unfold compOnRun; simp only; repeat' split
  all_goals simp
@[simp] theorem grants_passProof (c : CompNo) (s : State) : (passProof c s).grants = s.grants := by simp [passProof]
@[simp] theorem grants_compOnShut (c : CompNo) (s : State) : (compOnShut c s).grants = s.grants := by
  unfold compOnShut; simp only; repeat' split
  all_goals simp
@[simp] theorem grants_compOnGuard (c : CompNo) (s : State) : (compOnGuard c s).grants = s.grants := by
  unfold compOnGuard; simp only; repeat' split
  all_goals simp
@[simp] theorem grants_compPassGuard (c : CompNo) (s : State) : (compPassGuard c s).grants = s.grants := by
  simp [compPassGuard]
@[simp] theorem grants_compOnArrivals (c : CompNo) (s : State) : (compOnArrivals c s).grants = s.grants := by
  simp [compOnArrivals]
@[simp] theorem grants_compAdvance (c : CompNo) (s : State) : (compAdvance c s).grants = s.grants := by simp [compAdvance]
@[simp] theorem grants_compReported (b : State) (c : CompNo) (s : State) : (compReported b c s).grants = s.grants := by
  unfold compReported; simp only; split <;> simp
@[simp] theorem grants_startComp (c : CompNo) (d : Direction) (s : State) : (startComp c d s).grants = s.grants := by
  simp [startComp]
@[simp] theorem grants_enterReversing (c : CompNo) (d : Direction) (s : State) :
    (enterReversing c d s).grants = s.grants := by simp [enterReversing]
@[simp] theorem grants_compOnEmpty (c : CompNo) (s : State) : (compOnEmpty c s).grants = s.grants := by
  unfold compOnEmpty; simp only; repeat' split
  all_goals simp
@[simp] theorem grants_releaseSeat (i : SpotNo) (s : State) : (releaseSeat i s).grants = s.grants := by
  unfold releaseSeat; split <;> simp
@[simp] theorem grants_clearTurning (i : SpotNo) (c : CompNo) (s : State) :
    (clearTurning i c s).grants = s.grants := by unfold clearTurning; split <;> rfl
@[simp] theorem grants_dropGrant (i : SpotNo) (s : State) :
    (dropGrant i s).grants = s.grants.filter (·.spot ≠ i) := by
  unfold dropGrant; exact (foldl_keeps State.grants _ (fun s c => grants_clearTurning i c s) _ _).trans rfl
@[simp] theorem grants_leaveCompressors (i : SpotNo) (s : State) :
    (leaveCompressors i s).grants = s.grants.filter (·.spot ≠ i) := by simp [leaveCompressors]
@[simp] theorem grants_commandSpot (i : SpotNo) (n : ValveName) (c : Command) (s : State) :
    (commandSpot i n c s).grants = s.grants := rfl
@[simp] theorem grants_shutAll (i : SpotNo) (s : State) : (shutAll i s).grants = s.grants := rfl
@[simp] theorem grants_depart (i : SpotNo) (o : Order) (s : State) : (depart i o s).grants = s.grants := by
  unfold depart; simp only; split <;> rfl
@[simp] theorem grants_departs (i : SpotNo) (f : Order → Order) (l : List Order) (s : State) :
    (l.foldl (fun s o => depart i (f o) s) s).grants = s.grants :=
  foldl_keeps State.grants _ (fun s o => grants_depart i (f o) s) l s

theorem shrink_filter (i : SpotNo) {s t : State} (h : t.grants = s.grants.filter (·.spot ≠ i)) : GrantsShrink s t :=
  fun g hg => by rw [h] at hg; exact List.mem_of_mem_filter hg

theorem shrink_addHold (i : SpotNo) (r : HoldReason) (s : State) : GrantsShrink s (addHold i r s) := by
  unfold addHold; simp only
  repeat' split
  all_goals first
    | (refine shrink_filter i ?_; rw [grants_leaveCompressors]; rfl)
    | exact .of_eq rfl
theorem shrink_becomeHead (i : SpotNo) (s : State) : GrantsShrink s (becomeHead i s) := by
  unfold becomeHead; simp only
  repeat' split
  · exact .of_eq rfl
  · exact (GrantsShrink.of_eq rfl).trans (shrink_addHold _ _ _)
  · exact .of_eq rfl
theorem shrink_nextHead (i : SpotNo) (s : State) : GrantsShrink s (nextHead i s) := by
  unfold nextHead; simp only
  repeat' split
  all_goals first
    | exact .of_eq rfl
    | exact shrink_becomeHead i s
    | exact (GrantsShrink.of_eq rfl).trans (shrink_becomeHead _ _)
@[simp] theorem grants_endQueue (a b : EndReason) (i : SpotNo) (s : State) : (endQueue a b i s).grants = s.grants := by
  unfold endQueue; split
  · rfl
  · rw [grants_departs]
    repeat' split
    all_goals first | rfl | exact grants_depart _ _ _
@[simp] theorem grants_enterIsolating (a b : EndReason) (f : Option SpotFault) (i : SpotNo) (s : State) :
    (enterIsolating a b f i s).grants = s.grants.filter (·.spot ≠ i) := by simp [enterIsolating]
theorem shrink_headGone (i : SpotNo) (b : Bool) (s : State) : GrantsShrink s (headGone i b s) := by
  unfold headGone; split
  · exact shrink_filter i (grants_enterIsolating _ _ _ _ _)
  · exact shrink_nextHead i s
@[simp] theorem grants_drainHead (i : SpotNo) (r : EndReason) (s : State) :
    (drainHead i r s).grants = s.grants.filter (·.spot ≠ i) := by simp [drainHead]
theorem shrink_headLeaves (i : SpotNo) (o : Order) (r : EndReason) (s : State) :
    GrantsShrink s (headLeaves i o r s) := by
  unfold headLeaves; simp only
  refine GrantsShrink.trans ?_ (shrink_headGone i _ _)
  refine shrink_filter i ?_
  rw [grants_depart, grants_leaveCompressors]; split <;> rfl
theorem shrink_endHead (i : SpotNo) (r : EndReason) (s : State) : GrantsShrink s (endHead i r s) := by
  unfold endHead
  repeat' split
  · exact .refl s
  · exact shrink_filter i (grants_drainHead i r s)
  · exact shrink_headLeaves i _ r s
theorem shrink_onDrained (i : SpotNo) (s : State) : GrantsShrink s (onDrained i s) := by
  unfold onDrained; simp only
  repeat' split
  · exact .refl s
  · refine GrantsShrink.trans ?_ (shrink_headGone i _ _)
    refine shrink_filter i ?_
    rw [grants_depart, grants_leaveCompressors]; rfl
  · exact .refl s
@[simp] theorem grants_passStroke (i : SpotNo) (s : State) : (passStroke i s).grants = s.grants := by simp [passStroke]
@[simp] theorem grants_modCarAt (i : SpotNo) (f : Car → Car) (s : State) : (s.modCarAt i f).grants = s.grants := by
  unfold State.modCarAt; split <;> rfl
@[simp] theorem grants_onShutoffOpen (i : SpotNo) (s : State) : (onShutoffOpen i s).grants = s.grants := by
  unfold onShutoffOpen; simp only; split <;> simp
@[simp] theorem grants_onLiquidOpen (i : SpotNo) (s : State) : (onLiquidOpen i s).grants = s.grants := by
  unfold onLiquidOpen; simp only; split <;> simp
@[simp] theorem grants_onResumed (i : SpotNo) (s : State) : (onResumed i s).grants = s.grants := by
  unfold onResumed; simp only; split <;> simp
@[simp] theorem grants_onLinesShut (i : SpotNo) (s : State) : (onLinesShut i s).grants = s.grants := by
  unfold onLinesShut; simp only; split <;> simp
@[simp] theorem grants_onVentOpen (i : SpotNo) (s : State) : (onVentOpen i s).grants = s.grants := by
  unfold onVentOpen; simp only; split <;> simp
@[simp] theorem grants_onVentShut (i : SpotNo) (s : State) : (onVentShut i s).grants = s.grants := by
  unfold onVentShut; simp only; split <;> simp
@[simp] theorem grants_onStrokeOpen (i : SpotNo) (s : State) : (onStrokeOpen i s).grants = s.grants := by
  unfold onStrokeOpen; simp only; repeat' split
  all_goals simp
@[simp] theorem grants_onStrokeShut (i : SpotNo) (s : State) : (onStrokeShut i s).grants = s.grants := by
  unfold onStrokeShut; simp only; repeat' split
  all_goals simp
@[simp] theorem grants_onStrokeTurn (i : SpotNo) (s : State) : (onStrokeTurn i s).grants = s.grants := by
  unfold onStrokeTurn; simp only; repeat' split
  all_goals simp
theorem shrink_advanceSpot (i : SpotNo) (s : State) : GrantsShrink s (advanceSpot i s) := by
  have h : (advanceSpot i s).grants = (onDrained i (onLiquidOpen i (onShutoffOpen i s))).grants := by
    simp [advanceSpot]
  intro g hg
  rw [h] at hg
  have := shrink_onDrained i _ g hg
  simpa using this
theorem shrink_runHead (i : SpotNo) (s : State) : GrantsShrink s (runHead i s) := by
  unfold runHead; simp only
  repeat' split
  · exact .refl s
  · exact .of_eq rfl
  · exact (shrink_endHead _ _ _).trans (shrink_advanceSpot _ _)
  · exact .of_eq rfl

/-! ## The arbiter -/

theorem due_run {s : State} {i : SpotNo} (h : s.due = some (.run i)) : (s.spot i).waits := by
  have hr : s.headReady i = true := by
    unfold State.due at h
    split at h
    · rename_i k hk; simp at h; subst h; simpa using List.find?_some hk
    · repeat' split at h
      all_goals simp at h
  unfold State.headReady at hr
  simp only at hr
  split at hr
  · rename_i hs hh _
    simp only [Bool.and_eq_true] at hr
    refine ⟨hs, ?_⟩
    unfold Spot.headIs; rw [hh]; exact hr.1.1.1.1.1
  · simp at hr

theorem due_seat {s : State} {g : Grant} {c : CompNo} (h : s.due = some (.seat g c)) : g ∈ s.grants := by
  unfold State.due at h
  repeat' split at h
  all_goals simp at h
  · rename_i g' c' hg
    obtain ⟨rfl, rfl⟩ := h
    unfold State.nextGrant at hg
    obtain ⟨x, hx, hy⟩ := List.exists_of_findSome?_eq_some hg
    simp only [Option.map_eq_some_iff, Prod.mk.injEq] at hy
    obtain ⟨_, _, rfl, _⟩ := hy
    exact hx

theorem spots_grantSeat (c : CompNo) (g : Grant) (s : State) :
    (grantSeat c g s).spots = (s.modSpot g.spot fun sp => { sp with seat := some c }).spots := by
  unfold grantSeat; simp only; split <;> simp <;> rfl

theorem grants_grantSeat (c : CompNo) (g : Grant) (s : State) : GrantsShrink s (grantSeat c g s) := by
  refine shrink_filter g.spot ?_
  unfold grantSeat; simp only; split <;> simp

theorem spots_markTurning (i : SpotNo) (c : CompNo) (s : State) : (markTurning i c s).spots = s.spots := by
  simp [markTurning]

theorem grants_markTurning (i : SpotNo) (c : CompNo) (s : State) : (markTurning i c s).grants = s.grants := by
  simp [markTurning]

/-- R127: what is due next reaches, at a spot whose head does not wait, its seat alone. -/
theorem performDue_spot {s : State} {d : Due} (hd : s.due = some d) (j : SpotNo) (hj : ¬ (s.spot j).waits) :
    ∃ x, (performDue d s).spot j = { s.spot j with seat := x } := by
  cases d with
  | run i =>
    have hi := due_run hd
    exact ⟨(s.spot j).seat, off_runHead (fun e => hj (by rw [e]; exact hi)) s⟩
  | join => exact ⟨(s.spot j).seat, rfl⟩
  | seat g c =>
    have h := spot_of_spots (spots_grantSeat c g s) j
    by_cases hg : j = g.spot
    · subst hg; exact ⟨some c, by simp only [performDue]; rw [h, modSpot_spot_same]⟩
    · exact ⟨(s.spot j).seat, by simp only [performDue]; rw [h, off_modSpot hg]⟩
  | turn i c => exact ⟨(s.spot j).seat, spot_of_spots (spots_markTurning i c s) j⟩

theorem settleFor_spot : ∀ (n : Nat) (s : State) (j : SpotNo), ¬ (s.spot j).waits →
    ∃ x, (settleFor n s).spot j = { s.spot j with seat := x }
  | 0, s, j, _ => ⟨(s.spot j).seat, rfl⟩
  | n + 1, s, j, hj => by
    unfold settleFor; split
    · exact ⟨(s.spot j).seat, rfl⟩
    · rename_i d hd
      obtain ⟨x, hx⟩ := performDue_spot hd j hj
      obtain ⟨y, hy⟩ := settleFor_spot n (performDue d s) j (by rw [hx]; exact hj)
      exact ⟨y, by rw [hy, hx]⟩

/-- The arbiter leaves a spot whose head does not wait as it stands, its seat apart. -/
theorem settle_spot (s : State) (j : SpotNo) (hj : ¬ (s.spot j).waits) :
    ∃ x, (settle s).spot j = { s.spot j with seat := x } := settleFor_spot _ s j hj

theorem performDue_quiet {s : State} {d : Due} (hd : s.due = some d) (j : SpotNo) (hj : ¬ (s.spot j).waits)
    (hg : ∀ g ∈ s.grants, g.spot ≠ j) :
    (performDue d s).spot j = s.spot j ∧ ∀ g ∈ (performDue d s).grants, g.spot ≠ j := by
  cases d with
  | run i =>
    have hi := due_run hd
    exact ⟨off_runHead (fun e => hj (by rw [e]; exact hi)) s, fun g h => hg g (shrink_runHead i s g h)⟩
  | join =>
    refine ⟨rfl, fun g h => ?_⟩
    simp only [performDue, joinGrants, List.mem_append, List.mem_map, List.mem_filter] at h
    rcases h with h | ⟨i, ⟨_, hi⟩, rfl⟩
    · exact hg g h
    · intro e
      simp only at e
      subst e
      unfold State.mustJoin at hi
      simp only [Bool.and_eq_true, beq_iff_eq] at hi
      exact hj ⟨hi.1.1.1, hi.1.1.2⟩
  | seat g c =>
    have hm := hg g (due_seat hd)
    refine ⟨?_, fun g' h => hg g' (grants_grantSeat c g s g' h)⟩
    simp only [performDue]
    rw [spot_of_spots (spots_grantSeat c g s) j, off_modSpot hm.symm]
  | turn i c =>
    exact ⟨spot_of_spots (spots_markTurning i c s) j, fun g h => hg g (by
      simp only [performDue, grants_markTurning] at h; exact h)⟩

theorem settleFor_quiet : ∀ (n : Nat) (s : State) (j : SpotNo), ¬ (s.spot j).waits →
    (∀ g ∈ s.grants, g.spot ≠ j) →
    (settleFor n s).spot j = s.spot j ∧ ∀ g ∈ (settleFor n s).grants, g.spot ≠ j
  | 0, _, _, _, hg => ⟨rfl, hg⟩
  | n + 1, s, j, hj, hg => by
    unfold settleFor; split
    · exact ⟨rfl, hg⟩
    · rename_i d hd
      obtain ⟨h1, h2⟩ := performDue_quiet hd j hj hg
      obtain ⟨h3, h4⟩ := settleFor_quiet n (performDue d s) j (by rw [h1]; exact hj) h2
      exact ⟨h3.trans h1, h4⟩

/-- The arbiter leaves whole a spot whose head does not wait and that the grant queue does not name. -/
theorem settle_quiet (s : State) (j : SpotNo) (hj : ¬ (s.spot j).waits) (hg : ∀ g ∈ s.grants, g.spot ≠ j) :
    (settle s).spot j = s.spot j := (settleFor_quiet _ s j hj hg).1

theorem Spot.not_waits {sp : Spot} (h : sp.state ≠ .staged) : ¬ sp.waits := fun w => h w.1

/-- Where nothing is due the arbiter does nothing. -/
theorem settle_none (s : State) (h : s.due = none) : settle s = s := by
  unfold settle Config.settleRounds settleFor; rw [h]

/-! ## A steady spot -/

theorem advanceSpot_steady (i : SpotNo) (s : State) (h : (s.spot i).steady) (hs : (s.spot i).state ≠ .stroking) :
    advanceSpot i s = s := by
  obtain ⟨h1, h2, h3, h4, h5, h6, h7⟩ := h
  have e1 : onShutoffOpen i s = s := by unfold onShutoffOpen; simp only; rw [if_neg h1]
  have e2 : onLiquidOpen i s = s := by unfold onLiquidOpen; simp only; rw [if_neg h2]
  have e3 : onDrained i s = s := by
    unfold onDrained; split
    · rfl
    · rename_i o ho
      simp only
      rw [if_neg]
      intro hx
      exact h3 ⟨by simp [Spot.headIs, ho, hx.1], hx.2⟩
  have e4 : onResumed i s = s := by unfold onResumed; simp only; rw [if_neg h4]
  have e5 : onLinesShut i s = s := by unfold onLinesShut; simp only; rw [if_neg h5]
  have e6 : onVentOpen i s = s := by unfold onVentOpen; simp only; rw [if_neg h6]
  have e7 : onVentShut i s = s := by unfold onVentShut; simp only; rw [if_neg h7]
  have e8 : onStrokeOpen i s = s := by
    unfold onStrokeOpen; simp only; split
    · rename_i n hn _; exact absurd hn hs
    · rfl
  have e9 : onStrokeShut i s = s := by
    unfold onStrokeShut; simp only; split
    · rename_i n hn _; exact absurd hn hs
    · rfl
  have e10 : onStrokeTurn i s = s := by
    unfold onStrokeTurn; simp only; split
    · rename_i n hn _; exact absurd hn hs
    · rfl
  unfold advanceSpot
  rw [e1, e2, e3, e4, e5, e6, e7, e8, e9, e10]

end Sys2Proof.Machine
end

