-- ==== Sys2Proof/Laws/Guarded.lean ====
section
/-! SUPPORT. Which commands reach the protection block, the lock, the setpoints and the profile: every other command leaves them
(R157, R166, R176, R177). -/

namespace Sys2Proof.Machine

/-- The fields that only their own commands change. -/
structure Guarded where
  profile : Profile
  staged : Setpoints
  stagedVersion : Word16
  setpointHold : Bool
  lockTaken : Bool
  lock : Nat
  fe : Bool
  rearmRun : Nat
  esdHigh : Bool

def State.guarded (s : State) : Guarded :=
  { profile := s.profile, staged := s.staged, stagedVersion := s.stagedVersion, setpointHold := s.setpointHold,
    lockTaken := s.lockTaken, lock := s.lock, fe := s.fe, rearmRun := s.rearmRun, esdHigh := s.esdHigh }

def Ground.guarded (y : Ground) : Guarded :=
  { profile := y.profile, staged := y.staged, stagedVersion := y.stagedVersion, setpointHold := y.setpointHold,
    lockTaken := y.lockTaken, lock := y.lock, fe := y.fe, rearmRun := y.rearmRun, esdHigh := y.esdHigh }

/-- What keeps the ground keeps the guarded fields. -/
theorem guarded_of_ground {s t : State} (h : t.ground = s.ground) : t.guarded = s.guarded := by
  exact congrArg Ground.guarded h

@[simp] theorem guarded_modSlot (k : SlotNo) (f : CarSlot → CarSlot) (s : State) :
    (s.modSlot k f).guarded = s.guarded := rfl
@[simp] theorem guarded_modSpot (i : SpotNo) (f : Spot → Spot) (s : State) : (s.modSpot i f).guarded = s.guarded := rfl
@[simp] theorem guarded_modVessel (v : VesselNo) (f : Vessel → Vessel) (s : State) :
    (s.modVessel v f).guarded = s.guarded := rfl
@[simp] theorem guarded_modComp (c : CompNo) (f : Comp → Comp) (s : State) : (s.modComp c f).guarded = s.guarded := rfl
@[simp] theorem guarded_modLink (f : Link → Link) (s : State) : (s.modLink f).guarded = s.guarded := rfl
@[simp] theorem guarded_modCar (k : SlotNo) (f : Car → Car) (s : State) : (s.modCar k f).guarded = s.guarded := rfl
@[simp] theorem guarded_modCarAt (i : SpotNo) (f : Car → Car) (s : State) : (s.modCarAt i f).guarded = s.guarded := by
  unfold State.modCarAt; split <;> rfl
@[simp] theorem guarded_flagSlot (k : SlotNo) (s : State) : (s.flagSlot k).guarded = s.guarded := rfl
@[simp] theorem guarded_flagSiding (s : State) : s.flagSiding.guarded = s.guarded := rfl
@[simp] theorem guarded_touchSpot (i : SpotNo) (s : State) : (s.touchSpot i).guarded = s.guarded := rfl
@[simp] theorem guarded_touchVessel (v : VesselNo) (s : State) : (s.touchVessel v).guarded = s.guarded := rfl
@[simp] theorem guarded_touchComp (c : CompNo) (s : State) : (s.touchComp c).guarded = s.guarded := rfl
@[simp] theorem guarded_touchQueue (s : State) : s.touchQueue.guarded = s.guarded := rfl
@[simp] theorem guarded_useFree (s : State) : s.useFree.guarded = s.guarded := rfl
@[simp] theorem guarded_clearScratch (s : State) : (clearScratch s).guarded = s.guarded := rfl
@[simp] theorem guarded_modValve (v : ValveId) (f : Valve → Valve) (s : State) :
    (s.modValve v f).guarded = s.guarded := by cases v <;> rfl

@[simp] theorem guarded_closeEvent (b s : State) : (closeEvent b s).guarded = s.guarded := by
  obtain ⟨x, c, f, n, h⟩ := closeEvent_rest b s; rw [h]; rfl

theorem guarded_eachSpot (f : SpotNo → State → State) (h : ∀ i s, (f i s).guarded = s.guarded) (s : State) :
    (eachSpot f s).guarded = s.guarded := foldl_keeps _ _ (fun s i => h i s) _ _
theorem guarded_eachComp (f : CompNo → State → State) (h : ∀ c s, (f c s).guarded = s.guarded) (s : State) :
    (eachComp f s).guarded = s.guarded := foldl_keeps _ _ (fun s c => h c s) _ _
theorem guarded_eachFittedSpot (f : SpotNo → State → State) (h : ∀ i s, (f i s).guarded = s.guarded) (s : State) :
    (eachFittedSpot f s).guarded = s.guarded := by
  apply guarded_eachSpot; intro i s; split <;> simp [h]
theorem guarded_eachFittedComp (f : CompNo → State → State) (h : ∀ c s, (f c s).guarded = s.guarded) (s : State) :
    (eachFittedComp f s).guarded = s.guarded := by
  apply guarded_eachComp; intro c s; split <;> simp [h]

/-! ## The shared operations, by their grounds -/

@[simp] theorem guarded_settle (s : State) : (settle s).guarded = s.guarded := guarded_of_ground (ground_settle s)
@[simp] theorem guarded_settleTests (s : State) : (settleTests s).guarded = s.guarded :=
  guarded_of_ground (ground_settleTests s)
@[simp] theorem guarded_advanceSpot (i : SpotNo) (s : State) : (advanceSpot i s).guarded = s.guarded :=
  guarded_of_ground (ground_advanceSpot i s)
@[simp] theorem guarded_commandSpot (i : SpotNo) (n : ValveName) (c : Command) (s : State) :
    (commandSpot i n c s).guarded = s.guarded := rfl
@[simp] theorem guarded_pursueSpotAll (i : SpotNo) (s : State) : (pursueSpotAll i s).guarded = s.guarded := rfl
@[simp] theorem guarded_shutAll (i : SpotNo) (s : State) : (shutAll i s).guarded = s.guarded := rfl
@[simp] theorem guarded_shutLines (i : SpotNo) (s : State) : (shutLines i s).guarded = s.guarded := rfl
@[simp] theorem guarded_shutDirs (c : CompNo) (s : State) : (shutDirs c s).guarded = s.guarded := rfl
@[simp] theorem guarded_pursueDirAll (c : CompNo) (s : State) : (pursueDirAll c s).guarded = s.guarded := rfl
@[simp] theorem guarded_stopComp (c : CompNo) (s : State) : (stopComp c s).guarded = s.guarded := rfl
@[simp] theorem guarded_haltComp (k : Bool) (c : CompNo) (s : State) : (haltComp k c s).guarded = s.guarded :=
  guarded_of_ground (ground_haltComp k c s)
@[simp] theorem guarded_enterProof (c : CompNo) (s : State) : (enterProof c s).guarded = s.guarded := rfl
@[simp] theorem guarded_endCompTest (c : CompNo) (s : State) : (endCompTest c s).guarded = s.guarded :=
  guarded_of_ground (ground_endCompTest c s)
@[simp] theorem guarded_endSpotTest (i : SpotNo) (s : State) : (endSpotTest i s).guarded = s.guarded :=
  guarded_of_ground (ground_endSpotTest i s)
@[simp] theorem guarded_compAdvance (c : CompNo) (s : State) : (compAdvance c s).guarded = s.guarded :=
  guarded_of_ground (ground_compAdvance c s)
@[simp] theorem guarded_compPassGuard (c : CompNo) (s : State) : (compPassGuard c s).guarded = s.guarded :=
  guarded_of_ground (ground_compPassGuard c s)
@[simp] theorem guarded_compOnRun (c : CompNo) (s : State) : (compOnRun c s).guarded = s.guarded :=
  guarded_of_ground (ground_compOnRun c s)
@[simp] theorem guarded_compReported (b : State) (c : CompNo) (s : State) : (compReported b c s).guarded = s.guarded :=
  guarded_of_ground (ground_compReported b c s)
@[simp] theorem guarded_faultComp (f : CompFault) (c : CompNo) (s : State) : (faultComp f c s).guarded = s.guarded :=
  guarded_of_ground (ground_faultComp f c s)
@[simp] theorem guarded_faultSpot (f : SpotFault) (i : SpotNo) (s : State) : (faultSpot f i s).guarded = s.guarded :=
  guarded_of_ground (ground_faultSpot f i s)
@[simp] theorem guarded_spotValveFault (i : SpotNo) (n : ValveName) (s : State) :
    (spotValveFault i n s).guarded = s.guarded := guarded_of_ground (ground_spotValveFault i n s)
@[simp] theorem guarded_failStroke (k : Bool) (f : SpotFault) (i : SpotNo) (s : State) :
    (failStroke k f i s).guarded = s.guarded := guarded_of_ground (ground_failStroke k f i s)
@[simp] theorem guarded_enterStroking (i : SpotNo) (s : State) : (enterStroking i s).guarded = s.guarded :=
  guarded_of_ground (ground_enterStroking i s)
@[simp] theorem guarded_addHold (i : SpotNo) (r : HoldReason) (s : State) : (addHold i r s).guarded = s.guarded :=
  guarded_of_ground (ground_addHold i r s)
@[simp] theorem guarded_removeHold (i : SpotNo) (r : HoldReason) (s : State) :
    (removeHold i r s).guarded = s.guarded := rfl
@[simp] theorem guarded_holdSpot (i : SpotNo) (r : HoldReason) (s : State) : (holdSpot i r s).guarded = s.guarded :=
  guarded_of_ground (ground_holdSpot i r s)
@[simp] theorem guarded_becomeHead (i : SpotNo) (s : State) : (becomeHead i s).guarded = s.guarded :=
  guarded_of_ground (ground_becomeHead i s)
@[simp] theorem guarded_enterIsolating (a b : EndReason) (f : Option SpotFault) (i : SpotNo) (s : State) :
    (enterIsolating a b f i s).guarded = s.guarded := guarded_of_ground (ground_enterIsolating a b f i s)
@[simp] theorem guarded_failProving (f : SpotFault) (i : SpotNo) (s : State) :
    (failProving f i s).guarded = s.guarded := guarded_of_ground (ground_failProving f i s)
@[simp] theorem guarded_endHead (i : SpotNo) (r : EndReason) (s : State) : (endHead i r s).guarded = s.guarded :=
  guarded_of_ground (ground_endHead i r s)
@[simp] theorem guarded_endOrder (i : SpotNo) (t : Word16) (r : EndReason) (s : State) :
    (endOrder i t r s).guarded = s.guarded := guarded_of_ground (ground_endOrder i t r s)
@[simp] theorem guarded_runCut (v : VesselNo) (s : State) : (runCut v s).guarded = s.guarded :=
  guarded_of_ground (ground_runCut v s)

/-! ## Metering -/

@[simp] theorem guarded_creditOrder (i : SpotNo) (l : Liquid) (s : State) : (creditOrder i l s).guarded = s.guarded := by
  unfold creditOrder; simp only; split <;> rfl
@[simp] theorem guarded_creditVessel (i : SpotNo) (t : Word16) (v : VesselNo) (s : State) :
    (creditVessel i t v s).guarded = s.guarded := by
  unfold creditVessel; simp only; split <;> simp
@[simp] theorem guarded_decideTarget (i : SpotNo) (s : State) : (decideTarget i s).guarded = s.guarded := by
  unfold decideTarget
  repeat' split
  all_goals simp
@[simp] theorem guarded_restartStall (i : SpotNo) (s : State) : (restartStall i s).guarded = s.guarded := by
  unfold restartStall; split <;> simp
@[simp] theorem guarded_countInWindow (i : SpotNo) (s : State) : (countInWindow i s).guarded = s.guarded := by
  unfold countInWindow; simp only
  repeat' split
  all_goals simp
@[simp] theorem guarded_creditLitre (i : SpotNo) (h : Order) (l : Liquid) (s : State) :
    (creditLitre i h l s).guarded = s.guarded := by simp [creditLitre]
@[simp] theorem guarded_creepLitre (i : SpotNo) (s : State) : (creepLitre i s).guarded = s.guarded := by
  unfold creepLitre; simp only; split <;> simp
@[simp] theorem guarded_disposeLitre (i : SpotNo) (s : State) : (disposeLitre i s).guarded = s.guarded := by
  unfold disposeLitre; simp only
  repeat' split
  all_goals simp
@[simp] theorem guarded_emitLitre (i : SpotNo) (s : State) : (emitLitre i s).guarded = s.guarded := by simp [emitLitre]
@[simp] theorem guarded_takePulse (i : SpotNo) (s : State) : (takePulse i s).guarded = s.guarded := by
  unfold takePulse
  repeat' split
  all_goals simp
@[simp] theorem guarded_takeLitre (i : SpotNo) (s : State) : (takeLitre i s).guarded = s.guarded := by
  unfold takeLitre; split <;> simp

/-! ## Field inputs and clock events -/

theorem guarded_event (f : State → State) (s : State) (h : ∀ t, (f t).guarded = t.guarded) :
    (event f s).guarded = s.guarded := by unfold event; rw [guarded_closeEvent, h]; rfl

theorem guarded_ifFitted (i : SpotNo) (f : SpotNo → State → State) (s : State) (h : ∀ t, (f i t).guarded = t.guarded) :
    (ifFitted i f s).guarded = s.guarded := by unfold ifFitted; split <;> simp [h]

@[simp] theorem guarded_bondTrip (i : SpotNo) (s : State) : (bondTrip i s).guarded = s.guarded := by
  unfold bondTrip; split <;> simp
@[simp] theorem guarded_pressureMade (i : SpotNo) (s : State) : (pressureMade i s).guarded = s.guarded := by
  unfold pressureMade; split <;> simp
@[simp] theorem guarded_pressureLost (i : SpotNo) (s : State) : (pressureLost i s).guarded = s.guarded := by
  unfold pressureLost; split <;> simp
@[simp] theorem guarded_residualMade (i : SpotNo) (s : State) : (residualMade i s).guarded = s.guarded := by
  unfold residualMade; split <;> simp
@[simp] theorem guarded_resumeSpot (i : SpotNo) (s : State) : (resumeSpot i s).guarded = s.guarded := by
  simp [resumeSpot]
@[simp] theorem guarded_pressConnected (i : SpotNo) (s : State) : (pressConnected i s).guarded = s.guarded := by
  unfold pressConnected
  repeat' split
  all_goals simp
@[simp] theorem guarded_pressStop (i : SpotNo) (s : State) : (pressStop i s).guarded = s.guarded := by
  unfold pressStop; split <;> simp
@[simp] theorem guarded_pressClear (i : SpotNo) (s : State) : (pressClear i s).guarded = s.guarded := by
  unfold pressClear; simp only
  repeat' split
  all_goals simp

@[simp] theorem guarded_bondChange (i : SpotNo) (b : Bool) (s : State) : (bondChange i b s).guarded = s.guarded := by
  unfold bondChange; split
  · rfl
  · refine guarded_event _ s fun t => ?_
    split
    · rfl
    · rw [guarded_ifFitted _ _ _ (guarded_bondTrip i)]; rfl
@[simp] theorem guarded_hoseChange (i : SpotNo) (b : Bool) (s : State) : (hoseChange i b s).guarded = s.guarded := by
  unfold hoseChange; split
  · rfl
  · refine guarded_event _ s fun t => ?_
    split
    · rw [guarded_ifFitted _ _ _ (guarded_pressureMade i)]; rfl
    · rw [guarded_ifFitted _ _ _ (guarded_pressureLost i)]; rfl
@[simp] theorem guarded_residualChange (i : SpotNo) (b : Bool) (s : State) :
    (residualChange i b s).guarded = s.guarded := by
  unfold residualChange; split
  · rfl
  · refine guarded_event _ s fun t => ?_
    split
    · rw [guarded_ifFitted _ _ _ (guarded_residualMade i)]; rfl
    · rfl
@[simp] theorem guarded_connectedPressed (i : SpotNo) (s : State) : (connectedPressed i s).guarded = s.guarded := by
  refine guarded_event _ s fun t => ?_
  rw [guarded_ifFitted _ _ _ (guarded_pressConnected i)]; rfl
@[simp] theorem guarded_stopPressed (i : SpotNo) (s : State) : (stopPressed i s).guarded = s.guarded := by
  refine guarded_event _ s fun t => ?_
  rw [guarded_ifFitted _ _ _ (guarded_pressStop i)]; rfl
@[simp] theorem guarded_clearPressed (i : SpotNo) (s : State) : (clearPressed i s).guarded = s.guarded := by
  refine guarded_event _ s fun t => ?_
  rw [guarded_ifFitted _ _ _ (guarded_pressClear i)]; rfl
@[simp] theorem guarded_tripChange (v : VesselNo) (b : Bool) (s : State) : (tripChange v b s).guarded = s.guarded := by
  unfold tripChange; split
  · rfl
  · refine guarded_event _ s fun t => ?_
    simp only [vesselTrips, vesselClears]
    repeat' split
    · rw [guarded_settle, guarded_eachFittedSpot _ (by intro i s; split <;> simp)]; rfl
    · rw [guarded_eachFittedSpot _ (by intro i s; split <;> simp)]; rfl
    · rfl
@[simp] theorem guarded_runLost (c : CompNo) (s : State) : (runLost c s).guarded = s.guarded := by
  unfold runLost; split <;> simp
@[simp] theorem guarded_runChange (c : CompNo) (b : Bool) (s : State) : (runChange c b s).guarded = s.guarded := by
  unfold runChange; split
  · rfl
  · refine guarded_event _ s fun t => ?_
    simp only
    repeat' split
    all_goals simp
@[simp] theorem guarded_faultChange (c : CompNo) (b : Bool) (s : State) : (faultChange c b s).guarded = s.guarded := by
  unfold faultChange; split
  · rfl
  · refine guarded_event _ s fun t => ?_
    simp only
    split <;> simp
@[simp] theorem guarded_reportValve (u : State) (v : ValveId) (b : Bool) (s : State) :
    (reportValve u v b s).guarded = s.guarded := by
  unfold reportValve; split <;> split <;> simp
@[simp] theorem guarded_limitChange (v : ValveId) (o h : Bool) (s : State) :
    (limitChange v o h s).guarded = s.guarded := by
  unfold limitChange; split
  · rfl
  · exact guarded_event _ s fun t => by simp [limitsBecome]

theorem guarded_sampleInput (n : Nat) (raw : Bool) (f : Filter) (store : Filter → State → State)
    (change : State → State) (s : State) (h : ∀ x t, (store x t).guarded = t.guarded)
    (h' : ∀ t, (change t).guarded = t.guarded) : (sampleInput n raw f store change s).guarded = s.guarded := by
  unfold sampleInput; split <;> simp [h, h']

theorem guarded_sampleGroup (active : List Input) (g : SampleGroup) (s : State) :
    (sampleGroup active g s).guarded = s.guarded := by
  have button : ∀ (raw : Bool) (press : State → State) (store : Filter → State → State) (t : State),
      (∀ x u, (store x u).guarded = u.guarded) → (∀ u, (press u).guarded = u.guarded) →
      (buttonChange raw press store t).guarded = t.guarded := by
    intro raw press store t h1 h2; unfold buttonChange; split <;> simp [h1, h2]
  cases g with
  | limits v =>
    show (sampleLimits _ v _ _ s).guarded = _
    unfold sampleLimits; simp only; split <;> simp
  | bond i => exact guarded_sampleInput _ _ _ _ _ s (fun _ _ => rfl) fun t => guarded_bondChange i _ t
  | hose i => exact guarded_sampleInput _ _ _ _ _ s (fun _ _ => rfl) fun t => guarded_hoseChange i _ t
  | residual i => exact guarded_sampleInput _ _ _ _ _ s (fun _ _ => rfl) fun t => guarded_residualChange i _ t
  | connectedButton i => exact guarded_sampleInput _ _ _ _ _ s (fun _ _ => rfl) fun t => button _ _ _ t (fun _ _ => rfl) (guarded_connectedPressed i)
  | stopButton i => exact guarded_sampleInput _ _ _ _ _ s (fun _ _ => rfl) fun t => button _ _ _ t (fun _ _ => rfl) (guarded_stopPressed i)
  | clearButton i => exact guarded_sampleInput _ _ _ _ _ s (fun _ _ => rfl) fun t => button _ _ _ t (fun _ _ => rfl) (guarded_clearPressed i)
  | trip v => exact guarded_sampleInput _ _ _ _ _ s (fun _ _ => rfl) fun t => guarded_tripChange v _ t
  | run c => exact guarded_sampleInput _ _ _ _ _ s (fun _ _ => rfl) fun t => guarded_runChange c _ t
  | faultInput c => exact guarded_sampleInput _ _ _ _ _ s (fun _ _ => rfl) fun t => guarded_faultChange c _ t

@[simp] theorem guarded_sampleAll (active : List Input) (order : List SampleGroup) (s : State) :
    (sampleAll active order s).guarded = s.guarded :=
  foldl_keeps _ _ (fun s g => guarded_sampleGroup active g s) _ _

@[simp] theorem guarded_pressureWaitExpires (i : SpotNo) (s : State) :
    (pressureWaitExpires i s).guarded = s.guarded := by
  unfold pressureWaitExpires; simp only; split
  · exact guarded_event _ s fun t => by simp
  · rfl
@[simp] theorem guarded_pressureHoldExpires (i : SpotNo) (s : State) :
    (pressureHoldExpires i s).guarded = s.guarded := by
  unfold pressureHoldExpires; simp only; split
  · exact guarded_event _ s fun t => by simp [passProving]
  · rfl
@[simp] theorem guarded_bleedExpires (i : SpotNo) (s : State) : (bleedExpires i s).guarded = s.guarded := by
  unfold bleedExpires; simp only; split
  · exact guarded_event _ s fun t => by unfold judgeBleed; split <;> simp
  · rfl
@[simp] theorem guarded_recoveryExpires (i : SpotNo) (s : State) : (recoveryExpires i s).guarded = s.guarded := by
  unfold recoveryExpires; simp only; split
  · exact guarded_event _ s fun t => by simp
  · rfl
@[simp] theorem guarded_stallExpires (i : SpotNo) (s : State) : (stallExpires i s).guarded = s.guarded := by
  unfold stallExpires; simp only; split
  · exact guarded_event _ s fun t => by simp
  · rfl
@[simp] theorem guarded_windowExpires (i : SpotNo) (s : State) : (windowExpires i s).guarded = s.guarded := by
  unfold windowExpires; split <;> rfl
@[simp] theorem guarded_startExpires (c : CompNo) (s : State) : (startExpires c s).guarded = s.guarded := by
  unfold startExpires; simp only; split
  · exact guarded_event _ s fun t => by simp
  · rfl
@[simp] theorem guarded_runOnExpires (c : CompNo) (s : State) : (runOnExpires c s).guarded = s.guarded := by
  unfold runOnExpires; simp only; split
  · exact guarded_event _ s fun t => by simp
  · rfl
@[simp] theorem guarded_proofRunExpires (c : CompNo) (s : State) : (proofRunExpires c s).guarded = s.guarded := by
  unfold proofRunExpires; simp only; split
  · exact guarded_event _ s fun t => by simp [endProofRun]
  · rfl
@[simp] theorem guarded_guardExpires (c : CompNo) (d : Direction) (s : State) :
    (guardExpires c d s).guarded = s.guarded := by
  unfold guardExpires; split
  · exact guarded_event _ s fun t => by simp
  · rfl
@[simp] theorem guarded_strokeExpires (v : ValveId) (s : State) : (strokeExpires v s).guarded = s.guarded := by
  unfold strokeExpires; split
  · exact guarded_event _ s fun t => by simp [strokeExceeded]
  · rfl
@[simp] theorem guarded_flashToggles (i : SpotNo) (s : State) : (flashToggles i s).guarded = s.guarded := by
  unfold flashToggles; split <;> rfl

/-! ## The owners' answers -/

theorem guarded_withSpot (b : Byte) (s : State) (f : SpotNo → State × Reply) (h : ∀ i, (f i).1.guarded = s.guarded) :
    (withSpot b s f).1.guarded = s.guarded := by unfold withSpot; split <;> simp [h]
theorem guarded_withVessel (b : Byte) (s : State) (f : VesselNo → State × Reply)
    (h : ∀ v, (f v).1.guarded = s.guarded) : (withVessel b s f).1.guarded = s.guarded := by
  unfold withVessel; split <;> simp [h]
theorem guarded_withComp (b : Byte) (s : State) (f : CompNo → State × Reply) (h : ∀ c, (f c).1.guarded = s.guarded) :
    (withComp b s f).1.guarded = s.guarded := by unfold withComp; split <;> simp [h]

theorem guarded_placeOrder (i : SpotNo) (r : OrderRequest) (l : Option Liquid) (s : State) :
    (placeOrder i r l s).guarded = s.guarded := by
  unfold placeOrder; simp only
  rw [guarded_settle, guarded_advanceSpot]
  split <;> (try rw [guarded_becomeHead]) <;> split <;> rfl
theorem guarded_placedReply (i : SpotNo) (r : OrderRequest) (l : Option Liquid) (t : State) :
    (placedReply i r l t).1.guarded = t.guarded := by unfold placedReply; simp only; split <;> rfl

theorem guarded_isolateSpot (i : SpotNo) (s : State) : (isolateSpot i s).guarded = s.guarded := by
  unfold isolateSpot; rw [guarded_advanceSpot]; split <;> simp

theorem guarded_beginSpotTest (i : SpotNo) (s : State) : (beginSpotTest i s).guarded = s.guarded := by
  unfold beginSpotTest; simp only
  repeat' split
  all_goals simp
theorem guarded_beginCompTest (c : CompNo) (s : State) : (beginCompTest c s).guarded = s.guarded := by
  unfold beginCompTest; simp only
  repeat' split
  all_goals simp

theorem guarded_restart (s : State) : (restart s).guarded = s.guarded := by
  unfold restart; simp only
  rw [guarded_flagSiding, guarded_eachFittedSpot _ (by
      intro i s; unfold restartSpot; split <;> simp),
    guarded_eachFittedComp _ (by
      intro c s
      have hf : ∀ t : State, (flagComp c t).guarded = t.guarded := fun _ => rfl
      rw [hf]; unfold restartComp; split <;> simp)]
  rfl

theorem guarded_answerCommission (s : State) : (answerCommission s).1.guarded = s.guarded := by
  unfold answerCommission; simp only
  repeat' split
  · rfl
  · rfl
  · rfl
  · simp only [guarded_settle, guarded_settleTests]
    rw [guarded_eachFittedComp _ guarded_beginCompTest, guarded_eachFittedSpot _ guarded_beginSpotTest]
    rfl

/-- The requests that reach the guarded fields (R162, R171, R176, R177, R178). -/
def Instr.guardedRequest : Instr → Bool
  | .rearm _ | .writeProfile .. | .setLock .. | .stageSetpoints .. | .setpointHold .. => true
  | _ => false

theorem guarded_answer (c : Instr) (s : State) (h : Instr.guardedRequest c = false) :
    (answer c s).1.guarded = s.guarded := by
  cases c <;> simp only [answer] <;> try rfl
  case announce =>
    unfold answerAnnounce
    repeat' split
    all_goals rfl
  case amend =>
    unfold answerAmend
    repeat' split
    all_goals rfl
  case readCar => unfold answerReadCar; split <;> rfl
  case find =>
    unfold answerFind
    repeat' split
    all_goals rfl
  case release =>
    unfold answerRelease
    repeat' split
    all_goals rfl
  case spot =>
    unfold answerSpot; split
    · rfl
    · refine guarded_withSpot _ _ _ fun i => ?_
      repeat' split
      all_goals rfl
  case unspot =>
    refine guarded_withSpot _ _ _ fun i => ?_
    split
    · simp [unbind]
    · rfl
  case openSpot =>
    refine guarded_withSpot _ _ _ fun i => ?_
    simp only
    repeat' split
    all_goals simp [startProving]
  case isolate =>
    refine guarded_withSpot _ _ _ fun i => ?_
    split
    · simp [guarded_isolateSpot]
    · rfl
  case isolateAll =>
    unfold answerIsolateAll; simp only; split
    · rfl
    · rw [guarded_settle]; exact foldl_keeps _ _ (fun s i => guarded_isolateSpot i s) _ _
  case clearHold =>
    refine guarded_withSpot _ _ _ fun i => ?_
    repeat' split
    all_goals rfl
  case resume =>
    refine guarded_withSpot _ _ _ fun i => ?_
    simp only
    repeat' split
    all_goals simp
  case strokeSpot =>
    refine guarded_withSpot _ _ _ fun i => ?_
    simp only
    repeat' split
    all_goals simp
  case readSpot => exact guarded_withSpot _ _ _ fun i => rfl
  case placeOrder =>
    refine guarded_withSpot _ _ _ fun i => ?_
    simp only
    repeat' split
    all_goals first
      | rw [guarded_placedReply, guarded_placeOrder]
      | rfl
  case trim =>
    refine guarded_withSpot _ _ _ fun i => ?_
    repeat' split
    all_goals simp [applyTrim]
  case cancelOrder =>
    refine guarded_withSpot _ _ _ fun i => ?_
    repeat' split
    all_goals simp
  case gauge =>
    refine guarded_withVessel _ _ _ fun i => ?_
    simp only
    repeat' split
    all_goals simp
  case setVesselService =>
    refine guarded_withVessel _ _ _ fun i => ?_
    simp only
    repeat' split
    all_goals rfl
  case readVessel => exact guarded_withVessel _ _ _ fun i => rfl
  case clearCompressor =>
    refine guarded_withComp _ _ _ fun i => ?_
    simp only
    split <;> simp
  case readCompressor => exact guarded_withComp _ _ _ fun i => rfl
  case rearm => simp [Instr.guardedRequest] at h
  case writeProfile => simp [Instr.guardedRequest] at h
  case readProfile => unfold answerReadProfile; split <;> rfl
  case setLock => simp [Instr.guardedRequest] at h
  case stageSetpoints => simp [Instr.guardedRequest] at h
  case setpointHold => simp [Instr.guardedRequest] at h
  case commission => exact guarded_answerCommission s
  case restartSiding =>
    unfold answerRestart; split
    · rfl
    · exact guarded_restart s

end Sys2Proof.Machine
end

