-- ==== Sys2Proof/Laws/Requests.lean ====
section
/-! SUPPORT. From an owner's answer to what the statements say of a request: answered, answered alone, or turned away. -/

namespace Sys2Proof.Machine

/-- A request that the part can take, executed as one event on the records as they stand. -/
theorem exec_writing (c : Instr) (s : State) (he : exec c s = .next (deliver c s)) (h : s.canTake (route c) = true)
    (hw : writingCode (code c) = true) :
    ∃ u, Reached s u (route c) ∧
      exec c s = .next (placeReply (route c)
        (closeEvent u (answer c (clearScratch u)).1, (answer c (clearScratch u)).2)) := by
  have hf : code c ≠ 34 ∨ route c ≠ .clocked := by
    left; intro e; rw [e] at hw; exact absurd hw (by decide)
  obtain ⟨u, hu, hd⟩ := deliver_taken c s h hf
  exact ⟨u, hu, by rw [he, hd, execute_writing c u hw]⟩

/-- A reading request that the part can take. -/
theorem exec_reading (c : Instr) (s : State) (he : exec c s = .next (deliver c s)) (h : s.canTake (route c) = true)
    (hf : code c ≠ 34 ∨ route c ≠ .clocked) (hw : writingCode (code c) = false) :
    ∃ u, Reached s u (route c) ∧ exec c s = .next (placeReply (route c) (answer c u)) := by
  obtain ⟨u, hu, hd⟩ := deliver_taken c s h hf
  exact ⟨u, hu, by rw [he, hd, execute_reading c u hw]⟩

/-- A state with the frame of `s` is `s` but for outputs, link characters, flags and scratch. -/
theorem of_frame {u s : State} (h : u.frame = s.frame) :
    ∃ fl il l ch sc, l.unit = s.link.unit ∧
      u = { s with flashes := fl, inlets := il, link := l, changes := ch, scratch := sc } := by
  refine ⟨u.flashes, u.inlets, u.link, u.changes, u.scratch, ?_, ?_⟩
  · exact congrArg Frame.unit h
  · obtain ⟨⟩ := u
    obtain ⟨⟩ := s
    simp only [State.frame, Frame.mk.injEq] at h
    obtain ⟨h1, h2, h3, h4, h5, h6, h7, h8, h9, h10, h11, h12, h13, h14, h15, h16, h17, h18, h19, h20⟩ := h
    subst_vars
    rfl

theorem placeReply_flashes (via : Via) (p : State × Reply) : (placeReply via p).flashes = p.1.flashes := by
  cases via <;> rfl
theorem placeReply_inlets (via : Via) (p : State × Reply) : (placeReply via p).inlets = p.1.inlets := by
  cases via <;> rfl
theorem placeReply_spot (via : Via) (p : State × Reply) (i : SpotNo) : (placeReply via p).spot i = p.1.spot i := by
  cases via <;> rfl

/-- An answer that leaves the records alone is the whole effect of a reading request. -/
theorem answersOnly_of (c : Instr) (s : State) (st : Status) (b : List Byte)
    (he : exec c s = .next (deliver c s)) (h : s.canTake (route c) = true)
    (hf : code c ≠ 34 ∨ route c ≠ .clocked) (hw : writingCode (code c) = false)
    (ha : ∀ u, Reached s u (route c) → answer c u = (u, { status := st, body := b })) :
    ∃ t, s.answersOnly c st b t := by
  obtain ⟨u, hu, hx⟩ := exec_reading c s he h hf hw
  rw [ha u hu] at hx
  refine ⟨_, ⟨hx, placeReply_replied _ _⟩, (placeReply_frame _ _).trans hu.frame, ?_, ?_, ?_⟩
  · rw [placeReply_changes]; rw [hu.records]
  · rw [placeReply_flashes]; rw [hu.records]
  · rw [placeReply_inlets]; rw [hu.records]

/-- The close of an event without effects changes nothing but what already differed from its rule. -/
theorem closeEvent_idle (u : State) : (closeEvent u (clearScratch u)).frame = u.frame := by
  rw [closeEvent_frame, closeEvent_cars_quiet u (clearScratch u) rfl rfl]; rfl

theorem ofFnLE_eq {n : Nat} (x : BitVec n) (f : Fin n → Bool) (h : ∀ v : Fin n, x.getLsbD v = f v) :
    BitVec.ofFnLE f = x := by
  apply BitVec.eq_of_getLsbD_eq; intro i hi
  rw [show (BitVec.ofFnLE f).getLsbD i = f ⟨i, hi⟩ from ofFnLE_bit f ⟨i, hi⟩, ← h ⟨i, hi⟩]

theorem closeEvent_idle_changes (u : State) (h : u.inletsFollow) :
    (closeEvent u (clearScratch u)).changes = u.changes := by
  have hi : (clearScratch u).refreshInlets = clearScratch u := by
    unfold State.refreshInlets
    rw [show BitVec.ofFnLE (fun v => (clearScratch u).inletFor v) = (clearScratch u).inlets from
      ofFnLE_eq _ _ h]
  unfold closeEvent
  rw [hi, eachLastEnd_none u (clearScratch u) rfl]
  have hb : bumpRevisions (clearScratch u) = clearScratch u := by unfold bumpRevisions; exact if_pos rfl
  rw [hb]
  show (raiseFlags u (followLamps u (clearScratch u))).changes = u.changes
  have e1 : ∀ i, u.spotView i = (followLamps u (clearScratch u)).spotView i := fun _ => rfl
  have e2 : ∀ v, u.vesselView v = (followLamps u (clearScratch u)).vesselView v := fun _ => rfl
  have e3 : ∀ c, u.compView c = (followLamps u (clearScratch u)).compView c := fun _ => rfl
  have e4 : u.sidingView = (followLamps u (clearScratch u)).sidingView := rfl
  have hz : ∀ n, (BitVec.ofFnLE fun _ : Fin n => false) = 0#n := by
    intro n; apply ofFnLE_eq; simp
  have hs : (followLamps u (clearScratch u)).scratch = .empty := rfl
  have h0 : ∀ {n : Nat} (x : BitVec n), x ||| 0 = x := by intros; simp
  simp only [raiseFlags, ← e1, ← e2, ← e3, ← e4, hs, Scratch.empty, ne_eq, not_true_eq_false, decide_false, hz, h0,
    BitVec.or_zero, Bool.or_false]
  rfl

/-- An answer that leaves the records alone is a request turned away. -/
theorem turnsAway_of (c : Instr) (s : State) (st : Status) (b : List Byte)
    (he : exec c s = .next (deliver c s)) (h : s.canTake (route c) = true)
    (hf : code c ≠ 34 ∨ route c ≠ .clocked)
    (ha : ∀ u, u.frame = s.frame → answer c u = (u, { status := st, body := b })) :
    ∃ t, s.turnsAway c st b t := by
  cases hw : writingCode (code c)
  · obtain ⟨t, h1, h2, h3, _⟩ := answersOnly_of c s st b he h hf hw fun u hu => ha u hu.frame
    exact ⟨t, h1, h2, fun _ => h3⟩
  · obtain ⟨u, hu, hx⟩ := exec_writing c s he h hw
    rw [ha (clearScratch u) hu.frame] at hx
    refine ⟨_, ⟨hx, placeReply_replied _ _⟩, ?_, fun hi => ?_⟩
    · rw [placeReply_frame]; exact (closeEvent_idle u).trans hu.frame
    · rw [placeReply_changes]
      refine (closeEvent_idle_changes u ?_).trans ?_
      · rw [hu.records]; exact hi
      · rw [hu.records]

end Sys2Proof.Machine
end

