-- ==== Sys2Proof/Tests/Slice0.lean ====
section
/-! SUPPORT. The model's own tests: an ill-formed command for each check of WellFormed, and for each statement one state and one
command that meet its hypotheses, clause by clause, with what the command does there. -/

namespace Sys2Proof.Tests

open Sys2Proof Sys2Proof.Machine

set_option maxRecDepth 20000
set_option Elab.async false

/-! ## States to test on -/

/-- What a command answers; every command answers a next state. -/
def after (c : Instr) (s : State) : State :=
  match exec c s with
  | .next t => t
  | _ => s

/-- The status and body in the reply buffer. -/
def reply (t : State) : Option (Status × List Byte) := t.link.buffer.map fun b => (b.reply.status, b.reply.body)

/-- A supervised valve that rests or moves as an owner has commanded it. -/
def valveAt (st : ValveState) : Valve :=
  { command := match st with
      | .opened | .movingOpen => .toOpen
      | .shut | .movingShut | .fault => .toShut
    supervised := true, state := some st
    timer := match st with
      | .movingOpen | .movingShut => .running 300
      | .shut | .opened | .fault => .stopped
    retest := false, openLimit := { active := st = .opened, count := 0 }, shutLimit := { active := st = .shut, count := 0 } }

def restSpot : Spot :=
  { Spot.reset with shutoff := valveAt .shut, liquid := valveAt .shut, vapour := valveAt .shut, vent := valveAt .shut }

def restComp : Comp := { Comp.reset with push := valveAt .shut, draw := valveAt .shut, pushMark := some 9000, drawMark := some 9000 }

def site6 : Site :=
  { spots := 6, vessels := 4, compressors := 2, seats := 2, overAllowance := 500, startTime := 20, runOnTime := 30
    proofTime := 10, bleedTime := 20, provingTime := 30 }

def spots8 : SpotsSection :=
  { divisors := #v[1, 1, 1, 2, 1, 1, 1, 1], strokes := { shutoff := 10, liquid := 6, vapour := 6, vent := 6, direction := 8 } }

def vessels6 : VesselsSection := { data := Vector.replicate 6 { grade := .propane, capacity := 4000 } }

def protection15 : Protection := { Protection.beforeWrite with deadTime := 15, autoRearm := true, rearmCount := 3 }

/-- An OPERATING siding at rest: six spots, four vessels and two compressors fitted, every valve SHUT, the clocked form. -/
def plant : State :=
  { State.reset with
    profile := { site := some site6, spots := some spots8, vessels := some vessels6, protection := some protection15 }
    siding := .operating, fe := true, esdHigh := true, link := { Link.reset with form := .clocked }
    spots := Vector.replicate 8 restSpot, comps := Vector.replicate 2 restComp
    vessels := Vector.replicate 6 { Vessel.reset with gaugedFree := 1000 } }

/-- A car at spot 3, in slot 2 with issue 5. -/
def carThree : Car :=
  { mark := [65, 66], grade := .propane, load := 45000, phase := .placed, spot := some 3, hoses := true, delivered := 100
    recovered := false, lastEnd := none, revision := 7 }

def withCar (phase : Phase) (s : State) : State :=
  (s.modSlot 2 fun _ => { issue := 5, car := some { carThree with phase } }).modSpot 3 fun sp =>
    { sp with car := some { slot := 2, issue := 5 }, bond := { active := true, count := 0 } }

/-- The car at spot 3, SPOTTED and ready to open. -/
def spotted : State := (withCar .placed plant).modSpot 3 fun sp => { sp with state := .spotted }

/-- Spot 3 in PROVING, its shutoff valve on its way. -/
def proving : State :=
  (withCar .placed plant).modSpot 3 fun sp =>
    { sp with state := .proving, step := some .shutoffOpening, shutoff := valveAt .movingOpen }

/-- Spot 3 CONNECTED. -/
def connected : State := (withCar .unloading plant).modSpot 3 fun sp => { sp with state := .connected, shutoff := valveAt .opened }

def liquidOrder (tag : Word16) (st : OrderState) : Order :=
  { tag, liquid := some { target := 40, vessel := 2, delivered := 10 }, closeAfter := false, state := st, reason := none }

/-- Spot 3 in TRANSFER on compressor 0 with two orders into vessel 2. -/
def transfer : State :=
  (({ connected with inlets := 4 }.modSpot 3 fun sp =>
    { sp with
      state := .transfer, orders := [liquidOrder 21 .running, liquidOrder 22 .queued], seat := some 0
      liquid := valveAt .opened, vapour := valveAt .opened, stall := .running 4000, window := .running 500, windowCount := 3 })
    |>.modComp 0 fun k => { k with state := .running, dir := some .push, seated := [3], startOn := true
                                   push := valveAt .opened, pushMark := none, run := { active := true, count := 0 } })
    |>.modVessel 2 fun r => { r with entries := [{ spot := 3, tag := 21, remainder := 30 }, { spot := 3, tag := 22, remainder := 30 }] }

/-- Spot 3 in RECOVERY on compressor 0. -/
def recovery : State :=
  (connected.modSpot 3 fun sp =>
    { sp with
      state := .recovery, seat := some 0, vapour := valveAt .opened, recoveryTimer := .running 4000
      orders := [{ tag := 31, liquid := none, closeAfter := false, state := .running, reason := none }] })
    |>.modComp 0 fun k => { k with state := .running, dir := some .draw, seated := [3], startOn := true
                                   draw := valveAt .opened, drawMark := none, run := { active := true, count := 0 } }

/-- Spot 3 HELD by the crew over a SUSPENDED head, its shutoff valve SHUT. -/
def held : State :=
  (withCar .unloading plant).modSpot 3 fun sp =>
    { sp with state := .held, orders := [liquidOrder 21 .suspended], holds := { HoldSet.empty with crewStop := true } }

/-- Spot 3 HELD with no reason left and no order. -/
def heldEmpty : State := held.modSpot 3 fun sp => { sp with orders := [], holds := .empty }

/-- Spot 3 in ISOLATING at its bleed. -/
def bleeding : State :=
  (withCar .unloading plant).modSpot 3 fun sp =>
    { sp with state := .isolating, step := some .bleeding, timer := .running 900, vent := valveAt .opened }

/-- The timer run out, where it runs. -/
def ranOut : Timer → Timer
  | .running _ => .running 0
  | .stopped => .stopped
def ranOutValve (v : Valve) : Valve := { v with timer := ranOut v.timer }

/-- Every timer of spot 3 and of the compressors run out. -/
def ripe (s : State) : State :=
  { s.modSpot 3 fun sp => { sp with
      timer := ranOut sp.timer, recoveryTimer := ranOut sp.recoveryTimer, stall := ranOut sp.stall, window := ranOut sp.window
      shutoff := ranOutValve sp.shutoff, liquid := ranOutValve sp.liquid, vapour := ranOutValve sp.vapour
      vent := ranOutValve sp.vent } with
    comps := s.comps.map fun k => { k with
      startTimer := ranOut k.startTimer, runTimer := ranOut k.runTimer, push := ranOutValve k.push, draw := ranOutValve k.draw } }

/-- Spot 3 under stroke test. -/
def stroking : State :=
  plant.modSpot 3 fun sp => { sp with state := .stroking, step := some (.stroking .vent false), vent := valveAt .movingOpen }

/-! ## WellFormed -/

def longMark : List Byte := List.replicate 256 65

theorem test_wellFormed_announce : WellFormed (.announce .clocked longMark 0 1) = false := by decide +kernel
theorem test_wellFormed_amend : WellFormed (.amend .clocked 0 0 0 (some longMark) none none none) = false := by
  decide +kernel
theorem test_wellFormed_find : WellFormed (.find .clocked longMark) = false := by decide +kernel
theorem test_wellFormed_writeProfile :
    WellFormed (.writeProfile .clocked 3 (List.replicate 15 0)) = false ∧
      WellFormed (.writeProfile .clocked 4 [0]) = false ∧ WellFormed (.writeProfile .clocked 4 []) = true := by
  decide +kernel
theorem test_wellFormed_unknownRequest :
    WellFormed (.unknownRequest .clocked 34) = false ∧ WellFormed (.unknownRequest .clocked 35) = true := by
  decide +kernel
theorem test_wellFormed_requestForAnotherUnit :
    WellFormed (.requestForAnotherUnit 15 1) = false ∧ WellFormed (.requestForAnotherUnit 15 3) = true := by
  decide +kernel
theorem test_wellFormed_inputSample :
    WellFormed (.inputSample [] [.bond 1, .hose 1, .bond 1]) = false := by decide +kernel

/-! ## Steps -/

theorem test_step_front : step { plant with pending := [.beat, .autoRearm] } = exec .beat { plant with pending := [.autoRearm] } :=
  rfl
theorem test_step_idle :
    let s := { transfer with flashes := transfer.flashes.set 3 { lit := true, phase := .running 7 } }
    s.pending = [] ∧ step s = .next (tick s) ∧ (tick s).flash 3 = { lit := true, phase := .running 6 } ∧
      ((tick s).spot 3).stall = .running 3999 ∧ ((tick s).comp 1).pushMark = some 9001 :=
  ⟨rfl, rfl, by decide +kernel⟩

/-! ## The invariants hold on states at work -/

theorem test_invariants_meet :
    transfer.enableSafe ∧ transfer.rearmLegal ∧ transfer.lockLegal ∧ transfer.configAgrees ∧ transfer.esdActive = false := by
  unfold State.enableSafe State.rearmLegal State.lockLegal State.configAgrees; decide +kernel
theorem test_inlets_meet : (after (.readSiding .clocked) plant).inletsFollow ∧ transfer.inletsFollow := by
  unfold State.inletsFollow; decide +kernel
theorem test_marks_meet : transfer.marksUnique := by
  have h : ∀ k, k ≠ 2 → transfer.car k = none := by decide +kernel
  intro j k c d hj hk _
  by_cases ej : j = 2
  · by_cases ek : k = 2
    · rw [ej, ek]
    · rw [h k ek] at hk; cases hk
  · rw [h j ej] at hj; cases hj
theorem test_queues_meet : ∀ i, (transfer.spot i).queueLegal := by
  intro i
  by_cases h : i = 3
  · subst h; exact ⟨by decide +kernel, by decide +kernel, by decide +kernel, fun e => by cases e⟩
  · have : (transfer.spot i).orders = [] ∧ (transfer.spot i).state = .vacant := by revert i; decide +kernel
    unfold Spot.queueLegal; rw [this.1, this.2]; simp
theorem test_holds_meet : ∀ i, (transfer.spot i).holdsLegal ∧ (held.spot i).holdsLegal := by
  unfold Spot.holdsLegal; decide +kernel
theorem test_steady_meets : ∀ i, (transfer.spot i).steady ∧ transfer.unfittedQuiet i := by
  unfold Spot.steady State.unfittedQuiet; decide +kernel
theorem test_tail_queued : ∀ o ∈ (transfer.spot 3).orders.tail, o.state = .queued := by decide +kernel
theorem test_bindings_meet : transfer.bindingsAgree := by
  have h : ∀ k, k ≠ 2 → transfer.car k = none := by decide +kernel
  have h2 : transfer.car 2 = some { carThree with phase := .unloading } := by decide +kernel
  have hs : ∀ i, i ≠ 3 → (transfer.spot i).car = none := by decide +kernel
  have h3 : (transfer.spot 3).car = some { slot := 2, issue := 5 } := by decide +kernel
  constructor
  · intro i hd hi
    by_cases e : i = 3
    · subst e; rw [h3] at hi; cases hi; exact ⟨by decide +kernel, _, h2, rfl⟩
    · rw [hs i e] at hi; cases hi
  · intro k c hk
    by_cases e : k = 2
    · subst e; rw [h2] at hk; cases hk
      refine ⟨fun x => absurd x (by decide), fun i hi => ?_⟩
      have : i = 3 := by simpa [carThree] using hi.symm
      subst this; rw [h3]; decide +kernel
    · rw [h k e] at hk; cases hk

/-! ## Cars -/

theorem test_readCar :
    plant.canTake .clocked = true ∧ 24 ≤ (24 : Byte).toNat ∧ reply (after (.readCar .clocked 24 0) spotted) = some (.range, []) ∧
      spotted.car 23 = none ∧ reply (after (.readCar .clocked 23 0) spotted) = some (.noRecord, []) ∧
      reply (after (.readCar .clocked 2 4) spotted) = some (.noRecord, []) ∧
      reply (after (.readCar .clocked 2 5) spotted)
        = some (.done, [2, 5, 2, 65, 66, 0, 0, 0, 175, 200, 1, 1, 3, 1, 0, 0, 0, 100, 0, 0, 0, 7, 1, 1, 0]) := by
  decide +kernel
theorem test_find_and_list :
    markOk [65] = false ∧ reply (after (.find .clocked [65]) spotted) = some (.range, []) ∧
      markOk [65, 67] = true ∧ reply (after (.find .clocked [65, 67]) spotted) = some (.noRecord, []) ∧
      markOk carThree.mark = true ∧
      reply (after (.find .clocked [65, 66]) spotted) = reply (after (.readCar .clocked 2 5) spotted) ∧
      reply (after (.listCars .clocked) spotted) = some (.done, [1, 2, 5]) ∧
      (after (.listCars .clocked) spotted).frame = spotted.frame := by
  decide +kernel
theorem test_announce :
    reply (after (.announce .clocked [65, 65] 3 1) spotted) = some (.range, []) ∧
      reply (after (.announce .clocked [65, 65] 2 0) spotted) = some (.range, []) ∧
      reply (after (.announce .clocked [65, 65] 2 200001) spotted) = some (.range, []) ∧
      reply (after (.announce .clocked [48, 65] 2 1) spotted) = some (.range, []) ∧
      reply (after (.announce .clocked [65, 66] 2 200000) spotted) = some (.duplicate, []) ∧
      reply (after (.announce .clocked [65, 67] 2 200000) spotted) = some (.done, [0, 0, 0, 0]) ∧
      (after (.announce .clocked [65, 67] 2 200000) spotted).changes.cars = 1 ∧
      ((after (.announce .clocked [65, 67] 2 1) spotted).car 0).map (·.load) = some 1 := by
  decide +kernel
theorem test_announce_full :
    let s := { plant with cars := Vector.replicate 24 { issue := 0, car := some carThree } }
    (∀ k, s.car k ≠ none) ∧ reply (after (.announce .clocked [65, 67] 0 1) s) = some (.full, []) ∧
      reply (after (.announce .clocked [65, 66] 0 1) s) = some (.duplicate, []) := by
  decide +kernel
theorem test_amend :
    spotted.resolve 24 0 = .error .range ∧ reply (after (.amend .clocked 24 0 0 none none none none) spotted) = some (.range, []) ∧
      spotted.resolve 2 5 = .ok (2, carThree) ∧
      reply (after (.amend .clocked 2 5 6 none none none none) spotted) = some (.stale, [0, 7]) ∧
      reply (after (.amend .clocked 2 5 7 none (some 3) none none) spotted) = some (.range, [0, 7]) ∧
      reply (after (.amend .clocked 2 5 7 (some [65, 67]) none none none) spotted) = some (.phase, [0, 7]) ∧
      reply (after (.amend .clocked 2 5 7 none none (some 99) none) spotted) = some (.allowance, [0, 7]) ∧
      reply (after (.amend .clocked 2 5 7 none none none none) spotted) = some (.done, [0, 0, 0, 0, 0, 7]) ∧
      reply (after (.amend .clocked 2 5 7 none (some 1) (some 100) (some 0)) spotted)
        = some (.done, [0, 1, 0, 1, 0, 0, 175, 200, 1, 1, 0, 8]) ∧
      (after (.amend .clocked 2 5 7 none (some 1) (some 100) (some 0)) spotted).frame = { spotted.frame with
        cars := spotted.cars.set 2
          { issue := 5, car := some { carThree with grade := .butane, load := 100, hoses := false, revision := 8 } } } := by
  decide +kernel
theorem test_amend_state_and_duplicate :
    let s := proving
    let u := plant.modSlot 0 fun _ => { issue := 0, car := some { carThree with mark := [65, 67], phase := .announced, spot := none } }
    let v := u.modSlot 1 fun _ => { issue := 0, car := some { carThree with phase := .announced, spot := none } }
    reply (after (.amend .clocked 2 5 7 none none none (some 0)) s) = some (.state, [0, 7]) ∧
      reply (after (.amend .clocked 0 0 7 (some [65, 66]) none none none) v) = some (.duplicate, [0, 7]) := by
  decide +kernel
theorem test_release :
    let s := plant.modSlot 2 fun _ => { issue := 255, car := some { carThree with phase := .served, spot := none } }
    spotted.resolve 3 0 = .error .noRecord ∧ reply (after (.release .clocked 3 0 7) spotted) = some (.noRecord, []) ∧
      reply (after (.release .clocked 2 5 8) spotted) = some (.stale, [0, 7]) ∧
      reply (after (.release .clocked 2 5 7) spotted) = some (.phase, [0, 7]) ∧
      s.resolve 2 255 = .ok (2, { carThree with phase := .served, spot := none }) ∧
      reply (after (.release .clocked 2 255 7) s) = some (.done, [2, 65, 66, 0, 0, 0, 100, 0, 0]) ∧
      (after (.release .clocked 2 255 7) s).carSlot 2 = { issue := 0, car := none } ∧
      (after (.release .clocked 2 255 7) s).changes.cars = 4 := by
  decide +kernel
theorem test_spot :
    let s := plant.modSlot 2 fun _ => { issue := 5, car := some { carThree with phase := .announced, spot := none, hoses := false } }
    let u := plant.modSlot 2 fun _ => { issue := 5, car := some { carThree with phase := .unloading, spot := none } }
    s.resolve 2 5 = .ok (2, { carThree with phase := .announced, spot := none, hoses := false }) ∧ s.namedSpot 5 = .ok 5 ∧
      s.namedSpot 6 = .error .range ∧ reply (after (.spot .clocked 2 5 6) s) = some (.range, []) ∧
      reply (after (.spot .clocked 2 6 6) s) = some (.noRecord, []) ∧
      reply (after (.spot .clocked 2 5 3) spotted) = some (.occupied, []) ∧
      reply (after (.spot .clocked 2 5 5) (s.modSpot 5 fun sp => { sp with state := .faulted })) = some (.state, []) ∧
      reply (after (.spot .clocked 2 5 5) u) = some (.phase, []) ∧
      reply (after (.spot .clocked 2 5 5) s) = some (.done, [0, 8]) ∧
      (after (.spot .clocked 2 5 5) s).frame = { s.frame with
        cars := s.cars.set 2 { issue := 5, car := some { carThree with spot := some 5, hoses := false, revision := 8 } }
        spots := s.spots.set 5 { restSpot with state := .spotted, car := some { slot := 2, issue := 5 } } } ∧
      (after (.spot .clocked 2 5 5) s).changes.spots = 32 ∧ (after (.spot .clocked 2 5 5) s).changes.cars = 4 := by
  decide +kernel
theorem test_unspot :
    let s := spotted.modSpot 3 fun sp => { sp with state := .faulted }
    reply (after (.unspot .clocked 3) proving) = some (.state, []) ∧
      (after (.unspot .clocked 3) spotted).frame = { spotted.frame with
        cars := spotted.cars.set 2
          { issue := 5, car := some { carThree with phase := .announced, spot := none, hoses := false, revision := 8 } }
        spots := spotted.spots.set 3 { spotted.spot 3 with car := none, state := .vacant } } ∧
      reply (after (.unspot .clocked 3) spotted) = some (.done, []) ∧
      ((after (.unspot .clocked 3) s).spot 3).state = .faulted ∧ ((after (.unspot .clocked 3) s).spot 3).car = none := by
  decide +kernel

/-! ## The link -/

def async : State := { plant with link := { Link.reset with form := .asynchronous, unit := 3 } }
def unlocked : State := { plant with link := { Link.reset with unit := 3 } }

theorem test_head_locks :
    unlocked.link.form = .unlocked ∧ unlocked.link.incoming = none ∧ unlocked.link.fetching = none ∧
      knownCode 3 = true ∧ (parse .clocked 3 []).isNone = true ∧
      (after (.headCharacterReceived .receive 3) unlocked).link.form = .asynchronous ∧
      (after (.headCharacterReceived .clocked 3) unlocked).link.incoming
        = some { code := 3, addressing := .own, chars := [] } ∧
      (after (.headCharacterReceived .clocked 3) unlocked).changes.siding = true := by
  decide +kernel
theorem test_head_discards :
    let s := after (.headCharacterReceived .receive 3) async
    let u := after (.surplusCharacter .receive 3) s
    s.link.incoming = some { code := 3, addressing := .awaited, chars := [] } ∧
      u.link.incoming = some { code := 3, addressing := .own, chars := [] } ∧
      (after (.headCharacterReceived .receive 4) s).link.discarded = false ∧
      (after (.headCharacterReceived .receive 4) u).link.discarded = true ∧
      after (.headCharacterReceived .clocked 4) u = u ∧ after (.headCharacterReceived .receive 4) plant = plant := by
  decide +kernel
theorem test_discards :
    let s := after (.headCharacterReceived .clocked 3) plant
    let u := after (.surplusCharacter .receive 3) (after (.headCharacterReceived .receive 3) async)
    let f := after (.fetch .clocked) plant
    s.link.incoming = some { code := 3, addressing := .own, chars := [] } ∧ s.link.fetching = none ∧
      (after .selectDeasserted s).link = { s.link with incoming := none, discarded := true } ∧
      (f.link.fetching.map (·.sent)) = some 0 ∧ (after .selectDeasserted f).link.discarded = true ∧
      (after .receiveGapExpiry u).link.discarded = true ∧ (after .framingFailure u).link.incoming = none ∧
      after .framingFailure async = async ∧ after .receiveGapExpiry async = async ∧ after .selectDeasserted async = async := by
  decide +kernel
theorem test_surplus :
    let s := after (.readSiding .clocked) plant
    let a := after (.readSiding (.async 3)) async
    let f := after .flagsCharacterSent a
    s.link.incoming = none ∧ s.link.fetching = none ∧ s.link.answered = true ∧ s.link.buffer.isSome = true ∧
      (after (.surplusCharacter .clocked 9) s).link.buffer.map (·.surplus) = some true ∧
      a.link.answered = true ∧ a.link.sending.map (·.flags) = some none ∧
      (after (.surplusCharacter .receive 9) a).link.sending.map (·.surplus) = some true ∧
      f.link.sending.map (·.flags) = some (some 0) ∧ (after (.surplusCharacter .receive 9) f).link.lateSurplus = true ∧
      plant.link.answered = false ∧ after (.surplusCharacter .clocked 9) plant = plant := by
  decide +kernel
theorem test_flags_and_end :
    let a := after (.surplusCharacter .receive 9) (after (.readSiding (.async 3)) { async with changes := { Changes.none with spots := 1 } })
    let b := { a with link := { a.link with discarded := true } }
    b.link.sending.map (·.flags) = some none ∧ (after .flagsCharacterSent b).link.sending.bind (·.flags) = some 7 ∧
      (after .flagsCharacterSent b).link.discarded = false ∧
      (after .replyTransmissionEnd (after .flagsCharacterSent b)).link.sending = none := by
  decide +kernel
theorem test_fetch :
    let s := after (.readSiding .clocked) plant
    s.link.buffer.isSome = true ∧ (after (.fetch .clocked) s).link.fetching.map (·.reply) = s.link.buffer.map (·.reply) ∧
      (after (.fetch .clocked) s).link.buffer = none ∧
      (after (.fetch .clocked) plant).link.fetching.map (·.reply.status) = some .nothing ∧
      async.canTake (.async 3) = true ∧ (after (.fetch (.async 3)) async).link.sending.map (·.reply.status) = some .nothing := by
  decide +kernel
theorem test_unknown_and_foreign :
    knownCode 35 = false ∧ knownCode 0 = false ∧ reply (after (.unknownRequest .clocked 35) plant) = some (.unknown, []) ∧
      (after (.requestForAnotherUnit 4 1) async) = async ∧ writingCode 3 = false ∧
      after (.requestForAnotherUnit 15 3) async = async := by
  decide +kernel
theorem test_broadcast_and_busy :
    let b := after (.readSiding (.async 3)) async
    async.link.form ≠ .clocked ∧ async.link.sending = none ∧ writingCode (code (.setLock (.async 15) 2)) = true ∧
      (after (.setLock (.async 15) 2) async).lock = 2 ∧ (after (.setLock (.async 15) 2) async).link.sending = none ∧
      b.link.sending.isSome = true ∧ (after (.setLock (.async 3) 2) b).lock = 0 ∧
      (after (.setLock (.async 3) 2) b).link.discarded = true ∧ (after (.setLock (.async 15) 2) b).link.discarded = true := by
  decide +kernel
theorem test_request_characters :
    let c : Instr := .amend .clocked 2 5 7 (some [65, 67]) none (some 45000) (some 1)
    WellFormed c = true ∧ knownCode (code c) = true ∧
      body c = [2, 5, 0, 7, 1, 2, 65, 67, 0, 1, 0, 0, 175, 200, 1, 1] ∧ parse (route c) (code c) (body c ++ [9]) = some (c, [9]) ∧
      (body c).foldl (fun u ch => receiveBody .clocked ch u) (receiveHead .clocked (code c) plant) = deliver c plant := by
  decide +kernel

/-! ## Numbers and reads -/

theorem test_numbers :
    let u := { plant with siding := .unconfigured }
    plant.siding ≠ .unconfigured ∧ plant.fittedSpot 5 = true ∧ plant.fittedSpot 6 = false ∧ plant.fittedVessel 4 = false ∧
      reply (after (.openSpot .clocked 6) plant) = some (.range, []) ∧ reply (after (.openSpot .clocked 8) plant) = some (.range, []) ∧
      reply (after (.readSpot .clocked 0) u) = some (.notConfigured, []) ∧
      reply (after (.gauge .clocked 4 0 0) plant) = some (.range, []) ∧
      reply (after (.setVesselService .clocked 3 0) u) = some (.notConfigured, []) ∧
      reply (after (.clearCompressor .clocked 2) plant) = some (.range, []) ∧
      reply (after (.readCompressor .clocked 1) u) = some (.notConfigured, []) := by
  decide +kernel
theorem test_reads :
    plant.namedSpot 5 = .ok 5 ∧ plant.namedVessel 3 = .ok 3 ∧ plant.namedComp 1 = .ok 1 ∧
      reply (after (.readSpot .clocked 3) transfer)
        = some (.done, [3, 5, 0, 0, 1, 2, 5, 0, 1, 0, 0, 0, 0, 0, 0, 1, 2, 2, 2, 0, 2, 0, 21, 0, 2, 0, 0, 0, 0, 40, 2, 0, 0, 0, 10, 1,
            0, 0, 0, 30, 0, 0, 22, 0, 0, 0, 0, 0, 0, 40, 2, 0, 0, 0, 10, 1, 0, 0, 0, 30, 0]) ∧
      reply (after (.readVessel .clocked 2) transfer)
        = some (.done, [2, 0, 0, 0, 15, 160, 0, 0, 0, 0, 3, 232, 0, 0, 0, 0, 0, 0, 0, 0, 0, 0, 3, 232, 0, 0, 0, 60, 0, 0, 3, 172, 1, 2,
            3, 0, 21, 0, 0, 0, 30, 3, 0, 22, 0, 0, 0, 30]) ∧
      reply (after (.readCompressor .clocked 0) transfer) = some (.done, [0, 2, 0, 1, 0, 2, 1, 3, 0, 0, 1, 1, 2, 0, 0]) := by
  decide +kernel
theorem test_readProfile :
    reply (after (.readProfile .clocked 4) plant) = some (.range, []) ∧
      reply (after (.readProfile .clocked 0) plant) = some (.done, [0, 6, 4, 2, 2, 1, 244, 20, 0, 30, 10, 0, 20, 0, 30]) ∧
      reply (after (.readProfile .clocked 3) plant)
        = some (.done, [3, 0, 1, 3, 15, 16, 16, 16, 16, 16, 16, 16, 0, 0, 0, 0, 0]) ∧
      reply (after (.readProfile .clocked 2) { State.reset with link := plant.link }) = some (.done, 2 :: List.replicate 30 0) := by
  decide +kernel
theorem test_readSiding_and_changes :
    unlocked.canTake (.async 3) = true ∧
      (after (.readSiding (.async 3)) unlocked).link.sending.map (·.reply.body) = some [3, 1, 1, 0, 0, 1, 3, 0, 0, 0, 3] ∧
      (after (.takeChanges (.async 3)) unlocked).link.sending.map (·.reply.body) = some [0, 0, 0, 0, 0, 0, 1] ∧
      (after (.takeChanges (.async 3)) unlocked).changes = .none := by
  decide +kernel

/-! ## Spots -/

theorem test_open :
    let bad (s : State) : Option (Status × List Byte) := reply (after (.openSpot .clocked 3) s)
    spotted.siding = .operating ∧ spotted.fe = true ∧ (spotted.spot 3).car = some { slot := 2, issue := 5 } ∧
      bad { spotted with siding := .configured } = some (.notOperating, []) ∧ bad { spotted with fe := false } = some (.fieldOff, []) ∧
      bad proving = some (.state, []) ∧
      bad (spotted.modSlot 2 fun _ => { issue := 5, car := some { carThree with hoses := false } }) = some (.noHoses, []) ∧
      bad (spotted.modSpot 3 fun sp => { sp with bond := { active := false, count := 0 } }) = some (.noBond, []) ∧
      bad (spotted.modSpot 3 fun sp => { sp with hose := { active := true, count := 0 } }) = some (.hosePressure, []) ∧
      bad spotted = some (.done, []) ∧ (after (.openSpot .clocked 3) spotted).changes.spots = 8 ∧
      (after (.openSpot .clocked 3) spotted).frame = { spotted.frame with
        spots := spotted.spots.set 3 { spotted.spot 3 with
          state := .proving, step := some .shutoffOpening
          shutoff := { (spotted.spot 3).shutoff with command := .toOpen, state := some .movingOpen, timer := .running 1000 } } } := by
  decide +kernel
theorem test_open_queue : (spotted.spot 3).queueLegal := by
  have h : (spotted.spot 3).orders = [] ∧ (spotted.spot 3).state = .spotted := by decide +kernel
  unfold Spot.queueLegal; rw [h.1, h.2]; simp
theorem test_isolate :
    let t := after (.isolate .clocked 3) transfer
    (spotted.spot 3).state.isolable = false ∧ reply (after (.isolate .clocked 3) spotted) = some (.state, []) ∧
      (transfer.spot 3).state.isolable = true ∧ reply t = some (.done, []) ∧ (t.spot 3).state = .isolating ∧
      (t.spot 3).standing = false ∧ (t.spot 3).seat = none ∧ (t.spot 3).step = some .linesClosing ∧
      (t.spot 3).orders.map (fun o => (o.tag, o.state, o.reason)) = [(21, .draining, some .stopped)] ∧
      (t.spot 3).vent.command = .toShut ∧ (t.spot 3).fault = none ∧ t.haltLamp 3 = true ∧
      (t.vessel 2).entries.map (·.tag) = [21] ∧ (t.comp 0).state = .runOn ∧
      ((t.car 2).bind (·.lastEnd)).map (·.tag) = some 22 ∧ (t.car 2).map (·.revision) = some 8 := by
  decide +kernel
theorem test_isolate_waits : transfer.waitsNowhereBut 3 := by unfold State.waitsNowhereBut Spot.waits; decide +kernel
theorem test_isolateAll :
    let t := after (.isolateAll .clocked) transfer
    reply (after (.isolateAll .clocked) { plant with siding := .unconfigured }) = some (.notConfigured, []) ∧
      reply t = some (.done, [1, 3]) ∧ (t.spot 3).state = .isolating ∧ t.spot 5 = transfer.spot 5 ∧
      reply (after (.isolateAll .clocked) plant) = some (.done, [0]) := by
  decide +kernel
theorem test_clearHold :
    let t := after (.clearHold .clocked 3 0) held
    reply (after (.clearHold .clocked 6 0) held) = some (.range, []) ∧ reply (after (.clearHold .clocked 3 4) held) = some (.range, []) ∧
      reply (after (.clearHold .clocked 3 3) spotted) = some (.state, []) ∧
      reply (after (.clearHold .clocked 3 1) held) = some (.state, []) ∧ reply (after (.clearHold .clocked 3 2) held) = some (.state, []) ∧
      reply t = some (.done, [0]) ∧ t.frame = { held.frame with spots := held.spots.set 3 { held.spot 3 with holds := .empty } } ∧
      t.changes.spots = 8 ∧ reply (after (.clearHold .clocked 3 3) held) = some (.done, [1]) ∧
      (after (.clearHold .clocked 3 3) held).changes = held.changes ∧
      reply (after (.clearHold .clocked 3 0) { held with siding := .unconfigured }) = some (.notConfigured, []) := by
  decide +kernel
theorem test_resume_refused :
    reply (after (.resume .clocked 3) spotted) = some (.state, []) ∧ reply (after (.resume .clocked 3) held) = some (.holdsRemain, [1]) ∧
      (let s := held.modSpot 3 fun sp => { sp with holds := .empty, orders := [liquidOrder 21 .draining], liquid := valveAt .movingShut }
       (s.spot 3).headIs .draining = true ∧ reply (after (.resume .clocked 3) s) = some (.state, [])) := by
  decide +kernel
theorem test_resume :
    let s := held.modSpot 3 fun sp => { sp with holds := .empty }
    let u := s.modSpot 3 fun sp => { sp with shutoff := valveAt .opened }
    reply (after (.resume .clocked 3) heldEmpty) = some (.done, [3]) ∧
      ((after (.resume .clocked 3) heldEmpty).spot 3).shutoff.command = .toOpen ∧
      (s.spot 3).headIs .suspended = true ∧ reply (after (.resume .clocked 3) s) = some (.done, [4]) ∧
      ((after (.resume .clocked 3) s).spot 3).shutoff.state = some .movingOpen ∧
      ((after (.resume .clocked 3) s).spot 3).headIs .suspended = true ∧
      (u.spot 3).shutoff.isOpen = true ∧ ((after (.resume .clocked 3) u).spot 3).headIs .waiting = true ∧
      ((after (.resume .clocked 3) u).spot 3).seat = some 0 := by
  decide +kernel
theorem test_strokeSpot :
    let bad (s : State) : Option (Status × List Byte) := reply (after (.strokeSpot .clocked 3) s)
    let t := after (.strokeSpot .clocked 3) spotted
    let f := plant.modSpot 3 fun sp => { sp with
      state := .faulted, vent := { valveAt .fault with shutLimit := { active := true, count := 0 } } }
    bad { plant with siding := .configured } = some (.notOperating, []) ∧ bad { plant with fe := false } = some (.fieldOff, []) ∧
      bad proving = some (.state, []) ∧
      bad (plant.modSpot 3 fun sp => { sp with hose := { active := true, count := 0 } }) = some (.hosePressure, []) ∧
      bad (spotted.modSpot 3 fun sp => { sp with state := .faulted, shutoff := valveAt .fault }) = some (.occupied, []) ∧
      t.frame = { spotted.frame with spots := spotted.spots.set 3 (t.spot 3) } ∧
      (t.spot 3) = { spotted.spot 3 with
        state := .stroking, step := some (.stroking .vent false)
        vent := { valveAt .shut with command := .toOpen, state := some .movingOpen, timer := .running 600 } } ∧
      bad f = some (.done, []) ∧ ((after (.strokeSpot .clocked 3) f).spot 3).vent.retest = true ∧
      ((after (.strokeSpot .clocked 3) f).spot 3).vent.state = some .movingOpen := by
  decide +kernel

/-! ## Reservations and orders -/

/-- A state whose spots have no orders and stand where none is needed has legal queues. -/
theorem legal_of_quiet {sp : Spot} (h : sp.orders = [])
    (hs : sp.state ≠ .staged ∧ sp.state ≠ .transfer ∧ sp.state ≠ .recovery) : sp.queueLegal := by
  unfold Spot.queueLegal; rw [h]; obtain ⟨h1, h2, h3⟩ := hs
  cases e : sp.state <;> simp_all

theorem test_placeOrder_behind :
    let c : Instr := .placeOrder .clocked 3 23 0 (some 100) (some 2) 1
    transfer.siding = .operating ∧ (transfer.spot 3).state.takesOrders = true ∧ (transfer.spot 3).orders.length < 4 ∧
      (transfer.spot 3).hasTag 23 = false ∧
      orderRequestOf 23 0 (some 100) (some 2) 1
        = some { tag := 23, liquid := some { target := 100, vessel := .named 2 }, closeAfter := true } ∧
      transfer.boundCar 3 = some { carThree with phase := .unloading } ∧
      transfer.judgeLiquid { carThree with phase := .unloading } { target := 100, vessel := .named 2 } = .ok 2 ∧
      (transfer.spot 3).orders ≠ [] ∧ transfer.due = none ∧ (transfer.vessel 2).remainder 3 23 = none ∧
      reply (after c transfer) = some (.done, [0, 3, 1, 2, 1, 0, 0, 0, 100]) ∧
      (after c transfer).frame = { transfer.frame with
        spots := transfer.spots.set 3 { transfer.spot 3 with
          orders := (transfer.spot 3).orders
            ++ [{ tag := 23, liquid := some { target := 100, vessel := 2, delivered := 0 }, closeAfter := true
                  state := .queued, reason := none }] }
        vessels := transfer.vessels.set 2 { transfer.vessel 2 with
          entries := (transfer.vessel 2).entries ++ [{ spot := 3, tag := 23, remainder := 100 }] } } ∧
      (after c transfer).changes.spots.getLsbD 3 = true ∧
      reply (after (.placeOrder .clocked 3 23 1 none none 0) transfer) = some (.done, [0, 3, 0, 0]) := by
  decide +kernel
theorem test_placeOrder_held :
    let c : Instr := .placeOrder .clocked 3 23 0 (some 100) (some 255) 0
    let s := { heldEmpty with staged := { heldEmpty.staged with creep := 9 }, stagedVersion := 4 }
    let u := s.modVessel 2 fun r => { r with trip := { active := true, count := 0 } }
    let d : Instr := .placeOrder .clocked 3 23 0 (some 100) (some 2) 0
    (s.spot 3).orders = [] ∧ (s.spot 3).state = .held ∧ reply (after c s) = some (.done, [3, 1, 1, 0, 1, 0, 0, 0, 100]) ∧
      ((after c s).spot 3).holds = .empty ∧ ((after c s).spot 3).activeVersion = 4 ∧
      ((after c s).spot 3).active.creep = 9 ∧ ((after d u).spot 3).holds = { HoldSet.empty with vesselTrip := true } ∧
      ((after d { s with setpointHold := true }).spot 3).activeVersion = 0 ∧
      ((after d u).spot 3).headIs .suspended = true ∧ (after d u).changes.spots = 8 := by
  decide +kernel
theorem test_placeOrder_connected :
    let s := (connected.modComp 0 fun k => { k with state := .faulted }).modComp 1 fun k => { k with state := .faulted }
    let u := s.modVessel 2 fun r => { r with trip := { active := true, count := 0 } }
    let c : Instr := .placeOrder .clocked 3 23 0 (some 100) (some 2) 0
    let r : Instr := .placeOrder .clocked 3 23 1 none none 0
    (s.spot 3).orders = [] ∧ (s.spot 3).state = .connected ∧ (s.spot 3).seat = none ∧ (∀ k, (s.comp k).state = .faulted) ∧
      ((after c s).spot 3).state = .staged ∧ (after c s).grants = [{ spot := 3, dir := .push }] ∧
      (after r s).grants = [{ spot := 3, dir := .draw }] ∧ ((after r s).spot 3).headIs .waiting = true ∧
      ((after c u).spot 3).state = .held ∧ ((after c u).spot 3).holds.vesselTrip = true ∧
      ((after c u).spot 3).headIs .suspended = true ∧ (after c u).grants = [] ∧ reply (after c s) = some (.done, [1, 1, 1, 2, 1, 0, 0, 0, 100]) := by
  decide +kernel
theorem test_waitsNowhere : connected.waitsNowhere ∧ connected.waitsNowhereBut 3 ∧ held.waitsNowhere ∧ held.due = none := by
  unfold State.waitsNowhere State.waitsNowhereBut Spot.waits; decide +kernel
theorem test_steady_states :
    (held.spot 3).steady ∧ (heldEmpty.spot 3).steady ∧ (transfer.spot 3).steady ∧ (connected.spot 3).steady := by
  refine ⟨?_, ?_, ?_, ?_⟩ <;> (unfold Spot.steady; decide +kernel)
def placed (s : State) (tag : Word16) (kind : Byte) (t : Option Word32) (v : Option Byte) (ca : Byte) :
    Option (Status × List Byte) :=
  reply (after (.placeOrder .clocked 3 tag kind t v ca) s)
theorem test_placeOrder_refusals :
    let full := transfer.modSpot 3 fun sp => { sp with orders := [1, 2, 3, 4].map fun n => liquidOrder n .queued }
    placed { connected with siding := .configured } 1 1 none none 0 = some (.notOperating, []) ∧
      placed spotted 1 1 none none 0 = some (.state, []) ∧ placed full 5 1 none none 0 = some (.queueFull, []) ∧
      placed transfer 22 1 none none 0 = some (.duplicate, []) ∧
      orderRequestOf 1 2 none none 0 = none ∧ placed connected 1 2 none none 0 = some (.range, []) ∧
      placed connected 1 1 none none 2 = some (.range, []) ∧ placed connected 1 0 (some 200001) (some 0) 0 = some (.range, []) ∧
      placed connected 1 0 (some 0) (some 0) 0 = some (.range, []) ∧ placed connected 1 0 none (some 0) 0 = some (.range, []) := by
  decide +kernel
theorem test_placeOrder_vessels :
    let closed := connected.modVessel 1 fun r => { r with service := .outOfService }
    let butane := connected.modSlot 2 fun _ => { issue := 5, car := some { carThree with phase := .unloading, grade := .butane } }
    placed connected 1 0 (some 45401) (some 0) 0 = some (.allowance, []) ∧
      placed connected 1 0 (some 45400) (some 6) 0 = some (.range, []) ∧
      placed connected 1 0 (some 1) (some 4) 0 = some (.range, []) ∧ placed closed 1 0 (some 1) (some 1) 0 = some (.service, []) ∧
      placed butane 1 0 (some 1) (some 1) 0 = some (.grade, []) ∧ placed connected 1 0 (some 1001) (some 1) 0 = some (.ullage, []) ∧
      placed butane 1 0 (some 1) (some 255) 0 = some (.grade, []) ∧
      placed connected 1 0 (some 1001) (some 255) 0 = some (.ullage, []) ∧
      placed connected 1 0 (some 1000) (some 255) 0 = some (.done, [1, 1, 1, 0, 1, 0, 0, 3, 232]) := by
  decide +kernel
theorem test_placeOrder_tripped :
    let s := { connected with
      vessels := Vector.replicate 6 { Vessel.reset with gaugedFree := 1000, trip := { active := true, count := 0 } } }
    (∃ v, s.suits .propane v = true) ∧ placed s 1 0 (some 1) (some 255) 0 = some (.ullage, []) := by
  decide +kernel
theorem test_trim :
    let t (s : State) (tag : Word16) (w : Word32) : State := after (.trim .clocked 3 tag w) s
    let drain := transfer.modSpot 3 fun sp => { sp with orders := [liquidOrder 21 .draining], liquid := valveAt .movingShut }
    let rec3 := recovery
    reply (t transfer 20 1) = some (.noRecord, []) ∧ reply (t rec3 31 1) = some (.state, []) ∧
      reply (t drain 21 1) = some (.state, []) ∧ reply (t transfer 21 0) = some (.range, []) ∧
      reply (t transfer 21 40) = some (.range, []) ∧
      (transfer.spot 3).order 21 = some (liquidOrder 21 .running) ∧ (transfer.vessel 2).remainder 3 21 = some 30 ∧
      reply (t transfer 21 11) = some (.done, [0, 0, 0, 40, 0, 0, 0, 11, 0, 0, 0, 1, 1, 2]) ∧
      (t transfer 21 11).frame = { transfer.frame with
        spots := transfer.spots.set 3 { transfer.spot 3 with
          orders := [{ liquidOrder 21 .running with liquid := some { target := 11, vessel := 2, delivered := 10 } },
            liquidOrder 22 .queued] }
        vessels := transfer.vessels.set 2 { transfer.vessel 2 with
          entries := [{ spot := 3, tag := 21, remainder := 1 }, { spot := 3, tag := 22, remainder := 30 }] } } ∧
      (transfer.spot 3).head = some (liquidOrder 21 .running) ∧ (transfer.spot 3).liquid.isOpen = true ∧
      reply (t transfer 21 10) = some (.done, [0, 0, 0, 40, 0, 0, 0, 10, 0, 0, 0, 0, 1, 4]) ∧
      ((t transfer 21 10).spot 3).head.map (fun o => (o.state, o.reason)) = some (.draining, some .trimmed) ∧
      ((t transfer 21 10).spot 3).seat = none ∧ ((t transfer 21 10).spot 3).liquid.state = some .movingShut ∧
      ((t transfer 21 10).spot 3).state = .transfer ∧ ((t transfer 21 10).comp 0).state = .runOn := by
  decide +kernel
theorem test_cancel :
    let t (s : State) (tag : Word16) : State := after (.cancelOrder .clocked 3 tag) s
    let drain := transfer.modSpot 3 fun sp => { sp with orders := [liquidOrder 21 .draining], liquid := valveAt .movingShut }
    reply (t transfer 20) = some (.noRecord, []) ∧ reply (t drain 21) = some (.state, []) ∧
      reply (t transfer 22) = some (.done, [0]) ∧
      (t transfer 22).frame = { transfer.frame with
        spots := transfer.spots.set 3 { transfer.spot 3 with orders := [liquidOrder 21 .running] }
        vessels := transfer.vessels.set 2 { transfer.vessel 2 with entries := [{ spot := 3, tag := 21, remainder := 30 }] }
        cars := transfer.cars.set 2
          { issue := 5
            car := some { carThree with
              phase := .unloading, lastEnd := some { tag := 22, kind := .liquid, reason := .cancelled, delivered := 10 }
              revision := 8 } } } ∧
      reply (t transfer 21) = some (.done, [1, 4]) ∧
      ((t transfer 21).spot 3).head.map (fun o => (o.state, o.reason)) = some (.draining, some .cancelled) ∧
      ((t transfer 21).spot 3).seat = none ∧ ((t transfer 21).spot 3).stall = .stopped := by
  decide +kernel

/-! ## Vessels, setpoints and the lock -/

theorem test_gauge :
    let g (free stamp : Word32) : State := after (.gauge .clocked 2 free stamp) transfer
    let u := transfer.modVessel 2 fun r => { r with counter := 2000000 }
    transfer.capacity 2 = 4000 ∧ reply (g 4001 0) = some (.range, [0, 0, 0, 0]) ∧
      reply (after (.gauge .clocked 2 4000 999999) u) = some (.badStamp, [0, 30, 132, 128]) ∧
      reply (after (.gauge .clocked 2 4000 1000000) u) = some (.done,
        [0, 0, 3, 232, 0, 0, 0, 0, 0, 30, 132, 128, 0, 0, 0, 0, 0, 0, 0, 0, 0, 0, 0, 60, 2]) ∧
      ((after (.gauge .clocked 2 4000 1000000) u).vessel 2).reserved = 0 ∧
      ((after (.gauge .clocked 2 4000 1000000) u).spot 3).orders.map (fun o => (o.tag, o.state, o.reason))
        = [(21, .draining, some .cut)] ∧
      transfer.due = none ∧ (transfer.vessel 2).reserved = 60 ∧
      reply (g 60 0) = some (.done, [0, 0, 3, 232, 0, 0, 0, 0, 0, 0, 0, 0, 0, 0, 0, 60, 0, 0, 0, 60, 0, 0, 0, 0, 0]) ∧
      (g 60 0).frame = { transfer.frame with vessels := transfer.vessels.set 2 { transfer.vessel 2 with gaugedFree := 60 } } ∧
      (g 60 0).changes.vessels = 4 ∧
      reply (g 59 0) = some (.done, [0, 0, 3, 232, 0, 0, 0, 0, 0, 0, 0, 0, 0, 0, 0, 59, 0, 0, 0, 59, 0, 0, 0, 1, 0]) ∧
      ((g 59 0).vessel 2).entries.map (·.remainder) = [30, 29] := by
  decide +kernel
theorem test_cuts :
    let r := { Vessel.reset with gaugedFree := 15, entries := [⟨3, 1, 10⟩, ⟨4, 1, 10⟩, ⟨5, 1, 10⟩] }
    r.afterCuts.entries.map (·.remainder) = [10, 5, 0] ∧ r.afterCuts.reserved = 15 ∧ r.available = 15 ∧
      ({ r with gaugedFree := 30 } : Vessel).afterCuts.entries.map (·.remainder) = [10, 10, 10] := by
  decide +kernel
theorem test_setVesselService :
    let t (v b : Byte) : State := after (.setVesselService .clocked v b) transfer
    reply (t 2 2) = some (.range, []) ∧ (transfer.vessel 2).entries ≠ [] ∧ reply (t 2 1) = some (.reserved, []) ∧
      reply (t 2 0) = some (.done, [0]) ∧ (t 2 0).changes.vessels = 0 ∧ reply (t 3 1) = some (.done, [0]) ∧
      (t 3 1).frame = { transfer.frame with vessels := transfer.vessels.set 3 { transfer.vessel 3 with service := .outOfService } } ∧
      (t 3 1).changes.vessels = 8 := by
  decide +kernel
theorem test_setpoints :
    let t (f : Word16) (w : Byte) (s r c : Word16) : State := after (.stageSetpoints .clocked f w s r c) plant
    reply (t 0 1 5 60 1) = some (.range, []) ∧ reply (t 1 0 5 60 1) = some (.range, []) ∧ reply (t 1 1 4 60 1) = some (.range, []) ∧
      reply (t 1 1 5 59 1) = some (.range, []) ∧ reply (t 1 1 5 60 0) = some (.range, []) ∧
      reply (t 10001 60 600 14400 1000) = some (.range, []) ∧ reply (t 10000 61 600 14400 1000) = some (.range, []) ∧
      reply (t 10000 60 601 14400 1000) = some (.range, []) ∧ reply (t 10000 60 600 14401 1000) = some (.range, []) ∧
      reply (t 10000 60 600 14400 1001) = some (.range, []) ∧
      reply (t 1 1 5 60 1) = some (.done, [2, 88, 10, 0, 60, 14, 16, 0, 50, 0, 0, 0, 1]) ∧
      (t 10000 60 600 14400 1000).frame = { plant.frame with
        staged := { flowHigh := 10000, window := 60, stall := 600, recovery := 14400, creep := 1000 }, stagedVersion := 1 } ∧
      (t 1 1 5 60 1).changes.siding = true ∧
      (after (.stageSetpoints .clocked 1 1 5 60 1) { plant with stagedVersion := 65535 }).stagedVersion = 0 := by
  decide +kernel
theorem test_setpointHold :
    let t (b : Byte) : State := after (.setpointHold .clocked b) plant
    reply (t 2) = some (.range, []) ∧ reply (t 0) = some (.done, [0]) ∧ (t 0).changes.siding = false ∧
      reply (t 1) = some (.done, [0]) ∧ (t 1).frame = { plant.frame with setpointHold := true } ∧ (t 1).changes.siding = true := by
  decide +kernel
theorem test_setLock :
    let t (b : Byte) (s : State) : State := after (.setLock .clocked b) s
    reply (t 4 plant) = some (.range, []) ∧ reply (t 3 plant) = some (.done, [3]) ∧ (t 3 plant).lock = 3 ∧
      (t 3 plant).lockTaken = true ∧ (t 3 plant).changes.siding = true ∧ reply (t 0 (t 2 plant)) = some (.once, [2]) ∧
      reply (t 4 (t 2 plant)) = some (.range, []) ∧ (t 0 plant).frame = { plant.frame with lockTaken := true } := by
  decide +kernel
theorem test_clearCompressor :
    let s := plant.modComp 1 fun k => { k with state := .faulted, dir := some .draw, fault := some .runLost }
    let t := after (.clearCompressor .clocked 1) s
    reply (after (.clearCompressor .clocked 1) plant) = some (.state, []) ∧
      reply (after (.clearCompressor .clocked 1) (s.modComp 1 fun k => { k with faultInput := { active := true, count := 0 } }))
        = some (.state, []) ∧
      reply (after (.clearCompressor .clocked 1) (s.modComp 1 fun k => { k with push := valveAt .fault })) = some (.state, []) ∧
      reply (after (.clearCompressor .clocked 1) (s.modComp 1 fun k => { k with draw := valveAt .fault })) = some (.state, []) ∧
      reply t = some (.done, []) ∧ (t.comp 1).state = .stopped ∧ (t.comp 1).dir = none ∧ (t.comp 1).fault = some .runLost ∧
      t.changes.comps = 2 ∧ t.frame = { s.frame with comps := s.comps.set 1 (t.comp 1) } := by
  decide +kernel
theorem test_rearm :
    let s := { held with fe := false, rearmRun := 2 }.modSpot 3 fun sp => { sp with holds := { sp.holds with esd := true } }
    let u := { bleeding with fe := false }.modSpot 3 fun sp => { sp with standing := true }
    let t := after (.rearm .clocked) s
    reply (after (.rearm .clocked) { s with esdHigh := false }) = some (.esdActive, []) ∧
      reply (after (.rearm .clocked) held) = some (.done, [1]) ∧ reply t = some (.done, [1]) ∧ t.fe = true ∧ t.rearmRun = 0 ∧
      t.changes.siding = true ∧ (t.spot 3).holds = { HoldSet.empty with crewStop := true } ∧ (t.spot 3).state = .held ∧
      ((after (.rearm .clocked) u).spot 3).standing = false ∧ ((after (.rearm .clocked) u).spot 3).state = .isolating ∧
      ((after (.rearm .clocked) { spotted with fe := false }).spot 3).state = .spotted := by
  decide +kernel

/-! ## The profile, commissioning and restart -/

def siteFields (spots vessels comps : Byte) : List Byte := [spots, vessels, comps, 2] ++ nat16 500 ++ [20] ++ nat16 30 ++ [10] ++ nat16 20 ++ nat16 30
def spotsFields : List Byte := (List.replicate 8 (nat16 1)).flatten ++ [10, 6, 6, 6, 8]
def vesselsFields (litres : Nat) : List Byte := (List.replicate 6 ([0] ++ nat32 litres)).flatten
def protectionFields : List Byte := [1, 0, 3, 15] ++ [1, 1, 1, 1, 1, 1, 1] ++ [0, 0, 0, 0, 0]

theorem test_writeProfile_refused :
    let w (s : State) (sec : Byte) (f : List Byte) : Option (Status × List Byte) := reply (after (.writeProfile .clocked sec f) s)
    (sectionOf 4 []).isNone = true ∧ w plant 4 [] = some (.range, []) ∧ w plant 0 (siteFields 9 4 2) = some (.range, []) ∧
      w { plant with lock := 3, lockTaken := true } 0 (siteFields 5 4 2) = some (.locked, []) ∧
      w transfer 0 (siteFields 6 4 2) = some (.notQuiet, []) ∧ plant.quiet = true ∧
      w spotted 0 (siteFields 3 4 2) = some (.occupied, []) ∧ w spotted 0 (siteFields 4 4 2) = some (.done, [1, 1]) := by
  decide +kernel
theorem test_writeProfile :
    let w (s : State) (sec : Byte) (f : List Byte) : State := after (.writeProfile .clocked sec f) s
    let z := { State.reset with link := plant.link }
    let a := w (w (w z 3 protectionFields) 0 (siteFields 6 4 2)) 1 spotsFields
    let b := w a 2 (vesselsFields 500000)
    a.siding = .unconfigured ∧ reply a = some (.done, [0, 0]) ∧ reply b = some (.done, [0, 1]) ∧ b.siding = .configured ∧
      b.profile.complete = true ∧ (w plant 2 (vesselsFields 5000)).siding = .configured ∧
      ((w plant 2 (vesselsFields 5000)).vessel 1).gaugedFree = 0 ∧ (w b 3 protectionFields).siding = .configured ∧
      (w plant 3 protectionFields).siding = .operating ∧ (w plant 3 protectionFields).fe = false ∧ (w plant 3 (0 :: protectionFields.tail)).fe = true ∧
      ((w plant 2 (vesselsFields 4000)).vessel 1).gaugedFree = 1000 ∧ (w plant 2 (vesselsFields 4000)).changes.siding = true := by
  decide +kernel
theorem test_commission :
    let s := { plant with siding := .configured }.modSpot 4 fun sp => { sp with hose := { active := true, count := 0 } }
    let u := s.modComp 1 fun k => { k with faultInput := { active := true, count := 0 } }
    let t := after (.commission .clocked) u
    reply (after (.commission .clocked) plant) = some (.state, []) ∧
      reply (after (.commission .clocked) { s with fe := false }) = some (.fieldOff, []) ∧
      reply (after (.commission .clocked) { held with siding := .configured }) = some (.notQuiet, []) ∧ u.quiet = true ∧
      u.grants = [] ∧ reply t = some (.done, [2, 5, 1]) ∧ (t.spot 4).state = .faulted ∧ (t.spot 4).fault = some .pressure ∧
      (t.spot 3).state = .stroking ∧ (t.spot 3).step = some (.stroking .vent false) ∧ (t.spot 3).vent.state = some .movingOpen ∧
      t.siding = .commissioning ∧ (t.comp 1).state = .faulted ∧ t.tests.comps = [0] ∧ t.tests.spots = [0, 1, 2, 3, 5] := by
  decide +kernel
theorem test_commission_queues (i : SpotNo) : (plant.spot i).queueLegal :=
  legal_of_quiet (by revert i; decide +kernel) (by revert i; decide +kernel)
theorem test_restart :
    let t := after (.restartSiding .clocked) transfer
    reply (after (.restartSiding .clocked) { State.reset with link := plant.link }) = some (.notConfigured, []) ∧
      reply t = some (.done, [3]) ∧ t.siding = .configured ∧ (t.spot 3).state = .isolating ∧
      (t.spot 3).orders.map (fun o => (o.tag, o.state, o.reason)) = [(21, .draining, some .restart)] ∧
      (∀ v, (t.vessel v).entries = []) ∧ (t.comp 0).state = .stopped ∧ (t.comp 0).seated = [] ∧ t.changes.vessels = 63 ∧
      t.changes.comps = 3 ∧ ((after (.restartSiding .clocked) stroking).spot 3).state = .faulted ∧
      ((after (.restartSiding .clocked) stroking).spot 3).fault = some .restart ∧
      ((after (.restartSiding .clocked) bleeding).spot 3).state = .isolating := by
  decide +kernel

/-! ## The meter -/

theorem test_pulse :
    let s := transfer.modSpot 3 fun sp => { sp with pulses := 0 }
    transfer.fittedSpot 7 = false ∧ (after (.meterPulse 7) transfer).frame = transfer.frame ∧
      (after (.litreEmitted 7) transfer).frame = transfer.frame ∧ plant.divisor 3 = some 2 ∧ (s.spot 3).pulses + 1 ≠ 2 ∧
      (after (.meterPulse 3) s).frame = { s.frame with spots := s.spots.set 3 { s.spot 3 with pulses := 1 } } ∧
      (after (.meterPulse 3) s).changes = s.changes ∧
      (after (.meterPulse 0) { plant with profile := { plant.profile with spots := none } }).frame.spots = plant.spots := by
  decide +kernel
theorem test_litre :
    let s := transfer.modSpot 3 fun sp => { sp with pulses := 1 }
    let t := after (.meterPulse 3) s
    (s.spot 3).pulses + 1 = 2 ∧ s.due = none ∧ (s.spot 3).liquid.passing = true ∧ (s.vessel 2).remainder 3 21 = some (29 + 1) ∧
      (s.spot 3).windowCount + 1 ≤ (s.spot 3).active.flowHigh ∧
      t.frame = { s.frame with
        spots := s.spots.set 3 { s.spot 3 with
          pulses := 0, stall := .running 6000, windowCount := 4
          orders := [{ liquidOrder 21 .running with liquid := some { target := 40, vessel := 2, delivered := 11 } },
            liquidOrder 22 .queued] }
        vessels := s.vessels.set 2 { s.vessel 2 with
          counter := 1, entries := [{ spot := 3, tag := 21, remainder := 29 }, { spot := 3, tag := 22, remainder := 30 }] }
        cars := s.cars.set 2
          { issue := 5, car := some { carThree with phase := .unloading, delivered := 101, revision := 8 } } } ∧
      t.changes.spots = 8 ∧ t.changes.vessels = 4 ∧ t.changes.cars = 4 ∧ (after (.litreEmitted 3) transfer).frame.vessels = t.vessels := by
  decide +kernel
theorem test_litre_uncovered :
    let s := (transfer.modSpot 3 fun sp => { sp with
        orders := [{ liquidOrder 21 .running with liquid := some { target := 40, vessel := 2, delivered := 30 } }] }).modVessel 2
          fun r => { r with entries := [{ spot := 3, tag := 21, remainder := 0 }] }
    (∀ e ∈ (s.vessel 2).entries, e.spot = 3 → e.tag = 21 → e.remainder = 0) ∧
      (s.vessel 2).reserved ≤ ({ s.vessel 2 with counter := 1 } : Vessel).available ∧
      ((after (.litreEmitted 3) s).vessel 2).entries = [{ spot := 3, tag := 21, remainder := 0 }] ∧
      ((after (.litreEmitted 3) s).vessel 2).counter = 1 := by
  decide +kernel
theorem test_litre_target :
    let s := transfer.modSpot 3 fun sp => { sp with
      orders := [{ liquidOrder 21 .running with liquid := some { target := 11, vessel := 2, delivered := 10 } }] }
    let t := after (.litreEmitted 3) s
    (s.spot 3).liquid.isOpen = true ∧ (t.spot 3).state = .transfer ∧ (t.spot 3).seat = none ∧
      (t.spot 3).head.map (fun o => (o.state, o.reason)) = some (.draining, some .target) ∧
      (t.spot 3).liquid.command = .toShut ∧ (t.vessel 2).counter = 1 := by
  decide +kernel
theorem test_creep :
    let c (n : Nat) (s : State) : State := after (.litreEmitted 3) (s.modSpot 3 fun sp => { sp with creep := n })
    (connected.spot 3).state = .connected ∧ (connected.spot 3).active.creep = 50 ∧ ((c 48 connected).spot 3).creep = 49 ∧
      ((c 48 connected).spot 3).state = .connected ∧ (c 48 connected).changes.spots = 8 ∧
      ((c 49 connected).spot 3).state = .isolating ∧ ((c 49 connected).spot 3).fault = some .creep ∧
      ((c 50 held).spot 3).state = .isolating ∧ ((c 49 held).spot 3).orders = [] ∧ ((c 49 recovery).spot 3).orders = [] ∧
      ((c 48 recovery).spot 3).creep = 49 ∧ ((c 48 spotted).spot 3).creep = 48 ∧
      ((c 49 (connected.modSpot 3 fun sp => { sp with liquid := valveAt .fault })).spot 3).state = .connected := by
  decide +kernel

/-! ## Inputs and valves -/

def atRest : List Input :=
  (List.finRange 8).flatMap (fun i => [ValveName.shutoff, .liquid, .vapour, .vent].map fun n => .shutLimit (.spot i n))
    ++ (List.finRange 2).flatMap fun c => [Direction.push, .draw].map fun d => .shutLimit (.direction c d)
def allInputs : List Input :=
  (List.finRange 8).flatMap (fun i => ([ValveName.shutoff, .liquid, .vapour, .vent].flatMap fun n =>
      [.openLimit (.spot i n), .shutLimit (.spot i n)])
    ++ [.bond i, .hose i, .residual i, .connectedButton i, .stopButton i, .clearButton i])
    ++ ((List.finRange 2).flatMap fun c => ([Direction.push, .draw].flatMap fun d =>
      [.openLimit (.direction c d), .shutLimit (.direction c d)]) ++ [.run c, .faultInput c])
    ++ (List.finRange 6).map .trip

theorem test_sample :
    let p := { plant with profile := { plant.profile with
      protection := some { protection15 with filters := { protection15.filters with bond := 2 } } } }
    let t := after (.inputSample (.bond 1 :: atRest) [.bond 1]) p
    (allInputs.all fun x => decide (plant.filterOf x = { active := atRest.contains x, count := 0 })) = true ∧ after (.inputSample atRest []) plant = plant ∧
      (allInputs.all fun x =>
        x = .bond 1 || decide (p.filterOf x = { active := (Input.bond 1 :: atRest).contains x, count := 0 })) = true ∧ p.protection.filters.bond = 2 ∧
      t = p.modSpot 1 (fun sp => { sp with bond := { active := false, count := 1 } }) ∧
      after (.inputSample (.bond 1 :: atRest) []) t = after (.bondActive 1) t := by
  decide +kernel
theorem test_allInputs : ∀ x : Input, x ∈ allInputs := by
  intro x; cases x with
  | openLimit v => cases v with
    | spot i n => cases n <;> (revert i; decide +kernel)
    | direction c d => cases d <;> (revert c; decide +kernel)
  | shutLimit v => cases v with
    | spot i n => cases n <;> (revert i; decide +kernel)
    | direction c d => cases d <;> (revert c; decide +kernel)
  | bond i => revert i; decide +kernel
  | hose i => revert i; decide +kernel
  | residual i => revert i; decide +kernel
  | connectedButton i => revert i; decide +kernel
  | stopButton i => revert i; decide +kernel
  | clearButton i => revert i; decide +kernel
  | trip v => revert v; decide +kernel
  | run c => revert c; decide +kernel
  | faultInput c => revert c; decide +kernel
theorem test_arrival :
    let t := after (.limitChange (.spot 3 .shutoff) true false) proving
    (proving.spot 3).state = .proving ∧ (proving.spot 3).step = some .shutoffOpening ∧ (proving.spot 3).shutoff.supervised = true ∧
      (proving.spot 3).shutoff.state = some .movingOpen ∧ proving.due = none ∧
      t.frame = { proving.frame with
        spots := proving.spots.set 3 { proving.spot 3 with
          step := some .pressureWait, timer := .running 3000
          shutoff := { (proving.spot 3).shutoff with
            state := some .opened, timer := .stopped, openLimit := { active := true, count := 0 } } } } ∧
      t.changes.spots = 8 ∧
      ((after (.limitChange (.spot 3 .shutoff) true false)
        (proving.modSpot 3 fun sp => { sp with hose := { active := true, count := 0 } })).spot 3).step = some .pressureHold := by
  decide +kernel
theorem test_proving_queue : (proving.spot 3).queueLegal :=
  legal_of_quiet (by decide +kernel) (by decide +kernel)
theorem test_valveFault :
    let t := after (.limitChange (.spot 3 .shutoff) false false) transfer
    let u := after (.strokeTimeExceeded (.spot 3 .shutoff)) (ripe proving)
    let v := after (.strokeTimeExceeded (.spot 3 .vent)) (ripe stroking)
    ((transfer.spot 3).valve .shutoff).isOpen = true ∧ (t.spot 3).state = .faulted ∧ (t.spot 3).fault = some (.valve .shutoff) ∧
      (t.spot 3).orders = [] ∧ (t.car 2).map (·.phase) = some .served ∧ (t.spot 3).seat = none ∧
      ((t.spot 3).valve .shutoff).isFault = true ∧ t.changes.spots = 8 ∧
      (((ripe proving).spot 3).valve .shutoff).strokeDue = true ∧
      ((proving.spot 3).valve .shutoff).strokeDue = false ∧ after (.strokeTimeExceeded (.spot 3 .shutoff)) proving = proving ∧ (u.spot 3).state = .faulted ∧
      (v.spot 3).state = .faulted ∧ (v.spot 3).fault = some (.valve .vent) ∧
      ((after (.limitChange (.spot 3 .vent) true true) held).spot 3).state = .faulted ∧
      after (.limitChange (.spot 3 .vent) false true) held = held ∧ after (.strokeTimeExceeded (.spot 3 .vent)) held = held := by
  decide +kernel
theorem test_directionFault :
    let s := ripe (transfer.modComp 0 fun k => { k with push := valveAt .movingOpen })
    let t := after (.strokeTimeExceeded (.direction 0 .push)) s
    ((s.comp 0).valve .push).strokeDue = true ∧ (t.comp 0).state = .faulted ∧ (t.comp 0).fault = some (.valve .push) ∧
      (t.comp 0).seated = [] ∧ (t.comp 0).startOn = false ∧ 3 ∈ (s.comp 0).seated ∧ (t.spot 3).state = .held ∧
      (t.spot 3).holds = { HoldSet.empty with compressor := true } ∧ t.changes.comps = 1 := by
  decide +kernel
theorem test_bond :
    let t := after (.bondLost 3) transfer
    after (.bondActive 3) transfer = transfer ∧ after (.bondLost 4) transfer = transfer ∧
      (after (.bondActive 4) transfer).frame = { transfer.frame with
        spots := transfer.spots.set 4 { transfer.spot 4 with bond := { active := true, count := 0 } } } ∧
      (after (.bondActive 4) transfer).changes.spots = 16 ∧
      (after (.bondLost 3) spotted).frame = { spotted.frame with
        spots := spotted.spots.set 3 { spotted.spot 3 with bond := { active := false, count := 0 } } } ∧
      (t.spot 3).state = .isolating ∧ (t.spot 3).fault = some .bond ∧
      (t.spot 3).orders.map (fun o => (o.tag, o.reason)) = [(21, some .bond)] ∧
      ((after (.bondLost 3) proving).spot 3).fault = some .bond := by
  decide +kernel
theorem test_hose :
    let wait := proving.modSpot 3 fun sp => { sp with step := some .pressureWait, shutoff := valveAt .opened, timer := .running 50 }
    let hold := wait.modSpot 3 fun sp => { sp with step := some .pressureHold, hose := { active := true, count := 0 } }
    let t := after (.hosePressureActive 3) stroking
    after (.hosePressureActive 3) hold = hold ∧ after (.hosePressureInactive 3) wait = wait ∧
      (after (.hosePressureActive 3) wait).frame = { wait.frame with
        spots := wait.spots.set 3 { wait.spot 3 with
          hose := { active := true, count := 0 }, step := some .pressureHold, timer := .running 3000 } } ∧
      (t.spot 3).state = .faulted ∧ (t.spot 3).fault = some .pressure ∧ t.changes.spots = 8 ∧
      (after (.hosePressureActive 3) connected).frame = { connected.frame with
        spots := connected.spots.set 3 { connected.spot 3 with hose := { active := true, count := 0 } } } ∧
      ((after (.hosePressureInactive 3) hold).spot 3).state = .isolating ∧
      ((after (.hosePressureInactive 3) hold).spot 3).fault = some .leak ∧
      ((after (.hosePressureInactive 3) (after (.hosePressureActive 3) connected)).frame = connected.frame) := by
  decide +kernel
theorem test_residual :
    let t := after (.residualActive 3) recovery
    let u := after (.recoveryTimerExpiry 3) (ripe recovery)
    (t.spot 3).state = .connected ∧ (t.spot 3).orders = [] ∧ (t.spot 3).vapour.command = .toShut ∧ (t.spot 3).seat = none ∧
      t.car 2 = some { carThree with
        phase := .unloading, recovered := true, revision := 8
        lastEnd := some { tag := 31, kind := .recovery, reason := .residual, delivered := 0 } } ∧
      u.car 2 = some { carThree with
        phase := .unloading, revision := 8
        lastEnd := some { tag := 31, kind := .recovery, reason := .recoveryTimeout, delivered := 0 } } ∧
      (u.spot 3).state = .connected ∧ (t.comp 0).state = .runOn ∧ after (.residualActive 3) t = t ∧
      after (.residualInactive 3) recovery = recovery ∧
      (after (.residualActive 3) held).frame = { held.frame with
        spots := held.spots.set 3 { held.spot 3 with residual := { active := true, count := 0 } } } ∧
      (after (.residualInactive 3) (after (.residualActive 3) held)).frame = held.frame ∧
      after (.recoveryTimerExpiry 3) held = held ∧ after (.recoveryTimerExpiry 3) recovery = recovery := by
  decide +kernel
theorem test_residual_waits : recovery.waitsNowhereBut 3 ∧ proving.waitsNowhereBut 3 ∧ bleeding.waitsNowhereBut 3 := by
  unfold State.waitsNowhereBut Spot.waits; decide +kernel

/-! ## Timers -/

theorem test_provingTimers :
    let wait := proving.modSpot 3 fun sp => { sp with step := some .pressureWait, shutoff := valveAt .opened, timer := .running 0 }
    let early := wait.modSpot 3 fun sp => { sp with timer := .running 1 }
    let hold := { wait with stagedVersion := 9 }.modSpot 3 fun sp =>
      { sp with step := some .pressureHold, hose := { active := true, count := 0 }, creep := 3 }
    let t := after (.pressureHoldExpiry 3) hold
    ((after (.pressureWaitExpiry 3) wait).spot 3).state = .isolating ∧
      ((after (.pressureWaitExpiry 3) wait).spot 3).fault = some .leak ∧ after (.pressureWaitExpiry 3) hold = hold ∧
      after (.pressureHoldExpiry 3) wait = wait ∧ after (.pressureWaitExpiry 3) early = early ∧
      t.frame = { hold.frame with
        spots := hold.spots.set 3 { hold.spot 3 with
          state := .connected, step := none, timer := .stopped, creep := 0, activeVersion := 9 }
        cars := hold.cars.set 2 { issue := 5, car := some { carThree with phase := .unloading, revision := 8 } } } ∧
      ((after (.pressureHoldExpiry 3) { hold with setpointHold := true }).spot 3).activeVersion = 0 := by
  decide +kernel
theorem test_bleed :
    let b := ripe bleeding
    let p := b.modSpot 3 fun sp => { sp with hose := { active := true, count := 0 } }
    let t := after (.bleedExpiry 3) b
    t.frame = { b.frame with
        spots := b.spots.set 3 { b.spot 3 with
          step := some .ventClosing, timer := .stopped
          vent := { (b.spot 3).vent with command := .toShut, state := some .movingShut, timer := .running 600 } } } ∧
      t.changes.spots = 8 ∧ b.due = none ∧ ((after (.bleedExpiry 3) p).spot 3).state = .faulted ∧
      ((after (.bleedExpiry 3) p).spot 3).fault = some .bleed ∧ after (.bleedExpiry 3) held = held ∧ after (.bleedExpiry 3) bleeding = bleeding ∧
      after (.bleedExpiry 3) (b.modSpot 3 fun sp => { sp with standing := true })
        = b.modSpot 3 fun sp => { sp with standing := true } := by
  decide +kernel
theorem test_bleeding_queue : (bleeding.spot 3).queueLegal := by
  have h : (bleeding.spot 3).orders = [] ∧ (bleeding.spot 3).state = .isolating := by decide +kernel
  exact legal_of_quiet h.1 (by rw [h.2]; decide)
theorem test_stall_window_flash :
    let r := ripe transfer
    let t := after (.stallExpiry 3) r
    let f := { plant with flashes := plant.flashes.set 3 { lit := true, phase := .running 0 } }
    (t.spot 3).head.map (fun o => (o.state, o.reason)) = some (.draining, some .exhausted) ∧ (t.spot 3).seat = none ∧
      t.changes.spots = 8 ∧ after (.stallExpiry 3) held = held ∧ after (.stallExpiry 3) transfer = transfer ∧ after (.rateWindowExpiry 3) transfer = transfer ∧
      after (.rateWindowExpiry 3) r = (r.modSpot 3 fun sp => { sp with windowCount := 0, window := .running 1000 }) ∧
      after (.rateWindowExpiry 3) held = held ∧
      after (.lampFlashPhase 3) f = { plant with flashes := plant.flashes.set 3 { lit := false, phase := .running 50 } } ∧
      after (.lampFlashPhase 3) plant = plant ∧
      (let g := { plant with flashes := plant.flashes.set 3 { lit := true, phase := .running 1 } }; after (.lampFlashPhase 3) g = g) := by
  decide +kernel

/-! ## The pendant and the trips -/

theorem test_pendantConnected :
    let s := spotted.modSlot 2 fun _ => { issue := 5, car := some { carThree with hoses := false } }
    (after (.pendantConnected 3) s).frame = { s.frame with
        spots := s.spots.set 3 { s.spot 3 with connectedButton := { active := true, count := 0 } }
        cars := s.cars.set 2 { issue := 5, car := some { carThree with revision := 8 } } } ∧
      (after (.pendantConnected 3) s).changes.cars = 4 ∧ (after (.pendantConnected 3) spotted).changes.cars = 0 ∧
      (after (.pendantConnected 3) held).cars = held.cars := by
  decide +kernel
theorem test_pendantStop :
    let t := after (.pendantStop 3) transfer
    let h := held.modSpot 3 fun sp => { sp with holds := { HoldSet.empty with vesselTrip := true } }
    ((after (.pendantStop 3) proving).spot 3).fault = some .stopped ∧ (t.spot 3).state = .held ∧
      (t.spot 3).holds = { HoldSet.empty with crewStop := true } ∧
      (t.spot 3).orders.map (fun o => (o.tag, o.state)) = [(21, .suspended), (22, .queued)] ∧ (t.spot 3).seat = none ∧
      (t.spot 3).liquid.command = .toShut ∧ (t.spot 3).vapour.command = .toShut ∧ (t.spot 3).window = .stopped ∧
      ((after (.pendantStop 3) connected).spot 3).state = .held ∧ ((after (.pendantStop 3) recovery).spot 3).headIs .suspended = true ∧
      (after (.pendantStop 3) h).frame = { h.frame with
        spots := h.spots.set 3 { h.spot 3 with
          stopButton := { active := true, count := 0 }
          holds := { crewStop := true, vesselTrip := true, esd := false, compressor := false } } } ∧
      (after (.pendantStop 3) h).changes.spots = 8 ∧ h.due = none ∧
      (after (.pendantStop 3) spotted).frame = { spotted.frame with
        spots := spotted.spots.set 3 { spotted.spot 3 with stopButton := { active := true, count := 0 } } } := by
  decide +kernel
theorem test_pendantClear :
    let h := held.modSpot 3 fun sp => { sp with holds := { crewStop := true, vesselTrip := true, esd := false, compressor := false } }
    let e := held.modSpot 3 fun sp => { sp with orders := [] }
    let c (s : State) : State := after (.pendantClear 3) s
    (c spotted).frame = { spotted.frame with
        spots := spotted.spots.set 3 { spotted.spot 3 with clearButton := { active := true, count := 0 } } } ∧
      (c h).frame = { h.frame with
        spots := h.spots.set 3 { h.spot 3 with
          clearButton := { active := true, count := 0 }, holds := { HoldSet.empty with vesselTrip := true } } } ∧
      (c h).changes.spots = 8 ∧ ((c e).spot 3).state = .connected ∧ ((c e).spot 3).shutoff.command = .toOpen ∧
      ((c held).spot 3).state = .staged ∧ ((c held).spot 3).headIs .suspended = true ∧ ((c held).spot 3).holds = .empty ∧
      ((c held).spot 3).shutoff.state = some .movingOpen ∧ (held.spot 3).shutoff.isShut = true := by
  decide +kernel
theorem test_vesselTrip :
    let t := after (.vesselTripActive 2) transfer
    let u := after (.vesselTripInactive 2) t
    (t.spot 3).state = .held ∧ (t.spot 3).holds = { HoldSet.empty with vesselTrip := true } ∧ (t.spot 3).seat = none ∧
      (t.spot 3).headIs .suspended = true ∧ t.changes.vessels = 4 ∧ (t.spot 4) = transfer.spot 4 ∧
      after (.vesselTripActive 2) t = t ∧ after (.vesselTripInactive 2) transfer = transfer ∧
      (u.spot 3).holds = .empty ∧ (u.spot 3).state = .held ∧
      ((after (.vesselTripActive 2) held).spot 3).holds = { crewStop := true, vesselTrip := true, esd := false, compressor := false } ∧
      plant.fittedVessel 4 = false ∧ (after (.vesselTripActive 4) plant).frame = { plant.frame with
        vessels := plant.vessels.set 4 { plant.vessel 4 with trip := { active := true, count := 0 } } } ∧
      (after (.vesselTripInactive 4) (after (.vesselTripActive 4) plant)).frame = plant.frame := by
  decide +kernel

/-! ## Compressors, the ESD input and the beat -/

def starting : State :=
  (connected.modSpot 3 fun sp => { sp with state := .staged, seat := some 0, orders := [liquidOrder 21 .waiting] })
    |>.modComp 0 fun k => { k with state := .starting, step := some .runWait, dir := some .push, seated := [3], startOn := true
                                   push := valveAt .opened, pushMark := none, startTimer := .running 900 }
/-- Compressor 1 in RUN_WAIT with no seat, on its way to `st`. -/
def lonely (st : CompState) : State :=
  plant.modComp 1 fun k => { k with state := st, step := some .runWait, dir := some .push, startOn := true
                                    push := valveAt .opened, pushMark := none, startTimer := .running 900 }

theorem test_runFeedback :
    let t := after (.runFeedbackActive 0) starting
    let r := after (.runFeedbackActive 1) (lonely .starting)
    let p := after (.runFeedbackActive 1) (lonely .proof)
    (t.comp 0).state = .running ∧ (t.spot 3).state = .transfer ∧ (t.spot 3).liquid.state = some .movingOpen ∧
      (r.comp 1).state = .runOn ∧ (r.comp 1).runTimer = .running 3000 ∧ (p.comp 1).step = some .proofRun ∧
      (p.comp 1).runTimer = .running 1000 ∧ after (.runFeedbackActive 0) t = t ∧ after (.runFeedbackLost 0) starting = starting ∧
      plant.due = none ∧ (after (.runFeedbackActive 1) plant).frame = { plant.frame with
        comps := plant.comps.set 1 { plant.comp 1 with run := { active := true, count := 0 } } } ∧
      (after (.runFeedbackActive 1) plant).changes.comps = 2 ∧
      (after (.runFeedbackLost 1) (after (.runFeedbackActive 1) plant)).frame = plant.frame := by
  decide +kernel
theorem test_lonely_waits : (lonely .starting).waitsNowhere ∧ (lonely .proof).waitsNowhere := by
  unfold State.waitsNowhere Spot.waits; decide +kernel
theorem test_compFaults :
    let a := after (.runFeedbackLost 0) transfer
    let b := after (.faultInputActive 0) transfer
    let c := after (.startTimerExpiry 0) (ripe starting)
    (a.comp 0).fault = some .runLost ∧ (a.comp 0).state = .faulted ∧ (a.spot 3).holds.compressor = true ∧
      (b.comp 0).fault = some .faultInput ∧ (b.spot 3).state = .held ∧ (c.comp 0).fault = some .startFailed ∧
      (c.comp 0).startOn = false ∧ (c.spot 3).state = .held ∧ after (.faultInputActive 0) b = b ∧
      after (.faultInputInactive 0) plant = plant ∧ after (.startTimerExpiry 0) plant = plant ∧ after (.startTimerExpiry 0) starting = starting ∧
      ((after (.faultInputInactive 0) b).comp 0).faultInput.active = false ∧ ((after (.faultInputInactive 0) b).comp 0).state = .faulted := by
  decide +kernel
theorem test_compTimers :
    let ro := plant.modComp 1 fun k => { k with
      state := .runOn, dir := some .push, startOn := true, push := valveAt .opened, pushMark := none, runTimer := .running 0
      run := { active := true, count := 0 } }
    let pr := ro.modComp 1 fun k => { k with state := .proof, step := some .proofRun }
    let dt := plant.modComp 1 fun k => { k with state := .starting, step := some .deadTime, dir := some .push, seated := [3] }
    (( after (.runOnExpiry 1) ro).comp 1).state = .stopped ∧ ((after (.runOnExpiry 1) ro).comp 1).dir = none ∧
      ((after (.runOnExpiry 1) ro).comp 1).push.state = some .movingShut ∧ after (.runOnExpiry 1) plant = plant ∧
      ((after (.proofRunExpiry 1) pr).comp 1).step = some .stopping ∧ ((after (.proofRunExpiry 1) pr).comp 1).startOn = false ∧
      ((after (.proofRunExpiry 1) pr).comp 1).push.state = some .movingShut ∧ after (.proofRunExpiry 1) plant = plant ∧
      ((after (.guardExpiry 1 .draw) dt).comp 1).step = some .valveOpening ∧
      ((after (.guardExpiry 1 .draw) dt).comp 1).push.state = some .movingOpen ∧
      ((after (.guardExpiry 1 .draw) dt).comp 1).push.timer = .running 800 ∧ ((after (.guardExpiry 1 .draw) dt).comp 1).pushMark = none ∧
      after (.guardExpiry 0 .push) transfer = transfer ∧
      (let y := dt.modComp 1 fun k => { k with drawMark := some 1499 }; after (.guardExpiry 1 .draw) y = y) ∧
      (let y := ro.modComp 1 fun k => { k with runTimer := .running 1 }; after (.runOnExpiry 1) y = y) ∧
      (let y := pr.modComp 1 fun k => { k with runTimer := .running 1 }; after (.proofRunExpiry 1) y = y) := by
  decide +kernel
theorem test_esd :
    let t := after (.esdInputActive false) transfer
    (after (.esdInputActive true) transfer).frame = transfer.frame ∧ transfer.judgedActive false = true ∧
      (after (.esdInputInactive true) t).esdHigh = true ∧ (after (.esdInputInactive true) t).fe = false ∧
      (after (.esdInputInactive true) t).frame = { t.frame with esdHigh := true } ∧ t.fe = false ∧ t.changes.siding = true ∧
      (t.spot 3).state = .held ∧ (t.spot 3).holds = { HoldSet.empty with esd := true } ∧ (t.spot 3).shutoff.command = .toShut ∧
      ((after (.esdInputActive false) proving).spot 3).fault = some .esd ∧
      ((after (.esdInputActive false) proving).spot 3).standing = true ∧
      ((after (.esdInputActive false) bleeding).spot 3).standing = true ∧
      ((after (.esdInputActive false) stroking).spot 3).state = .faulted ∧ (t.comp 0).state = .stopped ∧
      ((after (.esdInputActive false) held).spot 3).holds = { crewStop := true, vesselTrip := false, esd := true, compressor := false } ∧
      (after (.esdInputActive false) { stroking with siding := .commissioning, tests := { spots := [3], comps := [] } }).siding = .configured := by
  decide +kernel
theorem test_stroking_queue : (stroking.spot 3).queueLegal :=
  legal_of_quiet (by decide +kernel) (by decide +kernel)
theorem test_beats :
    let s := { held with fe := false }.modSpot 3 fun sp => { sp with holds := { sp.holds with esd := true } }
    let b := after .beat
    plant.protection.autoRearm = true ∧ plant.protection.rearmCount = 3 ∧ (b s).rearmRun = 1 ∧ (b (b s)).rearmRun = 2 ∧
      (b (b s)).fe = false ∧ (b (b (b s))).fe = true ∧ (b (b (b s))).rearmRun = 0 ∧ ((b (b (b s))).spot 3).holds.esd = false ∧
      after .autoRearm s = b s ∧ (after .autoRearm s).fe = false ∧ (after .autoRearm (b (b s))).fe = true ∧
      (after .autoRearm plant).frame = (b plant).frame ∧
      (b { s with esdHigh := false, rearmRun := 2 }).rearmRun = 0 ∧
      (b plant).frame = { plant.frame with beatTimer := .running 100 } ∧
      (after .autoRearm { s with esdHigh := false, rearmRun := 2 }).rearmRun = 0 := by
  decide +kernel

/-! ## The characters of the link -/

theorem test_fetch_characters :
    let s := after (.fetch .clocked) (after (.takeChanges .clocked) { plant with changes := { Changes.none with spots := 1 } })
    let n (k : Nat) (s : State) : State := (List.replicate k ()).foldl (fun u _ => after (.surplusCharacter .clocked 0) u) s
    let late := { n 1 s with link := { (n 1 s).link with discarded := true, lateSurplus := true } }
    s.link.form = .clocked ∧ s.link.incoming = none ∧ plant.dataOut = some { head := false, data := 0 } ∧
      s.dataOut = some { head := true, data := Layout.status .done } ∧ s.link.fetching.map (·.sent) = some 0 ∧
      (n 1 s).dataOut = some { head := false, data := 0 } ∧ (n 1 s).link.fetching.map (fun o => (o.sent, o.flags)) = some (1, none) ∧
      late.dataOut = some { head := false, data := 3 } ∧
      (n 1 late).link.fetching.map (fun o => (o.sent, o.flags)) = some (2, some 3) ∧
      (n 1 late).link.discarded = false ∧ (n 1 late).link.lateSurplus = false ∧
      after .flagsCharacterSent late = n 1 late ∧ after .flagsCharacterSent (n 1 late) = n 1 late ∧
      (after .flagsCharacterSent s).link.fetching.map (fun o => (o.sent, o.flags)) = some (2, some 0) ∧
      (n 5 s).dataOut = some { head := false, data := 1 } ∧ (n 6 s).link.fetching.map (·.sent) = some 6 ∧
      (n 9 s).dataOut = some { head := false, data := 0 } ∧ n 1 (n 9 s) = n 9 s := by
  decide +kernel
theorem test_transmits :
    let a := after (.takeChanges (.async 3)) { async with changes := { Changes.none with spots := 1, siding := true } }
    a.dataOut = none ∧ a.link.sending.map (·.flags) = some none ∧
      a.transmits.map (·.head) = true :: List.replicate 8 false ∧
      a.transmits.map (·.data) = [Layout.status .done, 0, 0, 0, 0, 1, 0, 0, 1] ∧
      (after .flagsCharacterSent { a with link := { a.link with discarded := true } }).transmits.map (·.data)
        = [Layout.status .done, 2, 0, 0, 0, 1, 0, 0, 1] ∧
      after .flagsCharacterSent async = async ∧ after .replyTransmissionEnd async = async := by
  decide +kernel
theorem test_reply_replaced :
    let s := after (.readSiding .clocked) plant
    code (.listCars .clocked) ≠ 34 ∧ plant.link.buffer = none ∧ s.link.discarded = false ∧ s.link.buffer.isSome = true ∧
      (after (.listCars .clocked) s).link.discarded = true ∧ (after (.listCars .clocked) s).link.answered = true ∧
      (after (.unknownRequest .clocked 77) s).link.buffer.map (·.reply.status) = some .unknown ∧
      (after (.unknownRequest .clocked 77) s).link.discarded = true := by
  decide +kernel
theorem test_head_clocked :
    let p := after (.headCharacterReceived .clocked 3) plant
    let f := after (.fetch .clocked) plant
    let g := after .flagsCharacterSent f
    (p.link.incoming.map (·.code)) = some 3 ∧ (parse .clocked 4 []).isNone = true ∧ knownCode 4 = true ∧
      (after (.headCharacterReceived .clocked 4) p).link = { p.link with
        discarded := true, incoming := some { code := 4, addressing := .own, chars := [] } } ∧
      (after (.headCharacterReceived .clocked 4) p).changes = p.changes ∧
      f.link.fetching.map (fun o => (o.sent, o.length)) = some (0, 2) ∧
      (after (.headCharacterReceived .clocked 4) f).link.discarded = true ∧
      (after (.headCharacterReceived .clocked 4) f).link.fetching = none ∧
      g.link.fetching.map (·.sent) = some 2 ∧ (after (.headCharacterReceived .clocked 4) g).link.discarded = false ∧
      parse .clocked 5 [] = some (.listCars .clocked, []) ∧
      after (.headCharacterReceived .clocked 5) p = after (.listCars .clocked) p ∧
      after (.headCharacterReceived .clocked 77) p = after (.unknownRequest .clocked 77) p ∧ knownCode 77 = false := by
  decide +kernel
theorem test_request_characters_async :
    let c (a : Byte) : Instr := .setLock (.async a) 2
    let run (a : Byte) : State := (a :: body (c a)).foldl (fun u ch => receiveBody .receive ch u) (receiveHead .receive (code (c a)) async)
    WellFormed (c 3) = true ∧ knownCode (code (c 3)) = true ∧ async.link.incoming = none ∧ async.link.form ≠ .clocked ∧
      run 3 = deliver (c 3) async ∧ run 15 = deliver (c 15) async ∧ run 4 = deliver (c 4) async ∧ (run 15).lock = 2 ∧
      (run 3).link.sending.isSome = true ∧ (run 4).lock = 0 := by
  decide +kernel

/-! ## Cuts and the orders -/

theorem test_cut_orders :
    let g (free : Word32) (s : State) : State := after (.gauge .clocked 2 free 0) s
    let targets (t : State) : List (Option Nat) := (t.spot 3).orders.map fun o => o.liquid.map (·.target)
    (transfer.vessel 2).entries.map (fun e => (e.spot, e.tag)) = [(3, 21), (3, 22)] ∧ (∀ j, (transfer.spot j).state ≠ .stroking) ∧
      targets (g 59 transfer) = [some 40, some 39] ∧
      (g 59 transfer).frame = { transfer.frame with
        vessels := transfer.vessels.set 2 { transfer.vessel 2 with
          gaugedFree := 59, entries := [{ spot := 3, tag := 21, remainder := 30 }, { spot := 3, tag := 22, remainder := 29 }] }
        spots := transfer.spots.set 3 { transfer.spot 3 with
          orders := [liquidOrder 21 .running,
            { liquidOrder 22 .queued with liquid := some { target := 39, vessel := 2, delivered := 10 } }] } } ∧
      (g 59 transfer).changes.spots = 8 ∧ (g 59 transfer).changes.vessels = 4 ∧
      targets (g 10 transfer) = [some 20] ∧ ((g 10 transfer).spot 3).headIs .running = true ∧
      ((g 10 transfer).car 2).bind (·.lastEnd) = some { tag := 22, kind := .liquid, reason := .cut, delivered := 10 } ∧
      (g 0 transfer).changes.spots = 8 ∧ ((g 0 transfer).spot 3).state = .transfer ∧
      ((g 0 transfer).spot 3).head = some { liquidOrder 21 .draining with
        reason := some .cut, liquid := some { target := 10, vessel := 2, delivered := 10 } } ∧
      ((g 0 transfer).vessel 2).entries = [{ spot := 3, tag := 21, remainder := 0 }] ∧
      ((g 0 transfer).spot 3).liquid.state = some .movingShut ∧ ((g 0 transfer).spot 3).seat = none ∧
      (g 1000 plant).changes.vessels = 4 ∧ (g 1000 plant).frame = plant.frame := by
  decide +kernel

/-! ## Profile writes and compressor proofs -/

theorem test_writeProfile_takes_up :
    let w (s : State) (sec : Byte) (f : List Byte) : State := after (.writeProfile .clocked sec f) s
    let bare (limits : Bool × Bool) : Valve := { Valve.reset with
      openLimit := { active := limits.1, count := 0 }, shutLimit := { active := limits.2, count := 0 } }
    let s := ((plant.modSpot 6 fun sp => { sp with
        vent := bare (false, true), liquid := bare (false, false), vapour := { bare (true, false) with state := some .fault }
        shutoff := bare (false, true) }).modSpot 7 fun sp => { sp with
        vent := bare (true, true), liquid := bare (false, true), vapour := bare (false, true), shutoff := bare (false, true) })
    let t := w s 0 (siteFields 8 4 2)
    s.supervisesSpot 6 = false ∧ t.supervisesSpot 6 = true ∧ s.grants = [] ∧ reply t = some (.done, [1, 1]) ∧
      (t.spot 6).vent = { bare (false, true) with supervised := true, state := some .shut } ∧
      (t.spot 6).liquid = { bare (false, false) with supervised := true, state := some .movingShut, timer := .running 600 } ∧
      (t.spot 6).vapour = { bare (true, false) with supervised := true, state := some .fault } ∧ (t.spot 6).state = .vacant ∧
      (t.spot 7).state = .faulted ∧ (t.spot 7).vent.isFault = true ∧ (t.spot 7).fault = some (.valve .vent) := by
  decide +kernel
theorem test_writeProfile_releases :
    let w (s : State) (sec : Byte) (f : List Byte) : State := after (.writeProfile .clocked sec f) s
    let s := plant.modComp 1 fun k => { k with
      state := .runOn, dir := some .push, startOn := true, push := valveAt .opened, pushMark := none, runTimer := .running 900
      run := { active := true, count := 0 } }
    let t := w s 0 (siteFields 3 4 1)
    let u := w (t.modComp 1 fun k => { k with faultInput := { active := true, count := 0 } }) 0 (siteFields 3 4 2)
    s.supervisesComp 1 = true ∧ t.supervisesComp 1 = false ∧
      (t.comp 1).push = { valveAt .opened with command := .toShut, supervised := false } ∧ (t.comp 1).state = .stopped ∧
      s.supervisesSpot 4 = true ∧ t.supervisesSpot 4 = false ∧ (t.spot 4).vent = { valveAt .shut with supervised := false } ∧
      (u.comp 1).state = .faulted ∧ (u.comp 1).fault = some .faultInput := by
  decide +kernel
theorem test_writeProfile_pulses :
    let s := (plant.modSpot 3 fun sp => { sp with pulses := 1 }).modSpot 1 fun sp => { sp with pulses := 1 }
    let t := after (.writeProfile .clocked 1 spotsFields) s
    s.divisor 3 = some 2 ∧ t.divisor 3 = some 1 ∧ t.divisor 1 = s.divisor 1 ∧ (t.spot 3).pulses = 0 ∧ (t.spot 1).pulses = 1 := by
  decide +kernel
theorem test_writeProfile_protection :
    let s := plant.modComp 1 fun k => { k with
      state := .starting, step := some .deadTime, dir := some .push, seated := [3], drawMark := some 300 }
    let low (d : Byte) : List Byte := [0, 0, 3, d] ++ protectionFields.drop 4
    let t := after (.writeProfile .clocked 3 (low 3)) s
    (after (.writeProfile .clocked 3 protectionFields) s).fe = false ∧
      (after (.writeProfile .clocked 3 protectionFields) s).esdActive = true ∧ t.fe = true ∧ t.esdActive = false ∧
      (t.comp 1).step = some .valveOpening ∧ (t.comp 1).push = (valveAt .shut).opening (.running 800) ∧
      ((after (.writeProfile .clocked 3 (low 4)) s).comp 1).step = some .deadTime := by
  decide +kernel
theorem test_commission_comps :
    let s := { plant with siding := .configured }
    let u := s.modComp 0 fun k => { k with push := valveAt .opened, pushMark := none }
    let v := s.modComp 0 fun k => { k with
      state := .faulted, push := { valveAt .fault with
        openLimit := { active := true, count := 0 }, shutLimit := { active := true, count := 0 } } }
    let t := after (.commission .clocked) u
    let f := s.modSpot 3 fun sp => { sp with
      state := .faulted, car := some { slot := 2, issue := 5 }, shutoff := valveAt .fault }
    (t.comp 0).state = .proof ∧ (t.comp 0).step = some .settling ∧ (t.comp 0).push.state = some .movingShut ∧
      (t.comp 1).state = .proof ∧ (t.comp 1).step = some .pushStroke ∧ (t.comp 1).push.state = some .movingOpen ∧
      t.tests.comps = [0, 1] ∧ t.siding = .commissioning ∧
      ((after (.commission .clocked) v).comp 0).state = .faulted ∧ (after (.commission .clocked) v).tests.comps = [1] ∧
      ((after (.commission .clocked) f).spot 3).state = .faulted ∧ (after (.commission .clocked) f).tests.spots = [0, 1, 2, 4, 5] := by
  decide +kernel

/-! ## The meter's trip, samples and unsupervised inputs -/

theorem test_flowHigh :
    let s := transfer.modSpot 3 fun sp => { sp with windowCount := 600 }
    let t := after (.litreEmitted 3) s
    (s.spot 3).active.flowHigh = 600 ∧ (s.vessel 2).remainder 3 21 = some (29 + 1) ∧ (t.spot 3).state = .isolating ∧
      (t.spot 3).fault = some .flowHigh ∧ (t.spot 3).seat = none ∧ (t.spot 3).window = .stopped ∧
      (t.spot 3).orders = [{ liquidOrder 21 .draining with
        reason := some .flowHigh, liquid := some { target := 40, vessel := 2, delivered := 11 } }] ∧
      (t.vessel 2).counter = 1 ∧ (t.vessel 2).remainder 3 21 = some 29 ∧ (t.spot 3).liquid.state = some .movingShut := by
  decide +kernel
theorem test_sample_classes :
    let held (k : Nat) (x : Input) : Bool :=
      let s := plant.withFilter x { active := false, count := k }
      decide (s.filterN x = 16 ∧
        after (.inputSample (x :: atRest) []) s = plant.withFilter x { active := false, count := k + 1 })
    let one := plant.protection.filters
    let fast : State := { plant with profile := { plant.profile with protection := some { protection15 with filters :=
      { limit := 1, bond := 1, hosePressure := 1, residual := 1, pendant := 1, vesselTrip := 1, compressor := 1 } } } }
    let xs : List Input := [.bond 1, .hose 1, .residual 1, .connectedButton 1, .stopButton 1, .clearButton 1, .trip 1, .run 1,
      .faultInput 1, .openLimit (.spot 1 .vent), .openLimit (.direction 1 .push)]
    one.limit = 16 ∧ (xs.all (held 3)) = true ∧
      (xs.all fun x => match deliveredAs (x :: atRest) x with
        | some c => decide (after (.inputSample (x :: atRest) []) fast = after c fast)
        | none => false) = true := by
  decide +kernel
theorem test_sample_pair_and_release :
    let fast : State := { plant with profile := { plant.profile with protection := some { protection15 with filters :=
      { limit := 1, bond := 1, hosePressure := 1, residual := 1, pendant := 1, vesselTrip := 1, compressor := 1 } } } }
    let v : ValveId := .spot 1 .vent
    let swapped := Input.openLimit v :: atRest.filter (· ≠ .shutLimit v)
    let down := fast.withFilter (.stopButton 1) { active := true, count := 0 }
    after (.inputSample swapped []) fast = after (.limitChange v true false) fast ∧
      ((after (.inputSample swapped []) fast).spot 1).state = .faulted ∧ deliveredAs atRest (.stopButton 1) = none ∧
      after (.inputSample atRest []) down = fast := by
  decide +kernel
theorem test_unsupervised :
    let s := plant.modSpot 7 fun sp => { sp with vent := { Valve.reset with supervised := false } }
    let t := after (.limitChange (.spot 7 .vent) true false) s
    (s.spot 7).vent.supervised = false ∧ s.due = none ∧
      t.frame = { s.frame with spots := s.spots.set 7 { s.spot 7 with
        vent := { (s.spot 7).vent with openLimit := { active := true, count := 0 } } } } ∧ t.changes = s.changes ∧
      (after (.bondActive 7) s).changes = s.changes ∧ (after (.residualActive 7) s).changes = s.changes ∧
      (let one := { plant with profile := { plant.profile with site := some { site6 with compressors := 1 } } }
       one.fittedComp 1 = false ∧ (after (.runFeedbackActive 1) one).changes = one.changes ∧
         (after (.faultInputActive 1) one).changes = one.changes) := by
  decide +kernel
theorem test_unsupervised_steady : (plant.spot 7).steady ∧ plant.inletsFollow := by
  unfold Spot.steady State.inletsFollow; decide +kernel

/-! ## Arrivals -/

theorem test_liquid_opens :
    let s := transfer.modSpot 3 fun sp => { sp with liquid := valveAt .movingOpen, stall := .stopped }
    let t := after (.limitChange (.spot 3 .liquid) true false) s
    s.due = none ∧ (s.spot 3).headIs .running = true ∧
      t.frame = { s.frame with spots := s.spots.set 3 { s.spot 3 with
        liquid := (s.spot 3).liquid.arrived true, stall := .running 6000 } } ∧ t.changes.spots = 8 := by
  decide +kernel
theorem test_nears :
    (valveAt .movingOpen).nears true ∧ (valveAt .movingShut).nears false ∧
      (valveAt .movingOpen).arrived true = valveAt .opened ∧ (valveAt .movingShut).arrived false = valveAt .shut := by
  unfold Valve.nears; decide +kernel

/-- Spot 3 with this DRAINING head and these orders behind it, its liquid valve on its way shut. -/
def draining (st : SpotState) (ca : Bool) (r : EndReason) (rest : List Order) : State :=
  (transfer.modSpot 3 fun sp => { sp with
    state := st, seat := none, liquid := valveAt .movingShut, holds := .empty, stall := .stopped
    orders := { liquidOrder 21 .draining with reason := some r, closeAfter := ca } :: rest })
    |>.modComp 0 fun k => { k with state := .faulted, seated := [] }
def shutLiquid : Instr := .limitChange (.spot 3 .liquid) false true

theorem test_order_leaves :
    let s := draining .transfer false .target []
    let t := after shutLiquid s
    (t.spot 3).state = .connected ∧ (t.spot 3).orders = [] ∧ (t.spot 3).window = .stopped ∧ (t.vessel 2).remainder 3 21 = none ∧
      (t.spot 3).vapour.command = .toShut ∧ t.changes.spots = 8 ∧ t.changes.vessels = 4 ∧
      t.car 2 = some { carThree with
        phase := .unloading, revision := 8, lastEnd := some { tag := 21, kind := .liquid, reason := .target, delivered := 10 } } ∧
      (let f := s.modComp 1 fun k => { k with state := .faulted }
       let n := f.modSpot 3 fun sp => { sp with orders := sp.orders ++ [liquidOrder 22 .queued] }
       let u := after shutLiquid n
       let x := after shutLiquid (n.modVessel 2 fun r => { r with trip := { active := true, count := 0 } })
       (∀ c, (n.comp c).state = .faulted) ∧ (u.spot 3).state = .staged ∧ (u.spot 3).orders = [liquidOrder 22 .waiting] ∧
         u.grants = [{ spot := 3, dir := .push }] ∧ (x.spot 3).state = .held ∧ (x.spot 3).holds.vesselTrip = true ∧
         (x.spot 3).orders = [liquidOrder 22 .suspended] ∧ x.grants = []) := by
  decide +kernel
theorem test_order_leaves_held :
    let s := draining .held false .target [liquidOrder 22 .queued]
    let e := draining .held false .target []
    let c := draining .transfer true .target [liquidOrder 22 .queued]
    let i := draining .isolating false .stopped []
    let i := i.modSpot 3 fun sp => { sp with step := some .linesClosing }
    ((after shutLiquid s).spot 3).state = .held ∧ ((after shutLiquid s).spot 3).orders = [liquidOrder 22 .suspended] ∧
      ((after shutLiquid e).spot 3).state = .held ∧ ((after shutLiquid e).spot 3).orders = [] ∧
      EndReason.natural .target = true ∧ ((after shutLiquid c).spot 3).state = .isolating ∧
      ((after shutLiquid c).spot 3).orders = [] ∧ ((after shutLiquid c).spot 3).shutoff.command = .toShut ∧
      ((after shutLiquid i).spot 3).state = .isolating ∧ ((after shutLiquid i).spot 3).orders = [] := by
  decide +kernel
theorem test_draining_legal :
    ((draining .transfer false .target []).spot 3).queueLegal ∧ ((draining .held false .target [liquidOrder 22 .queued]).spot 3).queueLegal ∧
      (draining .transfer false .target []).waitsNowhereBut 3 ∧ (draining .transfer false .target []).waitsNowhere := by
  refine ⟨⟨by decide +kernel, by decide +kernel, by decide +kernel, fun e => by cases e⟩,
    ⟨by decide +kernel, by decide +kernel, by decide +kernel, trivial⟩, ?_, ?_⟩ <;>
    (first | unfold State.waitsNowhereBut Spot.waits | unfold State.waitsNowhere Spot.waits) <;> decide +kernel
theorem test_shutoff_opens :
    let s := held.modSpot 3 fun sp => { sp with state := .staged, holds := .empty, shutoff := valveAt .movingOpen }
    let t := after (.limitChange (.spot 3 .shutoff) true false) s
    (s.spot 3).headIs .suspended = true ∧ (s.spot 3).vapour.isShut = true ∧ (t.spot 3).headIs .waiting = true ∧
      (t.spot 3).seat = some 0 ∧ (t.comp 0).state = .starting ∧ t.changes.spots = 8 := by
  decide +kernel
theorem test_isolation_arrivals :
    let a := bleeding.modSpot 3 fun sp => { sp with step := some .linesClosing, timer := .stopped, vent := valveAt .shut, vapour := valveAt .movingShut }
    let b := a.modSpot 3 fun sp => { sp with step := some .ventOpening, vapour := valveAt .shut, vent := valveAt .movingOpen }
    let c := b.modSpot 3 fun sp => { sp with step := some .ventClosing, vent := valveAt .movingShut }
    let d := b.modSpot 3 fun sp => { sp with standing := true }
    let t := after (.limitChange (.spot 3 .vapour) false true) a
    a.due = none ∧ (t.spot 3).step = some .ventOpening ∧ (t.spot 3).vent = (valveAt .shut).opening (.running 600) ∧
      (t.spot 3).vapour = valveAt .shut ∧
      (after (.limitChange (.spot 3 .vent) true false) b).frame = { b.frame with
        spots := b.spots.set 3 { b.spot 3 with step := some .bleeding, timer := .running 2000, vent := valveAt .opened } } ∧
      (after (.limitChange (.spot 3 .vent) false true) c).frame = { c.frame with
        spots := c.spots.set 3 { c.spot 3 with state := .spotted, step := none, vent := valveAt .shut }
        cars := c.cars.set 2 { issue := 5, car := some { carThree with phase := .served, hoses := false, revision := 8 } } } ∧
      (after (.limitChange (.spot 3 .vent) true false) d).frame = { d.frame with
        spots := d.spots.set 3 { d.spot 3 with vent := valveAt .opened } } := by
  decide +kernel
theorem test_stroke_arrivals :
    let v := stroking
    let w := stroking.modSpot 3 fun sp => { sp with step := some (.stroking .vent true), vent := valveAt .movingShut }
    let x := { stroking with siding := .commissioning, tests := { spots := [3], comps := [] } }.modSpot 3 fun sp => { sp with
      step := some (.stroking .shutoff true), vent := valveAt .shut, shutoff := { valveAt .movingShut with retest := true } }
    let y := { x with tests := { spots := [3], comps := [1] } }.modSpot 3 fun sp => { sp with
      step := some (.stroking .liquid true), liquid := valveAt .movingShut, car := some { slot := 2, issue := 5 } }
    let t := after (.limitChange (.spot 3 .vent) true false) v
    let u := after (.limitChange (.spot 3 .vent) false true) w
    let p := after (.limitChange (.spot 3 .shutoff) false true) x
    let q := after (.limitChange (.spot 3 .liquid) false true) y
    (t.spot 3).step = some (.stroking .vent true) ∧ (t.spot 3).vent = (valveAt .opened).shutting (.running 600) ∧
      (u.spot 3).step = some (.stroking .vapour false) ∧ (u.spot 3).vapour = (valveAt .shut).opening (.running 600) ∧
      (p.spot 3).state = .vacant ∧ (p.spot 3).shutoff.retest = false ∧ p.siding = .operating ∧ p.tests.spots = [] ∧
      (q.spot 3).state = .spotted ∧ q.siding = .commissioning ∧ q.tests = { spots := [], comps := [1] } := by
  decide +kernel
theorem test_direction_arrivals :
    let k (f : Comp → Comp) : State := plant.modComp 1 f
    let a := k fun x => { x with state := .reversing, step := some .valveOpening, dir := some .draw, draw := valveAt .movingOpen }
    let b := k fun x => { x with state := .reversing, step := some .valvesShutting, dir := some .draw, push := valveAt .movingShut }
    let c := k fun x => { x with state := .proof, step := some .settling, draw := valveAt .movingShut }
    let d := k fun x => { x with state := .proof, step := some .pushStroke, push := valveAt .movingOpen }
    let e := k fun x => { x with state := .proof, step := some .drawStroke, stroked := true, draw := valveAt .movingShut }
    let f := k fun x => { x with state := .proof, step := some .runWait, push := valveAt .movingOpen }
    let g := { k fun x => { x with state := .proof, step := some .stopping, push := valveAt .movingShut } with
      siding := .commissioning, tests := { spots := [], comps := [1] } }
    let at' (s : State) (dd : Direction) (o : Bool) : State := after (.limitChange (.direction 1 dd) o (!o)) s
    ((at' a .draw true).comp 1).state = .starting ∧ ((at' a .draw true).comp 1).step = some .runWait ∧
      ((at' a .draw true).comp 1).startTimer = .running 2000 ∧ ((at' b .push false).comp 1).step = some .deadTime ∧
      ((at' b .push false).comp 1).pushMark = some 0 ∧ ((at' c .draw false).comp 1).step = some .pushStroke ∧
      ((at' d .push true).comp 1).stroked = true ∧ ((at' d .push true).comp 1).push.state = some .movingShut ∧
      ((at' e .draw false).comp 1).step = some .runWait ∧ ((at' f .push true).comp 1).startOn = true ∧
      ((at' g .push false).comp 1).state = .stopped ∧ (at' g .push false).siding = .operating := by
  decide +kernel

/-! ## Seats and turns -/

theorem test_seat_stopped :
    let s := (connected.modComp 1 fun k => { k with state := .faulted })
    let y := s.modComp 0 fun k => { k with drawMark := some 1499 }
    let t := after (.placeOrder .clocked 3 23 0 (some 100) (some 2) 0) s
    let u := after (.placeOrder .clocked 3 23 0 (some 100) (some 2) 0) y
    (∀ k, (s.comp k).state.working = false) ∧ (∀ k, (s.comp k).turning = none) ∧ (t.spot 3).state = .staged ∧
      (t.spot 3).headIs .waiting = true ∧ (t.spot 3).seat = some 0 ∧ (t.comp 0).state = .starting ∧
      (t.comp 0).step = some .valveOpening ∧ (t.comp 0).push = (valveAt .shut).opening (.running 800) ∧
      (t.comp 0).pushMark = none ∧ t.grants = [] ∧ t.changes.comps = 3 ∧ t.changes.spots = 8 ∧
      (u.comp 0).step = some .deadTime ∧ (u.comp 0).push = valveAt .shut := by
  decide +kernel
/-- Compressor 0 at work in this state and direction with these seats, the other FAULTED, spot 3 CONNECTED. -/
def atWork (st : CompState) (d : Direction) (seated : List SpotNo) : State :=
  (connected.modComp 1 fun k => { k with state := .faulted }).modComp 0 fun k =>
    { k with
      state := st, dir := some d, seated, startOn := true, run := { active := true, count := 0 }
      push := if d = .push then valveAt .opened else valveAt .shut, draw := if d = .draw then valveAt .opened else valveAt .shut
      runTimer := if st = .runOn then .running 900 else .stopped }
theorem test_seat_working :
    let p (s : State) : State := after (.placeOrder .clocked 3 23 0 (some 100) (some 2) 0) s
    let r (s : State) : State := after (.placeOrder .clocked 3 23 1 none none 0) s
    let on := atWork .runOn .push []
    (on.hasSeat .push 0) = true ∧ ((p on).comp 0).state = .running ∧ ((p on).comp 0).runTimer = .stopped ∧
      ((p on).spot 3).state = .transfer ∧ ((p on).spot 3).window = .running 1000 ∧
      ((p on).spot 3).liquid.state = some .movingOpen ∧
      ((r (atWork .running .draw [5])).spot 3).state = .recovery ∧ ((r (atWork .running .draw [5])).comp 0).seated = [3, 5] ∧
      ((r (atWork .running .draw [5])).spot 3).recoveryTimer = .running 360000 ∧
      ((p (atWork .starting .push [5])).spot 3).state = .staged ∧ ((p (atWork .starting .push [5])).spot 3).seat = some 0 := by
  decide +kernel
theorem test_turn :
    let p (s : State) : State := after (.placeOrder .clocked 3 23 0 (some 100) (some 2) 0) s
    let b := p (atWork .running .draw [5])
    let e := p (atWork .runOn .draw [])
    (b.comp 0).turning = some 3 ∧ b.grants = [{ spot := 3, dir := .push }] ∧ (b.spot 3).headIs .waiting = true ∧
      (b.spot 3).seat = none ∧ b.changes.comps = 3 ∧
      (e.comp 0).state = .reversing ∧ (e.comp 0).step = some .valvesShutting ∧ (e.comp 0).dir = some .push ∧
      (e.comp 0).turning = none ∧ (e.comp 0).seated = [3] ∧ (e.comp 0).startOn = false ∧ (e.spot 3).seat = some 0 ∧
      (e.comp 0).draw = (valveAt .opened).shutting (.running 800) := by
  decide +kernel
/-- Spot 3 waits for compressor 0, which is TURNING by it and whose last seat a WAITING head of spot 5 holds. -/
def turning : State :=
  ((atWork .running .draw [5]).modSpot 5 fun sp => { sp with
      state := .staged, seat := some 0
      orders := [{ tag := 41, liquid := none, closeAfter := false, state := .waiting, reason := none }] })
    |>.modSpot 3 (fun sp => { sp with state := .staged, orders := [liquidOrder 21 .waiting] })
    |>.modComp 0 fun k => { k with turning := some 3 }
theorem test_turn_reverses :
    let s := { turning with grants := [{ spot := 3, dir := .push }] }
    let t := after (.cancelOrder .clocked 5 41) s
    reply t = some (.done, [0]) ∧ (t.spot 5).state = .connected ∧ (t.spot 5).orders = [] ∧ (t.spot 5).seat = none ∧
      (t.spot 3).seat = some 0 ∧ (t.spot 3).state = .staged ∧ t.grants = [] ∧ (t.comp 0).state = .reversing ∧
      (t.comp 0).dir = some .push ∧ (t.comp 0).turning = none ∧ (t.comp 0).seated = [3] ∧ t.changes.comps = 3 ∧
      t.changes.spots = 40 := by
  decide +kernel
theorem test_turn_waits :
    (turning.spot 3).waits ∧ (turning.spot 5).waits ∧ ∀ k, k ≠ 3 → k ≠ 5 → ¬ (turning.spot k).waits := by
  unfold Spot.waits; decide +kernel
theorem test_guards :
    let k (f : Comp → Comp) : State := plant.modComp 1 f
    let r := k fun x => { x with state := .reversing, step := some .deadTime, dir := some .push, drawMark := some 1500 }
    let p := k fun x => { x with state := .proof, step := some .drawStroke, pushMark := some 1500 }
    let y := k fun x => { x with state := .proof, step := some .drawStroke, pushMark := some 1499 }
    ((after (.guardExpiry 1 .draw) r).comp 1).step = some .valveOpening ∧
      ((after (.guardExpiry 1 .draw) r).comp 1).push = (valveAt .shut).opening (.running 800) ∧
      ((after (.guardExpiry 1 .push) p).comp 1).draw = (valveAt .shut).opening (.running 800) ∧
      ((after (.guardExpiry 1 .push) p).comp 1).step = some .drawStroke ∧ after (.guardExpiry 1 .push) y = y := by
  decide +kernel
theorem test_runOn_zero :
    let s := { lonely .starting with profile := { plant.profile with site := some { site6 with runOnTime := 0 } } }
    let t := after (.runFeedbackActive 1) s
    (s.comp 1).seated = [] ∧ (t.comp 1).state = .stopped ∧ (t.comp 1).dir = none ∧ (t.comp 1).startOn = false ∧
      (t.comp 1).push.state = some .movingShut := by
  decide +kernel


/-! ## Clauses at a boundary -/

theorem test_head_alone :
    let a := { plant with link := { Link.reset with form := .asynchronous, unit := 3 } }
    let t (s : State) (l : Line) (ch : Byte) : State := after (.headCharacterReceived l ch) s
    knownCode 9 = true ∧ (parse .clocked 9 []).isNone = true ∧
      (t a .receive 9).link = { a.link with incoming := some { code := 9, addressing := .awaited, chars := [] } } ∧
      (t a .receive 9).changes = a.changes ∧ (t a .receive 9).frame = a.frame ∧
      (t plant .clocked 9).link = { plant.link with incoming := some { code := 9, addressing := .own, chars := [] } } ∧
      (t plant .clocked 9).changes = plant.changes ∧ (t plant .clocked 9).frame = plant.frame := by
  decide +kernel
/-- A litre into vessel 2 for the head of spot 3, whose entry stands at 0; the newest entry is that of the order behind it. -/
def overrun : State :=
  transfer.modVessel 2 fun r => { r with gaugedFree := 30, entries := [⟨3, 21, 0⟩, ⟨3, 22, 30⟩] }
theorem test_litre_cuts :
    let t := after (.litreEmitted 3) overrun
    let u := after (.litreEmitted 3)
      (overrun.modVessel 2 fun r => { r with gaugedFree := 1, entries := [⟨3, 22, 1⟩] })
    overrun.due = none ∧ (overrun.vessel 2).reserved = 30 ∧ (t.vessel 2).counter = 1 ∧
      (t.vessel 2).entries = [⟨3, 21, 0⟩, ⟨3, 22, 29⟩] ∧ (t.vessel 2).available = 29 ∧
      (t.spot 3).orders.map (fun o => (o.tag, o.liquid.map fun l => (l.target, l.delivered)))
        = [(21, some (40, 11)), (22, some (39, 10))] ∧
      (t.car 2).map (·.delivered) = some 101 ∧ t.changes.spots = 8 ∧ t.changes.vessels = 4 ∧
      (u.vessel 2).entries = [] ∧ (u.spot 3).orders.map (·.tag) = [21] := by
  decide +kernel
theorem test_litre_cuts_drain :
    let s := ((connected.modSpot 3 fun sp => { sp with
        state := .transfer, orders := [liquidOrder 21 .running], liquid := valveAt .opened })
      |>.modSpot 4 fun sp => { sp with state := .transfer, orders := [liquidOrder 41 .running], liquid := valveAt .opened })
      |>.modVessel 2 fun r => { r with gaugedFree := 1, entries := [⟨4, 41, 1⟩] }
    let t := after (.litreEmitted 3) s
    (s.spot 4).headDrains = true ∧ (t.spot 4).orders.map (fun o => (o.state, o.reason)) = [(.draining, some .cut)] ∧
      (t.spot 4).liquid.state = some .movingShut ∧ (t.vessel 2).entries = [⟨4, 41, 0⟩] ∧ (t.spot 3).headIs .running = true := by
  decide +kernel
theorem test_litre_cuts_legal : (∀ j, (overrun.spot j).queueLegal) ∧
    (∀ j, (overrun.spot j).steady ∧ (overrun.spot j).state ≠ .stroking) ∧
    ((overrun.vessel 2).entries.map fun e => (e.spot, e.tag)).Nodup :=
  ⟨test_queues_meet, by unfold Spot.steady; decide +kernel, by decide +kernel⟩
theorem test_dead_time_stands :
    let s := { plant with fe := true }.modComp 1 fun k => { k with
      state := .starting, step := some .deadTime, dir := some .push, drawMark := some 1600, pushMark := none }
    let w (m : Byte) : State := after (.writeProfile .clocked 3 ([0, 0, 3, m] ++ [1, 1, 1, 1, 1, 1, 1] ++ [0, 0, 0, 0, 0])) s
    s.protection.deadTime = 15 ∧ s.due = none ∧ (w 15).fe = true ∧ (w 15).comps = s.comps ∧ (w 15).spots = s.spots ∧
      (w 15).grants = s.grants ∧ ((w 16).comp 1).step = some .valveOpening ∧ ((w 17).comp 1).step = some .deadTime := by
  decide +kernel
theorem test_fit_two_faults :
    let u := { plant with profile := { plant.profile with site := some { site6 with compressors := 1 } } }.modComp 1 fun k =>
      { k with
          faultInput := { active := true, count := 0 }
          push := { Valve.reset with openLimit := { active := true, count := 0 }, shutLimit := { active := true, count := 0 } } }
    let t := after (.writeProfile .clocked 0 (siteFields 6 4 2)) u
    u.fittedComp 1 = false ∧ t.fittedComp 1 = true ∧ (t.comp 1).state = .faulted ∧ (t.comp 1).fault = some .faultInput := by
  decide +kernel
theorem test_commission_ends_at_once :
    let s := { plant with siding := .configured, profile := { plant.profile with site := some { site6 with spots := 1, compressors := 1 } } }
    let u := (s.modSpot 0 fun sp => { sp with hose := { active := true, count := 0 } }).modComp 0 fun k =>
      { k with faultInput := { active := true, count := 0 } }
    let c := (withCar .placed { s with profile := plant.profile }).modSpot 3 fun sp => { sp with
      state := .spotted, hose := { active := true, count := 0 }, shutoff := valveAt .fault }
    let t := after (.commission .clocked) u
    let d := after (.commission .clocked) c
    reply t = some (.done, [3, 0, 0]) ∧ t.siding = .operating ∧ t.tests = { spots := [], comps := [] } ∧
      (d.spot 3).state = .faulted ∧ (d.spot 3).fault = some .pressure ∧ d.siding = .commissioning := by
  decide +kernel
theorem test_direction_limit_fault :
    let a := after (.limitChange (.direction 0 .push) false false) transfer
    let b := after (.limitChange (.direction 0 .draw) true true) transfer
    let m := transfer.modComp 0 fun k => { k with draw := { valveAt .movingShut with openLimit := { active := true, count := 0 } } }
    let c := after (.limitChange (.direction 0 .draw) true true) m
    let n := (withCar .placed plant).modSpot 3 fun sp => { sp with vapour := valveAt .movingOpen }
    (a.comp 0).state = .faulted ∧ (a.comp 0).fault = some (.valve .push) ∧ (a.comp 0).startOn = false ∧
      (a.comp 0).seated = [] ∧ (a.spot 3).state = .held ∧ (a.spot 3).holds.compressor = true ∧
      (b.comp 0).fault = some (.valve .draw) ∧ (b.comp 0).draw.isFault = true ∧ (c.comp 0).fault = some (.valve .draw) ∧
      ((after (.limitChange (.spot 3 .vapour) true true) n).spot 3).fault = some (.valve .vapour) := by
  decide +kernel
theorem test_draining_held :
    let s := draining .transfer false .target [liquidOrder 22 .queued]
    let h := draining .held false .target []
    let p := after (.pendantStop 3) s
    let v := after (.vesselTripActive 2) s
    let e := after (.esdInputActive false) s
    (s.spot 3).liquid.isShut = false ∧ (s.spot 3).liquid.state ≠ some .movingOpen ∧
      (p.spot 3).state = .held ∧ (p.spot 3).orders = (s.spot 3).orders ∧ (p.spot 3).holds.crewStop = true ∧
      (p.spot 3).vapour.command = .toShut ∧ (p.spot 3).liquid.command = .toShut ∧
      (v.spot 3).state = .held ∧ (v.spot 3).orders = (s.spot 3).orders ∧ (v.spot 3).holds.vesselTrip = true ∧
      (v.spot 3).vapour.command = .toShut ∧ ((after (.vesselTripActive 2) h).spot 3).holds.vesselTrip = true ∧
      ((after (.vesselTripActive 2) h).spot 3).orders = (h.spot 3).orders ∧
      (e.spot 3).state = .held ∧ (e.spot 3).orders = (s.spot 3).orders ∧ (e.spot 3).holds.esd = true ∧
      (e.spot 3).shutoff.command = .toShut ∧ (e.spot 3).vapour.command = .toShut ∧
      ((after (.esdInputActive false) h).spot 3).orders = (h.spot 3).orders := by
  decide +kernel
theorem test_drives :
    let h := { transfer with profile := { transfer.profile with protection := some { protection15 with
      closed := { shutoff := .held, liquid := .released, vapour := .held, vent := .held, direction := .held } } } }
    let m := transfer.modSpot 3 fun sp => { sp with liquid := valveAt .movingShut }
    transfer.openDrive (.spot 3 .liquid) = true ∧ transfer.shutDrive (.spot 3 .liquid) = false ∧
      transfer.openDrive (.spot 3 .vent) = false ∧ transfer.shutDrive (.spot 3 .vent) = false ∧
      h.shutDrive (.spot 3 .vent) = true ∧ h.shutDrive (.spot 3 .shutoff) = false ∧
      m.shutDrive (.spot 3 .liquid) = true ∧ ({ m with fe := false } : State).shutDrive (.spot 3 .liquid) = false ∧
      ({ h with fe := false } : State).openDrive (.spot 3 .vapour) = false ∧
      ({ h with fe := false } : State).shutDrive (.spot 3 .vapour) = true ∧
      transfer.openDrive (.direction 0 .push) = true ∧ h.shutDrive (.direction 0 .draw) = true ∧
      ({ h with fe := false } : State).openDrive (.direction 0 .push) = false := by
  decide +kernel
theorem test_run_waits_for_nothing :
    let g := plant.modComp 1 fun k => { k with state := .starting, step := some .deadTime, dir := some .push, drawMark := some 1500 }
    let p := plant.modComp 1 fun k => { k with state := .proof, step := some .runWait, drawMark := some 1500 }
    let run (s : State) : State := after (.runFeedbackActive 1) s
    g.guardMet 1 = true ∧ p.guardMet 1 = true ∧
      (run g).comp 1 = { g.comp 1 with run := { active := true, count := 0 } } ∧
      (run p).comp 1 = { p.comp 1 with run := { active := true, count := 0 } } ∧ (run g).changes.comps = 2 ∧
      (g.comp 1).awaits = some .push ∧ after (.guardExpiry 1 .push) g = g ∧
      ((after (.limitChange (.direction 1 .push) true true) g).comp 1).state = .faulted ∧
      ((after (.guardExpiry 1 .draw) g).comp 1).step = some .valveOpening := by
  decide +kernel
theorem test_open_while_running :
    let k (f : Comp → Comp) : State := plant.modComp 1 fun x => { f x with run := { active := true, count := 0 } }
    let a := starting.modComp 0 fun x => { x with
      step := some .valveOpening, startOn := false, startTimer := .stopped, push := valveAt .movingOpen
      run := { active := true, count := 0 } }
    let b := k fun x => { x with state := .reversing, step := some .valveOpening, dir := some .draw, draw := valveAt .movingOpen }
    let z := { b with profile := { b.profile with site := some { site6 with runOnTime := 0 } } }
    let p := k fun x => { x with state := .proof, step := some .runWait, push := valveAt .movingOpen }
    let t := after (.limitChange (.direction 0 .push) true false) a
    let u (s : State) (d : Direction) : Comp := (after (.limitChange (.direction 1 d) true false) s).comp 1
    (a.comp 0).seated ≠ [] ∧ (t.comp 0).state = .running ∧ (t.comp 0).startTimer = .stopped ∧ (t.spot 3).headIs .running = true ∧
      t.changes.comps = 1 ∧ (u b .draw).state = .runOn ∧ (u b .draw).runTimer = .running 3000 ∧ (u b .draw).startOn = true ∧
      (u z .draw).state = .stopped ∧ (u z .draw).draw = (valveAt .opened).shutting (.running 800) ∧
      (u p .push).step = some .proofRun ∧ (u p .push).runTimer = .running 1000 ∧ (u p .push).startOn = true := by
  decide +kernel
theorem test_push_settles :
    let s := plant.modComp 1 fun k => { k with
      state := .proof, step := some .settling, dir := some .push, push := valveAt .movingShut, drawMark := some 1499 }
    let r := s.modComp 1 fun k => { k with drawMark := some 1500 }
    let u (s : State) : Comp := (after (.limitChange (.direction 1 .push) false true) s).comp 1
    (u s).step = some .pushStroke ∧ (u s).push = valveAt .shut ∧ (u s).pushMark = some 0 ∧
      (u r).step = some .pushStroke ∧ (u r).push = (valveAt .shut).opening (.running 800) ∧ (u r).pushMark = none := by
  decide +kernel
theorem test_quiet_compressors :
    plant.waitsNowhere ∧ (plant.modComp 1 fun k => { k with state := .reversing, run := { active := true, count := 0 } }).waitsNowhere := by
  unfold State.waitsNowhere Spot.waits; decide +kernel

end Sys2Proof.Tests
end

section
/-! PROOFS. CLEAR HOLD (R38): the number a request names (R24), the reason it names, the owner's answer clause by clause, and the
hold set (R35) and the flag it leaves. -/

namespace Sys2Proof.Machine

/-! ## The spot a request names (R24) -/

theorem finOf_eq_some_iff {n : Nat} {b : Byte} {i : Fin n} : finOf n b = some i ↔ b.toNat = i.val := by
  unfold finOf
  split
  · simp only [Option.some.injEq, Fin.ext_iff]
  · simp only [reduceCtorEq, false_iff]
    omega

theorem namedSpot_unconfigured {s : State} (b : Byte) (h : s.siding = .unconfigured) :
    s.namedSpot b = .error .notConfigured := by
  unfold State.namedSpot; rw [if_pos h]

theorem namedSpot_unfitted {s : State} {b : Byte} (h : s.siding ≠ .unconfigured)
    (hb : ∀ i : SpotNo, b.toNat = i.val → s.fittedSpot i = false) : s.namedSpot b = .error .range := by
  unfold State.namedSpot
  rw [if_neg h]
  cases hf : finOf 8 b with
  | none => rfl
  | some i => simp [hb i (finOf_eq_some_iff.mp hf)]

theorem namedSpot_fitted {s : State} {b : Byte} {i : SpotNo} (h : s.siding ≠ .unconfigured) (hb : b.toNat = i.val)
    (hi : s.fittedSpot i = true) : s.namedSpot b = .ok i := by
  unfold State.namedSpot
  rw [if_neg h, finOf_eq_some_iff.mpr hb]
  exact if_pos hi

/-- The frame holds all that the naming of a spot looks at. -/
theorem namedSpot_of_frame {s u : State} (h : u.frame = s.frame) (b : Byte) : u.namedSpot b = s.namedSpot b := by
  have hs : u.siding = s.siding := congrArg Frame.siding h
  have hp : u.profile = s.profile := congrArg Frame.profile h
  unfold State.namedSpot State.fittedSpot State.site
  rw [hs, hp]

theorem spot_of_frame {s u : State} (h : u.frame = s.frame) (i : SpotNo) : u.spot i = s.spot i :=
  spot_of_spots (congrArg Frame.spots h) i

theorem withSpot_error {s : State} {b : Byte} {st : Status} (f : SpotNo → State × Reply)
    (h : s.namedSpot b = .error st) : withSpot b s f = (s, .bare st) := by
  unfold withSpot; rw [h]

theorem withSpot_ok {s : State} {b : Byte} {i : SpotNo} (f : SpotNo → State × Reply) (h : s.namedSpot b = .ok i) :
    withSpot b s f = f i := by
  unfold withSpot; rw [h]

/-! ## The reason a request names -/

/-- The list of reasons ends at 3. -/
theorem holdReasonOf_eq_none_iff (b : Byte) : holdReasonOf b = none ↔ 3 < b.toNat := by
  unfold holdReasonOf
  split
  case h_5 _ n0 n1 n2 n3 =>
    simp only [imp_false] at n0 n1 n2 n3
    simp only [true_iff]
    omega
  all_goals
    simp only [reduceCtorEq, false_iff]
    omega

/-! ## The hold set -/

/-- A reason that is absent is removed without a change. -/
theorem HoldSet.put_false_of_absent {h : HoldSet} {r : HoldReason} (hr : h.has r = false) : h.put r false = h := by
  cases h; cases r <;> simp_all [HoldSet.has, HoldSet.put]

theorem HoldSet.has_put_false (h : HoldSet) (r : HoldReason) : (h.put r false).has r = false := by
  cases r <;> rfl

/-- A reason that is present leaves another set behind. -/
theorem HoldSet.put_false_ne {h : HoldSet} {r : HoldReason} (hr : h.has r = true) : h.put r false ≠ h := by
  intro e
  have := h.has_put_false r
  simp [e, hr] at this

theorem removeHold_frame (i : SpotNo) (r : HoldReason) (s : State) :
    (removeHold i r s).frame =
      { s.frame with spots := s.spots.set i { s.spot i with holds := (s.spot i).holds.put r false } } := rfl

@[simp] theorem removeHold_holds (i : SpotNo) (r : HoldReason) (s : State) :
    ((removeHold i r s).spot i).holds = (s.spot i).holds.put r false := by
  simp [removeHold]

/-- The removal of an absent reason leaves the whole state. -/
theorem removeHold_of_absent {i : SpotNo} {r : HoldReason} {s : State} (hr : (s.spot i).holds.has r = false) :
    removeHold i r s = s := by
  have hsp : { s.spot i with holds := (s.spot i).holds.put r false } = s.spot i := by
    rw [HoldSet.put_false_of_absent hr]
  have hset : s.spots.set i { s.spot i with holds := (s.spot i).holds.put r false } = s.spots := by
    rw [hsp]; exact Vector.set_getElem_self i.isLt
  exact congrArg (fun x => { s with spots := x }) hset

/-- The removal of a present reason is seen in the spot's report. -/
theorem removeHold_spotView_ne {i : SpotNo} {r : HoldReason} {s : State} (hr : (s.spot i).holds.has r = true) :
    s.spotView i ≠ (removeHold i r s).spotView i := by
  intro e
  have hh : (s.spot i).holds = ((removeHold i r s).spot i).holds := congrArg SpotView.holds e
  rw [removeHold_holds] at hh
  exact HoldSet.put_false_ne hr hh.symm

/-! ## The owner's answer (R38) -/

section Answer

variable {s : State} {place reason : Byte}

theorem answerClearHold_error {st : Status} (hn : s.namedSpot place = .error st) :
    answerClearHold place reason s = (s, .bare st) := withSpot_error _ hn

variable {i : SpotNo} (hn : s.namedSpot place = .ok i)

include hn

theorem answerClearHold_unknown (hr : holdReasonOf reason = none) :
    answerClearHold place reason s = (s, .bare .range) := by
  unfold answerClearHold; rw [withSpot_ok _ hn, hr]

variable {r : HoldReason} (hr : holdReasonOf reason = some r)

include hr

theorem answerClearHold_notHeld (hs : (s.spot i).state ≠ .held) :
    answerClearHold place reason s = (s, .bare .state) := by
  unfold answerClearHold; rw [withSpot_ok _ hn, hr]; exact if_pos hs

theorem answerClearHold_standing (hs : (s.spot i).state = .held) (hk : r = .esd ∨ r = .vesselTrip) :
    answerClearHold place reason s = (s, .bare .state) := by
  unfold answerClearHold
  rw [withSpot_ok _ hn, hr]
  exact (if_neg (not_not.mpr hs)).trans (if_pos hk)

theorem answerClearHold_removes (hs : (s.spot i).state = .held) (hk : ¬ (r = .esd ∨ r = .vesselTrip)) :
    answerClearHold place reason s = (removeHold i r s, .ok [Layout.holdSet ((s.spot i).holds.put r false)]) := by
  unfold answerClearHold
  rw [withSpot_ok _ hn, hr]
  exact (if_neg (not_not.mpr hs)).trans (if_neg hk)

end Answer

/-! ## The request -/

section Request

variable {s : State} {via : Via} {place reason : Byte} (ht : s.canTake via = true)

include ht

/-- Where the owner leaves every state with the frame of `s` alone, CLEAR HOLD is turned away. -/
theorem clearHold_turnsAway {st : Status} {b : List Byte}
    (ha : ∀ u, u.frame = s.frame → answerClearHold place reason u = (u, { status := st, body := b })) :
    ∃ t, s.turnsAway (.clearHold via place reason) st b t :=
  turnsAway_of (.clearHold via place reason) s st b rfl ht (.inl (by show (13 : Byte) ≠ 34; decide)) ha

theorem clearHold_error {st : Status} (hn : s.namedSpot place = .error st) :
    ∃ t, s.turnsAway (.clearHold via place reason) st [] t :=
  clearHold_turnsAway ht fun _ hu => answerClearHold_error ((namedSpot_of_frame hu place).trans hn)

variable {i : SpotNo} (hn : s.namedSpot place = .ok i)

include hn

theorem clearHold_unknown (hr : holdReasonOf reason = none) :
    ∃ t, s.turnsAway (.clearHold via place reason) .range [] t :=
  clearHold_turnsAway ht fun _ hu => answerClearHold_unknown ((namedSpot_of_frame hu place).trans hn) hr

variable {r : HoldReason} (hr : holdReasonOf reason = some r)

include hr

theorem clearHold_notHeld (hs : (s.spot i).state ≠ .held) :
    ∃ t, s.turnsAway (.clearHold via place reason) .state [] t :=
  clearHold_turnsAway ht fun _ hu =>
    answerClearHold_notHeld ((namedSpot_of_frame hu place).trans hn) hr (by rwa [spot_of_frame hu])

theorem clearHold_standing (hs : (s.spot i).state = .held) (hk : r = .esd ∨ r = .vesselTrip) :
    ∃ t, s.turnsAway (.clearHold via place reason) .state [] t :=
  clearHold_turnsAway ht fun _ hu =>
    answerClearHold_standing ((namedSpot_of_frame hu place).trans hn) hr (by rwa [spot_of_frame hu]) hk

theorem clearHold_absent (hs : (s.spot i).state = .held) (hk : ¬ (r = .esd ∨ r = .vesselTrip))
    (hh : (s.spot i).holds.has r = false) :
    ∃ t, s.turnsAway (.clearHold via place reason) .done [Layout.holdSet (s.spot i).holds] t := by
  refine clearHold_turnsAway ht fun u hu => ?_
  have hi := spot_of_frame hu i
  rw [answerClearHold_removes ((namedSpot_of_frame hu place).trans hn) hr (by rwa [hi]) hk,
    removeHold_of_absent (by rwa [hi]), hi, HoldSet.put_false_of_absent hh]
  rfl

/-- The event removes the reason and nothing else: no order leaves and no car record is touched, so its close leaves the car
table; it raises the spot's flag since the spot's report differs. -/
theorem clearHold_present (hs : (s.spot i).state = .held) (hk : ¬ (r = .esd ∨ r = .vesselTrip))
    (hh : (s.spot i).holds.has r = true) :
    ∃ t, s.answers (.clearHold via place reason) .done [Layout.holdSet ((s.spot i).holds.put r false)] t ∧
      t.frame = { s.frame with spots := s.spots.set i { s.spot i with holds := (s.spot i).holds.put r false } } ∧
      t.changes.spots.getLsbD i = true := by
  obtain ⟨u, hu, hx⟩ := exec_writing (.clearHold via place reason) s rfl ht (by show writingCode 13 = true; decide)
  have hf : (clearScratch u).frame = s.frame := hu.frame
  have hi := spot_of_frame hf i
  have ha : answer (.clearHold via place reason) (clearScratch u) =
      (removeHold i r (clearScratch u), .ok [Layout.holdSet ((s.spot i).holds.put r false)]) := by
    rw [← hi]
    exact answerClearHold_removes ((namedSpot_of_frame hf place).trans hn) hr (by rwa [hi]) hk
  rw [ha] at hx
  refine ⟨_, ⟨hx, placeReply_replied _ _⟩, ?_, ?_⟩
  · have hspots : (clearScratch u).spots = s.spots := congrArg Frame.spots hf
    rw [placeReply_frame, closeEvent_frame, closeEvent_cars_quiet u (removeHold i r (clearScratch u)) rfl rfl]
    calc (removeHold i r (clearScratch u)).frame
        = _ := removeHold_frame i r (clearScratch u)
      _ = _ := by rw [hf, hspots, hi]
  · have hv : u.spotView i ≠ (removeHold i r (clearScratch u)).spotView i :=
      removeHold_spotView_ne (s := clearScratch u) (by rwa [hi])
    rw [placeReply_changes, closeEvent_spotFlag]
    simp [hv]

end Request

/-- Settles O29: the checks in the rule's order, each by its clause of the owner's answer, then the removal where the reason is
present and where it is absent. -/
theorem clearHoldRemovesAReason : Obligations.ClearHoldRemovesAReason := by
  intro s via place reason ht
  refine ⟨fun hu => clearHold_error ht (namedSpot_unconfigured place hu),
    fun hc hb => clearHold_error ht (namedSpot_unfitted hc hb), fun i hc hb hi => ?_⟩
  have hn : s.namedSpot place = .ok i := namedSpot_fitted hc hb hi
  refine ⟨fun h3 => clearHold_unknown ht hn ((holdReasonOf_eq_none_iff reason).mpr h3), fun h3 hs => ?_,
    fun hs => ⟨?_, ?_⟩⟩
  · have hsome : holdReasonOf reason ≠ none := by rw [ne_eq, holdReasonOf_eq_none_iff]; omega
    obtain ⟨r, hr⟩ := Option.ne_none_iff_exists'.mp hsome
    exact clearHold_notHeld ht hn hr hs
  · rintro (rfl | rfl)
    · exact clearHold_standing ht hn (r := .vesselTrip) rfl hs (.inr rfl)
    · exact clearHold_standing ht hn (r := .esd) rfl hs (.inl rfl)
  · rintro r (⟨rfl, rfl⟩ | ⟨rfl, rfl⟩)
    · have hr : holdReasonOf 0 = some .crewStop := rfl
      exact ⟨clearHold_present ht hn hr hs (by decide), clearHold_absent ht hn hr hs (by decide)⟩
    · have hr : holdReasonOf 3 = some .compressor := rfl
      exact ⟨clearHold_present ht hn hr hs (by decide), clearHold_absent ht hn hr hs (by decide)⟩

end Sys2Proof.Machine
end

section
/-! PROOFS. READ SIDING (R197): the form that a request leaves locked (R185), what the owner finds of the siding, and its answer. -/

namespace Sys2Proof.Machine

/-! ## The form a request leaves locked (R185) -/

/-- The locked form in which a request comes. -/
def formOf : Via → LinkForm
  | .clocked => .clocked
  | .async _ => .asynchronous

/-- The line a request comes on is heard in the form it comes in and in no other. -/
theorem hears_line_iff (f : LinkForm) (via : Via) : f.hears via.line = true ↔ f = formOf via := by
  cases via <;> cases f <;> simp [LinkForm.hears, Via.line, formOf]

theorem lockForm_form_of_canTake {s : State} {via : Via} (h : s.canTake via = true) :
    (lockForm via.line s).link.form = formOf via :=
  (hears_line_iff _ via).mp (hears_of_canTake s via h)

/-! ## What the owner finds -/

/-- The frame holds all that the siding's view shows. -/
theorem sidingView_of_frame {s u : State} (h : u.frame = s.frame) : u.sidingView = s.sidingView := by
  obtain ⟨_, _, _, _, _, _, rfl⟩ := of_frame h
  rfl

/-- The owner reports the records of the state the request came to, and the form the request leaves locked. -/
theorem answerReadSiding_of_reached {s u : State} {via : Via} (h : s.canTake via = true) (hu : Reached s u via) :
    answerReadSiding u = (u, .ok (Layout.siding s.sidingView (formOf via) s.link.unit)) := by
  have hform : u.link.form = formOf via := hu.form.trans (lockForm_form_of_canTake h)
  unfold answerReadSiding
  rw [sidingView_of_frame hu.frame, hform, hu.unit]

/-! ## The request -/

theorem readSiding_answersOnly {s : State} {via : Via} (h : s.canTake via = true) :
    ∃ t, s.answersOnly (.readSiding via) .done (Layout.siding s.sidingView (formOf via) s.link.unit) t :=
  answersOnly_of (.readSiding via) s .done _ rfl h (.inl (by show (32 : Byte) ≠ 34; decide))
    (by show writingCode 32 = false; decide) fun _ hu => answerReadSiding_of_reached h hu

/-- Settles O32: the record's layout, spelled out for either way of the request. -/
theorem readSidingReportsTheSiding : Obligations.ReadSidingReportsTheSiding := by
  intro s via h
  cases via with
  | clocked => exact readSiding_answersOnly h
  | async a => exact readSiding_answersOnly h

end Sys2Proof.Machine
end

section
/-! PROOFS. What a step is (R117, R184): the command at the front, or one idle period. -/

namespace Sys2Proof.Machine

theorem step_of_front {s : State} {c : Instr} {rest : List Instr} (h : s.pending = c :: rest) :
    step s = exec c { s with pending := rest } := by
  unfold step; rw [h]

theorem step_of_idle {s : State} (h : s.pending = []) : step s = .next (tick s) := by
  unfold step; rw [h]

/-- Every arm of the dispatch answers a next state. -/
theorem exec_next (c : Instr) (s : State) : ∃ t, exec c s = .next t := by
  cases c <;> exact ⟨_, rfl⟩

/-- Settles O1. -/
theorem stepRunsFront : Obligations.StepRunsFront := fun _ _ _ h => step_of_front h

/-- Settles O3: on an empty queue a period passes, and every command of the table has a next state. -/
theorem everyStepGoesOn : Obligations.EveryStepGoesOn := by
  intro s
  cases h : s.pending with
  | nil => exact ⟨_, step_of_idle h⟩
  | cons c rest => rw [step_of_front h]; exact exec_next c _

/-! ## The idle step -/

theorem tick_spot (s : State) (i : SpotNo) : (tick s).spot i = (s.spot i).tick := by
  simp [tick, State.spot]

theorem tick_comp (s : State) (c : CompNo) : (tick s).comp c = (s.comp c).tick := by
  simp [tick, State.comp]

theorem tick_flash (s : State) (i : SpotNo) :
    (tick s).flash i = { s.flash i with phase := (s.flash i).phase.tick } := by
  simp [tick, State.flash]

/-- Settles O2: the fields of one period, read off the table of spots, compressors and lamps. -/
theorem idleStepPassesTime : Obligations.IdleStepPassesTime := by
  intro s h
  exact ⟨tick s, step_of_idle h, tick_spot s, tick_comp s, rfl, tick_flash s, rfl, rfl, rfl⟩

/-! ## Pin reset -/

theorem reset_carSlot (k : SlotNo) : State.reset.carSlot k = { issue := 0, car := none } := by
  simp [State.reset, State.carSlot]
theorem reset_car (k : SlotNo) : State.reset.car k = none := by rw [State.car, reset_carSlot]
theorem reset_spot (i : SpotNo) : State.reset.spot i = .reset := by simp [State.reset, State.spot]
theorem reset_vessel (v : VesselNo) : State.reset.vessel v = .reset := by simp [State.reset, State.vessel]
theorem reset_comp (c : CompNo) : State.reset.comp c = .reset := by simp [State.reset, State.comp]

theorem pinReset_carSlot (x : BitVec 3) (s : State) (k : SlotNo) :
    (pinReset x s).carSlot k = { issue := 0, car := none } := reset_carSlot k
theorem pinReset_spot (x : BitVec 3) (s : State) (i : SpotNo) : (pinReset x s).spot i = .reset := reset_spot i
theorem pinReset_vessel (x : BitVec 3) (s : State) (v : VesselNo) : (pinReset x s).vessel v = .reset := reset_vessel v
theorem pinReset_comp (x : BitVec 3) (s : State) (c : CompNo) : (pinReset x s).comp c = .reset := reset_comp c

theorem reset_valve (n : ValveName) : Spot.reset.valve n = .reset := by cases n <;> rfl
theorem reset_dirValve (d : Direction) : Comp.reset.valve d = .reset := by cases d <;> rfl

/-- Without a SITE section no spot is fitted, so no lamp is lit. -/
theorem pinReset_lamps (x : BitVec 3) (s : State) (i : SpotNo) :
    (pinReset x s).flowLamp i = false ∧ (pinReset x s).haltLamp i = false := by
  have h : (pinReset x s).fittedSpot i = false := by
    simp [State.fittedSpot, State.site, pinReset, State.reset]
  simp [State.flowLamp, State.haltLamp, h]

/-- Settles O4: record by record, what the tables of the reset state hold. -/
theorem pinResetRestoresRecords : Obligations.PinResetRestoresRecords := by
  intro s straps
  refine ⟨pinReset straps s, rfl, pinReset_carSlot _ _, fun i => ?_, pinReset_vessel _ _, fun c => ?_,
    rfl, rfl, pinReset_lamps _ _, ?_⟩
  · rw [pinReset_spot]
    exact ⟨rfl, rfl, rfl, rfl, rfl, rfl, rfl, rfl, rfl, rfl, rfl, rfl, rfl, rfl, rfl, rfl, rfl, rfl, rfl, rfl, rfl, rfl, rfl,
      reset_valve⟩
  · rw [pinReset_comp]
    exact ⟨rfl, rfl, rfl, rfl, rfl, rfl, rfl, rfl, rfl, rfl, rfl, rfl, rfl, reset_dirValve⟩
  · exact ⟨rfl, rfl, rfl, rfl, rfl, rfl, rfl, rfl, rfl, rfl, rfl, rfl, rfl, rfl, rfl, rfl, rfl, rfl, rfl, rfl, rfl⟩

/-! ## The invariants at reset -/

theorem reset_inletsFollow : State.reset.inletsFollow := by
  intro v
  have h : State.reset.fittedVessel v = false := rfl
  have hi : State.reset.inlets = 0#6 := rfl
  rw [State.inletFor, h, hi, Bool.false_and, BitVec.getLsbD_zero]

theorem reset_bindingsAgree : State.reset.bindingsAgree := by
  refine ⟨fun i h hi => ?_, fun k c hk => ?_⟩
  · rw [reset_spot] at hi; cases hi
  · rw [reset_car] at hk; cases hk

theorem reset_marksUnique : State.reset.marksUnique := by
  intro j k c d hj
  rw [reset_car] at hj; cases hj

theorem Spot.reset_queueLegal : Spot.reset.queueLegal := by
  simp [Spot.queueLegal, Spot.reset]

theorem Spot.reset_steady : Spot.reset.steady := by
  simp [Spot.steady, Spot.reset, Spot.headIs, Spot.head]

/-- Settles O5: each property at the reset state, from its records. -/
theorem resetHoldsTheInvariants : Obligations.ResetHoldsTheInvariants := by
  refine ⟨?_, ?_, ?_, ?_, reset_inletsFollow, reset_marksUnique, reset_bindingsAgree, fun i => ?_, rfl, rfl⟩
  · intro h; cases h
  · exact ⟨by decide, fun _ => rfl⟩
  · intro h; cases h
  · exact ⟨fun _ => rfl, fun _ => rfl⟩
  · rw [State.unfittedQuiet, reset_spot]
    exact ⟨Spot.reset_queueLegal, fun _ => rfl, Spot.reset_steady, fun _ => rfl⟩

end Sys2Proof.Machine
end

section
/-! PROOFS. What every step keeps: a property is kept by every step where it is kept by each thing a step can be. The link moves
characters and hands whole requests to their owners (R189 to R194), a sample is the changes of its inputs (R154), and every other
command is one event. -/

namespace Sys2Proof.Machine

/-! ## What the link does to the records -/

/-- A state that differs from `s` in the link and the change sets alone. -/
def State.linkMoved (s t : State) : Prop := ∃ l ch, t = { s with link := l, changes := ch }

theorem State.linkMoved.refl (s : State) : s.linkMoved s := ⟨s.link, s.changes, rfl⟩

theorem State.linkMoved.trans {s t u : State} (h : s.linkMoved t) (k : t.linkMoved u) : s.linkMoved u := by
  obtain ⟨_, _, rfl⟩ := h
  obtain ⟨l, ch, rfl⟩ := k
  exact ⟨l, ch, rfl⟩

theorem linkMoved_modLink (f : Link → Link) (s : State) : s.linkMoved (s.modLink f) := ⟨_, _, rfl⟩

theorem linkMoved_lockForm (line : Line) (s : State) : s.linkMoved (lockForm line s) := ⟨_, _, lockForm_rest line s⟩

theorem linkMoved_endFetch (s : State) : s.linkMoved (endFetch s) := by
  obtain ⟨f, d, h⟩ := endFetch_rest s
  exact ⟨_, _, h⟩

theorem linkMoved_discardPartial (s : State) : s.linkMoved (discardPartial s) := by
  obtain ⟨p, d, h⟩ := discardPartial_rest s
  exact ⟨_, _, h⟩

theorem linkMoved_openRequest (line : Line) (c : Byte) (s : State) : s.linkMoved (openRequest line c s) :=
  ⟨_, _, (openRequest_rest line c s).1⟩

theorem linkMoved_sendFlags (s : State) : s.linkMoved (sendFlags s) := by
  unfold sendFlags
  repeat' split
  all_goals first
    | exact .refl s
    | exact linkMoved_modLink _ s

theorem linkMoved_shiftOut (o : Outgoing) (s : State) : s.linkMoved (shiftOut o s) := by
  unfold shiftOut
  split
  · exact linkMoved_sendFlags s
  · split
    · exact linkMoved_modLink _ s
    · exact .refl s

theorem linkMoved_endTransmission (s : State) : s.linkMoved (endTransmission s) := by
  unfold endTransmission
  split
  · exact (linkMoved_sendFlags s).trans (linkMoved_modLink _ _)
  · exact .refl s

theorem linkMoved_takeSurplus (s : State) : s.linkMoved (takeSurplus s) := by
  unfold takeSurplus
  repeat' split
  all_goals first
    | exact .refl s
    | exact linkMoved_modLink _ s

theorem linkMoved_deassertSelect (s : State) : s.linkMoved (deassertSelect s) := by
  unfold deassertSelect
  split
  · exact (linkMoved_discardPartial s).trans (linkMoved_endFetch _)
  · exact .refl s

theorem linkMoved_breakRequest (s : State) : s.linkMoved (breakRequest s) := by
  unfold breakRequest
  split
  · exact linkMoved_discardPartial s
  · exact .refl s

/-- A completed request is executed, its reply placed, or moves the link alone. -/
theorem complete_cases (a : Addressing) (c : Instr) (s : State) :
    s.linkMoved (complete a c s) ∨ (execute c s).1.linkMoved (complete a c s) := by
  unfold complete
  repeat' split
  all_goals first
    | exact .inl (.refl s)
    | exact .inl (linkMoved_modLink _ s)
    | exact .inr (linkMoved_modLink _ _)
    | exact .inr (.refl _)

/-! ## Closure under the link -/

section Link

variable {P : State → Prop} (hlink : ∀ s t, s.linkMoved t → P s → P t) (hexec : ∀ c s, P s → P (execute c s).1)

include hlink hexec

theorem complete_keeps (a : Addressing) (c : Instr) {s : State} (h : P s) : P (complete a c s) :=
  (complete_cases a c s).elim (fun k => hlink _ _ k h) fun k => hlink _ _ k (hexec c s h)

theorem tryComplete_keeps {s : State} (h : P s) : P (tryComplete s) := by
  unfold tryComplete
  have hfin : ∀ a c, P (complete a c (s.modLink fun l => { l with incoming := none })) := fun a c =>
    complete_keeps hlink hexec a c (hlink _ _ (linkMoved_modLink _ s) h)
  repeat' split
  all_goals first
    | exact h
    | exact hfin _ _

theorem receiveHead_keeps (line : Line) (c : Byte) {s : State} (h : P s) : P (receiveHead line c s) := by
  unfold receiveHead
  split
  · exact tryComplete_keeps hlink hexec (hlink _ _ (linkMoved_openRequest line c s) h)
  · exact h

theorem receiveAddress_keeps (p : PartialRequest) (a : Byte) {s : State} (h : P s) : P (receiveAddress p a s) := by
  unfold receiveAddress
  split
  · exact tryComplete_keeps hlink hexec (hlink _ _ (linkMoved_modLink _ s) h)
  · exact hlink _ _ (linkMoved_modLink _ s) h

theorem receiveBody_keeps (line : Line) (b : Byte) {s : State} (h : P s) : P (receiveBody line b s) := by
  unfold receiveBody
  split
  · split
    · split
      · exact receiveAddress_keeps hlink hexec _ b h
      · exact tryComplete_keeps hlink hexec (hlink _ _ (linkMoved_modLink _ s) h)
    · split
      · exact hlink _ _ (linkMoved_shiftOut _ s) h
      · exact hlink _ _ (linkMoved_takeSurplus s) h
  · exact h

theorem deliver_keeps (c : Instr) {s : State} (h : P s) : P (deliver c s) := by
  obtain ⟨u, hu, -, hd⟩ := deliver_opened c s
  have hP : P u := hlink _ _ ⟨_, _, hu.records⟩ h
  have hP' := hlink _ _ (linkMoved_modLink (fun l => { l with incoming := none }) u) hP
  rw [hd]
  repeat' split
  all_goals first
    | exact hP
    | exact hP'
    | exact complete_keeps hlink hexec _ c hP'

theorem deliverElsewhere_keeps (a c : Byte) {s : State} (h : P s) : P (deliverElsewhere a c s) := by
  unfold deliverElsewhere
  apply receiveBody_keeps hlink hexec
  split
  · exact h
  · exact receiveHead_keeps hlink hexec _ c h

end Link

/-! ## Closure under every step -/

/-- Kept by everything a step but PIN_RESET can be. -/
structure StepClosed (P : State → Prop) : Prop where
  link : ∀ s t, s.linkMoved t → P s → P t
  queue : ∀ s rest, P s → P { s with pending := rest }
  tick : ∀ s, P s → P (tick s)
  execute : ∀ c s, P s → P (execute c s).1
  filter : ∀ x f s, P s → P (s.withFilter x f)
  limitFilters : ∀ v (f g : Filter → Filter) s, P s →
    P (s.modValve v fun x => { x with openLimit := f x.openLimit, shutLimit := g x.shutLimit })
  pulse : ∀ i s, P s → P (event (takePulse i) s)
  litre : ∀ i s, P s → P (event (takeLitre i) s)
  limit : ∀ v o sh s, P s → P (limitChange v o sh s)
  bond : ∀ i b s, P s → P (bondChange i b s)
  hose : ∀ i b s, P s → P (hoseChange i b s)
  residual : ∀ i b s, P s → P (residualChange i b s)
  connected : ∀ i s, P s → P (connectedPressed i s)
  stop : ∀ i s, P s → P (stopPressed i s)
  clear : ∀ i s, P s → P (clearPressed i s)
  trip : ∀ v b s, P s → P (tripChange v b s)
  run : ∀ c b s, P s → P (runChange c b s)
  faultInput : ∀ c b s, P s → P (faultChange c b s)
  esd : ∀ b s, P s → P (event (changeEsdLevel b) s)
  beat : ∀ s, P s → P (event takeBeat s)
  pressureWait : ∀ i s, P s → P (pressureWaitExpires i s)
  pressureHold : ∀ i s, P s → P (pressureHoldExpires i s)
  bleed : ∀ i s, P s → P (bleedExpires i s)
  recovery : ∀ i s, P s → P (recoveryExpires i s)
  stall : ∀ i s, P s → P (stallExpires i s)
  window : ∀ i s, P s → P (windowExpires i s)
  start : ∀ c s, P s → P (startExpires c s)
  runOn : ∀ c s, P s → P (runOnExpires c s)
  proofRun : ∀ c s, P s → P (proofRunExpires c s)
  guard : ∀ c d s, P s → P (guardExpires c d s)
  stroke : ∀ v s, P s → P (strokeExpires v s)
  flash : ∀ i s, P s → P (flashToggles i s)

/-- A fold keeps a property that each of its steps keeps. -/
theorem foldl_closed {α σ : Type} {Q : σ → Prop} {f : σ → α → σ} (hf : ∀ s a, Q s → Q (f s a)) :
    ∀ (l : List α) {s : σ}, Q s → Q (l.foldl f s)
  | [], _, h => h
  | a :: l, s, h => foldl_closed hf l (hf s a h)

section Step

variable {P : State → Prop} (hP : StepClosed P)

include hP

omit hP in
theorem sampleInput_keeps (n : Nat) (raw : Bool) (f : Filter) {store : Filter → State → State} {change : State → State}
    {s : State} (hs : ∀ f, P (store f s)) (hc : P (change s)) : P (sampleInput n raw f store change s) := by
  unfold sampleInput
  split
  · exact hc
  · exact hs _

omit hP in
theorem buttonChange_keeps (raw : Bool) {press : State → State} {store : Filter → State → State} {s : State}
    (hs : ∀ f, P (store f s)) (hp : P (press s)) : P (buttonChange raw press store s) := by
  unfold buttonChange
  split
  · exact hp
  · exact hs _

theorem sampleLimits_keeps (n : Nat) (v : ValveId) (ro rs : Bool) {s : State} (h : P s) :
    P (sampleLimits n v ro rs s) := by
  unfold sampleLimits
  have h1 := hP.limitFilters v
    (fun x => if ((s.valve v).openLimit.sample n ro).2 then x else ((s.valve v).openLimit.sample n ro).1)
    (fun x => if ((s.valve v).shutLimit.sample n rs).2 then x else ((s.valve v).shutLimit.sample n rs).1) s h
  simp only
  split
  · exact hP.limit v _ _ _ h1
  · exact h1

theorem sampleGroup_keeps (active : List Input) (g : SampleGroup) {s : State} (h : P s) :
    P (sampleGroup active g s) := by
  have hf : ∀ x f, P (s.withFilter x f) := fun x f => hP.filter x f s h
  cases g with
  | limits v => exact sampleLimits_keeps hP _ v _ _ h
  | bond i => exact sampleInput_keeps _ _ _ (hf (.bond i)) (hP.bond i _ s h)
  | hose i => exact sampleInput_keeps _ _ _ (hf (.hose i)) (hP.hose i _ s h)
  | residual i => exact sampleInput_keeps _ _ _ (hf (.residual i)) (hP.residual i _ s h)
  | connectedButton i =>
    exact sampleInput_keeps _ _ _ (hf (.connectedButton i))
      (buttonChange_keeps _ (hf (.connectedButton i)) (hP.connected i s h))
  | stopButton i =>
    exact sampleInput_keeps _ _ _ (hf (.stopButton i)) (buttonChange_keeps _ (hf (.stopButton i)) (hP.stop i s h))
  | clearButton i =>
    exact sampleInput_keeps _ _ _ (hf (.clearButton i)) (buttonChange_keeps _ (hf (.clearButton i)) (hP.clear i s h))
  | trip v => exact sampleInput_keeps _ _ _ (hf (.trip v)) (hP.trip v _ s h)
  | run c => exact sampleInput_keeps _ _ _ (hf (.run c)) (hP.run c _ s h)
  | faultInput c => exact sampleInput_keeps _ _ _ (hf (.faultInput c)) (hP.faultInput c _ s h)

theorem sampleAll_keeps (active : List Input) (order : List SampleGroup) {s : State} (h : P s) :
    P (sampleAll active order s) :=
  foldl_closed (fun _ g h => sampleGroup_keeps hP active g h) _ h

/-- Every command but PIN_RESET is one of the things a step can be. -/
theorem exec_keeps {c : Instr} {s : State} (hc : ∀ x, c ≠ .pinReset x) (h : P s) : ∃ t, exec c s = .next t ∧ P t := by
  have hd : ∀ r, P (deliver r s) := fun r => deliver_keeps hP.link hP.execute r h
  have hl : ∀ {u}, s.linkMoved u → P u := fun k => hP.link _ _ k h
  cases c
  case pinReset => exact absurd rfl (hc _)
  case requestForAnotherUnit => exact ⟨_, rfl, deliverElsewhere_keeps hP.link hP.execute _ _ h⟩
  case surplusCharacter => exact ⟨_, rfl, receiveBody_keeps hP.link hP.execute _ _ h⟩
  case headCharacterReceived => exact ⟨_, rfl, receiveHead_keeps hP.link hP.execute _ _ h⟩
  case selectDeasserted => exact ⟨_, rfl, hl (linkMoved_deassertSelect s)⟩
  case receiveGapExpiry => exact ⟨_, rfl, hl (linkMoved_breakRequest s)⟩
  case framingFailure => exact ⟨_, rfl, hl (linkMoved_breakRequest s)⟩
  case flagsCharacterSent => exact ⟨_, rfl, hl (linkMoved_sendFlags s)⟩
  case replyTransmissionEnd => exact ⟨_, rfl, hl (linkMoved_endTransmission s)⟩
  case meterPulse i => exact ⟨_, rfl, hP.pulse i s h⟩
  case litreEmitted i => exact ⟨_, rfl, hP.litre i s h⟩
  case inputSample => exact ⟨_, rfl, sampleAll_keeps hP _ _ h⟩
  case limitChange => exact ⟨_, rfl, hP.limit _ _ _ s h⟩
  case bondLost i => exact ⟨_, rfl, hP.bond i _ s h⟩
  case bondActive i => exact ⟨_, rfl, hP.bond i _ s h⟩
  case hosePressureActive i => exact ⟨_, rfl, hP.hose i _ s h⟩
  case hosePressureInactive i => exact ⟨_, rfl, hP.hose i _ s h⟩
  case residualActive i => exact ⟨_, rfl, hP.residual i _ s h⟩
  case residualInactive i => exact ⟨_, rfl, hP.residual i _ s h⟩
  case pendantConnected i => exact ⟨_, rfl, hP.connected i s h⟩
  case pendantStop i => exact ⟨_, rfl, hP.stop i s h⟩
  case pendantClear i => exact ⟨_, rfl, hP.clear i s h⟩
  case vesselTripActive v => exact ⟨_, rfl, hP.trip v _ s h⟩
  case vesselTripInactive v => exact ⟨_, rfl, hP.trip v _ s h⟩
  case runFeedbackActive c => exact ⟨_, rfl, hP.run c _ s h⟩
  case runFeedbackLost c => exact ⟨_, rfl, hP.run c _ s h⟩
  case faultInputActive c => exact ⟨_, rfl, hP.faultInput c _ s h⟩
  case faultInputInactive c => exact ⟨_, rfl, hP.faultInput c _ s h⟩
  case esdInputActive b => exact ⟨_, rfl, hP.esd b s h⟩
  case esdInputInactive b => exact ⟨_, rfl, hP.esd b s h⟩
  case beat => exact ⟨_, rfl, hP.beat s h⟩
  case autoRearm => exact ⟨_, rfl, hP.beat s h⟩
  case pressureWaitExpiry i => exact ⟨_, rfl, hP.pressureWait i s h⟩
  case pressureHoldExpiry i => exact ⟨_, rfl, hP.pressureHold i s h⟩
  case bleedExpiry i => exact ⟨_, rfl, hP.bleed i s h⟩
  case recoveryTimerExpiry i => exact ⟨_, rfl, hP.recovery i s h⟩
  case stallExpiry i => exact ⟨_, rfl, hP.stall i s h⟩
  case rateWindowExpiry i => exact ⟨_, rfl, hP.window i s h⟩
  case startTimerExpiry c => exact ⟨_, rfl, hP.start c s h⟩
  case runOnExpiry c => exact ⟨_, rfl, hP.runOn c s h⟩
  case proofRunExpiry c => exact ⟨_, rfl, hP.proofRun c s h⟩
  case guardExpiry c d => exact ⟨_, rfl, hP.guard c d s h⟩
  case strokeTimeExceeded v => exact ⟨_, rfl, hP.stroke v s h⟩
  case lampFlashPhase i => exact ⟨_, rfl, hP.flash i s h⟩
  all_goals exact ⟨_, rfl, hd _⟩

/-- A closed property is kept by every step but PIN_RESET. -/
theorem step_keeps {s t : State} (h : P s) (hr : ∀ x rest, s.pending ≠ .pinReset x :: rest) (he : step s = .next t) :
    P t := by
  cases hq : s.pending with
  | nil => rw [step_of_idle hq] at he; cases he; exact hP.tick s h
  | cons c rest =>
    rw [step_of_front hq] at he
    obtain ⟨u, hu, hPu⟩ := exec_keeps hP (c := c) (fun x hx => hr x rest (by rw [hq, hx])) (hP.queue s rest h)
    rw [hu] at he; cases he
    exact hPu

/-- A closed property that holds after every pin reset is kept by every step. -/
theorem step_keeps_all (hreset : ∀ x s, P s → P (pinReset x s)) {s t : State} (h : P s) (he : step s = .next t) :
    P t := by
  by_cases hr : ∃ x rest, s.pending = .pinReset x :: rest
  · obtain ⟨x, rest, hq⟩ := hr
    rw [step_of_front hq] at he
    cases he
    exact hreset x _ (hP.queue s rest h)
  · exact step_keeps hP h (fun x rest e => hr ⟨x, rest, e⟩) he

end Step

end Sys2Proof.Machine
end

section
/-! PROOFS. The protection block and the lock (R157, R158, R163, R175, R176): what each command that reaches the guarded fields
makes of them, and the inlet permissives (R102). -/

namespace Sys2Proof.Machine

/-! ## Reading requests -/

/-- A request that is not of the writing kind leaves every record; TAKE CHANGES clears the change sets (R188, R196). -/
theorem linkMoved_answer_reading {c : Instr} (s : State) (h : writingCode (code c) = false) :
    s.linkMoved (answer c s).1 := by
  cases c
  case readCar => simp only [answer, answerReadCar]; split <;> exact .refl s
  case find =>
    simp only [answer, answerFind]
    repeat' split
    all_goals exact .refl s
  case listCars => exact .refl s
  case readSpot => simp only [answer, answerReadSpot, withSpot]; split <;> exact .refl s
  case readVessel => simp only [answer, answerReadVessel, withVessel]; split <;> exact .refl s
  case readCompressor => simp only [answer, answerReadCompressor, withComp]; split <;> exact .refl s
  case readProfile => simp only [answer, answerReadProfile]; split <;> exact .refl s
  case takeChanges => exact ⟨s.link, .none, rfl⟩
  all_goals first
    | exact .refl s
    | (simp only [code] at h; exact absurd h (by decide))

/-- One request executed: the close of an event after its owner's answer, or no record at all. -/
theorem execute_cases (c : Instr) (s : State) :
    (execute c s).1 = closeEvent s (answer c (clearScratch s)).1 ∨ s.linkMoved (execute c s).1 := by
  cases h : writingCode (code c) with
  | true => rw [execute_writing c s h]; exact .inl rfl
  | false => rw [execute_reading c s h]; exact .inr (linkMoved_answer_reading s h)

/-! ## Inlet permissives -/

/-- R102 looks at what is fitted, at the queues and at the states of the liquid valves. -/
theorem inletFor_congr {s t : State} (hp : t.profile = s.profile) (ho : ∀ i, (t.spot i).orders = (s.spot i).orders)
    (hl : ∀ i, (t.spot i).liquid.state = (s.spot i).liquid.state) (v : VesselNo) : t.inletFor v = s.inletFor v := by
  have hfit : t.fittedVessel v = s.fittedVessel v := by unfold State.fittedVessel State.site; rw [hp]
  have hfeeds : ∀ i, (t.spot i).feeds v = (s.spot i).feeds v := fun i => by unfold Spot.feeds Spot.head; rw [ho]
  have hpass : ∀ i, (t.spot i).liquid.passing = (s.spot i).liquid.passing := fun i => by unfold Valve.passing; rw [hl]
  simp only [State.inletFor, hfit, hfeeds, hpass]

theorem inletsFollow_congr {s t : State} (hi : t.inlets = s.inlets) (hp : t.profile = s.profile)
    (ho : ∀ i, (t.spot i).orders = (s.spot i).orders) (hl : ∀ i, (t.spot i).liquid.state = (s.spot i).liquid.state)
    (h : s.inletsFollow) : t.inletsFollow := by
  intro v; rw [hi, h v, inletFor_congr hp ho hl]

/-- An update of one spot that leaves queues and valve states leaves the permissives. -/
theorem inletsFollow_modSpot {i : SpotNo} {f : Spot → Spot} {s : State} (ho : (f (s.spot i)).orders = (s.spot i).orders)
    (hl : (f (s.spot i)).liquid.state = (s.spot i).liquid.state) (h : s.inletsFollow) :
    (s.modSpot i f).inletsFollow := by
  refine inletsFollow_congr (s := s) rfl rfl (fun j => ?_) (fun j => ?_) h <;>
  · by_cases e : j = i
    · subst e; rw [modSpot_spot_same]; assumption
    · rw [off_modSpot e]

theorem inletsFollow_modValve {v : ValveId} {f : Valve → Valve} {s : State} (hf : ∀ x, (f x).state = x.state)
    (h : s.inletsFollow) : (s.modValve v f).inletsFollow := by
  cases v with
  | spot i n =>
    refine inletsFollow_modSpot ?_ ?_ h
    · cases n <;> rfl
    · cases n <;> first | rfl | exact hf _
  | direction c d => exact inletsFollow_congr rfl rfl (fun _ => rfl) (fun _ => rfl) h

theorem inletsFollow_withFilter (x : Input) (f : Filter) {s : State} (h : s.inletsFollow) :
    (s.withFilter x f).inletsFollow := by
  cases x with
  | openLimit v => exact inletsFollow_modValve (fun _ => rfl) h
  | shutLimit v => exact inletsFollow_modValve (fun _ => rfl) h
  | trip v => exact inletsFollow_congr rfl rfl (fun _ => rfl) (fun _ => rfl) h
  | run c => exact inletsFollow_congr rfl rfl (fun _ => rfl) (fun _ => rfl) h
  | faultInput c => exact inletsFollow_congr rfl rfl (fun _ => rfl) (fun _ => rfl) h
  | _ => exact inletsFollow_modSpot rfl rfl h

/-- An event under a condition, or nothing. -/
theorem inletsFollow_ite_event (p : Prop) [Decidable p] {f : State → State} {s : State} (h : s.inletsFollow) :
    (if p then event f s else s).inletsFollow := by
  split
  · exact closeEvent_inletsFollow _ _
  · exact h

theorem inletsFollow_ite_event' (p : Prop) [Decidable p] {f : State → State} {s : State} (h : s.inletsFollow) :
    (if p then s else event f s).inletsFollow := by
  split
  · exact h
  · exact closeEvent_inletsFollow _ _

theorem inletsFollow_closed : StepClosed State.inletsFollow where
  link := by
    rintro s _ ⟨l, ch, rfl⟩ h
    exact h
  queue := fun _ _ h => h
  tick := fun s h => by
    refine inletsFollow_congr rfl rfl (fun i => ?_) (fun i => ?_) h <;> rw [tick_spot] <;> rfl
  execute := fun c s h => by
    rcases execute_cases c s with e | ⟨l, ch, e⟩
    · rw [e]; exact closeEvent_inletsFollow _ _
    · rw [e]; exact h
  filter := fun x f _ h => inletsFollow_withFilter x f h
  limitFilters := fun _ _ _ _ h => inletsFollow_modValve (fun _ => rfl) h
  pulse := fun _ _ _ => closeEvent_inletsFollow _ _
  litre := fun _ _ _ => closeEvent_inletsFollow _ _
  limit := fun _ _ _ _ h => inletsFollow_ite_event' _ h
  bond := fun _ _ _ h => inletsFollow_ite_event' _ h
  hose := fun _ _ _ h => inletsFollow_ite_event' _ h
  residual := fun _ _ _ h => inletsFollow_ite_event' _ h
  connected := fun _ _ _ => closeEvent_inletsFollow _ _
  stop := fun _ _ _ => closeEvent_inletsFollow _ _
  clear := fun _ _ _ => closeEvent_inletsFollow _ _
  trip := fun _ _ _ h => inletsFollow_ite_event' _ h
  run := fun _ _ _ h => inletsFollow_ite_event' _ h
  faultInput := fun _ _ _ h => inletsFollow_ite_event' _ h
  esd := fun _ _ _ => closeEvent_inletsFollow _ _
  beat := fun _ _ => closeEvent_inletsFollow _ _
  pressureWait := fun _ _ h => inletsFollow_ite_event _ h
  pressureHold := fun _ _ h => inletsFollow_ite_event _ h
  bleed := fun _ _ h => inletsFollow_ite_event _ h
  recovery := fun _ _ h => inletsFollow_ite_event _ h
  stall := fun _ _ h => inletsFollow_ite_event _ h
  window := fun i s h => by
    unfold windowExpires
    split
    · exact inletsFollow_modSpot rfl rfl h
    · exact h
  start := fun _ _ h => inletsFollow_ite_event _ h
  runOn := fun _ _ h => inletsFollow_ite_event _ h
  proofRun := fun _ _ h => inletsFollow_ite_event _ h
  guard := fun _ _ _ h => inletsFollow_ite_event _ h
  stroke := fun _ _ h => inletsFollow_ite_event _ h
  flash := fun i s h => by
    unfold flashToggles
    split <;> exact h

/-- Settles O10: every event closes by working the permissives out, and what is no event touches nothing they look at. -/
theorem inletPermissivesFollow : Obligations.InletPermissivesFollow := fun _ _ h he =>
  step_keeps_all inletsFollow_closed (fun _ _ _ => reset_inletsFollow) h he

end Sys2Proof.Machine
end

section
/-! PROOFS. Field enable and the lock (R157, R158, R163, R175, R176): what each of the commands that reach the guarded fields makes
of them; every other command leaves them. -/

namespace Sys2Proof.Machine

/-! ## Field enable off and on -/

/-- The guarded fields with field enable at a level and the rearm run at 0. -/
def Guarded.enabled (g : Guarded) (b : Bool) : Guarded := { g with fe := b, rearmRun := 0 }

@[simp] theorem guarded_endCommissioning (s : State) : (endCommissioning s).guarded = s.guarded := by
  unfold endCommissioning; split <;> rfl

theorem guarded_compLosesEnable (c : CompNo) (s : State) : (compLosesEnable c s).guarded = s.guarded := by
  unfold compLosesEnable; split <;> simp

theorem guarded_spotLosesEnable (i : SpotNo) (s : State) : (spotLosesEnable i s).guarded = s.guarded := by
  unfold spotLosesEnable; split <;> simp

theorem guarded_spotGainsEnable (i : SpotNo) (s : State) : (spotGainsEnable i s).guarded = s.guarded := by
  unfold spotGainsEnable; simp only; split <;> simp

theorem guarded_enableOff (s : State) : (enableOff s).guarded = s.guarded.enabled false := by
  unfold enableOff
  simp only
  rw [guarded_eachComp _ guarded_pursueDirAll, guarded_eachSpot _ (by simp),
    guarded_eachFittedSpot _ guarded_spotLosesEnable, guarded_eachFittedComp _ guarded_compLosesEnable,
    guarded_endCommissioning]
  rfl

theorem guarded_enableOn (s : State) : (enableOn s).guarded = s.guarded.enabled true := by
  unfold enableOn
  simp only
  rw [guarded_settle, guarded_eachComp _ (by simp), guarded_eachSpot _ (by simp),
    guarded_eachFittedSpot _ guarded_spotGainsEnable]
  rfl

theorem guarded_esdBecomesActive (s : State) :
    (esdBecomesActive s).guarded = if s.fe then s.guarded.enabled false else s.guarded := by
  unfold esdBecomesActive
  split
  · rw [guarded_settle, guarded_enableOff]
  · rfl

/-! ## Writing a section -/

theorem guarded_takeUpSpot (i : SpotNo) (s : State) : (takeUpSpot i s).guarded = s.guarded := by
  unfold takeUpSpot
  simp only
  rw [foldl_keeps State.guarded _ (by intro t n; split <;> simp), foldl_keeps State.guarded _ (by simp)]

theorem guarded_takeUpComp (c : CompNo) (s : State) : (takeUpComp c s).guarded = s.guarded := by
  unfold takeUpComp
  simp only
  rw [foldl_keeps State.guarded _ (by intro t n; split <;> simp)]
  rfl

theorem guarded_superviseSpot (b : State) (i : SpotNo) (s : State) : (superviseSpot b i s).guarded = s.guarded := by
  unfold superviseSpot; split
  · exact guarded_takeUpSpot i s
  · rfl
  · rfl

theorem guarded_superviseComp (b : State) (c : CompNo) (s : State) : (superviseComp b c s).guarded = s.guarded := by
  unfold superviseComp; split
  · exact guarded_takeUpComp c s
  · rfl

theorem guarded_releaseComp (b : State) (c : CompNo) (s : State) : (releaseComp b c s).guarded = s.guarded := by
  unfold releaseComp; split <;> rfl

theorem guarded_refitComp (b : State) (c : CompNo) (s : State) : (refitComp b c s).guarded = s.guarded := by
  unfold refitComp; split <;> rfl

theorem guarded_greetComp (b : State) (c : CompNo) (s : State) : (greetComp b c s).guarded = s.guarded := by
  unfold greetComp; split <;> simp

theorem guarded_clearRemainder (b : State) (i : SpotNo) (s : State) : (clearRemainder b i s).guarded = s.guarded := by
  unfold clearRemainder; split <;> rfl

theorem guarded_loseGauge (b : State) (v : VesselNo) (s : State) : (loseGauge b v s).guarded = s.guarded := by
  unfold loseGauge; split <;> rfl

theorem guarded_sidingAfterWrite (w : Section) (s : State) : (sidingAfterWrite w s).guarded = s.guarded := by
  unfold sidingAfterWrite
  repeat' split
  all_goals rfl

/-- The profile with a section stored. -/
def Profile.store (w : Section) (p : Profile) : Profile :=
  match w with
  | .site x => { p with site := some x }
  | .spots x => { p with spots := some x }
  | .vessels x => { p with vessels := some x }
  | .protection x => { p with protection := some x }

theorem storeSection_eq (w : Section) (s : State) : storeSection w s = { s with profile := s.profile.store w } := by
  cases w <;> rfl

/-- A section of another class than PROTECTION brings nothing to the guarded fields. -/
theorem guarded_takeSection_quiet (b : State) {w : Section} (h : w.isQuietClass = true) (s : State) :
    (takeSection b w s).guarded = s.guarded := by
  cases w with
  | site p =>
    simp only [takeSection]
    rw [guarded_eachComp _ (guarded_superviseComp b), guarded_eachSpot _ (guarded_superviseSpot b),
      guarded_eachComp _ (guarded_greetComp b), guarded_eachComp _ (guarded_refitComp b),
      guarded_eachComp _ (guarded_releaseComp b)]
  | spots p =>
    simp only [takeSection]
    rw [guarded_eachComp _ (guarded_superviseComp b), guarded_eachSpot _ (guarded_superviseSpot b),
      guarded_eachSpot _ (guarded_clearRemainder b)]
  | vessels p => exact foldl_keeps State.guarded _ (fun s v => guarded_loseGauge b v s) _ _
  | protection p => cases h

theorem guarded_rejudge (b s : State) :
    (rejudge b s).guarded = if s.esdActive ∧ s.fe then s.guarded.enabled false else s.guarded := by
  have h1 : (if s.esdActive then esdBecomesActive s else s).guarded
      = if s.esdActive ∧ s.fe then s.guarded.enabled false else s.guarded := by
    cases he : s.esdActive
    · simp
    · rw [if_pos rfl, guarded_esdBecomesActive]; simp
  unfold rejudge
  simp only
  split
  · exact h1
  · rw [guarded_eachFittedComp _ guarded_compPassGuard, h1]

/-- R171: an accepted write stores its section; a PROTECTION write that judges the ESD input active turns field enable off. -/
theorem guarded_acceptWrite (w : Section) (s : State) :
    (acceptWrite w s).guarded = { s.guarded with profile := s.profile.store w } ∧
      (w.isQuietClass = false → s.fe = true → { s with profile := s.profile.store w }.esdActive = false) ∨
    (acceptWrite w s).guarded = { s.guarded with profile := s.profile.store w }.enabled false := by
  have hu : (sidingAfterWrite w (storeSection w s)).guarded = { s.guarded with profile := s.profile.store w } := by
    rw [guarded_sidingAfterWrite, storeSection_eq]; rfl
  have hacc : (acceptWrite w s).guarded = (takeSection s w (sidingAfterWrite w (storeSection w s))).guarded := by
    unfold acceptWrite; rw [guarded_settle, guarded_flagSiding]
  have hfe : (sidingAfterWrite w (storeSection w s)).fe = s.fe := congrArg Guarded.fe hu
  have hesd : (sidingAfterWrite w (storeSection w s)).esdActive = { s with profile := s.profile.store w }.esdActive := by
    have hp := congrArg Guarded.profile hu
    have hh := congrArg Guarded.esdHigh hu
    simp only [State.guarded] at hp hh
    unfold State.esdActive State.judgedActive
    rw [hp, hh]
  rw [hacc]
  cases hw : w.isQuietClass with
  | true => rw [guarded_takeSection_quiet s hw]; exact .inl ⟨hu, fun h => by cases h⟩
  | false =>
    obtain ⟨p, rfl⟩ : ∃ p, w = .protection p := by cases w <;> first | exact ⟨_, rfl⟩ | cases hw
    simp only [takeSection]
    rw [guarded_rejudge, hu, hfe, hesd]
    cases h : ({ s with profile := s.profile.store (.protection p) } : State).esdActive with
    | false => exact .inl ⟨by simp, fun _ _ => rfl⟩
    | true =>
      cases hf : s.fe with
      | false => exact .inl ⟨by simp, fun _ hc => by cases hc⟩
      | true => exact .inr (by simp)

/-! ## The guarded requests -/

/-- An accepted write, or a refusal that leaves the state. -/
theorem answerWriteProfile_cases (sec : Byte) (fields : List Byte) (s : State) :
    (answerWriteProfile sec fields s).1 = s ∨
      ∃ w, sectionOf sec fields = some w ∧ s.lockAllows w = true ∧ (w.isQuietClass = true → s.quiet = true) ∧
        s.strands w = false ∧ (answerWriteProfile sec fields s).1 = acceptWrite w s := by
  unfold answerWriteProfile
  cases hw : sectionOf sec fields with
  | none => exact .inl rfl
  | some w =>
    simp only
    split
    · exact .inl rfl
    · split
      · exact .inl rfl
      · split
        · exact .inl rfl
        · rename_i h1 h2 h3
          refine .inr ⟨w, rfl, by simpa using h1, fun hc => ?_, by simpa using h3, rfl⟩
          simpa [hc] using h2

theorem guarded_answerRearm (s : State) :
    (answerRearm s).1 = s ∨ (s.esdActive = false ∧ (answerRearm s).1.guarded = s.guarded.enabled true) := by
  unfold answerRearm
  split
  · exact .inl rfl
  · split
    · exact .inl rfl
    · rename_i h _
      refine .inr ⟨by simpa using h, ?_⟩
      simp only [guarded_enableOn]

theorem answerSetLock_cases (level : Byte) (s : State) :
    (answerSetLock level s).1 = s ∨ (level.toNat ≤ 3 ∧ s.lockTaken = false ∧
      (answerSetLock level s).1 = { s with lock := level.toNat, lockTaken := true }) := by
  unfold answerSetLock
  split
  · exact .inl rfl
  · split
    · exact .inl rfl
    · rename_i h1 h2
      exact .inr ⟨by omega, by simpa using h2, rfl⟩

theorem answerStageSetpoints_cases (a : Word16) (b : Byte) (c d e : Word16) (s : State) :
    (answerStageSetpoints a b c d e s).1 = s ∨
      ∃ p v, (answerStageSetpoints a b c d e s).1 = { s with staged := p, stagedVersion := v } := by
  unfold answerStageSetpoints
  split
  · exact .inl rfl
  · exact .inr ⟨_, _, rfl⟩

theorem answerSetpointHold_cases (value : Byte) (s : State) :
    (answerSetpointHold value s).1 = s ∨ ∃ b, (answerSetpointHold value s).1 = { s with setpointHold := b } := by
  unfold answerSetpointHold
  split
  · exact .inl rfl
  · exact .inr ⟨_, rfl⟩

/-! ## ESD changes and beats -/

theorem guarded_changeEsdLevel (b : Bool) (s : State) :
    (changeEsdLevel b s).guarded = { s.guarded with esdHigh := b } ∧
      (s.fe = true → s.esdHigh ≠ b → s.judgedActive b = false) ∨
    (changeEsdLevel b s).guarded = { s.guarded with esdHigh := b }.enabled false := by
  unfold changeEsdLevel
  split
  · rename_i h
    subst h
    exact .inl ⟨rfl, fun _ h => absurd rfl h⟩
  · simp only
    have hj : ({ s with esdHigh := b } : State).esdActive = s.judgedActive b := rfl
    rw [hj]
    cases h : s.judgedActive b with
    | false => exact .inl ⟨rfl, fun _ _ => rfl⟩
    | true =>
      rw [if_pos rfl, guarded_esdBecomesActive]
      cases hf : s.fe with
      | false => exact .inl ⟨by simp [State.guarded, hf], fun h => by cases h⟩
      | true => exact .inr rfl

/-- R163: after a beat field enable is as it was, with the run at 0 where it is on, or it has turned on over an inactive input. -/
theorem guarded_takeBeat (s : State) :
    (∃ n, (takeBeat s).guarded = { s.guarded with rearmRun := n } ∧ (s.fe = true → n = 0)) ∨
      (s.esdActive = false ∧ (takeBeat s).guarded = s.guarded.enabled true) := by
  unfold takeBeat
  simp only
  split
  · exact .inl ⟨0, rfl, fun _ => rfl⟩
  · rename_i hf
    split
    · rename_i ha
      split
      · right
        refine ⟨?_, by rw [guarded_enableOn]; rfl⟩
        simp only [Bool.and_eq_true, Bool.not_eq_true'] at ha
        exact ha.2
      · exact .inl ⟨_, rfl, fun h => absurd h hf⟩
    · exact .inl ⟨0, rfl, fun h => absurd h hf⟩

/-! ## Properties of the guarded fields -/

/-- A property of the guarded fields is kept by every step but PIN_RESET where the five requests that reach them, an ESD change and a
beat keep it. -/
theorem stepClosed_of_guarded {P : State → Prop} (hP : ∀ s t, t.guarded = s.guarded → P s → P t)
    (hreq : ∀ c s, Instr.guardedRequest c = true → P s → P (answer c s).1)
    (hesd : ∀ b s, P s → P (changeEsdLevel b s)) (hbeat : ∀ s, P s → P (takeBeat s)) : StepClosed P where
  link := by
    rintro s _ ⟨l, ch, rfl⟩ h
    exact hP s _ rfl h
  queue := fun s _ h => hP s _ rfl h
  tick := fun s h => hP s _ rfl h
  execute := fun c s h => by
    rcases execute_cases c s with e | ⟨l, ch, e⟩
    · rw [e]
      refine hP _ _ (guarded_closeEvent _ _) ?_
      have h0 : P (clearScratch s) := hP s _ rfl h
      cases hc : Instr.guardedRequest c with
      | true => exact hreq c _ hc h0
      | false => exact hP _ _ (guarded_answer c _ hc) h0
    · rw [e]; exact hP s _ rfl h
  filter := fun x f s h => hP s _ (by cases x <;> simp [State.withFilter]) h
  limitFilters := fun v f g s h => hP s _ (guarded_modValve _ _ _) h
  pulse := fun i s h => hP s _ (guarded_event _ _ (guarded_takePulse i)) h
  litre := fun i s h => hP s _ (guarded_event _ _ (guarded_takeLitre i)) h
  limit := fun v o sh s h => hP s _ (guarded_limitChange v o sh s) h
  bond := fun i b s h => hP s _ (guarded_bondChange i b s) h
  hose := fun i b s h => hP s _ (guarded_hoseChange i b s) h
  residual := fun i b s h => hP s _ (guarded_residualChange i b s) h
  connected := fun i s h => hP s _ (guarded_connectedPressed i s) h
  stop := fun i s h => hP s _ (guarded_stopPressed i s) h
  clear := fun i s h => hP s _ (guarded_clearPressed i s) h
  trip := fun v b s h => hP s _ (guarded_tripChange v b s) h
  run := fun c b s h => hP s _ (guarded_runChange c b s) h
  faultInput := fun c b s h => hP s _ (guarded_faultChange c b s) h
  esd := fun b s h => hP _ _ (guarded_closeEvent _ _) (hesd b _ (hP s _ rfl h))
  beat := fun s h => hP _ _ (guarded_closeEvent _ _) (hbeat _ (hP s _ rfl h))
  pressureWait := fun i s h => hP s _ (guarded_pressureWaitExpires i s) h
  pressureHold := fun i s h => hP s _ (guarded_pressureHoldExpires i s) h
  bleed := fun i s h => hP s _ (guarded_bleedExpires i s) h
  recovery := fun i s h => hP s _ (guarded_recoveryExpires i s) h
  stall := fun i s h => hP s _ (guarded_stallExpires i s) h
  window := fun i s h => hP s _ (guarded_windowExpires i s) h
  start := fun c s h => hP s _ (guarded_startExpires c s) h
  runOn := fun c s h => hP s _ (guarded_runOnExpires c s) h
  proofRun := fun c s h => hP s _ (guarded_proofRunExpires c s) h
  guard := fun c d s h => hP s _ (guarded_guardExpires c d s) h
  stroke := fun v s h => hP s _ (guarded_strokeExpires v s) h
  flash := fun i s h => hP s _ (guarded_flashToggles i s) h

/-! ## Field enable over the ESD input -/

/-- Is the ESD input active, by the guarded fields alone (R156). -/
def Guarded.esdActive (g : Guarded) : Bool :=
  match g.profile.protection with
  | none => true
  | some p => match p.polarity with
    | .activeLow => !g.esdHigh
    | .activeHigh => g.esdHigh

theorem guarded_esdActive (s : State) : s.guarded.esdActive = s.esdActive := rfl

/-- Field enable on means an inactive ESD input and a rearm run of 0. -/
def Guarded.safe (g : Guarded) : Prop := g.fe = true → g.esdActive = false ∧ g.rearmRun = 0

theorem guarded_safe_iff (s : State) : s.guarded.safe ↔ s.enableSafe ∧ s.rearmLegal :=
  ⟨fun h => ⟨fun f => (h f).1, fun f => (h f).2⟩, fun h f => ⟨h.1 f, h.2 f⟩⟩

theorem Guarded.safe_enabled_false (g : Guarded) : (g.enabled false).safe := fun h => by cases h

theorem Guarded.safe_enabled_true {g : Guarded} (h : g.esdActive = false) : (g.enabled true).safe := fun _ => ⟨h, rfl⟩

theorem safe_acceptWrite (w : Section) {s : State} (h : s.guarded.safe) : (acceptWrite w s).guarded.safe := by
  rcases guarded_acceptWrite w s with ⟨e, hp⟩ | e
  · rw [e]
    refine fun hf => ⟨?_, (h hf).2⟩
    cases hq : w.isQuietClass with
    | false => exact hp hq hf
    | true =>
      have hprot : (s.profile.store w).protection = s.profile.protection := by cases w <;> first | rfl | cases hq
      have := (h hf).1
      unfold Guarded.esdActive at this ⊢
      simp only [hprot]
      exact this
  · rw [e]; exact Guarded.safe_enabled_false _

theorem safe_guardedRequest (c : Instr) (s : State) (hc : Instr.guardedRequest c = true) (h : s.guarded.safe) :
    (answer c s).1.guarded.safe := by
  cases c <;> try cases hc
  case rearm =>
    rcases guarded_answerRearm s with e | ⟨ha, e⟩ <;> simp only [answer] <;> rw [e]
    · exact h
    · exact Guarded.safe_enabled_true ha
  case writeProfile via sec fields =>
    rcases answerWriteProfile_cases sec fields s with e | ⟨w, -, -, -, -, e⟩ <;> simp only [answer] <;> rw [e]
    · exact h
    · exact safe_acceptWrite w h
  case setLock via level =>
    rcases answerSetLock_cases level s with e | ⟨-, -, e⟩ <;> simp only [answer] <;> rw [e] <;> exact h
  case stageSetpoints via a b c d e =>
    rcases answerStageSetpoints_cases a b c d e s with e | ⟨p, v, e⟩ <;> simp only [answer] <;> rw [e] <;> exact h
  case setpointHold via value =>
    rcases answerSetpointHold_cases value s with e | ⟨b, e⟩ <;> simp only [answer] <;> rw [e] <;> exact h

theorem safe_changeEsdLevel (b : Bool) (s : State) (h : s.guarded.safe) : (changeEsdLevel b s).guarded.safe := by
  rcases guarded_changeEsdLevel b s with ⟨e, hp⟩ | e
  · rw [e]
    refine fun hf => ⟨?_, (h hf).2⟩
    by_cases hb : s.esdHigh = b
    · subst hb; exact (h hf).1
    · exact hp hf hb
  · rw [e]; exact Guarded.safe_enabled_false _

theorem safe_takeBeat (s : State) (h : s.guarded.safe) : (takeBeat s).guarded.safe := by
  rcases guarded_takeBeat s with ⟨n, e, hn⟩ | ⟨ha, e⟩
  · rw [e]; exact fun hf => ⟨(h hf).1, hn hf⟩
  · rw [e]; exact Guarded.safe_enabled_true ha

/-- Settles O6: field enable turns on over an inactive input alone, and a change of the input or of its polarity that makes it active
turns it off at the same event. -/
theorem enableOffWhileEsdActive : Obligations.EnableOffWhileEsdActive := by
  intro s t h1 h2 he
  rw [← guarded_safe_iff]
  refine step_keeps_all (P := fun s => s.guarded.safe) ?_ ?_ ((guarded_safe_iff s).mpr ⟨h1, h2⟩) he
  · exact stepClosed_of_guarded (fun s t e h => by rw [e]; exact h) safe_guardedRequest safe_changeEsdLevel safe_takeBeat
  · exact fun _ _ _ hf => by cases hf

/-! ## The lock -/

/-- A legal lock, at or above the lock of `g0`, and where it stood once that was taken. -/
def Guarded.lockFrom (g0 g : Guarded) : Prop :=
  (g.lock ≤ 3 ∧ (g.lockTaken = false → g.lock = 0)) ∧
    g0.lock ≤ g.lock ∧ (g0.lockTaken = true → g.lockTaken = true ∧ g.lock = g0.lock)

/-- Where the lock's two fields stand, so does the property. -/
theorem Guarded.lockFrom_congr {g0 g g' : Guarded} (hl : g'.lock = g.lock) (ht : g'.lockTaken = g.lockTaken)
    (h : g0.lockFrom g) : g0.lockFrom g' := by
  unfold Guarded.lockFrom; rw [hl, ht]; exact h

theorem lockFrom_guardedRequest (g0 : Guarded) (c : Instr) (s : State) (hc : Instr.guardedRequest c = true)
    (h : g0.lockFrom s.guarded) : g0.lockFrom (answer c s).1.guarded := by
  cases c <;> try cases hc
  case rearm =>
    rcases guarded_answerRearm s with e | ⟨-, e⟩ <;> simp only [answer] <;> rw [e] <;> exact h
  case writeProfile via sec fields =>
    rcases answerWriteProfile_cases sec fields s with e | ⟨w, -, -, -, -, e⟩ <;> simp only [answer] <;> rw [e]
    · exact h
    · rcases guarded_acceptWrite w s with ⟨e, -⟩ | e <;> rw [e] <;> exact h
  case setLock via level =>
    rcases answerSetLock_cases level s with e | ⟨hle, ht, e⟩ <;> simp only [answer] <;> rw [e]
    · exact h
    · obtain ⟨⟨-, hfree⟩, hge, htaken⟩ := h
      have h0 : s.lock = 0 := hfree ht
      refine ⟨⟨hle, fun hc => by cases hc⟩, ?_, fun h0t => ?_⟩
      · have : g0.lock ≤ s.lock := hge
        show g0.lock ≤ level.toNat
        omega
      · exact absurd (htaken h0t).1 (by show s.lockTaken ≠ true; rw [ht]; decide)
  case stageSetpoints via a b c d e =>
    rcases answerStageSetpoints_cases a b c d e s with e | ⟨p, v, e⟩ <;> simp only [answer] <;> rw [e] <;> exact h
  case setpointHold via value =>
    rcases answerSetpointHold_cases value s with e | ⟨b, e⟩ <;> simp only [answer] <;> rw [e] <;> exact h

theorem lockFrom_closed (g0 : Guarded) : StepClosed fun s => g0.lockFrom s.guarded :=
  stepClosed_of_guarded (fun s t e h => by rw [e]; exact h) (lockFrom_guardedRequest g0)
    (fun b s h => by rcases guarded_changeEsdLevel b s with ⟨e, -⟩ | e <;> rw [e] <;> exact h)
    (fun s h => by rcases guarded_takeBeat s with ⟨n, e, -⟩ | ⟨-, e⟩ <;> rw [e] <;> exact h)

/-- Settles O7: SET LOCK alone reaches the lock, once and upward. -/
theorem lockOnlyRises : Obligations.LockOnlyRises := by
  intro s t h he
  have h0 : s.guarded.lockFrom s.guarded := ⟨h, le_rfl, fun ht => ⟨ht, rfl⟩⟩
  refine ⟨?_, fun hr => (step_keeps (lockFrom_closed s.guarded) h0 hr he).2⟩
  by_cases hr : ∃ x rest, s.pending = .pinReset x :: rest
  · obtain ⟨x, rest, hq⟩ := hr
    rw [step_of_front hq] at he
    cases he
    exact ⟨Nat.zero_le 3, fun _ => rfl⟩
  · exact (step_keeps (lockFrom_closed s.guarded) h0 (fun x rest e => hr ⟨x, rest, e⟩) he).1

end Sys2Proof.Machine
end

section
/-! PROOFS. The bonds of a state: which car each spot names, and of each record its slot's issue, its mark, the spot it names and
whether it is ANNOUNCED; with them, whether the siding is UNCONFIGURED. One lemma per operation says that it keeps the bonds, so that
the statements about bindings, marks and the siding state look at the few commands that do not (R4, R10, R166). -/

namespace Sys2Proof.Machine

/-- What a car record says of its bond. -/
structure Deed where
  mark : List Byte
  spot : Option SpotNo
  announced : Bool

def Car.deed (c : Car) : Deed := { mark := c.mark, spot := c.spot, announced := decide (c.phase = .announced) }

structure Bonds where
  named : SpotNo → Option Handle
  issues : SlotNo → Byte
  deeds : SlotNo → Option Deed
  configured : Prop

def State.bonds (s : State) : Bonds :=
  { named := fun i => (s.spot i).car, issues := fun k => (s.carSlot k).issue, deeds := fun k => (s.car k).map Car.deed
    configured := s.siding ≠ .unconfigured }

/-! ## Single updates -/

theorem bonds_congr {s t : State} (hs : ∀ i, (t.spot i).car = (s.spot i).car) (hc : t.cars = s.cars)
    (hd : t.siding = s.siding) : t.bonds = s.bonds := by
  have hk : ∀ k, t.carSlot k = s.carSlot k := fun k => by unfold State.carSlot; rw [hc]
  simp only [State.bonds, State.car, hs, hk, hd]

theorem bonds_modSpot (i : SpotNo) (f : Spot → Spot) (s : State) (h : ∀ sp, (f sp).car = sp.car) :
    (s.modSpot i f).bonds = s.bonds := by
  refine bonds_congr (fun j => ?_) rfl rfl
  rw [modSpot_spot]; split
  · exact h _
  · rfl

@[simp] theorem bonds_modComp (c : CompNo) (f : Comp → Comp) (s : State) : (s.modComp c f).bonds = s.bonds := rfl
@[simp] theorem bonds_modVessel (v : VesselNo) (f : Vessel → Vessel) (s : State) : (s.modVessel v f).bonds = s.bonds := rfl
@[simp] theorem bonds_touchSpot (i : SpotNo) (s : State) : (s.touchSpot i).bonds = s.bonds := rfl
@[simp] theorem bonds_touchVessel (v : VesselNo) (s : State) : (s.touchVessel v).bonds = s.bonds := rfl
@[simp] theorem bonds_touchComp (c : CompNo) (s : State) : (s.touchComp c).bonds = s.bonds := rfl
@[simp] theorem bonds_touchQueue (s : State) : s.touchQueue.bonds = s.bonds := rfl
@[simp] theorem bonds_flagSiding (s : State) : s.flagSiding.bonds = s.bonds := rfl
@[simp] theorem bonds_useFree (s : State) : s.useFree.bonds = s.bonds := rfl
@[simp] theorem bonds_clearScratch (s : State) : (clearScratch s).bonds = s.bonds := rfl
@[simp] theorem bonds_scratch (s : State) (x : Scratch) : { s with scratch := x }.bonds = s.bonds := rfl
@[simp] theorem bonds_tests (s : State) (x : PendingTests) : { s with tests := x }.bonds = s.bonds := rfl
@[simp] theorem bonds_grants (s : State) (x : List Grant) : { s with grants := x }.bonds = s.bonds := rfl

theorem bonds_modCar (k : SlotNo) (f : Car → Car) (s : State)
    (h : ∀ c, s.car k = some c → (f c).deed = c.deed) : (s.modCar k f).bonds = s.bonds := by
  have hi : ∀ j, ((s.modCar k f).carSlot j).issue = (s.carSlot j).issue := fun j => by
    rw [modCar_carSlot]; split <;> rfl
  have hd : ∀ j, ((s.modCar k f).car j).map Car.deed = (s.car j).map Car.deed := fun j => by
    rw [modCar_car]; split
    · rename_i e; subst e
      cases hc : s.car j with
      | none => rfl
      | some c => exact congrArg some (h c hc)
    · rfl
  simp only [State.bonds, hi, hd, modCar_spot, modCar_siding]

theorem bonds_modCarAt (i : SpotNo) (f : Car → Car) (s : State) (h : ∀ c, (f c).deed = c.deed) :
    (s.modCarAt i f).bonds = s.bonds := by
  unfold State.modCarAt; split
  · exact bonds_modCar _ _ _ fun c _ => h c
  · rfl

@[simp] theorem Spot.setValve_car (n : ValveName) (v : Valve) (sp : Spot) : (sp.setValve n v).car = sp.car := by
  cases n <;> rfl
@[simp] theorem Spot.modHead_car (f : Order → Order) (sp : Spot) : (sp.modHead f).car = sp.car := by
  unfold Spot.modHead; split <;> rfl
@[simp] theorem Spot.modOrder_car (t : Word16) (f : Order → Order) (sp : Spot) : (sp.modOrder t f).car = sp.car := rfl
@[simp] theorem Spot.stopMeter_car (sp : Spot) : sp.stopMeter.car = sp.car := rfl
@[simp] theorem Spot.mapValves_car (f : Valve → Valve) (sp : Spot) : (sp.mapValves f).car = sp.car := rfl
@[simp] theorem Spot.takeStaged_car (s : State) (sp : Spot) : (sp.takeStaged s).car = sp.car := by
  unfold Spot.takeStaged; split <;> rfl

theorem bonds_eachSpot (f : SpotNo → State → State) (h : ∀ i s, (f i s).bonds = s.bonds) (s : State) :
    (eachSpot f s).bonds = s.bonds := foldl_keeps _ _ (fun s i => h i s) _ _
theorem bonds_eachComp (f : CompNo → State → State) (h : ∀ c s, (f c s).bonds = s.bonds) (s : State) :
    (eachComp f s).bonds = s.bonds := foldl_keeps _ _ (fun s c => h c s) _ _
theorem bonds_eachFittedSpot (f : SpotNo → State → State) (h : ∀ i s, (f i s).bonds = s.bonds) (s : State) :
    (eachFittedSpot f s).bonds = s.bonds := by
  apply bonds_eachSpot; intro i s; split <;> simp [h]
theorem bonds_eachFittedComp (f : CompNo → State → State) (h : ∀ c s, (f c s).bonds = s.bonds) (s : State) :
    (eachFittedComp f s).bonds = s.bonds := by
  apply bonds_eachComp; intro c s; split <;> simp [h]

/-! ## Compressors -/

/-- Work that leaves the spots and keeps the ground keeps the bonds, but for the marks of the phase; a compressor's work leaves the
car table too. -/
theorem bonds_of_ground {s t : State} (hs : t.spots = s.spots) (hc : t.cars = s.cars) (hg : t.ground = s.ground) :
    t.bonds = s.bonds := by
  have hst : t.siding.stage = s.siding.stage := congrArg Ground.stage hg
  have hun : (t.siding = .unconfigured) = (s.siding = .unconfigured) := by
    revert hst
    cases t.siding <;> cases s.siding <;> simp [SidingState.stage]
  have hk : ∀ k, t.carSlot k = s.carSlot k := fun k => by unfold State.carSlot; rw [hc]
  simp only [State.bonds, State.car, hk, ne_eq, hun, spot_of_spots hs]

@[simp] theorem cars_settleTests (s : State) : (settleTests s).cars = s.cars := by unfold settleTests; split <;> rfl
@[simp] theorem cars_endCompTest (c : CompNo) (s : State) : (endCompTest c s).cars = s.cars := by simp [endCompTest]
@[simp] theorem cars_endSpotTest (i : SpotNo) (s : State) : (endSpotTest i s).cars = s.cars := by simp [endSpotTest]
@[simp] theorem cars_commandDir (c : CompNo) (d : Direction) (x : Command) (s : State) :
    (commandDir c d x s).cars = s.cars := rfl
@[simp] theorem cars_shutDirs (c : CompNo) (s : State) : (shutDirs c s).cars = s.cars := rfl
@[simp] theorem cars_stopComp (c : CompNo) (s : State) : (stopComp c s).cars = s.cars := rfl
@[simp] theorem cars_enterRunOn (c : CompNo) (s : State) : (enterRunOn c s).cars = s.cars := by
  unfold enterRunOn; split <;> rfl
@[simp] theorem cars_enterRunWait (c : CompNo) (s : State) : (enterRunWait c s).cars = s.cars := rfl
@[simp] theorem cars_compOnOpen (c : CompNo) (s : State) : (compOnOpen c s).cars = s.cars := by
  unfold compOnOpen; simp only; repeat' split
  all_goals simp
@[simp] theorem cars_compOnRun (c : CompNo) (s : State) : (compOnRun c s).cars = s.cars := by
  unfold compOnRun; simp only; repeat' split
  all_goals simp
@[simp] theorem cars_passProof (c : CompNo) (s : State) : (passProof c s).cars = s.cars := by simp [passProof]
@[simp] theorem cars_compOnShut (c : CompNo) (s : State) : (compOnShut c s).cars = s.cars := by
  unfold compOnShut; simp only; repeat' split
  all_goals simp
@[simp] theorem cars_compOnGuard (c : CompNo) (s : State) : (compOnGuard c s).cars = s.cars := by
  unfold compOnGuard; simp only; repeat' split
  all_goals simp
@[simp] theorem cars_compPassGuard (c : CompNo) (s : State) : (compPassGuard c s).cars = s.cars := by
  simp [compPassGuard]
@[simp] theorem cars_compOnArrivals (c : CompNo) (s : State) : (compOnArrivals c s).cars = s.cars := by
  simp [compOnArrivals]
@[simp] theorem cars_compAdvance (c : CompNo) (s : State) : (compAdvance c s).cars = s.cars := by simp [compAdvance]
@[simp] theorem cars_compReported (b : State) (c : CompNo) (s : State) : (compReported b c s).cars = s.cars := by
  unfold compReported; simp only; split <;> simp
@[simp] theorem cars_startComp (c : CompNo) (d : Direction) (s : State) : (startComp c d s).cars = s.cars := by
  simp [startComp]
@[simp] theorem cars_enterReversing (c : CompNo) (d : Direction) (s : State) : (enterReversing c d s).cars = s.cars := by
  simp [enterReversing]
@[simp] theorem cars_compOnEmpty (c : CompNo) (s : State) : (compOnEmpty c s).cars = s.cars := by
  unfold compOnEmpty; simp only; repeat' split
  all_goals simp

@[simp] theorem bonds_settleTests (s : State) : (settleTests s).bonds = s.bonds := bonds_of_ground (by simp) (by simp) (by simp)
@[simp] theorem bonds_endCompTest (c : CompNo) (s : State) : (endCompTest c s).bonds = s.bonds :=
  bonds_of_ground (by simp) (by simp) (by simp)
@[simp] theorem bonds_endSpotTest (i : SpotNo) (s : State) : (endSpotTest i s).bonds = s.bonds :=
  bonds_of_ground (by simp) (by simp) (by simp)
@[simp] theorem bonds_shutDirs (c : CompNo) (s : State) : (shutDirs c s).bonds = s.bonds := rfl
@[simp] theorem bonds_pursueDirAll (c : CompNo) (s : State) : (pursueDirAll c s).bonds = s.bonds := rfl
@[simp] theorem bonds_stopComp (c : CompNo) (s : State) : (stopComp c s).bonds = s.bonds := rfl
@[simp] theorem bonds_enterProof (c : CompNo) (s : State) : (enterProof c s).bonds = s.bonds := rfl
@[simp] theorem bonds_compOnRun (c : CompNo) (s : State) : (compOnRun c s).bonds = s.bonds :=
  bonds_of_ground (by simp) (by simp) (by simp)
@[simp] theorem bonds_compPassGuard (c : CompNo) (s : State) : (compPassGuard c s).bonds = s.bonds :=
  bonds_of_ground (by simp) (by simp) (by simp)
@[simp] theorem bonds_compAdvance (c : CompNo) (s : State) : (compAdvance c s).bonds = s.bonds :=
  bonds_of_ground (by simp) (by simp) (by simp)
@[simp] theorem bonds_compReported (b : State) (c : CompNo) (s : State) : (compReported b c s).bonds = s.bonds :=
  bonds_of_ground (by simp) (by simp) (by simp)
@[simp] theorem bonds_startComp (c : CompNo) (d : Direction) (s : State) : (startComp c d s).bonds = s.bonds :=
  bonds_of_ground (by simp) (by simp) (by simp)
@[simp] theorem bonds_compOnEmpty (c : CompNo) (s : State) : (compOnEmpty c s).bonds = s.bonds :=
  bonds_of_ground (by simp) (by simp) (by simp)
@[simp] theorem bonds_releaseSeat (i : SpotNo) (s : State) : (releaseSeat i s).bonds = s.bonds := by
  unfold releaseSeat; split
  · rfl
  · simp [bonds_modSpot]
@[simp] theorem bonds_clearTurning (i : SpotNo) (c : CompNo) (s : State) : (clearTurning i c s).bonds = s.bonds := by
  unfold clearTurning; split <;> rfl
@[simp] theorem bonds_dropGrant (i : SpotNo) (s : State) : (dropGrant i s).bonds = s.bonds := by
  unfold dropGrant; simp only; rw [bonds_eachComp _ (bonds_clearTurning i)]; split <;> rfl
@[simp] theorem bonds_leaveCompressors (i : SpotNo) (s : State) : (leaveCompressors i s).bonds = s.bonds := by
  simp [leaveCompressors]
@[simp] theorem bonds_haltComp (k : Bool) (c : CompNo) (s : State) : (haltComp k c s).bonds = s.bonds := by
  have h : ∀ t : State, (eachSpot (fun i s => s.modSpot i fun sp =>
      if sp.seat = some c then { sp with seat := none } else sp) t).bonds = t.bonds :=
    bonds_eachSpot _ fun i s => bonds_modSpot _ _ _ fun sp => by split <;> rfl
  unfold haltComp; simp only
  repeat' split
  all_goals simp [h]

/-! ## Valves of a spot -/

@[simp] theorem bonds_pursueSpot (i : SpotNo) (n : ValveName) (s : State) : (pursueSpot i n s).bonds = s.bonds :=
  bonds_modSpot _ _ _ fun _ => by simp
@[simp] theorem bonds_commandSpot (i : SpotNo) (n : ValveName) (c : Command) (s : State) :
    (commandSpot i n c s).bonds = s.bonds := by
  unfold commandSpot; rw [bonds_pursueSpot, bonds_modSpot _ _ _ fun _ => by simp]
@[simp] theorem bonds_pursueSpotAll (i : SpotNo) (s : State) : (pursueSpotAll i s).bonds = s.bonds :=
  foldl_keeps State.bonds _ (fun s n => bonds_pursueSpot i n s) _ _
@[simp] theorem bonds_shutLines (i : SpotNo) (s : State) : (shutLines i s).bonds = s.bonds := by simp [shutLines]
@[simp] theorem bonds_shutAll (i : SpotNo) (s : State) : (shutAll i s).bonds = s.bonds := by simp [shutAll]

/-! ## Spots and orders -/

@[simp] theorem bonds_depart (i : SpotNo) (o : Order) (s : State) : (depart i o s).bonds = s.bonds := by
  have h : ∀ f : List Order → List Order, ((s.touchSpot i).modSpot i fun sp => { sp with orders := f sp.orders }).bonds
      = s.bonds := fun f => by simp [bonds_modSpot]
  unfold depart; simp only
  split <;> exact (bonds_scratch _ _).trans (h _)
@[simp] theorem bonds_stopMeter (i : SpotNo) (s : State) : (s.modSpot i Spot.stopMeter).bonds = s.bonds :=
  bonds_modSpot i _ s Spot.stopMeter_car
@[simp] theorem bonds_mapValves (i : SpotNo) (f : Valve → Valve) (s : State) :
    (s.modSpot i (Spot.mapValves f)).bonds = s.bonds := bonds_modSpot i _ s (Spot.mapValves_car f)
@[simp] theorem bonds_departAll (i : SpotNo) (f : Order → Order) (l : List Order) (s : State) :
    (l.foldl (fun s o => depart i (f o) s) s).bonds = s.bonds :=
  foldl_keeps _ _ (fun s o => bonds_depart i (f o) s) _ _
@[simp] theorem bonds_addHold (i : SpotNo) (r : HoldReason) (s : State) : (addHold i r s).bonds = s.bonds := by
  unfold addHold; simp only; repeat' split
  all_goals simp [bonds_modSpot]
@[simp] theorem bonds_removeHold (i : SpotNo) (r : HoldReason) (s : State) : (removeHold i r s).bonds = s.bonds := by
  simp [removeHold, bonds_modSpot]
@[simp] theorem bonds_becomeHead (i : SpotNo) (s : State) : (becomeHead i s).bonds = s.bonds := by
  unfold becomeHead; simp only; repeat' split
  all_goals simp [bonds_modSpot]
@[simp] theorem bonds_nextHead (i : SpotNo) (s : State) : (nextHead i s).bonds = s.bonds := by
  unfold nextHead; simp only; repeat' split
  all_goals simp [bonds_modSpot]
@[simp] theorem bonds_endQueue (a b : EndReason) (i : SpotNo) (s : State) : (endQueue a b i s).bonds = s.bonds := by
  unfold endQueue; split
  · rfl
  · simp only; rw [foldl_keeps State.bonds _ (fun s o => bonds_depart i _ s)]; repeat' split
    all_goals simp [bonds_modSpot]
@[simp] theorem bonds_enterIsolating (a b : EndReason) (f : Option SpotFault) (i : SpotNo) (s : State) :
    (enterIsolating a b f i s).bonds = s.bonds := by simp [enterIsolating, bonds_modSpot]
@[simp] theorem bonds_failProving (f : SpotFault) (i : SpotNo) (s : State) : (failProving f i s).bonds = s.bonds := by
  simp [failProving]
@[simp] theorem bonds_headGone (i : SpotNo) (b : Bool) (s : State) : (headGone i b s).bonds = s.bonds := by
  unfold headGone; split <;> simp
@[simp] theorem bonds_drainHead (i : SpotNo) (r : EndReason) (s : State) : (drainHead i r s).bonds = s.bonds := by
  simp [drainHead, bonds_modSpot]
@[simp] theorem bonds_headLeaves (i : SpotNo) (h : Order) (r : EndReason) (s : State) :
    (headLeaves i h r s).bonds = s.bonds := by unfold headLeaves; simp only; split <;> simp [bonds_modSpot]
@[simp] theorem bonds_endHead (i : SpotNo) (r : EndReason) (s : State) : (endHead i r s).bonds = s.bonds := by
  unfold endHead; repeat' split
  all_goals simp
@[simp] theorem bonds_endOrder (i : SpotNo) (t : Word16) (r : EndReason) (s : State) :
    (endOrder i t r s).bonds = s.bonds := by
  unfold endOrder; repeat' split
  all_goals simp
/-- Only an UNLOADING car is served, and neither phase is ANNOUNCED. -/
@[simp] theorem bonds_serveUnloading (i : SpotNo) (s : State) : (serveUnloading i s).bonds = s.bonds := by
  unfold serveUnloading
  split
  · rfl
  · split
    · rename_i c hc
      split
      · rename_i hp
        refine bonds_modCar _ _ _ fun c' hc' => ?_
        obtain rfl : c = c' := Option.some.inj (hc.symm.trans hc')
        simp [Car.deed, hp]
      · rfl
    · rfl
@[simp] theorem bonds_faultSpot (f : SpotFault) (i : SpotNo) (s : State) : (faultSpot f i s).bonds = s.bonds := by
  simp [faultSpot, bonds_modSpot,
    foldl_keeps State.bonds _ (fun s (o : Order) => bonds_depart i { o with reason := some .fault } s)]
@[simp] theorem bonds_failStroke (k : Bool) (f : SpotFault) (i : SpotNo) (s : State) :
    (failStroke k f i s).bonds = s.bonds := by unfold failStroke; simp only; split <;> simp [bonds_modSpot]
@[simp] theorem bonds_spotValveFault (i : SpotNo) (n : ValveName) (s : State) :
    (spotValveFault i n s).bonds = s.bonds := by unfold spotValveFault; split <;> simp
@[simp] theorem bonds_enterStroking (i : SpotNo) (s : State) : (enterStroking i s).bonds = s.bonds := by
  have h : ∀ (l : List ValveName) (t : State), (l.foldl (fun s n =>
      s.modSpot i fun sp => sp.setValve n ((sp.valve n).beginTest (s.strokeOf n))) t).bonds = t.bonds :=
    foldl_keeps State.bonds _ fun t n => bonds_modSpot _ _ _ fun sp => by simp
  unfold enterStroking; simp only; split <;> simp [h, bonds_modSpot]
@[simp] theorem bonds_passStroke (i : SpotNo) (s : State) : (passStroke i s).bonds = s.bonds := by
  simp [passStroke, bonds_modSpot]
@[simp] theorem bonds_onShutoffOpen (i : SpotNo) (s : State) : (onShutoffOpen i s).bonds = s.bonds := by
  unfold onShutoffOpen; simp only; split <;> simp [bonds_modSpot]
@[simp] theorem bonds_onLiquidOpen (i : SpotNo) (s : State) : (onLiquidOpen i s).bonds = s.bonds := by
  unfold onLiquidOpen; simp only; split <;> simp [bonds_modSpot]
@[simp] theorem bonds_onDrained (i : SpotNo) (s : State) : (onDrained i s).bonds = s.bonds := by
  unfold onDrained; repeat' split
  all_goals simp
@[simp] theorem bonds_onResumed (i : SpotNo) (s : State) : (onResumed i s).bonds = s.bonds := by
  unfold onResumed; simp only; split <;> simp [bonds_modSpot]
@[simp] theorem bonds_onLinesShut (i : SpotNo) (s : State) : (onLinesShut i s).bonds = s.bonds := by
  unfold onLinesShut; simp only; split <;> simp [bonds_modSpot]
@[simp] theorem bonds_onVentOpen (i : SpotNo) (s : State) : (onVentOpen i s).bonds = s.bonds := by
  unfold onVentOpen; simp only; split <;> simp [bonds_modSpot]
@[simp] theorem bonds_onVentShut (i : SpotNo) (s : State) : (onVentShut i s).bonds = s.bonds := by
  unfold onVentShut; simp only; split
  · refine (bonds_modCarAt _ _ _ fun c => ?_).trans (bonds_modSpot _ _ _ fun _ => rfl)
    unfold Car.deed
    by_cases h : c.phase = .unloading <;> simp [h]
  · rfl
@[simp] theorem bonds_onStrokeOpen (i : SpotNo) (s : State) : (onStrokeOpen i s).bonds = s.bonds := by
  unfold onStrokeOpen; simp only; repeat' split
  all_goals simp [bonds_modSpot]
@[simp] theorem bonds_onStrokeShut (i : SpotNo) (s : State) : (onStrokeShut i s).bonds = s.bonds := by
  unfold onStrokeShut; simp only; repeat' split
  all_goals simp [bonds_modSpot]
@[simp] theorem bonds_onStrokeTurn (i : SpotNo) (s : State) : (onStrokeTurn i s).bonds = s.bonds := by
  unfold onStrokeTurn; simp only; repeat' split
  all_goals simp
@[simp] theorem bonds_advanceSpot (i : SpotNo) (s : State) : (advanceSpot i s).bonds = s.bonds := by simp [advanceSpot]
@[simp] theorem bonds_holdSpot (i : SpotNo) (r : HoldReason) (s : State) : (holdSpot i r s).bonds = s.bonds := by
  simp [holdSpot]
@[simp] theorem bonds_faultComp (f : CompFault) (c : CompNo) (s : State) : (faultComp f c s).bonds = s.bonds := by
  have h : ∀ (l : List SpotNo) (t : State), (l.foldl (fun s i =>
      holdSpot i .compressor ((s.touchSpot i).modSpot i fun sp => { sp with seat := none })) t).bonds = t.bonds :=
    foldl_keeps State.bonds _ (by intros; simp [bonds_modSpot])
  unfold faultComp; simp only
  repeat' split
  all_goals simp [h]
@[simp] theorem bonds_sweepCut (i : SpotNo) (s : State) : (sweepCut i s).bonds = s.bonds := by
  unfold sweepCut; simp only; repeat' split
  all_goals simp [foldl_keeps State.bonds]
@[simp] theorem bonds_applyCuts (v : VesselNo) (s : State) : (applyCuts v s).bonds = s.bonds := by
  unfold applyCuts
  exact (foldl_keeps State.bonds _ (fun _ _ => bonds_modSpot _ _ _ (Spot.modOrder_car _ _)) _ _).trans rfl
@[simp] theorem bonds_runCut (v : VesselNo) (s : State) : (runCut v s).bonds = s.bonds := by
  unfold runCut; split
  · rfl
  · rw [bonds_eachSpot _ (fun i s => by simp)]; simp

/-! ## The arbiter -/

@[simp] theorem bonds_runHead (i : SpotNo) (s : State) : (runHead i s).bonds = s.bonds := by
  unfold runHead; simp only; repeat' split
  all_goals simp [bonds_modSpot]
@[simp] theorem bonds_joinGrants (s : State) : (joinGrants s).bonds = s.bonds := rfl
@[simp] theorem bonds_grantSeat (c : CompNo) (g : Grant) (s : State) : (grantSeat c g s).bonds = s.bonds := by
  unfold grantSeat; simp only; split <;> simp [bonds_modSpot]
@[simp] theorem bonds_markTurning (i : SpotNo) (c : CompNo) (s : State) : (markTurning i c s).bonds = s.bonds := by
  simp [markTurning]
@[simp] theorem bonds_performDue (d : Due) (s : State) : (performDue d s).bonds = s.bonds := by
  unfold performDue; split <;> simp
theorem bonds_settleFor : ∀ (n : Nat) (s : State), (settleFor n s).bonds = s.bonds
  | 0, _ => rfl
  | n + 1, s => by
    unfold settleFor; split
    · rfl
    · rw [bonds_settleFor n]; simp
@[simp] theorem bonds_settle (s : State) : (settle s).bonds = s.bonds := bonds_settleFor _ s

/-! ## Protection and metering -/

/-- A COMMISSIONING siding falls back to CONFIGURED; neither is UNCONFIGURED. -/
@[simp] theorem bonds_endCommissioning (s : State) : (endCommissioning s).bonds = s.bonds := by
  unfold endCommissioning; split
  · rename_i h
    have hc : (SidingState.configured ≠ .unconfigured) = (s.siding ≠ .unconfigured) :=
      propext ⟨fun _ => by rw [h]; decide, fun _ => by decide⟩
    exact congrArg (fun x => { s.bonds with configured := x }) hc
  · rfl
theorem bonds_enableOff (s : State) : (enableOff s).bonds = s.bonds := by
  unfold enableOff; simp only
  rw [bonds_eachComp _ bonds_pursueDirAll, bonds_eachSpot _ (by simp),
    bonds_eachFittedSpot _ (fun i s => by unfold spotLosesEnable; split <;> simp [bonds_modSpot]),
    bonds_eachFittedComp _ (fun c s => by unfold compLosesEnable; split <;> simp), bonds_endCommissioning]
  rfl
theorem bonds_enableOn (s : State) : (enableOn s).bonds = s.bonds := by
  unfold enableOn; simp only
  rw [bonds_settle, bonds_eachComp _ (by simp), bonds_eachSpot _ (by simp),
    bonds_eachFittedSpot _ (fun i s => by unfold spotGainsEnable; simp only; split <;> simp [bonds_modSpot])]
  rfl
@[simp] theorem bonds_esdBecomesActive (s : State) : (esdBecomesActive s).bonds = s.bonds := by
  unfold esdBecomesActive; split
  · rw [bonds_settle, bonds_enableOff]
  · rfl
@[simp] theorem bonds_changeEsdLevel (b : Bool) (s : State) : (changeEsdLevel b s).bonds = s.bonds := by
  unfold changeEsdLevel; simp only
  repeat' split
  · rfl
  · exact (bonds_esdBecomesActive _).trans rfl
  · rfl
@[simp] theorem bonds_takeBeat (s : State) : (takeBeat s).bonds = s.bonds := by
  unfold takeBeat; simp only
  repeat' split
  · rfl
  · exact (bonds_enableOn _).trans rfl
  · rfl
  · rfl

@[simp] theorem bonds_creditOrder (i : SpotNo) (l : Liquid) (s : State) : (creditOrder i l s).bonds = s.bonds := by
  unfold creditOrder; simp only; split <;> simp [bonds_modSpot]
@[simp] theorem bonds_creditVessel (i : SpotNo) (t : Word16) (v : VesselNo) (s : State) :
    (creditVessel i t v s).bonds = s.bonds := by unfold creditVessel; simp only; split <;> simp
@[simp] theorem bonds_decideTarget (i : SpotNo) (s : State) : (decideTarget i s).bonds = s.bonds := by
  unfold decideTarget
  repeat' split
  all_goals simp
@[simp] theorem bonds_restartStall (i : SpotNo) (s : State) : (restartStall i s).bonds = s.bonds := by
  unfold restartStall; split <;> simp [bonds_modSpot]
@[simp] theorem bonds_countInWindow (i : SpotNo) (s : State) : (countInWindow i s).bonds = s.bonds := by
  unfold countInWindow; simp only
  repeat' split
  all_goals simp [bonds_modSpot]
@[simp] theorem bonds_creditLitre (i : SpotNo) (h : Order) (l : Liquid) (s : State) :
    (creditLitre i h l s).bonds = s.bonds := by
  simp only [creditLitre, bonds_countInWindow, bonds_restartStall, bonds_decideTarget, bonds_creditVessel]
  exact (bonds_modCarAt _ _ _ (by intros; rfl)).trans (bonds_creditOrder i l s)
@[simp] theorem bonds_creepLitre (i : SpotNo) (s : State) : (creepLitre i s).bonds = s.bonds := by
  have h : (s.modSpot i fun sp => if sp.creep < sp.active.creep then { sp with creep := sp.creep + 1 } else sp).bonds
      = s.bonds := bonds_modSpot _ _ _ fun sp => by split <;> rfl
  unfold creepLitre; simp only; split <;> simp [h]
@[simp] theorem bonds_disposeLitre (i : SpotNo) (s : State) : (disposeLitre i s).bonds = s.bonds := by
  unfold disposeLitre; simp only
  repeat' split
  all_goals simp
@[simp] theorem bonds_emitLitre (i : SpotNo) (s : State) : (emitLitre i s).bonds = s.bonds := by
  simp [emitLitre, bonds_modSpot]
@[simp] theorem bonds_takePulse (i : SpotNo) (s : State) : (takePulse i s).bonds = s.bonds := by
  unfold takePulse
  repeat' split
  all_goals simp [bonds_modSpot]
@[simp] theorem bonds_takeLitre (i : SpotNo) (s : State) : (takeLitre i s).bonds = s.bonds := by
  unfold takeLitre; split <;> simp

/-! ## The close of an event -/

/-- The last ends and the revisions are no part of a record's bond. -/
theorem bonds_writeLastEnd (b : State) (i : SpotNo) (s : State) : (writeLastEnd b i s).bonds = s.bonds := by
  unfold writeLastEnd; simp only; split
  · rfl
  · exact bonds_modCarAt _ _ _ fun _ => rfl
theorem bumpRevisions_carSlot (s : State) (k : SlotNo) :
    (bumpRevisions s).carSlot k =
      if s.scratch.touched.getLsbD k then
        { s.carSlot k with car := (s.car k).map fun c => { c with revision := c.revision + 1 } }
      else s.carSlot k := by
  unfold bumpRevisions
  by_cases h0 : s.scratch.touched = 0
  · rw [if_pos h0, h0]; simp
  · rw [if_neg h0]; simp [State.carSlot, State.car]
theorem bonds_bumpRevisions (s : State) : (bumpRevisions s).bonds = s.bonds := by
  have hi : ∀ k, ((bumpRevisions s).carSlot k).issue = (s.carSlot k).issue := fun k => by
    rw [bumpRevisions_carSlot]; split <;> rfl
  have hd : ∀ k, ((bumpRevisions s).car k).map Car.deed = (s.car k).map Car.deed := fun k => by
    unfold State.car; rw [bumpRevisions_carSlot]; split
    · show ((s.car k).map _).map _ = _
      rw [Option.map_map]; rfl
    · rfl
  obtain ⟨x, c, h⟩ := bumpRevisions_rest s
  have hs : ∀ i, (bumpRevisions s).spot i = s.spot i := fun i => by rw [h]; rfl
  have hu : (bumpRevisions s).siding = s.siding := by rw [h]
  simp only [State.bonds, hs, hu, hi, hd]
@[simp] theorem bonds_closeEvent (b s : State) : (closeEvent b s).bonds = s.bonds := by
  have hr : ∀ t, (clearScratch (raiseFlags b (followLamps b t))).bonds = t.bonds := fun _ => rfl
  unfold closeEvent
  rw [hr, bonds_bumpRevisions, bonds_eachSpot _ (bonds_writeLastEnd b)]
  rfl

theorem bonds_event (f : State → State) (s : State) (h : ∀ t, (f t).bonds = t.bonds) :
    (event f s).bonds = s.bonds := by unfold event; rw [bonds_closeEvent, h]; rfl

end Sys2Proof.Machine
end

section
/-! PROOFS. The bonds under every command (R4, R10, R166): field inputs, expiries and most owners' answers keep them. -/

namespace Sys2Proof.Machine

/-! ## Field inputs and clock events -/

@[simp] theorem bonds_modValve (v : ValveId) (f : Valve → Valve) (s : State) : (s.modValve v f).bonds = s.bonds := by
  cases v with
  | spot i n => exact bonds_modSpot _ _ _ fun _ => Spot.setValve_car _ _ _
  | direction c d => rfl

theorem bonds_withFilter (x : Input) (f : Filter) (s : State) : (s.withFilter x f).bonds = s.bonds := by
  cases x <;> first
    | rfl
    | exact bonds_modValve _ _ _
    | exact bonds_modSpot _ _ _ (by intros; rfl)

theorem bonds_ifFitted (i : SpotNo) (f : SpotNo → State → State) (s : State) (h : ∀ t, (f i t).bonds = t.bonds) :
    (ifFitted i f s).bonds = s.bonds := by unfold ifFitted; split <;> simp [h]

@[simp] theorem bonds_bondTrip (i : SpotNo) (s : State) : (bondTrip i s).bonds = s.bonds := by
  unfold bondTrip; split <;> simp
@[simp] theorem bonds_pressureMade (i : SpotNo) (s : State) : (pressureMade i s).bonds = s.bonds := by
  unfold pressureMade; split <;> simp [bonds_modSpot]
@[simp] theorem bonds_pressureLost (i : SpotNo) (s : State) : (pressureLost i s).bonds = s.bonds := by
  unfold pressureLost; split <;> simp
@[simp] theorem bonds_residualMade (i : SpotNo) (s : State) : (residualMade i s).bonds = s.bonds := by
  unfold residualMade; split <;> simp
@[simp] theorem bonds_resumeSpot (i : SpotNo) (s : State) : (resumeSpot i s).bonds = s.bonds := by
  have h : ∀ sp : Spot, (if sp.orders.isEmpty then { sp with state := .connected, pulses := 0 }
      else { sp with state := .staged }).car = sp.car := fun sp => by split <;> rfl
  unfold resumeSpot
  simp only
  rw [bonds_settle, bonds_advanceSpot, bonds_commandSpot]
  exact bonds_modSpot _ _ _ h
@[simp] theorem bonds_pressConnected (i : SpotNo) (s : State) : (pressConnected i s).bonds = s.bonds := by
  unfold pressConnected
  repeat' split
  all_goals first | rfl | exact bonds_modCarAt _ _ _ fun _ => rfl
@[simp] theorem bonds_pressStop (i : SpotNo) (s : State) : (pressStop i s).bonds = s.bonds := by
  unfold pressStop; split <;> simp
@[simp] theorem bonds_pressClear (i : SpotNo) (s : State) : (pressClear i s).bonds = s.bonds := by
  unfold pressClear; simp only
  repeat' split
  all_goals simp

theorem bonds_bondChange (i : SpotNo) (b : Bool) (s : State) : (bondChange i b s).bonds = s.bonds := by
  unfold bondChange; split
  · rfl
  · refine bonds_event _ s fun t => ?_
    have h : (t.modSpot i fun sp => { sp with bond := .at b }).bonds = t.bonds := bonds_withFilter (.bond i) _ t
    split
    · exact h
    · rw [bonds_ifFitted _ _ _ (bonds_bondTrip i), h]
theorem bonds_hoseChange (i : SpotNo) (b : Bool) (s : State) : (hoseChange i b s).bonds = s.bonds := by
  unfold hoseChange; split
  · rfl
  · refine bonds_event _ s fun t => ?_
    have h : (t.modSpot i fun sp => { sp with hose := .at b }).bonds = t.bonds := bonds_withFilter (.hose i) _ t
    split
    · rw [bonds_ifFitted _ _ _ (bonds_pressureMade i), h]
    · rw [bonds_ifFitted _ _ _ (bonds_pressureLost i), h]
theorem bonds_residualChange (i : SpotNo) (b : Bool) (s : State) : (residualChange i b s).bonds = s.bonds := by
  unfold residualChange; split
  · rfl
  · refine bonds_event _ s fun t => ?_
    have h : (t.modSpot i fun sp => { sp with residual := .at b }).bonds = t.bonds := bonds_withFilter (.residual i) _ t
    split
    · rw [bonds_ifFitted _ _ _ (bonds_residualMade i), h]
    · exact h
theorem bonds_connectedPressed (i : SpotNo) (s : State) : (connectedPressed i s).bonds = s.bonds := by
  refine bonds_event _ s fun t => ?_
  rw [bonds_ifFitted _ _ _ (bonds_pressConnected i)]; exact bonds_withFilter (.connectedButton i) _ t
theorem bonds_stopPressed (i : SpotNo) (s : State) : (stopPressed i s).bonds = s.bonds := by
  refine bonds_event _ s fun t => ?_
  rw [bonds_ifFitted _ _ _ (bonds_pressStop i)]; exact bonds_withFilter (.stopButton i) _ t
theorem bonds_clearPressed (i : SpotNo) (s : State) : (clearPressed i s).bonds = s.bonds := by
  refine bonds_event _ s fun t => ?_
  rw [bonds_ifFitted _ _ _ (bonds_pressClear i)]; exact bonds_withFilter (.clearButton i) _ t
theorem bonds_tripChange (v : VesselNo) (b : Bool) (s : State) : (tripChange v b s).bonds = s.bonds := by
  unfold tripChange; split
  · rfl
  · refine bonds_event _ s fun t => ?_
    simp only [vesselTrips, vesselClears]
    repeat' split
    · rw [bonds_settle, bonds_eachFittedSpot _ (by intro i s; split <;> simp)]; rfl
    · rw [bonds_eachFittedSpot _ (by intro i s; split <;> simp)]; rfl
    · rfl
@[simp] theorem bonds_runLost (c : CompNo) (s : State) : (runLost c s).bonds = s.bonds := by
  unfold runLost; split <;> simp
theorem bonds_runChange (c : CompNo) (b : Bool) (s : State) : (runChange c b s).bonds = s.bonds := by
  unfold runChange; split
  · rfl
  · refine bonds_event _ s fun t => ?_
    simp only
    repeat' split
    all_goals simp
theorem bonds_faultChange (c : CompNo) (b : Bool) (s : State) : (faultChange c b s).bonds = s.bonds := by
  unfold faultChange; split
  · rfl
  · refine bonds_event _ s fun t => ?_
    simp only
    split <;> simp
@[simp] theorem bonds_reportValve (u : State) (v : ValveId) (b : Bool) (s : State) :
    (reportValve u v b s).bonds = s.bonds := by
  unfold reportValve; split <;> split <;> simp
theorem bonds_limitChange (v : ValveId) (o h : Bool) (s : State) : (limitChange v o h s).bonds = s.bonds := by
  unfold limitChange; split
  · rfl
  · exact bonds_event _ s fun t => by simp [limitsBecome]

/-- An event under a condition, or nothing. -/
theorem bonds_ite_event (p : Prop) [Decidable p] {f : State → State} (s : State) (h : ∀ t, (f t).bonds = t.bonds) :
    (if p then event f s else s).bonds = s.bonds := by
  split
  · exact bonds_event f s h
  · rfl

theorem bonds_judgeBleed (i : SpotNo) (s : State) : (judgeBleed i s).bonds = s.bonds := by
  unfold judgeBleed; split <;> simp [bonds_modSpot]

/-! ## The owners' answers -/

theorem bonds_withSpot (b : Byte) (s : State) (f : SpotNo → State × Reply) (h : ∀ i, (f i).1.bonds = s.bonds) :
    (withSpot b s f).1.bonds = s.bonds := by unfold withSpot; split <;> simp [h]
theorem bonds_withVessel (b : Byte) (s : State) (f : VesselNo → State × Reply) (h : ∀ v, (f v).1.bonds = s.bonds) :
    (withVessel b s f).1.bonds = s.bonds := by unfold withVessel; split <;> simp [h]
theorem bonds_withComp (b : Byte) (s : State) (f : CompNo → State × Reply) (h : ∀ c, (f c).1.bonds = s.bonds) :
    (withComp b s f).1.bonds = s.bonds := by unfold withComp; split <;> simp [h]

theorem bonds_isolateSpot (i : SpotNo) (s : State) : (isolateSpot i s).bonds = s.bonds := by
  unfold isolateSpot; rw [bonds_advanceSpot]; split <;> simp

theorem bonds_placeOrder (i : SpotNo) (r : OrderRequest) (l : Option Liquid) (s : State) :
    (placeOrder i r l s).bonds = s.bonds := by
  unfold placeOrder; simp only
  rw [bonds_settle, bonds_advanceSpot]
  split <;> (try rw [bonds_becomeHead]) <;> split <;> simp [bonds_modSpot]
theorem bonds_placedReply (i : SpotNo) (r : OrderRequest) (l : Option Liquid) (t : State) :
    (placedReply i r l t).1.bonds = t.bonds := by unfold placedReply; simp only; split <;> rfl

theorem bonds_beginSpotTest (i : SpotNo) (s : State) : (beginSpotTest i s).bonds = s.bonds := by
  unfold beginSpotTest; simp only
  repeat' split
  all_goals simp [bonds_modSpot]
theorem bonds_beginCompTest (c : CompNo) (s : State) : (beginCompTest c s).bonds = s.bonds := by
  unfold beginCompTest; simp only
  repeat' split
  all_goals simp

/-- A siding that is not UNCONFIGURED and stays so keeps its bonds. -/
theorem bonds_siding {s : State} {x : SidingState} (y : PendingTests) (z : List Grant) (h : s.siding ≠ .unconfigured)
    (hx : x ≠ .unconfigured) : { s with siding := x, tests := y, grants := z }.bonds = s.bonds := by
  have hc : (x ≠ .unconfigured) = (s.siding ≠ .unconfigured) := propext ⟨fun _ => h, fun _ => hx⟩
  exact congrArg (fun p => { s.bonds with configured := p }) hc

theorem bonds_restart (s : State) (h : s.siding ≠ .unconfigured) : (restart s).bonds = s.bonds := by
  have hf : ∀ c (t : State), (flagComp c t).bonds = t.bonds := fun _ _ => rfl
  have he : ∀ t : State, (emptyReservations t).bonds = t.bonds := fun t => by
    unfold emptyReservations
    exact (foldl_keeps State.bonds _ (by intros; rfl) allVessels t)
  unfold restart; simp only
  rw [bonds_flagSiding,
    bonds_eachFittedSpot _ (by intro i s; unfold restartSpot; split <;> simp),
    bonds_eachFittedComp _ (by intro c s; rw [hf]; unfold restartComp; split <;> simp), he]
  exact bonds_siding _ _ h (by decide)

theorem bonds_answerCommission (s : State) : (answerCommission s).1.bonds = s.bonds := by
  unfold answerCommission; simp only
  split
  · rfl
  · rename_i h
    repeat' split
    · rfl
    · rfl
    · simp only [bonds_settle, bonds_settleTests]
      rw [bonds_eachFittedComp _ bonds_beginCompTest, bonds_eachFittedSpot _ bonds_beginSpotTest]
      exact bonds_siding _ _ (by rw [not_not.mp h]; decide) (by decide)

/-- The requests that reach the bonds (R16 to R18, R22, R27, R28, R171). -/
def Instr.bondRequest : Instr → Bool
  | .announce .. | .amend .. | .release .. | .spot .. | .unspot .. | .writeProfile .. => true
  | _ => false

theorem bonds_answer (c : Instr) (s : State) (h : Instr.bondRequest c = false) : (answer c s).1.bonds = s.bonds := by
  cases c <;> simp only [answer] <;> try rfl
  case announce => cases h
  case amend => cases h
  case readCar => unfold answerReadCar; split <;> rfl
  case find =>
    unfold answerFind
    repeat' split
    all_goals rfl
  case release => cases h
  case spot => cases h
  case unspot => cases h
  case openSpot =>
    refine bonds_withSpot _ _ _ fun i => ?_
    simp only
    repeat' split
    all_goals simp [startProving, bonds_modSpot]
  case isolate =>
    refine bonds_withSpot _ _ _ fun i => ?_
    split
    · simp [bonds_isolateSpot]
    · rfl
  case isolateAll =>
    unfold answerIsolateAll; simp only; split
    · rfl
    · rw [bonds_settle]; exact foldl_keeps _ _ (fun s i => bonds_isolateSpot i s) _ _
  case clearHold =>
    refine bonds_withSpot _ _ _ fun i => ?_
    repeat' split
    all_goals simp
  case resume =>
    refine bonds_withSpot _ _ _ fun i => ?_
    simp only
    repeat' split
    all_goals simp
  case strokeSpot =>
    refine bonds_withSpot _ _ _ fun i => ?_
    simp only
    repeat' split
    all_goals simp
  case readSpot => exact bonds_withSpot _ _ _ fun i => rfl
  case placeOrder =>
    refine bonds_withSpot _ _ _ fun i => ?_
    simp only
    repeat' split
    all_goals first
      | rw [bonds_placedReply, bonds_placeOrder]
      | rfl
  case trim =>
    refine bonds_withSpot _ _ _ fun i => ?_
    have ha : ∀ t l n, (applyTrim i t l n s).bonds = s.bonds := fun t l n => by
      unfold applyTrim
      exact (bonds_modVessel _ _ _).trans (bonds_modSpot _ _ _ (Spot.modOrder_car _ _))
    repeat' split
    all_goals simp [ha]
  case cancelOrder =>
    refine bonds_withSpot _ _ _ fun i => ?_
    repeat' split
    all_goals simp
  case gauge =>
    refine bonds_withVessel _ _ _ fun i => ?_
    simp only
    repeat' split
    all_goals simp
  case setVesselService =>
    refine bonds_withVessel _ _ _ fun i => ?_
    simp only
    repeat' split
    all_goals rfl
  case readVessel => exact bonds_withVessel _ _ _ fun i => rfl
  case clearCompressor =>
    refine bonds_withComp _ _ _ fun i => ?_
    simp only
    split <;> simp
  case readCompressor => exact bonds_withComp _ _ _ fun i => rfl
  case rearm =>
    unfold answerRearm; simp only
    repeat' split
    · rfl
    · rfl
    · simp only [bonds_enableOn]
  case writeProfile => cases h
  case readProfile => unfold answerReadProfile; split <;> rfl
  case setLock =>
    rcases answerSetLock_cases _ s with e | ⟨-, -, e⟩ <;> rw [e]; rfl
  case stageSetpoints =>
    rcases answerStageSetpoints_cases _ _ _ _ _ s with e | ⟨p, v, e⟩ <;> rw [e]; rfl
  case setpointHold =>
    rcases answerSetpointHold_cases _ s with e | ⟨b, e⟩ <;> rw [e]; rfl
  case commission => exact bonds_answerCommission s
  case restartSiding =>
    unfold answerRestart; split
    · rfl
    · rename_i h; exact bonds_restart s h

/-! ## Properties of the bonds -/

/-- No step but a write moves the profile: beats, ESD changes and the other requests leave it. -/
theorem profile_of_guarded {s t : State} (h : t.guarded = s.guarded) : t.profile = s.profile := congrArg Guarded.profile h

theorem profile_answer (c : Instr) (s : State) (h : Instr.bondRequest c = false) : (answer c s).1.profile = s.profile := by
  by_cases hc : Instr.guardedRequest c = true
  · revert hc h
    cases c <;> intro h hc <;> try contradiction
    case rearm =>
      rcases guarded_answerRearm s with e | ⟨-, e⟩ <;> simp only [answer]
      · rw [e]
      · exact congrArg Guarded.profile e
    case setLock via level =>
      rcases answerSetLock_cases level s with e | ⟨-, -, e⟩ <;> simp only [answer] <;> rw [e]
    case stageSetpoints via a b c d e =>
      rcases answerStageSetpoints_cases a b c d e s with e | ⟨p, v, e⟩ <;> simp only [answer] <;> rw [e]
    case setpointHold via value =>
      rcases answerSetpointHold_cases value s with e | ⟨b, e⟩ <;> simp only [answer] <;> rw [e]
  · exact profile_of_guarded (guarded_answer c s (by simpa using hc))

/-- A property of the bonds and the profile is kept by every step but PIN_RESET where the six requests that reach them and the pass of
a proving keep it. -/
theorem stepClosed_of_bonds {P : State → Prop}
    (hP : ∀ s t, t.bonds = s.bonds → t.profile = s.profile → P s → P t)
    (hreq : ∀ c s, Instr.bondRequest c = true → P s → P (answer c s).1)
    (hpass : ∀ i s, (s.spot i).state = .proving → P s → P (passProving i s)) : StepClosed P where
  link := by
    rintro s _ ⟨l, ch, rfl⟩ h
    exact hP s _ rfl rfl h
  queue := fun s _ h => hP s _ rfl rfl h
  tick := fun s h => hP s _ (bonds_congr (fun i => by rw [tick_spot]; rfl) rfl rfl) rfl h
  execute := fun c s h => by
    rcases execute_cases c s with e | ⟨l, ch, e⟩
    · rw [e]
      refine hP _ _ (bonds_closeEvent _ _) (closeEvent_profile _ _) ?_
      have h0 : P (clearScratch s) := hP s _ rfl rfl h
      cases hc : Instr.bondRequest c with
      | true => exact hreq c _ hc h0
      | false => exact hP _ _ (bonds_answer c _ hc) (profile_answer c _ hc) h0
    · rw [e]; exact hP s _ rfl rfl h
  filter := fun x f s h => hP s _ (bonds_withFilter x f s) (profile_of_guarded (by cases x <;> simp [State.withFilter])) h
  limitFilters := fun v f g s h => hP s _ (bonds_modValve _ _ _) (profile_of_guarded (guarded_modValve _ _ _)) h
  pulse := fun i s h => hP s _ (bonds_event _ _ (bonds_takePulse i)) (profile_of_guarded (guarded_event _ _ (guarded_takePulse i))) h
  litre := fun i s h => hP s _ (bonds_event _ _ (bonds_takeLitre i)) (profile_of_guarded (guarded_event _ _ (guarded_takeLitre i))) h
  limit := fun v o sh s h => hP s _ (bonds_limitChange v o sh s) (profile_of_guarded (guarded_limitChange v o sh s)) h
  bond := fun i b s h => hP s _ (bonds_bondChange i b s) (profile_of_guarded (guarded_bondChange i b s)) h
  hose := fun i b s h => hP s _ (bonds_hoseChange i b s) (profile_of_guarded (guarded_hoseChange i b s)) h
  residual := fun i b s h => hP s _ (bonds_residualChange i b s) (profile_of_guarded (guarded_residualChange i b s)) h
  connected := fun i s h => hP s _ (bonds_connectedPressed i s) (profile_of_guarded (guarded_connectedPressed i s)) h
  stop := fun i s h => hP s _ (bonds_stopPressed i s) (profile_of_guarded (guarded_stopPressed i s)) h
  clear := fun i s h => hP s _ (bonds_clearPressed i s) (profile_of_guarded (guarded_clearPressed i s)) h
  trip := fun v b s h => hP s _ (bonds_tripChange v b s) (profile_of_guarded (guarded_tripChange v b s)) h
  run := fun c b s h => hP s _ (bonds_runChange c b s) (profile_of_guarded (guarded_runChange c b s)) h
  faultInput := fun c b s h => hP s _ (bonds_faultChange c b s) (profile_of_guarded (guarded_faultChange c b s)) h
  esd := fun b s h => by
    refine hP s _ (bonds_event _ _ (bonds_changeEsdLevel b)) ((closeEvent_profile _ _).trans ?_) h
    rcases guarded_changeEsdLevel b (clearScratch s) with ⟨e, -⟩ | e <;> exact congrArg Guarded.profile e
  beat := fun s h => by
    refine hP s _ (bonds_event _ _ bonds_takeBeat) ((closeEvent_profile _ _).trans ?_) h
    rcases guarded_takeBeat (clearScratch s) with ⟨n, e, -⟩ | ⟨-, e⟩ <;> exact congrArg Guarded.profile e
  pressureWait := fun i s h =>
    hP s _ (bonds_ite_event _ s (by simp)) (profile_of_guarded (guarded_pressureWaitExpires i s)) h
  pressureHold := fun i s h => by
    unfold pressureHoldExpires; simp only
    split
    · rename_i hc
      exact hP _ _ (bonds_closeEvent _ _) (closeEvent_profile _ _) (hpass i _ hc.1 (hP s _ rfl rfl h))
    · exact h
  bleed := fun i s h =>
    hP s _ (bonds_ite_event _ s (bonds_judgeBleed i)) (profile_of_guarded (guarded_bleedExpires i s)) h
  recovery := fun i s h => hP s _ (bonds_ite_event _ s (by simp)) (profile_of_guarded (guarded_recoveryExpires i s)) h
  stall := fun i s h => hP s _ (bonds_ite_event _ s (by simp)) (profile_of_guarded (guarded_stallExpires i s)) h
  window := fun i s h => by
    unfold windowExpires
    split
    · exact hP s _ (bonds_modSpot _ _ _ (by intros; rfl)) rfl h
    · exact h
  start := fun c s h => hP s _ (bonds_ite_event _ s (by simp)) (profile_of_guarded (guarded_startExpires c s)) h
  runOn := fun c s h => hP s _ (bonds_ite_event _ s (by simp)) (profile_of_guarded (guarded_runOnExpires c s)) h
  proofRun := fun c s h =>
    hP s _ (bonds_ite_event _ s (by simp [endProofRun])) (profile_of_guarded (guarded_proofRunExpires c s)) h
  guard := fun c d s h => hP s _ (bonds_ite_event _ s (by simp)) (profile_of_guarded (guarded_guardExpires c d s)) h
  stroke := fun v s h =>
    hP s _ (bonds_ite_event _ s (by simp [strokeExceeded])) (profile_of_guarded (guarded_strokeExpires v s)) h
  flash := fun i s h => hP s _ (by unfold flashToggles; split <;> rfl) (profile_of_guarded (guarded_flashToggles i s)) h

end Sys2Proof.Machine
end

section
/-! PROOFS. Bindings, marks and the siding state under the requests that reach the bonds (R4, R10, R11, R16 to R18, R22, R27, R28,
R166, R171). -/

namespace Sys2Proof.Machine

/-! ## What the requests of the bonds can do -/

theorem resolve_ok {s : State} {slot issue : Byte} {k : SlotNo} {c : Car} (h : s.resolve slot issue = .ok (k, c)) :
    slot.toNat = k.val ∧ s.car k = some c ∧ (s.carSlot k).issue = issue := by
  unfold State.resolve at h
  split at h
  · cases h
  · rename_i j hj
    split at h
    · cases h
    · rename_i d hd
      split at h
      · rename_i hi
        cases h
        exact ⟨finOf_eq_some_iff.mp hj, hd, hi⟩
      · cases h

/-- The record an accepted ANNOUNCE creates (R16). -/
structure Car.isNew (c : Car) (mark : List Byte) : Prop where
  mark : c.mark = mark
  phase : c.phase = .announced
  spot : c.spot = none

theorem emptySlot_eq_some {s : State} {k : SlotNo} (h : s.emptySlot = some k) : s.car k = none := by
  unfold State.emptySlot at h
  have h1 := List.find?_some h
  simpa using h1

theorem answerAnnounce_cases (mark : List Byte) (grade : Byte) (load : Word32) (s : State) :
    (answerAnnounce mark grade load s).1 = s ∨ ∃ k c, s.car k = none ∧ s.holder mark = none ∧ Car.isNew c mark ∧
      (answerAnnounce mark grade load s).1 = (s.modSlot k fun sl => { sl with car := some c }).flagSlot k := by
  unfold answerAnnounce
  split
  · exact .inl rfl
  split
  · exact .inl rfl
  split
  · exact .inl rfl
  split
  · exact .inl rfl
  · rename_i hholder
    split
    · exact .inl rfl
    · rename_i k hk
      exact .inr ⟨k, _, emptySlot_eq_some hk, by simpa using hholder, ⟨rfl, rfl, rfl⟩, rfl⟩

theorem answerAmend_cases (slot issue : Byte) (v : Word16) (mark : Option (List Byte)) (grade : Option Byte)
    (load : Option Word32) (hoses : Option Byte) (s : State) :
    (answerAmend slot issue v mark grade load hoses s).1 = s ∨ ∃ k c a, s.car k = some c ∧ s.markTaken a k = false ∧
      (answerAmend slot issue v mark grade load hoses s).1 = s.modCar k (Amendment.apply a) := by
  unfold answerAmend
  split
  · exact .inl rfl
  rename_i k c hres
  split
  · exact .inl rfl
  split
  · exact .inl rfl
  rename_i a ha
  split
  · exact .inl rfl
  split
  · exact .inl rfl
  split
  · exact .inl rfl
  rename_i htaken
  split
  · exact .inl rfl
  split
  · exact .inl rfl
  · exact .inr ⟨k, c, a, (resolve_ok hres).2.1, by simpa using htaken, rfl⟩

theorem answerRelease_cases (slot issue : Byte) (v : Word16) (s : State) :
    (answerRelease slot issue v s).1 = s ∨ ∃ k c, s.car k = some c ∧ c.releasable = true ∧
      (answerRelease slot issue v s).1 = (s.modSlot k fun sl => { issue := sl.issue + 1, car := none }).flagSlot k := by
  unfold answerRelease
  split
  · exact .inl rfl
  rename_i k c hres
  split
  · exact .inl rfl
  split
  · exact .inl rfl
  · rename_i hrel
    exact .inr ⟨k, c, (resolve_ok hres).2.1, by simpa using hrel, rfl⟩

theorem answerSpot_cases (slot issue place : Byte) (s : State) :
    (answerSpot slot issue place s).1 = s ∨ ∃ i k c, s.car k = some c ∧ (s.carSlot k).issue = issue ∧
      (s.spot i).car = none ∧ (s.spot i).state = .vacant ∧ c.releasable = true ∧
      (answerSpot slot issue place s).1 = bind i k issue s := by
  unfold answerSpot
  split
  · exact .inl rfl
  rename_i k c hres
  obtain ⟨-, hcar, hissue⟩ := resolve_ok hres
  unfold withSpot
  split
  · exact .inl rfl
  rename_i i hi
  simp only
  split
  · exact .inl rfl
  rename_i hcar0
  split
  · exact .inl rfl
  rename_i hst
  split
  · exact .inl rfl
  · rename_i hrel
    exact .inr ⟨i, k, c, hcar, hissue, by simpa using hcar0, not_not.mp hst, by simpa using hrel, rfl⟩

theorem answerUnspot_cases (place : Byte) (s : State) :
    (answerUnspot place s).1 = s ∨ ∃ i, ((s.spot i).state = .spotted ∨ (s.spot i).state = .faulted) ∧
      (answerUnspot place s).1 = unbind i s := by
  unfold answerUnspot withSpot
  split
  · exact .inl rfl
  rename_i i hi
  simp only
  split
  · rename_i h; exact .inr ⟨i, h.imp_right And.left, rfl⟩
  · exact .inl rfl

/-! ## A profile write -/

@[simp] theorem bonds_takeUpSpot (i : SpotNo) (s : State) : (takeUpSpot i s).bonds = s.bonds := by
  unfold takeUpSpot
  simp only
  have hf : ∀ (b a : State) (t : State) (l : List ValveName), (l.foldl (fun t n =>
      if ((b.spot i).valve n).isFault && !((a.spot i).valve n).isFault then spotValveFault i n t else t) t).bonds
        = t.bonds := fun b a t l =>
    foldl_keeps State.bonds _ (fun t n => by split <;> simp) l t
  rw [hf, foldl_keeps State.bonds _ (fun t n => bonds_modSpot _ _ _ fun _ => Spot.setValve_car _ _ _)]

@[simp] theorem bonds_takeUpComp (c : CompNo) (s : State) : (takeUpComp c s).bonds = s.bonds := by
  unfold takeUpComp
  simp only
  exact foldl_keeps State.bonds _ (fun t n => by split <;> simp) _ _

theorem bonds_superviseSpot (b : State) (i : SpotNo) (s : State) : (superviseSpot b i s).bonds = s.bonds := by
  unfold superviseSpot; split <;> simp

theorem bonds_superviseComp (b : State) (c : CompNo) (s : State) : (superviseComp b c s).bonds = s.bonds := by
  unfold superviseComp; split <;> simp

theorem bonds_releaseComp (b : State) (c : CompNo) (s : State) : (releaseComp b c s).bonds = s.bonds := by
  unfold releaseComp; split <;> simp

theorem bonds_refitComp (b : State) (c : CompNo) (s : State) : (refitComp b c s).bonds = s.bonds := by
  unfold refitComp; split <;> simp

theorem bonds_greetComp (b : State) (c : CompNo) (s : State) : (greetComp b c s).bonds = s.bonds := by
  unfold greetComp; split <;> simp

theorem bonds_clearRemainder (b : State) (i : SpotNo) (s : State) : (clearRemainder b i s).bonds = s.bonds := by
  unfold clearRemainder; split <;> simp [bonds_modSpot]

theorem bonds_loseGauge (b : State) (v : VesselNo) (s : State) : (loseGauge b v s).bonds = s.bonds := by
  unfold loseGauge; split <;> simp

theorem bonds_rejudge (b s : State) : (rejudge b s).bonds = s.bonds := by
  have h : (if s.esdActive then esdBecomesActive s else s).bonds = s.bonds := by split <;> simp
  unfold rejudge; simp only
  split
  · exact h
  · rw [bonds_eachFittedComp _ (by simp)]; exact h

theorem bonds_takeSection (b : State) (w : Section) (s : State) : (takeSection b w s).bonds = s.bonds := by
  cases w with
  | site p =>
    simp only [takeSection]
    rw [bonds_eachComp _ (bonds_superviseComp b), bonds_eachSpot _ (bonds_superviseSpot b),
      bonds_eachComp _ (bonds_greetComp b), bonds_eachComp _ (bonds_refitComp b), bonds_eachComp _ (bonds_releaseComp b)]
  | spots p =>
    simp only [takeSection]
    rw [bonds_eachComp _ (bonds_superviseComp b), bonds_eachSpot _ (bonds_superviseSpot b),
      bonds_eachSpot _ (bonds_clearRemainder b)]
  | vessels p => exact foldl_keeps State.bonds _ (fun s v => bonds_loseGauge b v s) _ _
  | protection p => exact bonds_rejudge b s

theorem sidingAfterWrite_eq (w : Section) (s : State) : ∃ x, sidingAfterWrite w s = { s with siding := x } ∧
    (x = .unconfigured ↔ s.siding = .unconfigured ∧ s.profile.complete = false) := by
  unfold sidingAfterWrite
  split
  · rename_i h
    split
    · rename_i hc; exact ⟨_, rfl, by simp [hc]⟩
    · rename_i hc; exact ⟨s.siding, rfl, by simp [h, hc]⟩
  · rename_i h
    split
    · exact ⟨_, rfl, by simp [h]⟩
    · exact ⟨s.siding, rfl, by simp [h]⟩
  · rename_i h; exact ⟨s.siding, rfl, by simp [h]⟩
  · rename_i h; exact ⟨s.siding, rfl, by simp [h]⟩

/-- A write keeps the bonds, but for the siding state, which it sets as R166, R167, R171 say. -/
theorem bonds_acceptWrite (w : Section) (s : State) :
    (acceptWrite w s).bonds = { s.bonds with
      configured := ¬ (s.siding = .unconfigured ∧ (s.profile.store w).complete = false) } := by
  obtain ⟨x, hx, hiff⟩ := sidingAfterWrite_eq w (storeSection w s)
  unfold acceptWrite
  rw [bonds_settle, bonds_flagSiding, bonds_takeSection, hx]
  rw [storeSection_eq] at hiff ⊢
  exact congrArg (fun p => { s.bonds with configured := p }) (propext (not_congr hiff))

theorem deeds_acceptWrite (w : Section) (s : State) : (acceptWrite w s).bonds.deeds = s.bonds.deeds := by
  rw [bonds_acceptWrite]

/-! ## O11: marks (R4) -/

/-- Every record that stands afterwards carries a mark that its slot held before. -/
theorem marksUnique_of_kept {s t : State}
    (h : ∀ k c', t.car k = some c' → ∃ c, s.car k = some c ∧ c'.mark = c.mark) (hs : s.marksUnique) : t.marksUnique := by
  intro j k c d hj hk e
  obtain ⟨c0, hc0, ec⟩ := h j c hj
  obtain ⟨d0, hd0, ed⟩ := h k d hk
  exact hs j k c0 d0 hc0 hd0 (by rw [← ec, ← ed, e])

theorem marksUnique_of_deeds {s t : State} (h : t.bonds.deeds = s.bonds.deeds) : s.marksUnique → t.marksUnique :=
  marksUnique_of_kept fun k c' hc' => by
    have hd : (t.car k).map Car.deed = (s.car k).map Car.deed := congrFun h k
    rw [hc'] at hd
    obtain ⟨c, hc, e⟩ := Option.map_eq_some_iff.mp hd.symm
    exact ⟨c, hc, (congrArg Deed.mark e).symm⟩

theorem marksUnique_modCar {k : SlotNo} {f : Car → Car} {s : State} (hf : ∀ c, (f c).mark = c.mark)
    (h : s.marksUnique) : (s.modCar k f).marksUnique := by
  refine marksUnique_of_kept (fun j c' hc' => ?_) h
  rw [modCar_car] at hc'
  split at hc'
  · obtain ⟨c, hc, rfl⟩ := Option.map_eq_some_iff.mp hc'
    exact ⟨c, hc, hf c⟩
  · exact ⟨c', hc', rfl⟩

/-- One slot takes a record whose mark no other slot holds. -/
theorem marksUnique_of_fresh {s t : State} {k : SlotNo} {m : List Byte} (ho : ∀ j, j ≠ k → t.car j = s.car j)
    (hk : ∀ c, t.car k = some c → c.mark = m) (hm : ∀ j c, j ≠ k → s.car j = some c → c.mark ≠ m)
    (hs : s.marksUnique) : t.marksUnique := by
  intro i j c d hi hj e
  by_cases hik : i = k
  · by_cases hjk : j = k
    · rw [hik, hjk]
    · subst hik
      exact absurd (e ▸ hk c hi) (hm j d hjk (ho j hjk ▸ hj))
  · by_cases hjk : j = k
    · subst hjk
      exact absurd (e.trans (hk d hj)) (hm i c hik (ho i hik ▸ hi))
    · exact hs i j c d (ho i hik ▸ hi) (ho j hjk ▸ hj) e

theorem holder_eq_none {s : State} {m : List Byte} (h : s.holder m = none) {j : SlotNo} {c : Car}
    (hc : s.car j = some c) : c.mark ≠ m := by
  have hj := List.find?_eq_none.mp h j (List.mem_finRange j)
  rw [hc] at hj
  simpa using hj

theorem markTaken_eq_false {s : State} {a : Amendment} {k : SlotNo} (h : s.markTaken a k = false) {m : List Byte}
    (hm : a.mark = some m) {j : SlotNo} {c : Car} (hj : j ≠ k) (hc : s.car j = some c) : c.mark ≠ m := by
  unfold State.markTaken at h
  rw [hm] at h
  have hx := List.any_eq_false.mp h j (List.mem_finRange j)
  rw [hc] at hx
  simpa [hj] using hx

theorem marksUnique_amend {s : State} {a : Amendment} {k : SlotNo} (ht : s.markTaken a k = false) (h : s.marksUnique) :
    (s.modCar k a.apply).marksUnique := by
  cases hm : a.mark with
  | none => exact marksUnique_modCar (fun c => by simp [Amendment.apply, hm]) h
  | some m =>
    refine marksUnique_of_fresh (k := k) (m := m) (fun j hj => by rw [modCar_car, if_neg hj]) (fun c hc => ?_)
      (fun j c hj hc => markTaken_eq_false ht hm hj hc) h
    rw [modCar_car, if_pos rfl] at hc
    obtain ⟨c0, -, rfl⟩ := Option.map_eq_some_iff.mp hc
    simp [Amendment.apply, hm]

theorem marksUnique_release {s : State} {k : SlotNo} (h : s.marksUnique) :
    ((s.modSlot k fun sl => { issue := sl.issue + 1, car := none }).flagSlot k).marksUnique := by
  refine marksUnique_of_kept (fun j c' hc' => ?_) h
  rw [flagSlot_car, modSlot_car] at hc'
  split at hc'
  · cases hc'
  · exact ⟨c', hc', rfl⟩

theorem marksUnique_modCarAt {i : SpotNo} {f : Car → Car} {s : State} (hf : ∀ c, (f c).mark = c.mark)
    (h : s.marksUnique) : (s.modCarAt i f).marksUnique := by
  unfold State.modCarAt
  split
  · exact marksUnique_modCar hf h
  · exact h

theorem marksUnique_modSpot {i : SpotNo} {f : Spot → Spot} {s : State} (h : s.marksUnique) :
    (s.modSpot i f).marksUnique := h

theorem marksUnique_bondRequest (c : Instr) (s : State) (hc : Instr.bondRequest c = true) (h : s.marksUnique) : (answer c s).1.marksUnique := by
  cases c <;> try contradiction
  case announce via m g l =>
    rcases answerAnnounce_cases m g l s with e | ⟨k, c, -, hm, hnew, e⟩ <;> simp only [answer] <;> rw [e]
    · exact h
    · refine marksUnique_of_fresh (k := k) (m := m) (fun j hj => ?_) (fun d hd => ?_)
        (fun j d _ hd => holder_eq_none hm hd) h
      · rw [flagSlot_car, modSlot_car, if_neg hj]
      · rw [flagSlot_car, modSlot_car, if_pos rfl] at hd
        cases hd; exact hnew.mark
  case amend via k i v a b c d =>
    rcases answerAmend_cases k i v a b c d s with e | ⟨k, c, a, -, ht, e⟩ <;> simp only [answer] <;> rw [e]
    · exact h
    · exact marksUnique_amend ht h
  case release via k i v =>
    rcases answerRelease_cases k i v s with e | ⟨k, c, -, -, e⟩ <;> simp only [answer] <;> rw [e]
    · exact h
    · exact marksUnique_release h
  case spot via k i p =>
    rcases answerSpot_cases k i p s with e | ⟨j, k, c, -, -, -, -, -, e⟩ <;> simp only [answer] <;> rw [e]
    · exact h
    · exact marksUnique_modCar (fun c => by split <;> rfl) (marksUnique_modSpot h)
  case unspot via p =>
    rcases answerUnspot_cases p s with e | ⟨i, -, e⟩ <;> simp only [answer] <;> rw [e]
    · exact h
    · exact marksUnique_modSpot (marksUnique_modCarAt (fun _ => rfl) h)
  case writeProfile via sec fields =>
    rcases answerWriteProfile_cases sec fields s with e | ⟨w, -, -, -, -, e⟩ <;> simp only [answer] <;> rw [e]
    · exact h
    · exact marksUnique_of_deeds (deeds_acceptWrite w s) h

/-- Settles O11: only ANNOUNCE and AMEND give a record a mark, and both refuse one that another record holds. -/
theorem marksStayUnique : Obligations.MarksStayUnique := fun s t h he =>
  step_keeps_all
    (stepClosed_of_bonds (P := State.marksUnique) (fun s t e _ => marksUnique_of_deeds (congrArg Bonds.deeds e))
      marksUnique_bondRequest
      fun i s _ h => marksUnique_modCarAt (fun _ => rfl) (marksUnique_modSpot h))
    (fun x s _ => marksUnique_of_kept (fun k c hc => by
      rw [State.car, pinReset_carSlot] at hc; cases hc) reset_marksUnique)
    h he

end Sys2Proof.Machine
end

section
/-! PROOFS. The siding state (R166, R171) and the bindings (R10, R11, R27, R28) between events. -/

namespace Sys2Proof.Machine

/-! ## O9: UNCONFIGURED (R166, R171) -/

@[simp] theorem modCarAt_siding (i : SpotNo) (f : Car → Car) (s : State) : (s.modCarAt i f).siding = s.siding := by
  unfold State.modCarAt; split <;> rfl

@[simp] theorem modCarAt_profile (i : SpotNo) (f : Car → Car) (s : State) : (s.modCarAt i f).profile = s.profile := by
  unfold State.modCarAt; split <;> rfl

theorem siding_of_bonds {s t : State} (h : t.bonds = s.bonds) : t.siding = .unconfigured ↔ s.siding = .unconfigured :=
  not_iff_not.mp (iff_of_eq (congrArg Bonds.configured h))

theorem configAgrees_of_same {s t : State} (hs : t.siding = .unconfigured ↔ s.siding = .unconfigured)
    (hp : t.profile = s.profile) (h : s.configAgrees) : t.configAgrees := by
  unfold State.configAgrees at *; rw [hp, hs, h]

theorem acceptWrite_siding (w : Section) (s : State) :
    (acceptWrite w s).siding = .unconfigured ↔ s.siding = .unconfigured ∧ (s.profile.store w).complete = false :=
  not_iff_not.mp (iff_of_eq (congrArg Bonds.configured (bonds_acceptWrite w s)))

theorem acceptWrite_profile (w : Section) (s : State) : (acceptWrite w s).profile = s.profile.store w := by
  rcases guarded_acceptWrite w s with ⟨e, -⟩ | e <;> exact congrArg Guarded.profile e

/-- A section once valid stays so. -/
theorem Profile.store_complete (w : Section) {p : Profile} (h : p.complete = true) : (p.store w).complete = true := by
  unfold Profile.complete at *
  cases w <;> simp_all [Profile.store]

theorem configAgrees_acceptWrite (w : Section) {s : State} (h : s.configAgrees) : (acceptWrite w s).configAgrees := by
  unfold State.configAgrees at *
  rw [acceptWrite_siding, acceptWrite_profile, h]
  refine ⟨And.right, fun hi => ⟨?_, hi⟩⟩
  cases hc : s.profile.complete with
  | false => rfl
  | true => rw [Profile.store_complete w hc] at hi; cases hi

/-- Of the requests that reach the bonds only WRITE PROFILE reaches the siding state and the profile. -/
theorem config_bondRequest (c : Instr) (s : State) (hc : Instr.bondRequest c = true) :
    ((answer c s).1.siding = s.siding ∧ (answer c s).1.profile = s.profile) ∨
      ∃ via sec fields w, c = .writeProfile via sec fields ∧ (answer c s).1 = acceptWrite w s := by
  cases c <;> try contradiction
  case announce via m g l =>
    rcases answerAnnounce_cases m g l s with e | ⟨k, c, -, -, -, e⟩ <;> simp only [answer] <;> rw [e]
    · exact .inl ⟨rfl, rfl⟩
    · exact .inl ⟨rfl, rfl⟩
  case amend via k i v a b c d =>
    rcases answerAmend_cases k i v a b c d s with e | ⟨k, c, a, -, -, e⟩ <;> simp only [answer] <;> rw [e]
    · exact .inl ⟨rfl, rfl⟩
    · exact .inl ⟨rfl, rfl⟩
  case release via k i v =>
    rcases answerRelease_cases k i v s with e | ⟨k, c, -, -, e⟩ <;> simp only [answer] <;> rw [e]
    · exact .inl ⟨rfl, rfl⟩
    · exact .inl ⟨rfl, rfl⟩
  case spot via k i p =>
    rcases answerSpot_cases k i p s with e | ⟨j, k, c, -, -, -, -, -, e⟩ <;> simp only [answer] <;> rw [e]
    · exact .inl ⟨rfl, rfl⟩
    · exact .inl ⟨rfl, rfl⟩
  case unspot via p =>
    rcases answerUnspot_cases p s with e | ⟨i, -, e⟩ <;> simp only [answer] <;> rw [e]
    · exact .inl ⟨rfl, rfl⟩
    · exact .inl ⟨by simp [unbind], by simp [unbind]⟩
  case writeProfile via sec fields =>
    rcases answerWriteProfile_cases sec fields s with e | ⟨w, -, -, -, -, e⟩ <;> simp only [answer] <;> rw [e]
    · exact .inl ⟨rfl, rfl⟩
    · exact .inr ⟨_, _, _, w, rfl, rfl⟩

theorem stepClosed_configAgrees : StepClosed State.configAgrees :=
  stepClosed_of_bonds (fun _ _ e p => configAgrees_of_same (siding_of_bonds e) p)
    (fun c s hc h => by
      rcases config_bondRequest c s hc with ⟨hs, hp⟩ | ⟨-, -, -, w, -, e⟩
      · exact configAgrees_of_same (by rw [hs]) hp h
      · rw [e]; exact configAgrees_acceptWrite w h)
    fun i s _ h => configAgrees_of_same (by simp [passProving]) (by simp [passProving]) h

theorem stepClosed_configured : StepClosed fun s => s.siding ≠ .unconfigured :=
  stepClosed_of_bonds (fun _ _ e _ => mt (siding_of_bonds e).mp)
    (fun c s hc h => by
      rcases config_bondRequest c s hc with ⟨hs, -⟩ | ⟨-, -, -, w, -, e⟩
      · rw [hs]; exact h
      · rw [e]; exact fun hw => h ((acceptWrite_siding w s).mp hw).1)
    fun i s _ h => by rw [passProving, modCarAt_siding]; exact h

/-- Settles O9: a write is the only request that reaches the profile or leaves UNCONFIGURED, and it leaves it exactly when it
completes the profile. -/
theorem unconfiguredMeansIncomplete : Obligations.UnconfiguredMeansIncomplete := fun _ _ h he =>
  ⟨step_keeps_all stepClosed_configAgrees (fun x s _ => ⟨fun _ => rfl, fun _ => rfl⟩) h he,
    fun hr hs => step_keeps stepClosed_configured hs hr he⟩

/-! ## O19: bindings (R10) -/

/-- What the bonds say of the bindings. -/
def Bonds.agree (b : Bonds) : Prop :=
  (∀ (i : SpotNo) (h : Handle), b.named i = some h → b.issues h.slot = h.issue ∧ ∃ d, b.deeds h.slot = some d ∧ d.spot = some i) ∧
  (∀ (k : SlotNo) (d : Deed), b.deeds k = some d →
    (d.announced = true → d.spot = none) ∧ ∀ i, d.spot = some i → b.named i = some { slot := k, issue := b.issues k })

theorem bindingsAgree_iff (s : State) : s.bindingsAgree ↔ s.bonds.agree := by
  simp [State.bindingsAgree, Bonds.agree, State.bonds, Car.deed]

theorem bindingsAgree_of_bonds {s t : State} (h : t.bonds = s.bonds) (hs : s.bindingsAgree) : t.bindingsAgree := by
  rw [bindingsAgree_iff, h, ← bindingsAgree_iff]; exact hs

/-- The records keep their spots, and none becomes ANNOUNCED: the bindings still agree. -/
theorem bindingsAgree_of_kept {s t : State} (hn : ∀ i, (t.spot i).car = (s.spot i).car)
    (hi : ∀ k, (t.carSlot k).issue = (s.carSlot k).issue)
    (hk : ∀ k, (s.car k = none ∧ t.car k = none) ∨ ∃ c d, s.car k = some c ∧ t.car k = some d ∧ d.spot = c.spot ∧
      (d.phase = .announced → c.spot = none)) (hs : s.bindingsAgree) : t.bindingsAgree := by
  obtain ⟨hspots, hcars⟩ := hs
  refine ⟨fun i h e => ?_, fun k d e => ?_⟩
  · obtain ⟨hiss, c, hc, hcs⟩ := hspots i h (hn i ▸ e)
    refine ⟨(hi _).trans hiss, ?_⟩
    rcases hk h.slot with ⟨h0, -⟩ | ⟨c', d, hc', hd, he, -⟩
    · rw [hc] at h0; cases h0
    · rw [hc] at hc'; cases hc'
      exact ⟨d, hd, he.trans hcs⟩
  · rcases hk k with ⟨-, h0⟩ | ⟨c, d', hc, hd, he, ha⟩
    · rw [e] at h0; cases h0
    · rw [e] at hd; cases hd
      obtain ⟨-, hbound⟩ := hcars k c hc
      refine ⟨fun hp => he.trans (ha hp), fun i hsp => ?_⟩
      rw [hn, hi]
      exact hbound i (he ▸ hsp)

theorem bindingsAgree_modCar {k : SlotNo} {f : Car → Car} {s : State}
    (hf : ∀ c, s.car k = some c → (f c).spot = c.spot ∧ ((f c).phase = .announced → c.spot = none))
    (h : s.bindingsAgree) : (s.modCar k f).bindingsAgree := by
  refine bindingsAgree_of_kept (fun i => by simp) (fun j => ?_) (fun j => ?_) h
  · rw [modCar_carSlot]; split <;> rfl
  · rw [modCar_car]
    cases hc : s.car j with
    | none => exact .inl ⟨rfl, by split <;> rfl⟩
    | some c =>
      refine .inr ?_
      split
      · rename_i e; subst e
        exact ⟨c, f c, rfl, rfl, hf c hc⟩
      · exact ⟨c, c, rfl, rfl, rfl, (h.2 j c hc).1⟩

theorem bindingsAgree_passProving (i : SpotNo) (s : State) (h : s.bindingsAgree) : (passProving i s).bindingsAgree := by
  unfold passProving State.modCarAt
  have h1 := bindingsAgree_of_bonds (bonds_modSpot i (fun sp =>
    { (sp.takeStaged s) with state := .connected, step := none, timer := .stopped, creep := 0, pulses := 0 }) s
    fun sp => Spot.takeStaged_car s sp) h
  split
  · exact bindingsAgree_modCar (fun c _ => ⟨rfl, fun e => by cases e⟩) h1
  · exact h1

/-- A new record that names no spot, in an empty slot. -/
theorem bindingsAgree_announce {s : State} {k : SlotNo} {c : Car} {m : List Byte} (hk : s.car k = none) (hc : c.isNew m)
    (h : s.bindingsAgree) : ((s.modSlot k fun sl => { sl with car := some c }).flagSlot k).bindingsAgree := by
  obtain ⟨hspots, hcars⟩ := h
  have hi : ∀ j, ((s.modSlot k fun sl => { sl with car := some c }).carSlot j).issue = (s.carSlot j).issue := fun j => by
    rw [modSlot_carSlot]; split <;> rfl
  refine ⟨fun i g e => ?_, fun j d e => ?_⟩
  · obtain ⟨hiss, d, hd, hds⟩ := hspots i g e
    refine ⟨(hi _).trans hiss, d, ?_, hds⟩
    rw [flagSlot_car, modSlot_car, if_neg (by rintro rfl; rw [hk] at hd; cases hd)]
    exact hd
  · rw [flagSlot_car, modSlot_car] at e
    split at e
    · cases e
      exact ⟨fun _ => hc.spot, fun i hs => by rw [hc.spot] at hs; cases hs⟩
    · obtain ⟨ha, hb⟩ := hcars j d e
      refine ⟨ha, fun i hs => ?_⟩
      rw [flagSlot_carSlot, hi]
      exact hb i hs

/-- A releasable car stands at no spot, or is SERVED and unbound: retiring it leaves every binding. -/
theorem releasable_spot {s : State} {k : SlotNo} {c : Car} (hs : s.bindingsAgree) (hc : s.car k = some c)
    (hr : c.releasable = true) : c.spot = none := by
  unfold Car.releasable at hr
  simp only [Bool.or_eq_true, beq_iff_eq, Bool.and_eq_true, Option.isNone_iff_eq_none] at hr
  rcases hr with h | h
  · exact (hs.2 k c hc).1 h
  · exact h.2

theorem bindingsAgree_release {s : State} {k : SlotNo} {c : Car} (hc : s.car k = some c) (hr : c.releasable = true)
    (h : s.bindingsAgree) :
    ((s.modSlot k fun sl => { issue := sl.issue + 1, car := none }).flagSlot k).bindingsAgree := by
  have hfree := releasable_spot h hc hr
  obtain ⟨hspots, hcars⟩ := h
  refine ⟨fun i g e => ?_, fun j d e => ?_⟩
  · obtain ⟨hiss, d, hd, hds⟩ := hspots i g e
    have hne : g.slot ≠ k := by
      rintro rfl
      rw [hc] at hd; cases hd
      rw [hfree] at hds; cases hds
    rw [flagSlot_carSlot, modSlot_carSlot, if_neg hne, flagSlot_car, modSlot_car, if_neg hne]
    exact ⟨hiss, d, hd, hds⟩
  · rw [flagSlot_car, modSlot_car] at e
    split at e
    · cases e
    · rename_i hne
      rw [flagSlot_carSlot, modSlot_carSlot, if_neg hne]
      exact hcars j d e

theorem bindingsAgree_bind {s : State} {i : SpotNo} {k : SlotNo} {c : Car} (hc : s.car k = some c)
    (hr : c.releasable = true) (hi : (s.spot i).car = none) (h : s.bindingsAgree) :
    (bind i k (s.carSlot k).issue s).bindingsAgree := by
  have hfree := releasable_spot h hc hr
  obtain ⟨hspots, hcars⟩ := h
  have hn : ∀ j, ((bind i k (s.carSlot k).issue s).spot j).car =
      if j = i then some { slot := k, issue := (s.carSlot k).issue } else (s.spot j).car := fun j => by
    rw [bind, modCar_spot, modSpot_spot]; split <;> rfl
  have his : ∀ j, ((bind i k (s.carSlot k).issue s).carSlot j).issue = (s.carSlot j).issue := fun j => by
    rw [bind, modCar_carSlot]; split <;> rfl
  have hk : ∀ j, (bind i k (s.carSlot k).issue s).car j = if j = k then some (if c.phase = .announced then
      { c with phase := .placed, spot := some i } else { c with spot := some i, hoses := false }) else s.car j :=
    fun j => by
      rw [bind, modCar_car, modSpot_car]
      split
      · rename_i e; subst e; rw [hc]; rfl
      · rfl
  refine ⟨fun j g e => ?_, fun j d e => ?_⟩
  · rw [hn] at e
    rw [his, hk]
    split at e
    · rename_i ej; subst ej; cases e
      rw [if_pos rfl]
      exact ⟨rfl, _, rfl, by split <;> rfl⟩
    · obtain ⟨hiss, d, hd, hds⟩ := hspots j g e
      rw [if_neg (by rintro rfl; rw [hc] at hd; cases hd; rw [hfree] at hds; cases hds)]
      exact ⟨hiss, d, hd, hds⟩
  · rw [hk] at e
    split at e
    · rename_i ej; subst ej
      have hds : d.spot = some i ∧ d.phase ≠ .announced := by
        cases e
        split
        · exact ⟨rfl, by simp⟩
        · rename_i hp; exact ⟨rfl, hp⟩
      refine ⟨fun hp => absurd hp hds.2, fun x hx => ?_⟩
      rw [hds.1] at hx; cases hx
      rw [hn, if_pos rfl, his]
    · obtain ⟨ha, hb⟩ := hcars j d e
      refine ⟨ha, fun x hx => ?_⟩
      have hx0 := hb x hx
      rw [hn, if_neg (by rintro rfl; rw [hi] at hx0; cases hx0), his]
      exact hx0

theorem bindingsAgree_unbind {s : State} {i : SpotNo} (h : s.bindingsAgree) : (unbind i s).bindingsAgree := by
  obtain ⟨hspots, hcars⟩ := h
  have hn : ∀ j, ((unbind i s).spot j).car = if j = i then none else (s.spot j).car := fun j => by
    have hcar : ∀ f, (s.modCarAt i f).spot j = s.spot j := fun f => by unfold State.modCarAt; split <;> rfl
    rw [unbind, modSpot_spot, hcar]; split <;> rfl
  cases hc : (s.spot i).car with
  | none =>
    have hu : ∀ j, (unbind i s).carSlot j = s.carSlot j := fun j => by
      rw [unbind, modSpot_carSlot, State.modCarAt, hc]
    have hn' : ∀ j, ((unbind i s).spot j).car = (s.spot j).car := fun j => by
      rw [hn]; split
      · rename_i e; rw [e, hc]
      · rfl
    refine ⟨fun j g e => ?_, fun j d e => ?_⟩
    · rw [State.car, hu]; exact hspots j g (hn' j ▸ e)
    · rw [State.car, hu] at e
      rw [hu]
      obtain ⟨ha, hb⟩ := hcars j d e
      exact ⟨ha, fun x hx => (hn' x).trans (hb x hx)⟩
  | some g =>
    obtain ⟨hgi, c, hcar, hcs⟩ := hspots i g hc
    have his : ∀ j, ((unbind i s).carSlot j).issue = (s.carSlot j).issue := fun j => by
      simp only [unbind, modSpot_carSlot, State.modCarAt, hc]
      rw [modCar_carSlot]; split <;> rfl
    have hk : ∀ j, (unbind i s).car j = if j = g.slot then some { c with
        spot := none, hoses := false, phase := if c.phase = .placed then .announced else c.phase } else s.car j :=
      fun j => by
        simp only [unbind, modSpot_car, State.modCarAt, hc]
        rw [modCar_car]
        split
        · rename_i e; subst e; rw [hcar]; rfl
        · rfl
    refine ⟨fun j g' e => ?_, fun j d e => ?_⟩
    · rw [hn] at e
      split at e
      · cases e
      · rename_i hji
        obtain ⟨hiss, d, hd, hds⟩ := hspots j g' e
        rw [his, hk, if_neg (by rintro e'; rw [e', hcar] at hd; cases hd; rw [hcs] at hds; cases hds; exact hji rfl)]
        exact ⟨hiss, d, hd, hds⟩
    · rw [hk] at e
      split at e
      · cases e
        exact ⟨fun _ => rfl, fun x hx => by cases hx⟩
      · rename_i hjk
        obtain ⟨ha, hb⟩ := hcars j d e
        refine ⟨ha, fun x hx => ?_⟩
        have hx0 := hb x hx
        rw [hn, if_neg (by rintro rfl; rw [hc] at hx0; cases hx0; exact hjk rfl), his]
        exact hx0

theorem bindingsAgree_bondRequest (c : Instr) (s : State) (hc : Instr.bondRequest c = true) (h : s.bindingsAgree) :
    (answer c s).1.bindingsAgree := by
  cases c <;> try contradiction
  case announce via m g l =>
    rcases answerAnnounce_cases m g l s with e | ⟨k, c, hk, -, hnew, e⟩ <;> simp only [answer] <;> rw [e]
    · exact h
    · exact bindingsAgree_announce hk hnew h
  case amend via k i v a b c d =>
    rcases answerAmend_cases k i v a b c d s with e | ⟨k, c, a, -, -, e⟩ <;> simp only [answer] <;> rw [e]
    · exact h
    · exact bindingsAgree_modCar (fun c hc => ⟨rfl, (h.2 k c hc).1⟩) h
  case release via k i v =>
    rcases answerRelease_cases k i v s with e | ⟨k, c, hk, hr, e⟩ <;> simp only [answer] <;> rw [e]
    · exact h
    · exact bindingsAgree_release hk hr h
  case spot via k i p =>
    rcases answerSpot_cases k i p s with e | ⟨j, k, c, hk, rfl, hj, -, hr, e⟩ <;> simp only [answer] <;> rw [e]
    · exact h
    · exact bindingsAgree_bind hk hr hj h
  case unspot via p =>
    rcases answerUnspot_cases p s with e | ⟨i, -, e⟩ <;> simp only [answer] <;> rw [e]
    · exact h
    · exact bindingsAgree_unbind h
  case writeProfile via sec fields =>
    rcases answerWriteProfile_cases sec fields s with e | ⟨w, -, -, -, -, e⟩ <;> simp only [answer] <;> rw [e]
    · exact h
    · rw [bindingsAgree_iff, bonds_acceptWrite]
      exact (bindingsAgree_iff s).mp h

/-- Settles O19: SPOT binds an unbound car to an empty spot, UNSPOT unbinds both sides, ANNOUNCE and RELEASE concern cars at no spot,
and nothing else reaches a binding. -/
theorem bindingsStayAgreed : Obligations.BindingsStayAgreed := fun s t h he =>
  step_keeps_all
    (stepClosed_of_bonds (P := State.bindingsAgree) (fun _ _ e _ => bindingsAgree_of_bonds e) bindingsAgree_bondRequest
      fun i s _ h => bindingsAgree_passProving i s h)
    (fun x s _ => ⟨fun i g e => (by rw [pinReset_spot] at e; cases e),
      fun k c e => (by rw [State.car, pinReset_carSlot] at e; cases e)⟩)
    h he

end Sys2Proof.Machine
end

section
/-! PROOFS. Order queues and hold sets (R35, R41, R55, R56, R68, R72). What they look at in a spot is its line: state, step, holds and
orders. Valves, seats, timers and meters leave it; the operations of the spot machine are given by what they make of it. -/

namespace Sys2Proof.Machine

/-- What the rules of queues and holds look at in a spot. -/
structure Line where
  state : SpotState
  step : Option SpotStep
  holds : HoldSet
  orders : List Order

def Spot.line (sp : Spot) : Line := { state := sp.state, step := sp.step, holds := sp.holds, orders := sp.orders }

theorem Spot.state_of_line {sp : Spot} {l : Line} (h : sp.line = l) : sp.state = l.state := h ▸ rfl
theorem Spot.orders_of_line {sp : Spot} {l : Line} (h : sp.line = l) : sp.orders = l.orders := h ▸ rfl
theorem Spot.holds_of_line {sp : Spot} {l : Line} (h : sp.line = l) : sp.holds = l.holds := h ▸ rfl

/-- A queue by itself: tags all different (R56), reasons in DRAINING orders only (R68), QUEUED behind the head (R55). -/
structure QueueFormed (q : List Order) : Prop where
  tags : (q.map Order.tag).Nodup
  reasons : ∀ o ∈ q, o.reason ≠ none → o.state = .draining
  behind : ∀ o ∈ q.tail, o.state = .queued

/-- A queue whose head has just left (R72): every order is QUEUED, without a reason. -/
structure QueueWaits (q : List Order) : Prop where
  tags : (q.map Order.tag).Nodup
  fresh : ∀ o ∈ q, o.state = .queued ∧ o.reason = none

/-- The orders that a state takes (R55). -/
def Line.placed (l : Line) : Prop :=
  match l.state with
  | .vacant | .spotted | .proving | .connected | .stroking | .faulted => l.orders = []
  | .staged | .transfer | .recovery => l.orders ≠ []
  | .held => True
  | .isolating => (l.step ≠ some .linesClosing → l.orders = []) ∧
    (l.orders = [] ∨ ∃ h, l.orders = [h] ∧ h.state = .draining)

def Line.legal (l : Line) : Prop := QueueFormed l.orders ∧ l.placed

def Line.holdsLegal (l : Line) : Prop := l.state ≠ .held → l.holds = .empty

theorem queueLegal_iff (sp : Spot) : sp.queueLegal ↔ sp.line.legal := by
  unfold Spot.queueLegal Line.legal Line.placed Spot.line
  cases sp.state <;> exact ⟨fun ⟨a, b, c, d⟩ => ⟨⟨a, b, c⟩, d⟩, fun ⟨⟨a, b, c⟩, d⟩ => ⟨a, b, c, d⟩⟩

theorem holdsLegal_iff (sp : Spot) : sp.holdsLegal ↔ sp.line.holdsLegal := Iff.rfl

/-! ## Queues -/

theorem QueueFormed.nil : QueueFormed [] := ⟨.nil, by simp, by simp⟩

theorem QueueFormed.single {o : Order} (h : o.reason ≠ none → o.state = .draining) : QueueFormed [o] :=
  ⟨by simp, by simpa using h, by simp⟩

theorem QueueFormed.rest {h : Order} {q : List Order} (hq : QueueFormed (h :: q)) : QueueWaits q := by
  refine ⟨(List.nodup_cons.mp hq.tags).2, fun o ho => ?_⟩
  have hst := hq.behind o ho
  refine ⟨hst, ?_⟩
  by_contra hr
  have := hq.reasons o (List.mem_cons_of_mem _ ho) hr
  rw [hst] at this; cases this

theorem QueueWaits.filter {q : List Order} (p : Order → Bool) (hq : QueueWaits q) : QueueWaits (q.filter p) :=
  ⟨hq.tags.sublist (List.filter_sublist.map _), fun o ho => hq.fresh o (List.mem_of_mem_filter ho)⟩

/-- The head of a waiting queue takes a state: the queue is formed. -/
theorem QueueWaits.head {q : List Order} (hq : QueueWaits q) (st : OrderState) :
    QueueFormed (q.modifyHead fun o => { o with state := st }) := by
  cases q with
  | nil => exact .nil
  | cons h q =>
    refine ⟨hq.tags, fun o ho hr => ?_, fun o ho => (hq.fresh o (List.mem_cons_of_mem _ ho)).1⟩
    rcases List.mem_cons.mp ho with rfl | ho
    · exact absurd (hq.fresh h List.mem_cons_self).2 hr
    · exact absurd (hq.fresh o (List.mem_cons_of_mem _ ho)).2 hr

theorem QueueWaits.cons {h : Order} {q : List Order} (hq : QueueWaits q) (ht : h.tag ∉ q.map Order.tag)
    (hr : h.reason ≠ none → h.state = .draining) : QueueFormed (h :: q) := by
  refine ⟨List.nodup_cons.mpr ⟨ht, hq.tags⟩, fun o ho hne => ?_, fun o ho => (hq.fresh o ho).1⟩
  rcases List.mem_cons.mp ho with rfl | ho
  · exact hr hne
  · exact absurd (hq.fresh o ho).2 hne

/-- A change of the head that keeps its tag and gives it no reason but in DRAINING. -/
theorem QueueFormed.modifyHead {q : List Order} {f : Order → Order} (hq : QueueFormed q) (ht : ∀ o, (f o).tag = o.tag)
    (hr : ∀ o, q.head? = some o → (o.reason ≠ none → o.state = .draining) → (f o).reason ≠ none → (f o).state = .draining) :
    QueueFormed (q.modifyHead f) := by
  cases q with
  | nil => exact .nil
  | cons h q =>
    refine hq.rest.cons ?_ (hr h rfl (hq.reasons h List.mem_cons_self))
    rw [ht]; exact (List.nodup_cons.mp hq.tags).1

/-! ## The relation of an event to a line -/

/-- From a legal line: the queue stays legal, the holds stay so, and an unfitted spot stays quiet. -/
def Line.Fits (fitted : Bool) (a b : Line) : Prop :=
  a.legal → b.legal ∧ (a.holdsLegal → b.holdsLegal) ∧ (fitted = false → a.state.quiet = true → b.state.quiet = true)

section Fits

variable {f : Bool} {a b c : Line}

theorem Line.Fits.refl (f : Bool) (a : Line) : a.Fits f a := fun h => ⟨h, id, fun _ => id⟩

theorem Line.Fits.of_eq (h : b = a) : a.Fits f b := h ▸ .refl f a

theorem Line.Fits.trans (h : a.Fits f b) (k : b.Fits f c) : a.Fits f c := fun ha => by
  obtain ⟨hb, hh, hq⟩ := h ha
  obtain ⟨hc, kh, kq⟩ := k hb
  exact ⟨hc, kh ∘ hh, fun e => kq e ∘ hq e⟩

/-- A spot that is not quiet enters a state with a legal queue. -/
theorem Line.Fits.of_busy (ha : a.state.quiet = false) (h : a.legal → b.legal)
    (hh : a.holdsLegal → b.holdsLegal) : a.Fits f b :=
  fun hl => ⟨h hl, hh, fun _ hq => by rw [ha] at hq; cases hq⟩

/-- A quiet spot holds no order. -/
theorem Line.legal.orders_of_quiet (ha : a.legal) (hq : a.state.quiet = true) : a.orders = [] := by
  obtain ⟨-, hp⟩ := ha
  unfold Line.placed at hp
  revert hp hq
  cases a.state <;> simp [SpotState.quiet]

theorem Line.legal.busy_of_orders (ha : a.legal) (h : a.orders ≠ []) : a.state.quiet = false := by
  by_contra hq
  exact h (ha.orders_of_quiet (by simpa using hq))

/-- An empty queue fits every state but STAGED, TRANSFER and RECOVERY. -/
theorem Line.legal_of_nil (ho : a.orders = []) (h1 : a.state ≠ .staged) (h2 : a.state ≠ .transfer)
    (h3 : a.state ≠ .recovery) : a.legal := by
  refine ⟨ho ▸ .nil, ?_⟩
  unfold Line.placed
  revert h1 h2 h3
  cases a.state <;> simp [ho]

/-- A queue of its own fits STAGED, TRANSFER, RECOVERY and HELD. -/
theorem Line.legal_of_queue (hq : QueueFormed a.orders) (ho : a.state ≠ .held → a.orders ≠ [])
    (h : a.state = .staged ∨ a.state = .transfer ∨ a.state = .recovery ∨ a.state = .held) : a.legal := by
  refine ⟨hq, ?_⟩
  unfold Line.placed
  revert ho
  rcases h with h | h | h | h <;> rw [h] <;> simp

end Fits

/-! ## Operations that leave the lines -/

theorem line_modSpot (i j : SpotNo) (f : Spot → Spot) (s : State) (h : ∀ sp, (f sp).line = sp.line) :
    ((s.modSpot i f).spot j).line = (s.spot j).line := by
  rw [modSpot_spot]; split
  · exact h _
  · rfl

theorem line_modSpot_same (i : SpotNo) {f : Spot → Spot} (g : Line → Line) (s : State) (h : ∀ sp, (f sp).line = g sp.line) :
    ((s.modSpot i f).spot i).line = g (s.spot i).line := by
  rw [modSpot_spot_same, h]

@[simp] theorem Spot.setValve_line (n : ValveName) (v : Valve) (sp : Spot) : (sp.setValve n v).line = sp.line := by
  cases n <;> rfl
@[simp] theorem Spot.mapValves_line (f : Valve → Valve) (sp : Spot) : (sp.mapValves f).line = sp.line := rfl
@[simp] theorem Spot.stopMeter_line (sp : Spot) : sp.stopMeter.line = sp.line := rfl
@[simp] theorem Spot.takeStaged_line (s : State) (sp : Spot) : (sp.takeStaged s).line = sp.line := by
  unfold Spot.takeStaged; split <;> rfl
theorem Spot.modHead_eq (f : Order → Order) (sp : Spot) :
    sp.modHead f = { sp with orders := sp.orders.modifyHead f } := by
  unfold Spot.modHead
  split
  · rename_i h; rw [h, List.modifyHead_nil, ← h]
  · rename_i h; rw [h, List.modifyHead_cons]

theorem Spot.modHead_line (f : Order → Order) (sp : Spot) :
    (sp.modHead f).line = { sp.line with orders := sp.line.orders.modifyHead f } := by
  rw [Spot.modHead_eq]; rfl

@[simp] theorem line_pursueSpot (i j : SpotNo) (n : ValveName) (s : State) :
    ((pursueSpot i n s).spot j).line = (s.spot j).line := line_modSpot _ _ _ _ fun _ => by simp
@[simp] theorem line_commandSpot (i j : SpotNo) (n : ValveName) (c : Command) (s : State) :
    ((commandSpot i n c s).spot j).line = (s.spot j).line := by
  unfold commandSpot; rw [line_pursueSpot, line_modSpot _ _ _ _ fun _ => by simp]
@[simp] theorem line_pursueSpotAll (i j : SpotNo) (s : State) :
    ((pursueSpotAll i s).spot j).line = (s.spot j).line :=
  foldl_keeps (fun s : State => (s.spot j).line) _ (fun s n => line_pursueSpot i j n s) _ _
@[simp] theorem line_shutLines (i j : SpotNo) (s : State) : ((shutLines i s).spot j).line = (s.spot j).line := by
  simp [shutLines]
@[simp] theorem line_shutAll (i j : SpotNo) (s : State) : ((shutAll i s).spot j).line = (s.spot j).line := by
  simp [shutAll]
/-- Leaving the compressors takes a spot's seat alone. -/
theorem leaveCompressors_spot (i j : SpotNo) (s : State) :
    ∃ x, (leaveCompressors i s).spot j = { s.spot j with seat := x } := by
  unfold leaveCompressors
  rw [spot_of_spots (spots_dropGrant _ _)]
  unfold releaseSeat
  split
  · exact ⟨_, rfl⟩
  · rw [spot_of_spots (spots_compOnEmpty _ _), modComp_spot, modSpot_spot]
    split
    · exact ⟨none, rfl⟩
    · exact ⟨_, rfl⟩
@[simp] theorem line_leaveCompressors (i j : SpotNo) (s : State) :
    ((leaveCompressors i s).spot j).line = (s.spot j).line := by
  obtain ⟨x, e⟩ := leaveCompressors_spot i j s
  rw [e]; rfl

/-! ## Departures -/

theorem depart_spot (i : SpotNo) (o : Order) (s : State) :
    (depart i o s).spot i = { s.spot i with orders := (s.spot i).orders.filter fun p => p.tag ≠ o.tag } := by
  have e := modSpot_spot_same (s.touchSpot i) i fun sp => { sp with orders := sp.orders.filter fun p => p.tag ≠ o.tag }
  unfold depart; simp only; split <;> exact e

theorem departs_spot (i : SpotNo) (f : Order → Order) (hf : ∀ o, (f o).tag = o.tag) (l : List Order) (s : State) :
    (l.foldl (fun s o => depart i (f o) s) s).spot i =
      { s.spot i with orders := (s.spot i).orders.filter fun p => l.all fun o => decide (p.tag ≠ o.tag) } := by
  induction l generalizing s with
  | nil => simp
  | cons o l ih =>
    rw [List.foldl_cons, ih, depart_spot]
    simp only [hf, List.filter_filter, List.all_cons, Bool.and_comm]

theorem filter_self_tags (l r : List Order) (h : ∀ o ∈ l, ∃ p ∈ r, p.tag = o.tag) :
    (l.filter fun p => r.all fun o => decide (p.tag ≠ o.tag)) = [] := by
  refine List.filter_eq_nil_iff.mpr fun o ho hc => ?_
  obtain ⟨p, hp, e⟩ := h o ho
  have := List.all_eq_true.mp hc p hp
  simp [e] at this

/-- What is left of a queue whose orders have all ended: nothing, or a head that drains, and did or had to before. -/
def QueueEnded (sp : Spot) (q : List Order) : Prop :=
  q = [] ∨ ∃ h h', sp.head = some h ∧ q = [h'] ∧ h'.state = .draining ∧ (h.state = .draining ∨ sp.headDrains = true)

theorem endQueue_spot (a b : EndReason) (i : SpotNo) (s : State) :
    ∃ q, (endQueue a b i s).spot i = { s.spot i with orders := q } ∧ QueueEnded (s.spot i) q := by
  unfold endQueue
  split
  · rename_i ho
    exact ⟨[], by rw [← ho], .inl rfl⟩
  · rename_i h rest ho
    have hh : (s.spot i).head = some h := by simp [Spot.head, ho]
    have hrest : ∀ p : Order, ((p :: rest).filter fun x => rest.all fun o => decide (x.tag ≠ o.tag)) = [] ∨
        ((p :: rest).filter fun x => rest.all fun o => decide (x.tag ≠ o.tag)) = [p] := fun p => by
      rw [List.filter_cons, filter_self_tags rest rest fun o ho => ⟨o, ho, rfl⟩]
      split
      · exact .inr rfl
      · exact .inl rfl
    simp only
    rw [departs_spot i (fun o => { o with reason := some (o.reason.getD b) }) fun _ => rfl]
    split
    · rename_i hd
      rw [ho]
      refine ⟨_, rfl, ?_⟩
      rcases hrest h with e | e <;> rw [e]
      · exact .inl rfl
      · exact .inr ⟨h, h, hh, rfl, hd, .inl hd⟩
    · split
      · rename_i hd
        rw [modSpot_spot_same, Spot.modHead_eq, ho]
        refine ⟨_, rfl, ?_⟩
        rcases hrest { h with state := .draining, reason := some (h.reason.getD a) } with e | e <;>
          rw [List.modifyHead_cons, e]
        · exact .inl rfl
        · exact .inr ⟨h, _, hh, rfl, rfl, .inr hd⟩
      · rw [depart_spot]
        refine ⟨_, rfl, .inl ?_⟩
        rw [ho]
        simp only [List.filter_filter]
        rw [List.filter_eq_nil_iff]
        intro o hmem hc
        simp only [Bool.and_eq_true, decide_eq_true_eq, List.all_eq_true] at hc
        rcases List.mem_cons.mp hmem with rfl | hmem
        · exact hc.2 rfl
        · exact hc.1 o hmem rfl

theorem enterIsolating_line (a b : EndReason) (x : Option SpotFault) (i : SpotNo) (s : State) :
    ∃ q, ((enterIsolating a b x i s).spot i).line =
      { state := .isolating, step := some .linesClosing, holds := .empty, orders := q } ∧ QueueEnded (s.spot i) q := by
  obtain ⟨q, e, hq⟩ := endQueue_spot a b i s
  refine ⟨q, ?_, hq⟩
  obtain ⟨y, ey⟩ := leaveCompressors_spot i i (endQueue a b i s)
  unfold enterIsolating
  simp only
  rw [line_shutAll, modSpot_spot_same, touchSpot_spot, ey, e]
  rfl

theorem QueueEnded.formed {sp : Spot} {q : List Order} (h : QueueEnded sp q) :
    QueueFormed q ∧ (q = [] ∨ ∃ o, q = [o] ∧ o.state = .draining) := by
  rcases h with rfl | ⟨-, o, -, rfl, ho, -⟩
  · exact ⟨.nil, .inl rfl⟩
  · exact ⟨.single fun _ => ho, .inr ⟨o, rfl, ho⟩⟩

theorem enterIsolating_legal (a b : EndReason) (x : Option SpotFault) (i : SpotNo) (s : State) :
    ((enterIsolating a b x i s).spot i).line.legal ∧ ((enterIsolating a b x i s).spot i).line.holdsLegal := by
  obtain ⟨q, e, hq⟩ := enterIsolating_line a b x i s
  obtain ⟨hf, hp⟩ := hq.formed
  rw [e]
  exact ⟨⟨hf, fun hc => absurd rfl hc, hp⟩, fun _ => rfl⟩

/-- Entry to ISOLATING from a state that is not quiet, or at a fitted spot. -/
theorem enterIsolating_fits {f : Bool} (a b : EndReason) (x : Option SpotFault) (i : SpotNo) (s : State)
    (h : f = false → (s.spot i).state.quiet = false) :
    (s.spot i).line.Fits f ((enterIsolating a b x i s).spot i).line := fun _ => by
  obtain ⟨hl, hh⟩ := enterIsolating_legal a b x i s
  exact ⟨hl, fun _ => hh, fun e hq => by rw [show (s.spot i).line.state = (s.spot i).state from rfl, h e] at hq; cases hq⟩

/-! ## Holds -/

theorem Order.suspend_reason (o : Order) (h : o.reason ≠ none → o.state = .draining) (hr : o.suspend.reason ≠ none) :
    o.suspend.state = .draining := by
  unfold Order.suspend at *
  revert hr
  cases ho : o.state <;> simp_all

theorem Order.suspend_tag (o : Order) : o.suspend.tag = o.tag := by
  unfold Order.suspend; split <;> rfl

/-- R35: the states that a hold takes to HELD. -/
def SpotState.holdable (st : SpotState) : Prop := st = .connected ∨ st = .staged ∨ st = .transfer ∨ st = .recovery

theorem addHold_line (i : SpotNo) (r : HoldReason) (s : State) :
    ((addHold i r s).spot i).line = (s.spot i).line ∨
    ((s.spot i).state = .held ∧ ∃ x, ((addHold i r s).spot i).line = { (s.spot i).line with holds := x }) ∨
    ((s.spot i).state.holdable ∧ ∃ x, ((addHold i r s).spot i).line =
      { state := .held, step := (s.spot i).step, holds := x, orders := (s.spot i).orders.modifyHead Order.suspend }) := by
  have hesd : ∀ t : State, ((if r = .esd then commandSpot i .shutoff .toShut t else t).spot i).line = (t.spot i).line :=
    fun t => by split <;> simp
  unfold addHold
  simp only
  split
  · exact .inl rfl
  · split
    case h_5 hst =>
      refine .inr (.inl ⟨hst, (s.spot i).holds.put r true, ?_⟩)
      rw [hesd, modSpot_spot_same]
      rfl
    case h_6 | h_7 | h_8 | h_9 | h_10 | h_11 => exact .inl rfl
    all_goals
      rename_i hst
      refine .inr (.inr ⟨by simp [SpotState.holdable, hst], (s.spot i).holds.put r true, ?_⟩)
      rw [line_leaveCompressors, hesd, line_commandSpot, line_commandSpot, modSpot_spot_same, Spot.modHead_eq]
      rfl

theorem addHold_fits {f : Bool} (i : SpotNo) (r : HoldReason) (s : State) :
    (s.spot i).line.Fits f ((addHold i r s).spot i).line := by
  rcases addHold_line i r s with e | ⟨hst, x, e⟩ | ⟨hst, x, e⟩ <;> rw [e]
  · exact .refl _ _
  · exact .of_busy (by simp [Spot.line, hst, SpotState.quiet]) (fun hl => hl) fun _ hc => absurd hst hc
  · refine .of_busy (by rcases hst with h | h | h | h <;> simp [Spot.line, h, SpotState.quiet]) (fun hl => ?_)
      fun _ hc => absurd rfl hc
    exact Line.legal_of_queue (hl.1.modifyHead Order.suspend_tag fun o _ => o.suspend_reason)
      (fun hc => absurd rfl hc) (.inr (.inr (.inr rfl)))

theorem removeHold_fits {f : Bool} (i : SpotNo) (r : HoldReason) (s : State) :
    (s.spot i).line.Fits f ((removeHold i r s).spot i).line := fun hl => by
  unfold removeHold
  rw [modSpot_spot_same]
  refine ⟨hl, fun hh hc => ?_, fun _ hq => hq⟩
  have he : (s.spot i).holds = .empty := hh hc
  simp only [Spot.line, he]
  cases r <;> rfl

end Sys2Proof.Machine
end

section
/-! PROOFS. Heads that leave, faults and stroke tests in terms of lines (R44, R46, R48, R67 to R72), and the work of arrivals, after
which a spot owes nothing (R30, R40, R43, R113, R147). -/

namespace Sys2Proof.Machine

/-! ## A head that leaves -/

/-- The line of a spot whose head has just left (R71, R72). -/
structure Line.Bereft (l : Line) : Prop where
  waits : QueueWaits l.orders
  place : l.state = .staged ∨ l.state = .transfer ∨ l.state = .recovery ∨ l.state = .held ∨
    (l.state = .isolating ∧ l.orders = [])

/-- The line after R72: the head, if there is one, is new. -/
structure Line.Begun (l : Line) : Prop where
  legal : l.legal
  place : l.state = .connected ∨ l.state = .staged ∨ l.state = .held ∨ l.state = .isolating
  head : ∀ h, l.orders.head? = some h → (h.state = .suspended ∧ l.state = .held) ∨ (h.state = .waiting ∧ l.state = .staged)

theorem Line.Begun.of_nil {l : Line} (ho : l.orders = []) (h : l.state = .connected ∨ l.state = .held ∨ l.state = .isolating) :
    l.Begun := by
  refine ⟨Line.legal_of_nil ho ?_ ?_ ?_, by tauto, fun o e => by simp [ho] at e⟩ <;>
    rcases h with h | h | h <;> simp [h]

/-- The head of a waiting queue takes a state. -/
theorem head_modifyHead {q : List Order} {f : Order → Order} {o : Order} (h : (q.modifyHead f).head? = some o) :
    ∃ p, q.head? = some p ∧ o = f p := by
  cases q with
  | nil => cases h
  | cons p q => exact ⟨p, rfl, by cases h; rfl⟩

/-- The line of a spot whose new head is WAITING (R62). -/
def Line.stage (l : Line) : Line :=
  { state := .staged, step := l.step, holds := l.holds, orders := l.orders.modifyHead fun o => { o with state := .waiting } }

theorem Line.Begun.held {l : Line} (hq : QueueWaits l.orders) (x : HoldSet) (p : Option SpotStep) :
    Line.Begun
      { state := .held, step := p, holds := x, orders := l.orders.modifyHead fun o => { o with state := .suspended } } := by
  refine ⟨Line.legal_of_queue (hq.head _) (fun hc => absurd rfl hc) (by simp), by simp, fun o e => .inl ⟨?_, rfl⟩⟩
  obtain ⟨p, -, rfl⟩ := head_modifyHead e
  rfl

theorem Line.Begun.staged {l : Line} (hq : QueueWaits l.orders) (ho : l.orders ≠ []) : l.stage.Begun := by
  refine ⟨Line.legal_of_queue (hq.head _) (fun _ hc => ?_) (by simp [Line.stage]), by simp [Line.stage], fun o e => .inr ⟨?_, rfl⟩⟩
  · cases h : l.orders with
    | nil => exact ho h
    | cons p q => simp [Line.stage, h] at hc
  · obtain ⟨p, -, rfl⟩ := head_modifyHead e
    rfl

/-- A hold that meets a new head suspends it. -/
theorem Line.Begun.suspend {l : Line} (h : l.Begun) (x : HoldSet) :
    Line.Begun { state := .held, step := l.step, holds := x, orders := l.orders.modifyHead Order.suspend } := by
  refine ⟨Line.legal_of_queue (h.legal.1.modifyHead Order.suspend_tag fun o _ => o.suspend_reason)
    (fun hc => absurd rfl hc) (by simp), by simp, fun o e => .inl ⟨?_, rfl⟩⟩
  obtain ⟨p, hp, rfl⟩ := head_modifyHead e
  rcases h.head p hp with ⟨hs, -⟩ | ⟨hs, -⟩ <;> simp [Order.suspend, hs]

theorem addHold_begun (i : SpotNo) (r : HoldReason) (s : State) (h : (s.spot i).line.Begun) :
    ((addHold i r s).spot i).line.Begun := by
  rcases addHold_line i r s with e | ⟨hst, x, e⟩ | ⟨-, x, e⟩ <;> rw [e]
  · exact h
  · exact ⟨h.legal, h.place, h.head⟩
  · exact h.suspend x

theorem becomeHead_begun (i : SpotNo) (s : State) (hq : QueueWaits (s.spot i).line.orders)
    (ho : (s.spot i).line.orders ≠ []) :
    ((becomeHead i s).spot i).line.Begun ∧
      ((s.spot i).line.holdsLegal → ((becomeHead i s).spot i).line.holdsLegal) := by
  have hs1 : (((s.touchSpot i).modSpot i (Spot.takeStaged s)).spot i).line = (s.spot i).line := by simp
  unfold becomeHead
  simp only
  generalize (s.touchSpot i).modSpot i (Spot.takeStaged s) = u at hs1
  have hst : (u.spot i).state = (s.spot i).state := congrArg Line.state hs1
  by_cases hheld : (u.spot i).state = .held
  · rw [if_pos hheld, line_modSpot_same i (fun l => { l with holds := l.holds.put .vesselTrip _ }) _ fun _ => rfl,
      line_modSpot_same i (fun l => { l with orders := l.orders.modifyHead fun o => { o with state := .suspended } }) _ fun sp =>
        Spot.modHead_line _ sp, hs1]
    have hl : (s.spot i).line.state = .held := hst.symm.trans hheld
    refine ⟨?_, fun _ hc => absurd hl hc⟩
    simp only [hl]
    exact .held hq _ _
  · rw [if_neg hheld]
    have hs2 : ((u.modSpot i fun sp => { sp.modHead (fun o => { o with state := .waiting }) with state := .staged }).spot i).line
        = (s.spot i).line.stage := by
      rw [line_modSpot_same i Line.stage _ fun sp => by rw [Spot.modHead_eq]; rfl, hs1]
    have hb := Line.Begun.staged (l := (s.spot i).line) hq ho
    have hh : (s.spot i).line.holdsLegal → (s.spot i).line.stage.holdsLegal := fun h _ => h fun hc => hheld (hst.trans hc)
    split
    · have hfit := addHold_fits (f := true) i .vesselTrip
        (u.modSpot i fun sp => { sp.modHead (fun o => { o with state := .waiting }) with state := .staged })
      rw [hs2] at hfit
      refine ⟨addHold_begun _ _ _ (by rw [hs2]; exact hb), fun h => (hfit hb.legal).2.1 (hh h)⟩
    · rw [hs2]; exact ⟨hb, hh⟩

theorem nextHead_begun (i : SpotNo) (s : State) (h : (s.spot i).line.Bereft) :
    ((nextHead i s).spot i).line.Begun ∧
      ((s.spot i).line.holdsLegal → ((nextHead i s).spot i).line.holdsLegal) := by
  obtain ⟨hq, hplace⟩ := h
  unfold nextHead
  simp only
  split
  case h_4 hst =>
    split
    · rename_i ho
      refine ⟨.of_nil (by simpa [removeHold, Spot.line] using ho) (.inr (.inl (by simp [removeHold, Spot.line, hst]))),
        fun _ hc => absurd (by simp [removeHold, Spot.line, hst]) hc⟩
    · rename_i ho
      exact becomeHead_begun i s hq (by simpa [Spot.line] using ho)
  case h_5 hst =>
    have ho : (s.spot i).orders = [] := by simpa [Spot.line, hst] using hplace
    exact ⟨.of_nil ho (.inr (.inr hst)), id⟩
  case h_6 | h_7 | h_8 | h_9 | h_10 | h_11 => rename_i hst; simp [Spot.line, hst] at hplace
  all_goals
    rename_i hst
    split
    · rename_i ho
      rw [line_modSpot_same i (fun l => { l with state := .connected }) _ fun _ => rfl,
        line_modSpot _ _ _ _ Spot.stopMeter_line]
      exact ⟨.of_nil (by simpa [Spot.line] using ho) (.inl rfl), fun h _ => h (by simp [Spot.line, hst])⟩
    · rename_i ho
      have e : ((s.modSpot i Spot.stopMeter).spot i).line = (s.spot i).line := line_modSpot _ _ _ _ Spot.stopMeter_line
      have := becomeHead_begun i (s.modSpot i Spot.stopMeter) (e ▸ hq) (e ▸ (by simpa [Spot.line] using ho))
      rwa [e] at this

theorem headGone_begun (i : SpotNo) (b : Bool) (s : State) (h : (s.spot i).line.Bereft) :
    ((headGone i b s).spot i).line.Begun ∧
      ((s.spot i).line.holdsLegal → ((headGone i b s).spot i).line.holdsLegal) := by
  unfold headGone
  split
  · obtain ⟨q, e, hq⟩ := enterIsolating_line .stopped .stopped none i s
    rw [e]
    have hnil : q = [] := by
      rcases hq with e | ⟨o, -, ho, -, -, hd⟩
      · exact e
      · have hm : o ∈ (s.spot i).orders := List.mem_of_mem_head? ho
        have hst := (h.waits.fresh o hm).1
        simp [hst, Spot.headDrains, ho] at hd
    exact ⟨.of_nil hnil (.inr (.inr rfl)), fun _ _ => rfl⟩
  · exact nextHead_begun i s h

/-- The head of a legal line departs. -/
theorem bereft_of_depart {i : SpotNo} {s u : State} {h o : Order} (hl : (s.spot i).line.legal)
    (hu : (u.spot i).line = (s.spot i).line) (hh : (s.spot i).head = some h) (ht : o.tag = h.tag) :
    ((depart i o u).spot i).line.Bereft := by
  obtain ⟨hq, hp⟩ := hl
  obtain ⟨rest, ho⟩ : ∃ rest, (s.spot i).orders = h :: rest := by
    unfold Spot.head at hh
    cases e : (s.spot i).orders with
    | nil => simp [e] at hh
    | cons p q => simp [e] at hh; exact ⟨q, by rw [hh]⟩
  have ho' : (s.spot i).line.orders = h :: rest := ho
  have hline : ((depart i o u).spot i).line =
      { (s.spot i).line with orders := rest.filter fun p => p.tag ≠ o.tag } := by
    have : ((depart i o u).spot i).line =
        { (u.spot i).line with orders := (u.spot i).line.orders.filter fun p => p.tag ≠ o.tag } := by
      rw [depart_spot]; rfl
    rw [this, hu, ho', List.filter_cons_of_neg (by simp [ht])]
  rw [ho'] at hq
  rw [hline]
  refine ⟨hq.rest.filter _, ?_⟩
  unfold Line.placed at hp
  rw [ho'] at hp
  revert hp
  cases (s.spot i).line.state <;> simp
  rintro - rfl - _ h
  cases h

/-- A head has left a legal line: R72 has followed. -/
theorem Line.Fits.of_begun {f : Bool} {a b : Line} (h : a.legal → b.Begun ∧ (a.holdsLegal → b.holdsLegal))
    (ho : a.orders ≠ []) : a.Fits f b := fun hl =>
  ⟨(h hl).1.legal, (h hl).2, fun _ hq => absurd (hl.orders_of_quiet hq) ho⟩

theorem headLeaves_begun {i : SpotNo} {s : State} {h : Order} (r : EndReason) (hl : (s.spot i).line.legal)
    (hh : (s.spot i).head = some h) :
    ((headLeaves i h r s).spot i).line.Begun ∧
      ((s.spot i).line.holdsLegal → ((headLeaves i h r s).spot i).line.holdsLegal) := by
  unfold headLeaves
  simp only
  generalize hu : leaveCompressors i _ = u
  have e : (u.spot i).line = (s.spot i).line := by
    rw [← hu, line_leaveCompressors]
    split
    · rw [line_commandSpot]; exact line_modSpot _ _ _ _ fun _ => rfl
    · rfl
  have hb := bereft_of_depart (o := { h with reason := some r }) hl e hh rfl
  obtain ⟨h1, h2⟩ := headGone_begun i (h.closeAfter && r.natural) _ hb
  refine ⟨h1, fun hold => h2 ?_⟩
  rw [depart_spot]
  rw [← e] at hold
  exact hold

/-! ## A head that drains, and ends -/

theorem Line.placed_modifyHead {l : Line} {g : Order → Order} (hg : ∀ o, o.state = .draining → (g o).state = .draining)
    (h : l.placed) : Line.placed { l with orders := l.orders.modifyHead g } := by
  obtain ⟨st, step, x, q⟩ := l
  cases q with
  | nil => exact h
  | cons p q =>
    unfold Line.placed at *
    revert h
    cases st <;> simp
    rintro h1 rfl hd
    exact ⟨h1, rfl, hg p hd⟩

theorem head_ne_nil {sp : Spot} {h : Order} (hh : sp.head = some h) : sp.line.orders ≠ [] := by
  intro e
  have : sp.orders = [] := e
  simp [Spot.head, this] at hh

theorem drainHead_line (i : SpotNo) (r : EndReason) (s : State) : ((drainHead i r s).spot i).line =
    { (s.spot i).line with
      orders := (s.spot i).line.orders.modifyHead fun o => { o with state := .draining, reason := some r } } := by
  unfold drainHead
  simp only
  rw [line_commandSpot, line_leaveCompressors, line_modSpot_same i (fun l => { l with
    orders := l.orders.modifyHead fun o => { o with state := .draining, reason := some r } }) _
    fun sp => by rw [Spot.modHead_eq]; rfl]
  rfl

theorem drainHead_fits {f : Bool} (i : SpotNo) (r : EndReason) (s : State) :
    (s.spot i).line.Fits f ((drainHead i r s).spot i).line := by
  rw [drainHead_line]
  exact fun hl => ⟨⟨hl.1.modifyHead (fun _ => rfl) fun _ _ _ _ => rfl, Line.placed_modifyHead (fun _ _ => rfl) hl.2⟩, id,
    fun _ => id⟩

theorem endHead_fits {f : Bool} (i : SpotNo) (r : EndReason) (s : State) :
    (s.spot i).line.Fits f ((endHead i r s).spot i).line := by
  unfold endHead
  split
  · exact .refl _ _
  · rename_i h hh
    split
    · exact drainHead_fits i r s
    · exact .of_begun (fun hl => headLeaves_begun r hl hh) (head_ne_nil hh)

/-- Orders behind the head leave a legal line. -/
theorem Line.legal.filter {l : Line} {p : Order → Bool} (hl : l.legal) (hp : ∀ h, l.orders.head? = some h → p h = true) :
    Line.legal { l with orders := l.orders.filter p } := by
  obtain ⟨st, step, x, q⟩ := l
  obtain ⟨hq, hpl⟩ := hl
  cases q with
  | nil => exact ⟨.nil, hpl⟩
  | cons h q =>
    have e : (h :: q).filter p = h :: q.filter p := List.filter_cons_of_pos (hp h rfl)
    refine ⟨?_, ?_⟩
    · simp only [e]
      refine (hq.rest.filter p).cons (fun hc => ?_) (hq.reasons h List.mem_cons_self)
      exact (List.nodup_cons.mp hq.tags).1 ((List.filter_sublist.map _).subset hc)
    · unfold Line.placed at *
      simp only [e]
      revert hpl
      cases st <;> simp
      rintro h1 rfl hd
      exact ⟨h1, by simp, hd⟩

theorem endOrder_fits {f : Bool} (i : SpotNo) (tag : Word16) (r : EndReason) (s : State) :
    (s.spot i).line.Fits f ((endOrder i tag r s).spot i).line := by
  unfold endOrder
  split
  · exact .refl _ _
  · rename_i h hh
    split
    · exact endHead_fits i r s
    · rename_i htag
      split
      · rename_i o ho
        have e : o.tag = tag := by simpa using List.find?_some ho
        have : ((depart i { o with reason := some r } s).spot i).line =
            { (s.spot i).line with orders := (s.spot i).line.orders.filter fun p => p.tag ≠ o.tag } := by
          rw [depart_spot]; rfl
        rw [this]
        refine fun hl => ⟨hl.filter fun p hp => ?_, id, fun _ => id⟩
        have : p = h := Option.some.inj (hp.symm.trans hh)
        simpa [this, e] using htag
      · exact .refl _ _

/-! ## Faults and stroke tests -/

theorem serveUnloading_spot (i j : SpotNo) (s : State) : (serveUnloading i s).spot j = s.spot j :=
  spot_of_spots (spots_serveUnloading i s) j

theorem faultSpot_line (x : SpotFault) (i : SpotNo) (s : State) :
    ((faultSpot x i s).spot i).line = { state := .faulted, step := none, holds := .empty, orders := [] } := by
  have hd : (((s.spot i).orders.foldl (fun s o => depart i { o with reason := some .fault } s) s).spot i).orders = [] := by
    rw [departs_spot i (fun o => { o with reason := some .fault }) fun _ => rfl]
    exact filter_self_tags _ _ fun o ho => ⟨o, ho, rfl⟩
  unfold faultSpot
  simp only
  rw [serveUnloading_spot, line_shutAll, line_modSpot_same i
    (fun l => { state := .faulted, step := none, holds := .empty, orders := l.orders }) _ fun _ => rfl,
    touchSpot_spot, line_leaveCompressors]
  exact congrArg _ hd

theorem faultSpot_fits {f : Bool} (x : SpotFault) (i : SpotNo) (s : State) :
    (s.spot i).line.Fits f ((faultSpot x i s).spot i).line := by
  rw [faultSpot_line]
  exact fun _ => ⟨Line.legal_of_nil rfl (by simp) (by simp) (by simp), fun _ _ => rfl, fun _ _ => rfl⟩

theorem endSpotTest_spot (i j : SpotNo) (s : State) : (endSpotTest i s).spot j = s.spot j :=
  spot_of_spots (spots_endSpotTest i s) j

theorem failStroke_line (k : Bool) (x : SpotFault) (i : SpotNo) (s : State) :
    ((failStroke k x i s).spot i).line = { (s.spot i).line with state := .faulted, step := none } := by
  unfold failStroke
  simp only
  have h : ∀ u : State, ((if k then u else u.modSpot i (Spot.mapValves Valve.stopTimer)).spot i).line = (u.spot i).line :=
    fun u => by
      split
      · rfl
      · exact line_modSpot _ _ _ _ fun _ => rfl
  rw [endSpotTest_spot, h, line_modSpot _ _ _ _ fun sp => Spot.mapValves_line _ sp, line_shutAll,
    line_modSpot_same i (fun l => { l with state := .faulted, step := none }) _ fun _ => rfl]
  rfl

/-- Where there is no order a spot may change among the states without one (R47, R48, R151). -/
theorem Line.Fits.of_idle {f : Bool} {a b : Line} (ho : a.legal → b.orders = [])
    (hb : b.state = .vacant ∨ b.state = .spotted ∨ b.state = .proving ∨ b.state = .stroking ∨ b.state = .faulted)
    (hq : f = false → a.state.quiet = true → b.state.quiet = true) (hh : b.holds = a.holds) (ha : a.state ≠ .held) :
    a.Fits f b := fun hl => by
  refine ⟨Line.legal_of_nil (ho hl) ?_ ?_ ?_, fun h _ => hh.trans (h ha), hq⟩ <;>
    rcases hb with h | h | h | h | h <;> simp [h]

theorem Line.legal.orders_of_stroking {l : Line} (h : l.legal) (hs : l.state = .stroking) : l.orders = [] := by
  obtain ⟨-, hp⟩ := h
  unfold Line.placed at hp
  rw [hs] at hp
  exact hp

theorem failStroke_fits {f : Bool} (k : Bool) (x : SpotFault) (i : SpotNo) (s : State)
    (h : (s.spot i).state = .stroking) : (s.spot i).line.Fits f ((failStroke k x i s).spot i).line := by
  rw [failStroke_line]
  exact .of_idle (fun hl => hl.orders_of_stroking h) (by simp) (fun _ _ => rfl) rfl (by simp [Spot.line, h])

theorem spotValveFault_fits {f : Bool} (i : SpotNo) (n : ValveName) (s : State) :
    (s.spot i).line.Fits f ((spotValveFault i n s).spot i).line := by
  unfold spotValveFault
  split
  · exact .refl _ _
  · rename_i h; exact failStroke_fits _ _ _ _ h
  all_goals exact faultSpot_fits _ _ _

theorem enterStroking_line (i : SpotNo) (s : State) :
    ∃ st p, (st = .stroking ∨ st = .faulted) ∧ ((enterStroking i s).spot i).line = { (s.spot i).line with state := st, step := p } := by
  unfold enterStroking
  simp only
  generalize hu : pursueSpotAll i _ = u
  have e : (u.spot i).line = { (s.spot i).line with state := .stroking, step := some (.stroking .vent false) } := by
    rw [← hu, line_pursueSpotAll,
      foldl_keeps (fun s : State => (s.spot i).line) _ (fun t n => line_modSpot _ _ _ _ fun _ => by simp),
      line_modSpot_same i (fun l => { l with state := .stroking, step := some (.stroking .vent false) }) _ fun _ => rfl]
    rfl
  split
  · exact ⟨.faulted, none, .inr rfl, by rw [failStroke_line, e]⟩
  · exact ⟨.stroking, _, .inl rfl, e⟩

/-- A stroke test begins at a fitted spot in a quiet state. -/
theorem enterStroking_fits (i : SpotNo) (s : State) (h : (s.spot i).state.quiet = true) :
    (s.spot i).line.Fits true ((enterStroking i s).spot i).line := by
  obtain ⟨st, p, hst, e⟩ := enterStroking_line i s
  rw [e]
  refine .of_idle (fun hl => hl.orders_of_quiet h) ?_ (fun hf => by cases hf) rfl fun hc => ?_
  · rcases hst with rfl | rfl <;> simp
  · have hc' : (s.spot i).state = .held := hc
    rw [hc'] at h; cases h

theorem passStroke_line (i : SpotNo) (s : State) : ((passStroke i s).spot i).line =
    { (s.spot i).line with state := if (s.spot i).car.isSome then .spotted else .vacant, step := none } := by
  unfold passStroke
  rw [endSpotTest_spot, modSpot_spot_same]
  rfl

end Sys2Proof.Machine
end

section
/-! PROOFS. The work of arrivals (R147): it keeps a legal line, and after it the spot owes nothing. -/

namespace Sys2Proof.Machine

/-! ## What a spot may owe -/

/-- The spot owes nothing to an arrival before its isolation: the first four clauses of `Spot.steady`. -/
structure Spot.AtRest (sp : Spot) : Prop where
  proving : ¬ (sp.state = .proving ∧ sp.step = some .shutoffOpening ∧ sp.shutoff.isOpen = true)
  transfer : ¬ (sp.state = .transfer ∧ sp.headIs .running = true ∧ sp.liquid.isOpen = true ∧ sp.stall.isRunning = false)
  drained : ¬ (sp.headIs .draining = true ∧ sp.liquid.isShut = true)
  resumed : ¬ (sp.state = .staged ∧ sp.headIs .suspended = true ∧ sp.shutoff.isOpen = true ∧ sp.liquid.isShut = true
    ∧ sp.vapour.isShut = true)

/-- The spot owes nothing to an arrival of its isolation: the last three clauses. -/
structure Spot.Isolated (sp : Spot) : Prop where
  lines : ¬ (sp.state = .isolating ∧ sp.standing = false ∧ sp.step = some .linesClosing ∧ sp.linesShut = true)
  opened : ¬ (sp.state = .isolating ∧ sp.standing = false ∧ sp.step = some .ventOpening ∧ sp.vent.isOpen = true)
  closed : ¬ (sp.state = .isolating ∧ sp.standing = false ∧ sp.step = some .ventClosing ∧ sp.vent.isShut = true)

theorem steady_iff (sp : Spot) : sp.steady ↔ sp.AtRest ∧ sp.Isolated :=
  ⟨fun ⟨h1, h2, h3, h4, h5, h6, h7⟩ => ⟨⟨h1, h2, h3, h4⟩, ⟨h5, h6, h7⟩⟩,
    fun ⟨⟨h1, h2, h3, h4⟩, ⟨h5, h6, h7⟩⟩ => ⟨h1, h2, h3, h4, h5, h6, h7⟩⟩

theorem Spot.Isolated.of_state {sp : Spot} (h : sp.state ≠ .isolating) : sp.Isolated :=
  ⟨fun c => h c.1, fun c => h c.1, fun c => h c.1⟩

theorem headIs_line {sp : Spot} {st : OrderState} :
    sp.headIs st = true ↔ ∃ h, sp.line.orders.head? = some h ∧ h.state = st := by
  unfold Spot.headIs Spot.head
  cases e : sp.orders.head? <;> simp [Spot.line, e]

/-- A new head, or none, is owed nothing. -/
theorem Spot.AtRest.of_begun {sp : Spot} (h : sp.line.Begun) : sp.AtRest := by
  have hstate : sp.line.state = sp.state := rfl
  have hhead : ∀ st, sp.headIs st = true → (st = .suspended ∧ sp.state = .held) ∨ (st = .waiting ∧ sp.state = .staged) :=
    fun st hs => by
      obtain ⟨o, ho, rfl⟩ := headIs_line.mp hs
      exact h.head o ho
  refine ⟨fun ⟨hs, _⟩ => ?_, fun ⟨_, hr, _⟩ => ?_, fun ⟨hd, _⟩ => ?_, fun ⟨hs, hr, _⟩ => ?_⟩
  · have := h.place
    simp [hstate, hs] at this
  · have := hhead _ hr; simp at this
  · have := hhead _ hd; simp at this
  · have := hhead _ hr; simp [hs] at this

/-- A spot in a state without a queue and outside PROVING and ISOLATING is owed nothing. -/
theorem Spot.steady_of_idle {sp : Spot} (ho : sp.orders = []) (h1 : sp.state ≠ .proving) (h2 : sp.state ≠ .isolating) :
    sp.steady := by
  have hh : ∀ st, sp.headIs st = false := fun st => by simp [Spot.headIs, Spot.head, ho]
  refine (steady_iff sp).mpr ⟨⟨fun c => h1 c.1, fun c => ?_, fun c => ?_, fun c => ?_⟩, .of_state h2⟩
  · simp [hh] at c
  · simp [hh] at c
  · simp [hh] at c

/-! ## PROVING and TRANSFER -/

theorem onShutoffOpen_spot (i : SpotNo) (s : State) :
    (onShutoffOpen i s = s ∧
      ¬ ((s.spot i).state = .proving ∧ (s.spot i).step = some .shutoffOpening ∧ (s.spot i).shutoff.isOpen = true)) ∨
    ((s.spot i).state = .proving ∧ ∃ p t, p ≠ .shutoffOpening ∧
      (onShutoffOpen i s).spot i = { s.spot i with step := some p, timer := t }) := by
  unfold onShutoffOpen
  simp only
  split
  · rename_i h
    refine .inr ⟨h.1, _, _, ?_, modSpot_spot_same _ _ _⟩
    split <;> simp
  · rename_i h; exact .inl ⟨rfl, h⟩

theorem onLiquidOpen_spot (i : SpotNo) (s : State) :
    (onLiquidOpen i s = s ∧ ¬ ((s.spot i).state = .transfer ∧ (s.spot i).headIs .running = true ∧
      (s.spot i).liquid.isOpen = true ∧ (s.spot i).stall.isRunning = false)) ∨
    ((s.spot i).state = .transfer ∧ ∃ n, (onLiquidOpen i s).spot i = { s.spot i with stall := .seconds n }) := by
  unfold onLiquidOpen
  simp only
  split
  · rename_i h
    exact .inr ⟨h.1, _, modSpot_spot_same _ _ _⟩
  · rename_i h; exact .inl ⟨rfl, h⟩

/-- The step of a spot outside ISOLATING does not reach its queue. -/
theorem Line.Fits.step {f : Bool} {a : Line} (p : Option SpotStep) (h : a.state ≠ .isolating) :
    a.Fits f { a with step := p } := fun hl => by
  refine ⟨⟨hl.1, ?_⟩, id, fun _ => id⟩
  have := hl.2
  unfold Line.placed at *
  revert this h
  cases a.state <;> simp

theorem opened_fits {f : Bool} (i : SpotNo) (s : State) :
    (s.spot i).line.Fits f ((onLiquidOpen i (onShutoffOpen i s)).spot i).line := by
  have h1 : (s.spot i).line.Fits f ((onShutoffOpen i s).spot i).line := by
    rcases onShutoffOpen_spot i s with ⟨e, -⟩ | ⟨hst, p, t, -, e⟩ <;> rw [e]
    · exact .refl _ _
    · exact .step _ (by simp [Spot.line, hst])
  refine h1.trans ?_
  rcases onLiquidOpen_spot i (onShutoffOpen i s) with ⟨e, -⟩ | ⟨-, n, e⟩ <;> rw [e]
  · exact .refl _ _
  · exact .refl _ _

theorem opened_rests (i : SpotNo) (s : State) {sp : Spot} (hsp : (onLiquidOpen i (onShutoffOpen i s)).spot i = sp) :
    ¬ (sp.state = .proving ∧ sp.step = some .shutoffOpening ∧ sp.shutoff.isOpen = true) ∧
    ¬ (sp.state = .transfer ∧ sp.headIs .running = true ∧ sp.liquid.isOpen = true ∧ sp.stall.isRunning = false) := by
  subst hsp
  have h1 : ¬ (((onShutoffOpen i s).spot i).state = .proving ∧ ((onShutoffOpen i s).spot i).step = some .shutoffOpening ∧
      ((onShutoffOpen i s).spot i).shutoff.isOpen = true) := by
    rcases onShutoffOpen_spot i s with ⟨e, h⟩ | ⟨-, p, t, hp, e⟩ <;> rw [e]
    · exact h
    · exact fun ⟨_, h, _⟩ => hp (Option.some.inj h)
  rcases onLiquidOpen_spot i (onShutoffOpen i s) with ⟨e, h⟩ | ⟨hst, n, e⟩ <;> rw [e]
  · exact ⟨h1, h⟩
  · exact ⟨h1, fun ⟨_, _, _, h⟩ => by cases h⟩

/-! ## Drained and resumed heads -/

theorem onDrained_cases (i : SpotNo) (s : State) :
    (onDrained i s = s ∧ ¬ ((s.spot i).headIs .draining = true ∧ (s.spot i).liquid.isShut = true)) ∨
    ∃ h, (s.spot i).head = some h ∧ onDrained i s = headGone i (h.closeAfter && (h.reason.getD .stopped).natural)
      (depart i h (leaveCompressors i (commandSpot i .vapour .toShut s))) := by
  unfold onDrained
  split
  · rename_i hh
    exact .inl ⟨rfl, fun ⟨h, _⟩ => by simp [Spot.headIs, hh] at h⟩
  · rename_i h hh
    split
    · exact .inr ⟨h, hh, rfl⟩
    · rename_i hc
      exact .inl ⟨rfl, fun ⟨hd, hs⟩ => hc ⟨by simpa [Spot.headIs, hh] using hd, hs⟩⟩

theorem onDrained_begun {i : SpotNo} {s : State} {h : Order} (b : Bool) (hl : (s.spot i).line.legal)
    (hh : (s.spot i).head = some h) :
    ((headGone i b (depart i h (leaveCompressors i (commandSpot i .vapour .toShut s)))).spot i).line.Begun ∧
      ((s.spot i).line.holdsLegal →
        ((headGone i b (depart i h (leaveCompressors i (commandSpot i .vapour .toShut s)))).spot i).line.holdsLegal) := by
  have e : ((leaveCompressors i (commandSpot i .vapour .toShut s)).spot i).line = (s.spot i).line := by simp
  obtain ⟨h1, h2⟩ := headGone_begun i b _ (bereft_of_depart hl e hh rfl)
  refine ⟨h1, fun hold => h2 ?_⟩
  rw [depart_spot]
  rw [← e] at hold
  exact hold

theorem onDrained_fits {f : Bool} (i : SpotNo) (s : State) :
    (s.spot i).line.Fits f ((onDrained i s).spot i).line := by
  rcases onDrained_cases i s with ⟨e, -⟩ | ⟨h, hh, e⟩ <;> rw [e]
  · exact .refl _ _
  · exact .of_begun (fun hl => onDrained_begun _ hl hh) (head_ne_nil hh)

theorem onResumed_cases (i : SpotNo) (s : State) :
    (onResumed i s = s ∧ ¬ ((s.spot i).state = .staged ∧ (s.spot i).headIs .suspended = true ∧
      (s.spot i).shutoff.isOpen = true ∧ (s.spot i).liquid.isShut = true ∧ (s.spot i).vapour.isShut = true)) ∨
    ((s.spot i).state = .staged ∧ (s.spot i).headIs .suspended = true ∧
      ((onResumed i s).spot i).line = { (s.spot i).line with
        orders := (s.spot i).line.orders.modifyHead fun o => { o with state := .waiting } }) := by
  unfold onResumed
  simp only
  split
  · rename_i h
    refine .inr ⟨h.1, h.2.1, ?_⟩
    rw [modSpot_spot_same, touchSpot_spot, Spot.modHead_line]
  · rename_i h; exact .inl ⟨rfl, h⟩

/-- The line of a STAGED spot whose SUSPENDED head becomes WAITING (R40). -/
theorem resumed_begun {sp : Spot} (hl : sp.line.legal) (hst : sp.state = .staged) (hsus : sp.headIs .suspended = true) :
    Line.Begun { sp.line with orders := sp.line.orders.modifyHead fun o => { o with state := .waiting } } := by
  obtain ⟨h, hh, hs⟩ := headIs_line.mp hsus
  have hline : sp.line.state = .staged := hst
  refine ⟨Line.legal_of_queue (hl.1.modifyHead (fun _ => rfl) fun o ho hr hne => ?_) (fun _ hc => ?_) (.inl hst),
    .inr (.inl hst), fun o ho => .inr ⟨?_, hst⟩⟩
  · cases hh.symm.trans ho
    rw [hs] at hr
    exact absurd (hr hne) (by simp)
  · have hc' : sp.line.orders = [] := by
      cases e : sp.line.orders with
      | nil => rfl
      | cons p q => simp [e] at hc
    simp [hc'] at hh
  · obtain ⟨p, -, rfl⟩ := head_modifyHead ho
    rfl

theorem onResumed_fits {f : Bool} (i : SpotNo) (s : State) :
    (s.spot i).line.Fits f ((onResumed i s).spot i).line := by
  rcases onResumed_cases i s with ⟨e, -⟩ | ⟨hst, hsus, e⟩ <;> rw [e]
  · exact .refl _ _
  · exact fun hl => ⟨(resumed_begun hl hst hsus).legal, fun h => h, fun _ h => h⟩

/-- The spot after the arrivals of PROVING, TRANSFER, DRAINING and resuming. -/
theorem drained_rests {i : SpotNo} {s : State} (hl : (s.spot i).line.legal) :
    ((onResumed i (onDrained i (onLiquidOpen i (onShutoffOpen i s)))).spot i).AtRest := by
  obtain ⟨hlu, -⟩ := opened_fits (f := true) i s hl
  obtain ⟨hp, ht⟩ := opened_rests i s rfl
  generalize onLiquidOpen i (onShutoffOpen i s) = u at *
  have hd : ((onDrained i u).spot i).line.Begun ∨ (onDrained i u = u ∧
      ¬ ((u.spot i).headIs .draining = true ∧ (u.spot i).liquid.isShut = true)) := by
    rcases onDrained_cases i u with h | ⟨h, hh, e⟩
    · exact .inr h
    · rw [e]; exact .inl (onDrained_begun _ hlu hh).1
  obtain ⟨hlv, -⟩ := onDrained_fits (f := true) i u hlu
  rcases onResumed_cases i (onDrained i u) with ⟨e, hr⟩ | ⟨hst, hsus, e⟩
  · rw [e]
    rcases hd with hd | ⟨e', hd⟩
    · exact .of_begun hd
    · rw [e'] at hr ⊢
      exact ⟨hp, ht, hd, hr⟩
  · exact .of_begun (e ▸ resumed_begun hlv hst hsus)

/-! ## Isolation and stroke tests -/

/-- What the arrivals of an isolation make of a spot: they act in ISOLATING alone, keep its queue and its liquid valve, and leave it
ISOLATING or SPOTTED. -/
structure Spot.IsolationMoves (a b : Spot) : Prop where
  orders : b.orders = a.orders
  holds : b.holds = a.holds
  liquid : b.liquid = a.liquid
  before : a.state = .isolating
  after : b.state = .isolating ∨ b.state = .spotted

theorem Spot.AtRest.of_isolation {a b : Spot} (h : a.IsolationMoves b) (ha : a.AtRest) : b.AtRest := by
  obtain ⟨ho, -, hq, hb, hst⟩ := h
  have hh : ∀ st, b.headIs st = a.headIs st := fun st => by simp [Spot.headIs, Spot.head, ho]
  refine ⟨fun c => ?_, fun c => ?_, fun c => ha.drained (by rw [hh, hq] at c; exact c), fun c => ?_⟩ <;>
    rcases hst with e | e <;> rw [e] at c <;> cases c.1

theorem commandSpot_vent (i : SpotNo) (c : Command) (s : State) :
    ∃ v, (commandSpot i .vent c s).spot i = { s.spot i with vent := v } := by
  simp [commandSpot, pursueSpot, Spot.setValve]

theorem onLinesShut_cases (i : SpotNo) (s : State) :
    (onLinesShut i s = s ∧ ¬ ((s.spot i).state = .isolating ∧ (s.spot i).standing = false ∧
      (s.spot i).step = some .linesClosing ∧ (s.spot i).linesShut = true)) ∨
    ((s.spot i).state = .isolating ∧ (s.spot i).linesShut = true ∧
      ∃ v, (onLinesShut i s).spot i = { s.spot i with step := some .ventOpening, vent := v }) := by
  unfold onLinesShut
  simp only
  split
  · rename_i h
    obtain ⟨v, e⟩ := commandSpot_vent i .toOpen (s.modSpot i fun sp => { sp with step := some .ventOpening })
    exact .inr ⟨h.1, h.2.2.2, v, by rw [e, modSpot_spot_same]⟩
  · rename_i h; exact .inl ⟨rfl, h⟩

theorem onVentOpen_cases (i : SpotNo) (s : State) :
    (onVentOpen i s = s ∧ ¬ ((s.spot i).state = .isolating ∧ (s.spot i).standing = false ∧
      (s.spot i).step = some .ventOpening ∧ (s.spot i).vent.isOpen = true)) ∨
    ((s.spot i).state = .isolating ∧ (s.spot i).step = some .ventOpening ∧
      ∃ t, (onVentOpen i s).spot i = { s.spot i with step := some .bleeding, timer := t }) := by
  unfold onVentOpen
  simp only
  split
  · rename_i h
    exact .inr ⟨h.1, h.2.2.1, _, modSpot_spot_same _ _ _⟩
  · rename_i h; exact .inl ⟨rfl, h⟩

theorem onVentShut_cases (i : SpotNo) (s : State) :
    (onVentShut i s = s ∧ ¬ ((s.spot i).state = .isolating ∧ (s.spot i).standing = false ∧
      (s.spot i).step = some .ventClosing ∧ (s.spot i).vent.isShut = true)) ∨
    ((s.spot i).state = .isolating ∧ (s.spot i).step = some .ventClosing ∧
      (onVentShut i s).spot i = { s.spot i with state := .spotted, step := none, standing := false }) := by
  unfold onVentShut
  simp only
  split
  · rename_i h
    refine .inr ⟨h.1, h.2.2.1, ?_⟩
    rw [spot_of_spots (spots_modCarAt _ _ _), modSpot_spot_same]
  · rename_i h; exact .inl ⟨rfl, h⟩

/-- The arrivals of an isolation, all three. -/
theorem isolation_moves (i : SpotNo) (s : State) :
    (onVentShut i (onVentOpen i (onLinesShut i s))).spot i = s.spot i ∨
      (s.spot i).IsolationMoves ((onVentShut i (onVentOpen i (onLinesShut i s))).spot i) := by
  have h1 : (onLinesShut i s).spot i = s.spot i ∨ (s.spot i).IsolationMoves ((onLinesShut i s).spot i) ∧
      ((onLinesShut i s).spot i).state = .isolating := by
    rcases onLinesShut_cases i s with ⟨e, -⟩ | ⟨hst, -, v, e⟩
    · exact .inl (by rw [e])
    · exact .inr (by rw [e]; exact ⟨⟨rfl, rfl, rfl, hst, .inl hst⟩, hst⟩)
  generalize onLinesShut i s = u at *
  have h2 : (onVentOpen i u).spot i = s.spot i ∨ (s.spot i).IsolationMoves ((onVentOpen i u).spot i) ∧
      ((onVentOpen i u).spot i).state = .isolating := by
    rcases onVentOpen_cases i u with ⟨e, -⟩ | ⟨hst, -, t, e⟩
    · rwa [e]
    · rcases h1 with h1 | ⟨h1, -⟩
      · exact .inr (by rw [e, h1]; rw [h1] at hst; exact ⟨⟨rfl, rfl, rfl, hst, .inl hst⟩, hst⟩)
      · exact .inr (by rw [e]; exact ⟨⟨h1.orders, h1.holds, h1.liquid, h1.before, .inl hst⟩, hst⟩)
  generalize onVentOpen i u = w at *
  rcases onVentShut_cases i w with ⟨e, -⟩ | ⟨hst, -, e⟩
  · rw [e]; exact h2.imp_right And.left
  · rw [e]
    rcases h2 with h2 | ⟨h2, -⟩
    · rw [h2] at hst ⊢
      exact .inr ⟨rfl, rfl, rfl, hst, .inr rfl⟩
    · exact .inr ⟨h2.orders, h2.holds, h2.liquid, h2.before, .inr rfl⟩

theorem isolation_done (i : SpotNo) (s : State) :
    ((onVentShut i (onVentOpen i (onLinesShut i s))).spot i).Isolated := by
  have h1 : ¬ (((onLinesShut i s).spot i).state = .isolating ∧ ((onLinesShut i s).spot i).standing = false ∧
      ((onLinesShut i s).spot i).step = some .linesClosing ∧ ((onLinesShut i s).spot i).linesShut = true) := by
    rcases onLinesShut_cases i s with ⟨e, h⟩ | ⟨-, -, v, e⟩ <;> rw [e]
    · exact h
    · exact fun c => by cases c.2.2.1
  generalize onLinesShut i s = u at *
  rcases onVentOpen_cases i u with ⟨e, h2⟩ | ⟨hst, -, t, e⟩
  · rw [e]
    rcases onVentShut_cases i u with ⟨e, h3⟩ | ⟨-, -, e⟩ <;> rw [e]
    · exact ⟨h1, h2, h3⟩
    · exact .of_state (by simp)
  · generalize onVentOpen i u = w at *
    rcases onVentShut_cases i w with ⟨e', -⟩ | ⟨-, -, e'⟩ <;> rw [e']
    · rw [e]
      exact ⟨fun c => (by cases c.2.2.1), fun c => (by cases c.2.2.1), fun c => (by cases c.2.2.1)⟩
    · exact .of_state (by simp)

/-- In ISOLATING with a step past the closing of the lines there is no order (R43). -/
theorem Line.legal.orders_of_step {l : Line} (h : l.legal) (hs : l.state = .isolating) (hp : l.step ≠ some .linesClosing) :
    l.orders = [] := by
  obtain ⟨-, hpl⟩ := h
  unfold Line.placed at hpl
  rw [hs] at hpl
  exact hpl.1 hp

/-- With the lines shut a spot in ISOLATING that owes nothing to a drained head has no order. -/
theorem orders_of_linesShut {sp : Spot} (hl : sp.line.legal) (hs : sp.state = .isolating) (hr : sp.AtRest)
    (hsh : sp.linesShut = true) : sp.orders = [] := by
  obtain ⟨-, hpl⟩ := hl
  unfold Line.placed at hpl
  rw [show sp.line.state = .isolating from hs] at hpl
  rcases hpl.2 with h | ⟨o, ho, hd⟩
  · exact h
  · have hliq : sp.liquid.isShut = true := by
      unfold Spot.linesShut at hsh
      simp only [Bool.and_eq_true] at hsh
      exact hsh.1.1
    exact absurd ⟨headIs_line.mpr ⟨o, by rw [ho]; rfl, hd⟩, hliq⟩ hr.drained

/-- A move of an isolation that leaves a spot without orders. -/
theorem Line.Fits.of_isolation {f : Bool} {a b : Line} (ha : a.state = .isolating) (ho : a.legal → b.orders = [])
    (hb : b.state = .isolating ∨ b.state = .spotted) (hh : b.holds = a.holds) : a.Fits f b := fun hl => by
  refine ⟨Line.legal_of_nil (ho hl) ?_ ?_ ?_, fun h _ => hh.trans (h (by simp [ha])), fun _ hq => by simp [ha, SpotState.quiet] at hq⟩ <;>
    rcases hb with h | h <;> simp [h]

theorem isolation_fits {f : Bool} (i : SpotNo) (s : State) (hr : (s.spot i).AtRest) :
    (s.spot i).line.Fits f ((onVentShut i (onVentOpen i (onLinesShut i s))).spot i).line := by
  have h1 : (s.spot i).line.Fits f ((onLinesShut i s).spot i).line := by
    rcases onLinesShut_cases i s with ⟨e, -⟩ | ⟨hst, hsh, v, e⟩ <;> rw [e]
    · exact .refl _ _
    · exact .of_isolation hst (fun hl => orders_of_linesShut hl hst hr hsh) (.inl hst) rfl
  refine h1.trans ?_
  generalize onLinesShut i s = u at *
  have h2 : (u.spot i).line.Fits f ((onVentOpen i u).spot i).line := by
    rcases onVentOpen_cases i u with ⟨e, -⟩ | ⟨hst, hp, t, e⟩ <;> rw [e]
    · exact .refl _ _
    · exact .of_isolation hst (fun hl => hl.orders_of_step hst (by simp [Spot.line, hp])) (.inl hst) rfl
  refine h2.trans ?_
  generalize onVentOpen i u = w at *
  rcases onVentShut_cases i w with ⟨e, -⟩ | ⟨hst, hp, e⟩ <;> rw [e]
  · exact .refl _ _
  · exact .of_isolation hst (fun hl => hl.orders_of_step hst (by simp [Spot.line, hp])) (.inr rfl) rfl

/-- What the arrivals of a stroke test make of a line: they act in STROKING alone, keep the queue and the holds, and leave the spot
STROKING, SPOTTED or VACANT. -/
structure Line.Strokes (a b : Line) : Prop where
  before : a.state = .stroking
  orders : b.orders = a.orders
  holds : b.holds = a.holds
  after : b.state = .stroking ∨ b.state = .spotted ∨ b.state = .vacant

theorem onStrokeOpen_cases (i : SpotNo) (s : State) :
    onStrokeOpen i s = s ∨ (s.spot i).line.Strokes ((onStrokeOpen i s).spot i).line := by
  unfold onStrokeOpen
  simp only
  split
  · rename_i n hst hp
    split
    · refine .inr ?_
      rw [line_commandSpot, modSpot_spot_same]
      exact ⟨hst, rfl, rfl, .inl hst⟩
    · exact .inl rfl
  · exact .inl rfl

theorem onStrokeShut_cases (i : SpotNo) (s : State) :
    onStrokeShut i s = s ∨ (s.spot i).line.Strokes ((onStrokeShut i s).spot i).line := by
  unfold onStrokeShut
  simp only
  split
  · rename_i n hst hp
    split
    · refine .inr ?_
      split
      · rw [modSpot_spot_same]
        exact ⟨hst, rfl, rfl, .inl hst⟩
      · rw [passStroke_line]
        refine ⟨hst, rfl, rfl, .inr ?_⟩
        split
        · exact .inl rfl
        · exact .inr rfl
    · exact .inl rfl
  · exact .inl rfl

theorem onStrokeTurn_cases (i : SpotNo) (s : State) :
    onStrokeTurn i s = s ∨ (s.spot i).line.Strokes ((onStrokeTurn i s).spot i).line := by
  unfold onStrokeTurn
  simp only
  split
  · rename_i n hst hp
    split
    · refine .inr ?_
      rw [line_commandSpot]
      exact ⟨hst, rfl, rfl, .inl hst⟩
    · exact .inl rfl
  · exact .inl rfl

/-- The arrivals of a stroke test, all three. -/
theorem strokes_cases (i : SpotNo) (s : State) :
    onStrokeTurn i (onStrokeShut i (onStrokeOpen i s)) = s ∨
      (s.spot i).line.Strokes ((onStrokeTurn i (onStrokeShut i (onStrokeOpen i s))).spot i).line := by
  have hopen := onStrokeOpen_cases i s
  have hshut := onStrokeShut_cases i (onStrokeOpen i s)
  have hturn := onStrokeTurn_cases i (onStrokeShut i (onStrokeOpen i s))
  have htrans : ∀ {a b c : Line}, a.Strokes b → b.Strokes c → a.Strokes c := fun h k =>
    ⟨h.before, k.orders.trans h.orders, k.holds.trans h.holds, k.after⟩
  rcases hturn with e | hturn
  · rw [e]
    rcases hshut with e | hshut
    · rw [e]; exact hopen
    · rcases hopen with e | hopen
      · rw [e] at hshut ⊢; exact .inr hshut
      · exact .inr (htrans hopen hshut)
  · rcases hshut with e | hshut
    · rw [e] at hturn ⊢
      rcases hopen with e | hopen
      · rw [e] at hturn ⊢; exact .inr hturn
      · exact .inr (htrans hopen hturn)
    · rcases hopen with e | hopen
      · rw [e] at hturn hshut ⊢; exact .inr (htrans hshut hturn)
      · exact .inr (htrans hopen (htrans hshut hturn))

/-! ## All the work of arrivals -/

theorem advanceSpot_eq (i : SpotNo) (s : State) : advanceSpot i s =
    onStrokeTurn i (onStrokeShut i (onStrokeOpen i (onVentShut i (onVentOpen i (onLinesShut i
      (onResumed i (onDrained i (onLiquidOpen i (onShutoffOpen i s))))))))) := rfl

/-- The work of arrivals keeps the line of its spot legal. -/
theorem advanceSpot_fits {f : Bool} (i : SpotNo) (s : State) :
    (s.spot i).line.Fits f ((advanceSpot i s).spot i).line := fun hl => by
  refine Line.Fits.trans (f := f) (((opened_fits i s).trans (onDrained_fits i _)).trans (onResumed_fits i _)) ?_ hl
  have hr := drained_rests hl
  rw [advanceSpot_eq]
  generalize onResumed i _ = u at *
  refine (isolation_fits i u hr).trans ?_
  generalize onVentShut i _ = w
  rcases strokes_cases i w with e | h
  · rw [e]; exact .refl _ _
  · refine .of_idle (fun hl => h.orders.trans (hl.orders_of_stroking h.before)) ?_
      (fun _ hq => by simp [h.before, SpotState.quiet] at hq) h.holds (by simp [h.before])
    rcases h.after with e | e | e <;> simp [e]

/-- R147: after the work of arrivals the spot owes nothing. -/
theorem advanceSpot_steadies {i : SpotNo} {s : State} (hl : (s.spot i).line.legal) : ((advanceSpot i s).spot i).steady := by
  have hr := drained_rests hl
  obtain ⟨hu, -⟩ := (((opened_fits (f := true) i s).trans (onDrained_fits i _)).trans (onResumed_fits i _)) hl
  rw [advanceSpot_eq]
  generalize onResumed i _ = u at *
  obtain ⟨hw, -⟩ := isolation_fits (f := true) i u hr hu
  have hiso := isolation_done i u
  have hrest : ((onVentShut i (onVentOpen i (onLinesShut i u))).spot i).AtRest := by
    rcases isolation_moves i u with e | h
    · rw [e]; exact hr
    · exact .of_isolation h hr
  generalize onVentShut i _ = w at *
  rcases strokes_cases i w with e | h
  · rw [e]; exact (steady_iff _).mpr ⟨hrest, hiso⟩
  · have hst : ∀ x, ((onStrokeTurn i (onStrokeShut i (onStrokeOpen i w))).spot i).state = x →
        x = .stroking ∨ x = .spotted ∨ x = .vacant := fun x e => by subst e; exact h.after
    refine Spot.steady_of_idle (h.orders.trans (hw.orders_of_stroking h.before)) (fun e => ?_) fun e => ?_ <;>
      simpa using hst _ e

end Sys2Proof.Machine
end

section
/-! PROOFS. What an event makes of all spots at once: queues stay legal, hold sets stay fitting, unfitted spots stay quiet, and a spot
that owed nothing owes nothing (R24, R35, R55, R147). One lemma per shared operation. -/

namespace Sys2Proof.Machine

/-! ## The relation of an event to the spots -/

/-- A legal spot keeps its queue's law, its holds' law, its quiet where it is unfitted, and owes nothing if it owed nothing. -/
structure Spot.Sound (fitted : Bool) (a b : Spot) : Prop where
  fits : a.line.Fits fitted b.line
  steady : a.line.legal → a.steady → b.steady

def State.Fits (fitted : SpotNo → Bool) (s t : State) : Prop := ∀ i, (s.spot i).line.Fits (fitted i) (t.spot i).line

def State.Sound (fitted : SpotNo → Bool) (s t : State) : Prop := ∀ i, (s.spot i).Sound (fitted i) (t.spot i)

section Rules

variable {f : Bool} {a b c : Spot} {F : SpotNo → Bool} {s t u : State} {i : SpotNo}

theorem Spot.Sound.refl (f : Bool) (a : Spot) : a.Sound f a := ⟨.refl _ _, fun _ => id⟩

theorem Spot.Sound.of_eq (h : b = a) : a.Sound f b := h ▸ .refl f a

theorem Spot.Sound.trans (h : a.Sound f b) (k : b.Sound f c) : a.Sound f c :=
  ⟨h.fits.trans k.fits, fun hl hs => k.steady (h.fits hl).1 (h.steady hl hs)⟩

/-- R147: what is followed by the work of arrivals need only keep the line legal. -/
theorem Spot.Sound.advance (h : a.line.Fits f (t.spot i).line) : a.Sound f ((advanceSpot i t).spot i) :=
  ⟨h.trans (advanceSpot_fits i t), fun hl _ => advanceSpot_steadies (h hl).1⟩

/-- A spot without orders, outside PROVING and ISOLATING, owes nothing. -/
theorem Spot.Sound.of_idle (h : a.line.Fits f b.line) (ho : a.line.legal → b.orders = []) (h1 : b.state ≠ .proving)
    (h2 : b.state ≠ .isolating) : a.Sound f b := ⟨h, fun hl _ => Spot.steady_of_idle (ho hl) h1 h2⟩

theorem State.Fits.refl (F : SpotNo → Bool) (s : State) : s.Fits F s := fun _ => .refl _ _

theorem State.Fits.trans (h : s.Fits F t) (k : t.Fits F u) : s.Fits F u := fun i => (h i).trans (k i)

theorem State.Fits.of_line (h : ∀ i, (t.spot i).line = (s.spot i).line) : s.Fits F t := fun i => .of_eq (h i)

theorem State.Fits.at (hoff : ∀ j, j ≠ i → t.spot j = s.spot j) (h : (s.spot i).line.Fits (F i) (t.spot i).line) :
    s.Fits F t := fun j => by
  by_cases e : j = i
  · subst e; exact h
  · rw [hoff j e]; exact .refl _ _

theorem State.Sound.refl (F : SpotNo → Bool) (s : State) : s.Sound F s := fun _ => .refl _ _

theorem State.Sound.of_spot (h : ∀ i, t.spot i = s.spot i) : s.Sound F t := fun i => .of_eq (h i)

theorem State.Sound.of_spots (h : t.spots = s.spots) : s.Sound F t := .of_spot (spot_of_spots h)

theorem State.Sound.trans (h : s.Sound F t) (k : t.Sound F u) : s.Sound F u := fun i => (h i).trans (k i)

/-- An event may begin with a change that leaves the spots. -/
theorem State.Sound.after (k : t.Sound F u) (h : t.spots = s.spots) : s.Sound F u := (State.Sound.of_spots h).trans k

theorem State.Sound.fits (h : s.Sound F t) : s.Fits F t := fun i => (h i).fits

theorem State.Sound.at (hoff : ∀ j, j ≠ i → t.spot j = s.spot j) (h : (s.spot i).Sound (F i) (t.spot i)) :
    s.Sound F t := fun j => by
  by_cases e : j = i
  · subst e; exact h
  · exact .of_eq (hoff j e)

theorem State.Sound.modSpot {g : Spot → Spot} (h : (s.spot i).Sound (F i) (g (s.spot i))) : s.Sound F (s.modSpot i g) :=
  .at (fun j e => off_modSpot e g s) (by rw [modSpot_spot_same]; exact h)

/-- The work of arrivals at one spot after something that reached this spot alone. -/
theorem State.Sound.advance (hoff : ∀ j, j ≠ i → t.spot j = s.spot j) (h : (s.spot i).line.Fits (F i) (t.spot i).line) :
    s.Sound F (advanceSpot i t) :=
  .at (fun j e => (off_advanceSpot e t).trans (hoff j e)) (.advance h)

theorem State.Sound.foldl {α : Type} {g : State → α → State} (h : ∀ (s : State) x, s.Sound F (g s x)) (l : List α) (s : State) :
    s.Sound F (l.foldl g s) := by
  induction l generalizing s with
  | nil => exact .refl F s
  | cons x l ih => exact (h s x).trans (ih _)

theorem State.Fits.foldl {α : Type} {g : State → α → State} (h : ∀ (s : State) x, s.Fits F (g s x)) (l : List α) (s : State) :
    s.Fits F (l.foldl g s) := by
  induction l generalizing s with
  | nil => exact .refl F s
  | cons x l ih => exact (h s x).trans (ih _)

theorem State.Sound.eachSpot {g : SpotNo → State → State} (h : ∀ i (s : State), s.Sound F (g i s)) (s : State) :
    s.Sound F (eachSpot g s) := .foldl (fun s i => h i s) _ s

theorem State.Sound.eachFittedSpot {g : SpotNo → State → State} (h : ∀ i (s : State), s.Sound F (g i s)) (s : State) :
    s.Sound F (eachFittedSpot g s) := by
  refine .eachSpot (fun i s => ?_) s
  split
  · exact h i s
  · exact .refl F s

theorem State.Fits.eachFittedSpot {g : SpotNo → State → State} (h : ∀ i (s : State), s.Fits F (g i s)) (s : State) :
    s.Fits F (eachFittedSpot g s) := by
  refine .foldl (fun s i => ?_) _ s
  simp only
  split
  · exact h i s
  · exact .refl F s

theorem State.Sound.eachComp {g : CompNo → State → State} (h : ∀ c (s : State), s.Sound F (g c s)) (s : State) :
    s.Sound F (eachComp g s) := .foldl (fun s c => h c s) _ s

theorem State.Sound.eachFittedComp {g : CompNo → State → State} (h : ∀ c (s : State), s.Sound F (g c s)) (s : State) :
    s.Sound F (eachFittedComp g s) := by
  refine .eachComp (fun c s => ?_) s
  split
  · exact h c s
  · exact .refl F s

end Rules

/-- Work that reaches one spot at a time, done at every spot: each spot sees its own work, once. -/
theorem eachSpot_spot {g : SpotNo → State → State} (hg : ∀ i j s, j ≠ i → (g i s).spot j = s.spot j) (s : State)
    (j : SpotNo) : ∃ u, u.spot j = s.spot j ∧ (eachSpot g s).spot j = (g j u).spot j := by
  have hoff : ∀ (l : List SpotNo) (s : State), j ∉ l → (l.foldl (fun s i => g i s) s).spot j = s.spot j := by
    intro l
    induction l with
    | nil => exact fun _ _ => rfl
    | cons i l ih =>
      intro s hj
      rw [List.mem_cons, not_or] at hj
      obtain ⟨h1, h2⟩ := hj
      rw [List.foldl_cons, ih _ h2, hg i j s h1]
  obtain ⟨l, r, e⟩ := List.append_of_mem (List.mem_finRange j)
  have hnd : (l ++ j :: r).Nodup := e ▸ List.nodup_finRange 8
  have hl : j ∉ l := fun h => List.nodup_append.mp hnd |>.2.2 j h j List.mem_cons_self rfl
  have hr : j ∉ r := (List.nodup_cons.mp (List.nodup_append.mp hnd).2.1).1
  refine ⟨l.foldl (fun s i => g i s) s, hoff l s hl, ?_⟩
  have hall : allSpots = l ++ j :: r := e
  unfold eachSpot
  rw [hall, List.foldl_append, List.foldl_cons, hoff r _ hr]

/-- The work of arrivals at every spot, after work there that keeps lines legal. -/
theorem sound_eachAdvance {F : SpotNo → Bool} {g : SpotNo → State → State} {s t : State} (hst : s.Fits F t)
    (hoff : ∀ i j u, j ≠ i → (g i u).spot j = u.spot j)
    (hg : ∀ i u, u.spot i = t.spot i → (t.spot i).line.Fits (F i) ((g i u).spot i).line) :
    s.Sound F (eachSpot (fun i u => advanceSpot i (g i u)) t) := fun j => by
  obtain ⟨u, hu, e⟩ := eachSpot_spot (g := fun i u => advanceSpot i (g i u))
    (fun i k u h => (off_advanceSpot h _).trans (hoff i k u h)) t j
  rw [e]
  exact .advance ((hst j).trans (hg j u hu))

/-! ## The arbiter (R65, R127) -/

theorem commandSpot_liquid (i : SpotNo) (c : Command) (s : State) :
    ∃ v, (commandSpot i .liquid c s).spot i = { s.spot i with liquid := v } ∧
      ((s.spot i).liquid.isShut = true → v.isOpen = false) := by
  refine ⟨_, by simp [commandSpot, pursueSpot, Spot.setValve]; rfl, fun h => ?_⟩
  have hs : (s.spot i).liquid.state = some .shut := by simpa [Valve.isShut] using h
  simp only [Spot.valve, Valve.pursue, hs]
  repeat' split
  all_goals simp_all [Valve.isOpen]

theorem commandSpot_vapour (i : SpotNo) (c : Command) (s : State) :
    ∃ v, (commandSpot i .vapour c s).spot i = { s.spot i with vapour := v } := by
  simp [commandSpot, pursueSpot, Spot.setValve]

/-- A ready head waits in STAGED, at a liquid valve that stands SHUT (R65). -/
theorem headReady_facts {s : State} {i : SpotNo} (h : s.headReady i = true) :
    ∃ o, (s.spot i).state = .staged ∧ (s.spot i).head = some o ∧ o.state = .waiting ∧ (s.spot i).liquid.isShut = true := by
  unfold State.headReady at h
  simp only at h
  split at h
  · rename_i hs hh _
    simp only [Bool.and_eq_true, beq_iff_eq] at h
    exact ⟨_, hs, hh, h.1.1.1.1.1, h.1.2⟩
  · cases h

/-- The line of a STAGED spot whose WAITING head runs (R65). -/
theorem Line.Fits.run {f : Bool} {a b : Line} {o : Order} (hst : a.state = .staged) (ho : a.orders.head? = some o)
    (hw : o.state = .waiting) (hb : b.state = .transfer ∨ b.state = .recovery) (hh : b.holds = a.holds)
    (hq : b.orders = a.orders.modifyHead fun o => { o with state := .running }) : a.Fits f b := by
  refine .of_busy (by simp [hst, SpotState.quiet]) (fun hl => ?_) fun h _ => hh.trans (h (by simp [hst]))
  refine Line.legal_of_queue (hq ▸ hl.1.modifyHead (fun _ => rfl) fun p hp hr hne => ?_) (fun _ hc => ?_)
    (by rcases hb with h | h <;> simp [h])
  · cases ho.symm.trans hp
    rw [hw] at hr
    exact absurd (hr hne) (by simp)
  · cases e : a.orders with
    | nil => simp [e] at ho
    | cons p q => simp [hq, e] at hc

theorem Spot.steady_of_running {sp : Spot} {o : Order} (hh : sp.head = some o) (ho : o.state = .running)
    (hst : sp.state = .recovery ∨ (sp.state = .transfer ∧ sp.liquid.isOpen = false)) : sp.steady := by
  have hd : sp.headIs .draining = false := by simp [Spot.headIs, hh, ho]
  have hst' : sp.state ≠ .proving ∧ sp.state ≠ .staged ∧ sp.state ≠ .isolating := by
    rcases hst with h | ⟨h, -⟩ <;> simp [h]
  refine (steady_iff sp).mpr ⟨⟨fun c => hst'.1 c.1, fun ⟨ht, _, hopen, _⟩ => ?_, fun c => by simp [hd] at c,
    fun c => hst'.2.1 c.1⟩, .of_state hst'.2.2⟩
  rcases hst with h | ⟨-, h⟩
  · rw [h] at ht; cases ht
  · rw [h] at hopen; cases hopen

theorem runHead_sound {F : SpotNo → Bool} {s : State} {i : SpotNo} (h : s.headReady i = true) :
    s.Sound F (runHead i s) := by
  refine .at (fun j e => off_runHead e s) ?_
  obtain ⟨o, hst, hh, hw, hshut⟩ := headReady_facts h
  unfold runHead
  simp only
  rw [hh]
  simp only
  have hhead : ∀ sp : Spot, sp.orders = (s.spot i).orders.modifyHead (fun o => { o with state := .running }) →
      sp.head = some { o with state := .running } := fun sp e => by
    unfold Spot.head at hh ⊢
    rw [e]
    cases e' : (s.spot i).orders with
    | nil => simp [e'] at hh
    | cons p q => simp [e'] at hh; simp [hh]
  split
  · generalize hm : (s.touchSpot i).modSpot i _ = m
    have em : m.spot i = { s.spot i with
        orders := (s.spot i).orders.modifyHead fun o => { o with state := .running }
        state := .transfer, stall := .stopped, window := .seconds (s.spot i).active.window, windowCount := 0 } := by
      rw [← hm, modSpot_spot_same, touchSpot_spot, Spot.modHead_eq]
    obtain ⟨v, e1, hv⟩ := commandSpot_liquid i .toOpen m
    obtain ⟨w, e2⟩ := commandSpot_vapour i .toOpen (commandSpot i .liquid .toOpen m)
    rw [em] at e1 hv
    rw [e2, e1]
    exact ⟨.run hst hh hw (.inl rfl) rfl rfl,
      fun _ _ => Spot.steady_of_running (hhead _ rfl) rfl (.inr ⟨rfl, hv hshut⟩)⟩
  · split
    · exact .advance (endHead_fits _ _ _)
    · generalize hm : (s.touchSpot i).modSpot i _ = m
      have em : m.spot i = { s.spot i with
          orders := (s.spot i).orders.modifyHead fun o => { o with state := .running }
          state := .recovery, recoveryTimer := .seconds (s.spot i).active.recovery } := by
        rw [← hm, modSpot_spot_same, touchSpot_spot, Spot.modHead_eq]
      obtain ⟨w, e2⟩ := commandSpot_vapour i .toOpen m
      rw [e2, em]
      exact ⟨.run hst hh hw (.inr rfl) rfl rfl, fun _ _ => Spot.steady_of_running (hhead _ rfl) rfl (.inl rfl)⟩

theorem due_run_ready {s : State} {i : SpotNo} (h : s.due = some (.run i)) : s.headReady i = true := by
  unfold State.due at h
  split at h
  · rename_i k hk
    simp only [Option.some.injEq, Due.run.injEq] at h
    subst h
    exact List.find?_some hk
  · repeat' split at h
    all_goals simp at h

theorem performDue_sound {F : SpotNo → Bool} {s : State} {d : Due} (h : s.due = some d) : s.Sound F (performDue d s) := by
  cases d with
  | run i => exact runHead_sound (due_run_ready h)
  | join => exact .of_spots rfl
  | seat g c =>
    refine State.Sound.trans (t := s.modSpot g.spot fun sp => { sp with seat := some c })
      (.modSpot ⟨.refl _ _, fun _ h => h⟩) (.of_spots (spots_grantSeat c g s))
  | turn i c => exact .of_spots (spots_markTurning i c s)

theorem settle_sound {F : SpotNo → Bool} (s : State) : s.Sound F (settle s) := by
  suffices h : ∀ n s, State.Sound F s (settleFor n s) from h _ s
  intro n
  induction n with
  | zero => exact fun s => .refl F s
  | succ n ih =>
    intro s
    unfold settleFor
    split
    · exact .refl F s
    · rename_i d hd
      exact (performDue_sound hd).trans (ih _)

theorem State.Sound.settle {F : SpotNo → Bool} {s t : State} (h : s.Sound F t) : s.Sound F (settle t) :=
  h.trans (settle_sound t)

/-! ## Holds and compressors -/

section Operations

variable {F : SpotNo → Bool}

theorem holdSpot_sound (i : SpotNo) (r : HoldReason) (s : State) : s.Sound F (holdSpot i r s) :=
  .advance (fun _ e => off_addHold e r s) (addHold_fits i r s)

theorem removeHold_sound (i : SpotNo) (r : HoldReason) (s : State) : s.Sound F (removeHold i r s) :=
  .at (fun _ e => off_modSpot e _ s) ⟨removeHold_fits i r s, fun _ h => by
    unfold removeHold; rw [modSpot_spot_same]; exact h⟩

theorem faultComp_sound (x : CompFault) (c : CompNo) (s : State) : s.Sound F (faultComp x c s) := by
  unfold faultComp
  simp only
  split
  · exact .refl F s
  · have h : ∀ u : State, u.spots = s.spots → s.Sound F ((s.comp c).seated.foldl (fun s i =>
        holdSpot i .compressor ((s.touchSpot i).modSpot i fun sp => { sp with seat := none })) u) := fun u hs =>
      (State.Sound.of_spots hs).trans
        (.foldl (fun s i => State.Sound.trans (t := (s.touchSpot i).modSpot i fun sp => { sp with seat := none })
          (State.Sound.modSpot (s := s.touchSpot i) ⟨.refl _ _, fun _ h => h⟩) (holdSpot_sound _ _ _)) _ u)
    by_cases hp : (s.comp c).state = .proof
    · rw [if_pos hp, if_pos hp]
      refine State.Sound.trans (h _ ?_) (.of_spots (spots_endCompTest c _))
      rfl
    · rw [if_neg hp, if_neg hp]
      refine h _ ?_
      rfl

theorem haltComp_sound (k : Bool) (c : CompNo) (s : State) : s.Sound F (haltComp k c s) := by
  have hseat : s.Sound F (eachSpot (fun i s => s.modSpot i fun sp =>
      if sp.seat = some c then { sp with seat := none } else sp) s) := by
    refine .eachSpot (fun i s => .modSpot ?_) s
    split
    · exact ⟨.refl _ _, fun _ h => h⟩
    · exact .refl _ _
  unfold haltComp
  simp only
  refine hseat.trans (.of_spots ?_)
  repeat' split
  all_goals simp

end Operations

end Sys2Proof.Machine
end

section
/-! PROOFS. The cut rule on the queues (R95 to R97). Between the litres it takes and the ends it decides a queue may hold orders that
are cut; the sweep ends them. -/

namespace Sys2Proof.Machine

/-- What a cut makes of an order: its tag and its state stay, and its reason is CUT where it does not drain (R96). -/
structure Order.CutTo (o p : Order) : Prop where
  tag : p.tag = o.tag
  state : p.state = o.state
  reason : p.reason = o.reason ∨ p.isCut = true

/-- A queue that the cut rule has reached. -/
structure QueueCut (q : List Order) : Prop where
  tags : (q.map Order.tag).Nodup
  reasons : ∀ o ∈ q, o.reason ≠ none → o.state = .draining ∨ o.isCut = true
  behind : ∀ o ∈ q.tail, o.state = .queued

def Line.CutLegal (l : Line) : Prop := QueueCut l.orders ∧ l.placed

theorem Order.CutTo.refl (o : Order) : o.CutTo o := ⟨rfl, rfl, .inl rfl⟩

theorem isCut_iff {o : Order} : o.isCut = true ↔ o.reason = some .cut ∧ o.state ≠ .draining := by
  simp [Order.isCut]

theorem Order.CutTo.trans {o p r : Order} (h : o.CutTo p) (k : p.CutTo r) : o.CutTo r := by
  refine ⟨k.tag.trans h.tag, k.state.trans h.state, ?_⟩
  rcases k.reason with e | hc
  · rcases h.reason with e' | hc'
    · exact .inl (e.trans e')
    · rw [isCut_iff] at hc' ⊢
      exact .inr ⟨e.trans hc'.1, k.state ▸ hc'.2⟩
  · exact .inr hc

theorem Order.cutTo_cutBy (t n : Nat) (o : Order) : o.CutTo (o.cutBy t n) := by
  unfold Order.cutBy
  split
  · exact .refl o
  · refine ⟨rfl, rfl, ?_⟩
    by_cases h : n = 0 ∧ o.state ≠ .draining
    · exact .inr (by simp [Order.isCut, h])
    · exact .inl (if_neg h)

section Queues

variable {p q r : List Order}

theorem cutTo_trans (h : List.Forall₂ Order.CutTo p q) (k : List.Forall₂ Order.CutTo q r) :
    List.Forall₂ Order.CutTo p r := by
  induction h generalizing r with
  | nil => cases k; exact .nil
  | cons h _ ih => cases k with | cons k hr => exact .cons (h.trans k) (ih hr)

theorem cutTo_tags (h : List.Forall₂ Order.CutTo p q) : q.map Order.tag = p.map Order.tag := by
  induction h with
  | nil => rfl
  | cons h _ ih => rw [List.map_cons, List.map_cons, h.tag, ih]

theorem cutTo_mem (h : List.Forall₂ Order.CutTo p q) : ∀ b ∈ q, ∃ a ∈ p, a.CutTo b := by
  induction h with
  | nil => simp
  | cons h _ ih =>
    intro b hb
    rcases List.mem_cons.mp hb with rfl | hb
    · exact ⟨_, List.mem_cons_self, h⟩
    · obtain ⟨o, ho, hc⟩ := ih b hb
      exact ⟨o, List.mem_cons_of_mem _ ho, hc⟩

theorem cutTo_tail (h : List.Forall₂ Order.CutTo p q) : List.Forall₂ Order.CutTo p.tail q.tail := by
  cases h with
  | nil => exact .nil
  | cons _ h => exact h

/-- A cut leaves a formed queue one that the sweep can take up. -/
theorem cutTo_queue (h : List.Forall₂ Order.CutTo p q) (hp : QueueFormed p) : QueueCut q := by
  refine ⟨cutTo_tags h ▸ hp.tags, fun b hb hne => ?_, fun b hb => ?_⟩
  · obtain ⟨a, ha, hc⟩ := cutTo_mem h b hb
    rcases hc.reason with e | e
    · exact .inl (hc.state.trans (hp.reasons a ha (e ▸ hne)))
    · exact .inr e
  · obtain ⟨a, ha, hc⟩ := cutTo_mem (cutTo_tail h) b hb
    exact hc.state.trans (hp.behind a ha)

theorem cutTo_placed {st : SpotState} {x : Option SpotStep} {y : HoldSet} (h : List.Forall₂ Order.CutTo p q)
    (hp : Line.placed { state := st, step := x, holds := y, orders := p }) :
    Line.placed { state := st, step := x, holds := y, orders := q } := by
  cases h with
  | nil => exact hp
  | cons h hq =>
    unfold Line.placed at *
    revert hp
    cases st <;> simp
    rintro h1 rfl hd
    cases hq
    exact ⟨h1, rfl, h.state.trans hd⟩

end Queues

/-- The spots between the litres a cut takes and the ends it decides. -/
def Spot.CutTo (a b : Spot) : Prop := ∃ q, b = { a with orders := q } ∧ List.Forall₂ Order.CutTo a.orders q

theorem Spot.CutTo.refl (a : Spot) : a.CutTo a := ⟨a.orders, rfl, List.forall₂_same.mpr fun o _ => .refl o⟩

theorem Spot.CutTo.trans {a b c : Spot} (h : a.CutTo b) (k : b.CutTo c) : a.CutTo c := by
  obtain ⟨q, rfl, hq⟩ := h
  obtain ⟨r, rfl, hr⟩ := k
  exact ⟨r, rfl, cutTo_trans hq hr⟩

theorem Spot.cutTo_modOrder (tag : Word16) (t n : Nat) (a : Spot) : a.CutTo (a.modOrder tag (Order.cutBy t n)) := by
  refine ⟨_, rfl, ?_⟩
  rw [List.forall₂_map_right_iff]
  refine List.forall₂_same.mpr fun o _ => ?_
  split
  · exact o.cutTo_cutBy t n
  · exact .refl o

theorem applyCuts_spot (v : VesselNo) (s : State) (j : SpotNo) : (s.spot j).CutTo ((applyCuts v s).spot j) := by
  unfold applyCuts
  generalize List.filter _ _ = l
  suffices h : ∀ (l : List CutEntry) (u : State), (u.spot j).CutTo ((l.foldl (fun s t =>
      s.modSpot t.entry.spot (Spot.modOrder t.entry.tag (Order.cutBy t.taken t.entry.remainder))) u).spot j) from
    h l (s.modVessel v Vessel.afterCuts)
  intro l
  induction l with
  | nil => exact fun u => .refl _
  | cons t l ih =>
    intro u
    refine Spot.CutTo.trans ?_ (ih _)
    rw [modSpot_spot]
    split
    · exact Spot.cutTo_modOrder _ _ _ _
    · exact .refl _

/-- The litres a cut takes leave a legal line one that the sweep can take up. -/
theorem Spot.CutTo.legal {a b : Spot} (h : a.CutTo b) (hl : a.line.legal) : b.line.CutLegal := by
  obtain ⟨q, rfl, hq⟩ := h
  exact ⟨cutTo_queue hq hl.1, cutTo_placed hq hl.2⟩

/-! ## The sweep -/

/-- The orders of a queue that are not cut. -/
theorem filter_cut_tags {q : List Order} (h : (q.map Order.tag).Nodup) :
    (q.filter fun p => (q.filter Order.isCut).all fun o => decide (p.tag ≠ o.tag)) = q.filter fun p => !p.isCut := by
  refine List.filter_congr fun p hp => ?_
  cases hc : p.isCut with
  | true =>
    simp only [Bool.not_true, List.all_eq_false]
    exact ⟨p, List.mem_filter.mpr ⟨hp, hc⟩, by simp⟩
  | false =>
    simp only [Bool.not_false, List.all_eq_true, decide_eq_true_eq]
    intro o ho e
    obtain ⟨hm, ho⟩ := List.mem_filter.mp ho
    have := List.inj_on_of_nodup_map h hp hm e
    rw [this, ho] at hc; cases hc

theorem QueueCut.kept {h : Order} {q : List Order} (hq : QueueCut (h :: q)) : QueueWaits (q.filter fun p => !p.isCut) := by
  refine ⟨(List.nodup_cons.mp hq.tags).2.sublist (List.filter_sublist.map _), fun o ho => ?_⟩
  obtain ⟨hm, hc⟩ := List.mem_filter.mp ho
  have hst := hq.behind o hm
  refine ⟨hst, ?_⟩
  by_contra hr
  rcases hq.reasons o (List.mem_cons_of_mem _ hm) hr with e | e
  · rw [hst] at e; cases e
  · simp [e] at hc

/-- The orders whose ends a cut has decided leave a spot. -/
theorem leaveCut_line (i : SpotNo) (s : State) (h : ((s.spot i).line.orders.map Order.tag).Nodup) :
    ((((s.spot i).orders.filter Order.isCut).foldl (fun s o => depart i o s) s).spot i).line =
      { (s.spot i).line with orders := (s.spot i).line.orders.filter fun p => !p.isCut } := by
  have e := departs_spot i (fun o => o) (fun _ => rfl) ((s.spot i).orders.filter Order.isCut) s
  simp only at e
  rw [e]
  exact congrArg (fun q => { (s.spot i).line with orders := q }) (filter_cut_tags h)

/-- R96, R97: the sweep leaves the line legal. -/
theorem sweepCut_line {i : SpotNo} {s : State} (h : (s.spot i).line.CutLegal) :
    ((sweepCut i s).spot i).line.legal ∧
      ((s.spot i).line.holdsLegal → ((sweepCut i s).spot i).line.holdsLegal) ∧
      ((s.spot i).state.quiet = true → ((sweepCut i s).spot i).state.quiet = true) := by
  obtain ⟨hq, hp⟩ := h
  unfold sweepCut
  split
  · rename_i hh
    have ho : (s.spot i).line.orders = [] := by
      cases e : (s.spot i).orders with
      | nil => exact e
      | cons p q => simp [Spot.head, e] at hh
    exact ⟨⟨ho ▸ .nil, hp⟩, id, id⟩
  · rename_i o hh
    obtain ⟨rest, ho⟩ : ∃ rest, (s.spot i).line.orders = o :: rest := by
      cases e : (s.spot i).orders with
      | nil => simp [Spot.head, e] at hh
      | cons p q => simp [Spot.head, e] at hh; exact ⟨q, by simp [Spot.line, e, hh]⟩
    have hbusy : ¬ (s.spot i).state.quiet = true := fun hquiet => by
      unfold Line.placed at hp
      rw [show (s.spot i).line.state = (s.spot i).state from rfl, ho] at hp
      revert hp hquiet
      cases (s.spot i).state <;> simp [SpotState.quiet]
    have hkept : QueueWaits (rest.filter fun p => !p.isCut) := QueueCut.kept (ho ▸ hq)
    simp only
    by_cases hcut : o.isCut = true
    · have hnotDraining := (isCut_iff.mp hcut).2
      have hst : (s.spot i).line.state = .staged ∨ (s.spot i).line.state = .transfer ∨ (s.spot i).line.state = .recovery ∨
          (s.spot i).line.state = .held := by
        unfold Line.placed at hp
        rw [ho] at hp
        revert hp
        cases (s.spot i).line.state <;> simp
        rintro - - hd
        exact hnotDraining hd
      rw [if_pos hcut]
      split
      · have hd : ((drainHead i .cut s).spot i).line = { (s.spot i).line with
            orders := { o with state := .draining, reason := some .cut } :: rest } := by
          rw [drainHead_line, ho]; rfl
        have hnd : (((drainHead i .cut s).spot i).line.orders.map Order.tag).Nodup := by
          rw [hd]; exact (ho ▸ hq.tags : ((o :: rest).map Order.tag).Nodup)
        rw [leaveCut_line i _ hnd, hd]
        refine ⟨Line.legal_of_queue ?_ (fun _ => by simp [Order.isCut]) hst, fun h => h, fun h => absurd h hbusy⟩
        simp only [Order.isCut, List.filter_cons]
        refine hkept.cons (fun hc => ?_) fun _ => rfl
        exact (List.nodup_cons.mp (ho ▸ hq.tags : ((o :: rest).map Order.tag).Nodup)).1
          ((List.filter_sublist.map _).subset hc)
      · split
        · obtain ⟨h1, h2⟩ := enterIsolating_legal .cut .stopped none i s
          exact ⟨h1, fun _ => h2, fun h => absurd h hbusy⟩
        · have hlc : ((leaveCompressors i s).spot i).line = (s.spot i).line := by simp
          have hline := leaveCut_line i (leaveCompressors i s) (by rw [hlc]; exact hq.tags)
          rw [hlc, ho, List.filter_cons_of_neg (by simp [hcut])] at hline
          generalize List.foldl _ (leaveCompressors i s) _ = u at *
          have hb : (u.spot i).line.Bereft := by
            rw [hline]
            exact ⟨hkept, by tauto⟩
          obtain ⟨h1, h2⟩ := nextHead_begun i u hb
          refine ⟨h1.legal, fun h => h2 ?_, fun h => absurd h hbusy⟩
          rw [hline]; exact h
    · have hline := leaveCut_line i s hq.tags
      rw [ho, List.filter_cons_of_pos (by simp [hcut])] at hline
      rw [if_neg hcut, hline]
      refine ⟨⟨hkept.cons (fun hc => ?_) fun hne => ?_, ?_⟩, fun h => h, fun h => absurd h hbusy⟩
      · exact (List.nodup_cons.mp (ho ▸ hq.tags : ((o :: rest).map Order.tag).Nodup)).1
          ((List.filter_sublist.map _).subset hc)
      · exact (hq.reasons o (ho ▸ List.mem_cons_self) hne).resolve_right hcut
      · unfold Line.placed at hp ⊢
        rw [ho] at hp
        revert hp
        cases (s.spot i).line.state <;> simp
        rintro h1 rfl hd
        exact ⟨h1, by simp, hd⟩

theorem off_sweepCut {i j : SpotNo} (h : j ≠ i) (s : State) : (sweepCut i s).spot j = s.spot j := by
  have hl : ∀ (l : List Order) (u : State), (l.foldl (fun s o => depart i o s) u).spot j = u.spot j :=
    off_departs h fun o => o
  unfold sweepCut
  simp only
  repeat' split
  all_goals simp only [hl, off_drainHead h, off_enterIsolating h, off_nextHead h, off_leaveCompressors h]

/-- R95 to R97: the cut rule, whole. -/
theorem runCut_sound {F : SpotNo → Bool} (v : VesselNo) (s : State) : s.Sound F (runCut v s) := by
  unfold runCut
  split
  · exact .refl F s
  · intro j
    obtain ⟨u, hu, e⟩ := eachSpot_spot (g := fun i s => advanceSpot i (sweepCut i s))
      (fun i k u h => (off_advanceSpot h _).trans (off_sweepCut h u)) (applyCuts v s) j
    rw [e]
    refine .advance fun hl => ?_
    have hcut := applyCuts_spot v s j
    have hsweep := sweepCut_line (s := u) (i := j) (hu ▸ hcut.legal hl)
    obtain ⟨q, hq, -⟩ := hcut
    obtain ⟨h1, h2, h3⟩ := hsweep
    rw [hu, hq] at h2 h3
    exact ⟨h1, h2, fun _ => h3⟩

end Sys2Proof.Machine
end

section
/-! PROOFS. Every event on the spots: protection, metering, field inputs and expiries. -/

namespace Sys2Proof.Machine

section Events

variable {F : SpotNo → Bool}

/-! ## Work at one spot before its arrivals -/

/-- Sound but for one spot, which need only keep its line legal: the work of arrivals there makes it sound (R147). -/
structure State.SoundBut (i : SpotNo) (F : SpotNo → Bool) (s t : State) : Prop where
  others : ∀ j, j ≠ i → (s.spot j).Sound (F j) (t.spot j)
  here : (s.spot i).line.Fits (F i) (t.spot i).line

theorem State.SoundBut.of_sound {i : SpotNo} {s t : State} (h : s.Sound F t) : s.SoundBut i F t :=
  ⟨fun j _ => h j, (h i).fits⟩

theorem State.SoundBut.of_fits {i : SpotNo} {s t : State} (hoff : ∀ j, j ≠ i → t.spot j = s.spot j)
    (h : (s.spot i).line.Fits (F i) (t.spot i).line) : s.SoundBut i F t := ⟨fun j e => .of_eq (hoff j e), h⟩

theorem State.SoundBut.refl (i : SpotNo) (s : State) : s.SoundBut i F s := .of_sound (.refl F s)

theorem State.SoundBut.trans {i : SpotNo} {s t u : State} (h : s.SoundBut i F t) (k : t.SoundBut i F u) :
    s.SoundBut i F u := ⟨fun j e => (h.others j e).trans (k.others j e), h.here.trans k.here⟩

theorem State.SoundBut.advance {i : SpotNo} {s t : State} (h : s.SoundBut i F t) : s.Sound F (advanceSpot i t) := fun j => by
  by_cases e : j = i
  · subst e; exact .advance h.here
  · exact (h.others j e).trans (.of_eq (off_advanceSpot e t))

theorem State.SoundBut.modSpot {i : SpotNo} {s : State} {g : Spot → Spot}
    (h : (s.spot i).line.Fits (F i) (g (s.spot i)).line) : s.SoundBut i F (s.modSpot i g) :=
  .of_fits (fun _ e => off_modSpot e g s) (by rw [modSpot_spot_same]; exact h)

theorem State.Sound.of_event {f : State → State} {s : State} (h : (clearScratch s).Sound F (f (clearScratch s))) :
    s.Sound F (event f s) := fun i => by
  unfold event
  rw [closeEvent_spot]
  exact h i

/-! ## Protection (R156 to R164) -/

theorem failProving_fits {f : Bool} (x : SpotFault) {i : SpotNo} {s : State} (h : (s.spot i).state = .proving) :
    (s.spot i).line.Fits f ((failProving x i s).spot i).line :=
  enterIsolating_fits _ _ _ _ _ fun _ => by rw [h]; rfl

theorem spotLosesEnable_fits {f : Bool} (i : SpotNo) (s : State) :
    (s.spot i).line.Fits f ((spotLosesEnable i s).spot i).line := by
  unfold spotLosesEnable
  split
  case h_6 h => exact failProving_fits _ h
  case h_7 h =>
    rw [line_shutAll]
    exact .of_eq (line_modSpot _ _ _ _ (by intros; rfl))
  case h_8 h => exact failStroke_fits _ _ _ _ h
  case h_9 | h_10 | h_11 => exact .refl _ _
  all_goals exact addHold_fits _ _ _

theorem off_spotLosesEnable {i j : SpotNo} (h : j ≠ i) (s : State) : (spotLosesEnable i s).spot j = s.spot j := by
  unfold spotLosesEnable
  split <;> simp only [off_addHold h, off_failProving h, off_shutAll h, off_modSpot h, off_failStroke h]

theorem pursued_sound {s t : State} (h : s.Fits F t) :
    s.Sound F (eachSpot (fun i s => advanceSpot i (pursueSpotAll i s)) t) :=
  sound_eachAdvance h (fun _ _ _ e => off_pursueSpotAll e _) fun i u e => by
    rw [line_pursueSpotAll, e]; exact .refl _ _

theorem endCommissioning_spots (s : State) : (endCommissioning s).spots = s.spots := by
  unfold endCommissioning; split <;> rfl

theorem compLosesEnable_sound (c : CompNo) (s : State) : s.Sound F (compLosesEnable c s) := by
  unfold compLosesEnable
  split
  · exact .refl F s
  · exact haltComp_sound _ _ _

theorem enableOff_sound (s : State) : s.Sound F (enableOff s) := by
  unfold enableOff
  simp only
  generalize hu : endCommissioning _ = u
  have hs : u.spots = s.spots := by rw [← hu, endCommissioning_spots]
  have hf : u.Fits F (eachFittedSpot spotLosesEnable (eachFittedComp compLosesEnable u)) :=
    (State.Sound.eachFittedComp compLosesEnable_sound u).fits.trans
      (.eachFittedSpot (fun i s => .at (fun j e => off_spotLosesEnable e s) (spotLosesEnable_fits i s)) _)
  exact ((pursued_sound hf).trans (.eachComp (fun c s => .of_spots (spots_pursueDirAll c s)) _)).after hs

theorem spotGainsEnable_fits {f : Bool} (i : SpotNo) (s : State) :
    (s.spot i).line.Fits f ((spotGainsEnable i s).spot i).line := by
  refine (removeHold_fits i .esd s).trans ?_
  unfold spotGainsEnable
  simp only
  generalize removeHold i .esd s = u
  split
  · rename_i h
    rw [line_shutLines, modSpot_spot_same]
    refine .of_busy (by simp [Spot.line, h.1, SpotState.quiet]) (fun hl => ?_) fun hh => hh
    have hp := hl.2
    unfold Line.placed at hp
    simp only [Spot.line, h.1] at hp
    refine ⟨hl.1, ?_⟩
    unfold Line.placed
    simp only [Spot.line, h.1]
    exact ⟨fun hc => absurd rfl hc, hp.2⟩
  · exact .refl _ _

theorem off_spotGainsEnable {i j : SpotNo} (h : j ≠ i) (s : State) : (spotGainsEnable i s).spot j = s.spot j := by
  have hr : (removeHold i .esd s).spot j = s.spot j := off_modSpot h _ s
  unfold spotGainsEnable
  simp only
  split
  · rw [off_shutLines h, off_modSpot h, hr]
  · exact hr

theorem enableOn_sound (s : State) : s.Sound F (enableOn s) := by
  unfold enableOn
  simp only
  generalize hu : ({ s with fe := true, rearmRun := 0 } : State) = u
  have hs : u.spots = s.spots := by rw [← hu]
  have hf : u.Fits F (eachFittedSpot spotGainsEnable u) :=
    .eachFittedSpot (fun i s => .at (fun j e => off_spotGainsEnable e s) (spotGainsEnable_fits i s)) u
  exact State.Sound.settle (((pursued_sound hf).trans
    (.eachComp (fun c s => .of_spots ((spots_compAdvance c _).trans (spots_pursueDirAll c s))) _)).after hs)

theorem esdBecomesActive_sound (s : State) : s.Sound F (esdBecomesActive s) := by
  unfold esdBecomesActive
  split
  · exact .settle (enableOff_sound s)
  · exact .refl F s

theorem changeEsdLevel_sound (b : Bool) (s : State) : s.Sound F (changeEsdLevel b s) := by
  unfold changeEsdLevel
  simp only
  repeat' split
  · exact .refl F s
  · exact (esdBecomesActive_sound { s with esdHigh := b }).after rfl
  · exact .of_spots rfl

theorem takeBeat_sound (s : State) : s.Sound F (takeBeat s) := by
  unfold takeBeat
  simp only
  repeat' split
  · exact .of_spots rfl
  · exact (enableOn_sound _).after rfl
  · exact .of_spots rfl
  · exact .of_spots rfl

/-! ## Metering (R105 to R118) -/

/-- A change of the head's amounts alone (R66). -/
theorem Line.Fits.head {f : Bool} {a b : Line} {g : Order → Order} (hg : ∀ o, (g o).tag = o.tag ∧ (g o).state = o.state ∧
    (g o).reason = o.reason) (h : b = { a with orders := a.orders.modifyHead g }) : a.Fits f b := by
  subst h
  refine fun hl => ⟨⟨hl.1.modifyHead (fun o => (hg o).1) fun o _ hr hne => ?_, Line.placed_modifyHead (fun o ho => ?_) hl.2⟩,
    id, fun _ => id⟩
  · rw [(hg o).2.2] at hne
    rw [(hg o).2.1]
    exact hr hne
  · exact (hg o).2.1.trans ho

theorem creditOrder_soundBut (i : SpotNo) (l : Liquid) (s : State) : s.SoundBut i F (creditOrder i l s) := by
  have hg : ∀ d : Word32, s.SoundBut i F ((s.touchSpot i).modSpot i
      (Spot.modHead fun o => { o with liquid := some { l with delivered := d } })) := fun d =>
    .of_fits (fun j e => off_modSpot e _ (s.touchSpot i)) (by
      rw [modSpot_spot_same]
      exact .head (g := fun o => { o with liquid := some { l with delivered := d } }) (fun _ => ⟨rfl, rfl, rfl⟩)
        (Spot.modHead_line _ _))
  unfold creditOrder
  simp only
  refine (hg (s.nextDelivered l.delivered)).trans (.of_sound ?_)
  split
  · exact .of_spots rfl
  · exact .refl F _

theorem creditVessel_sound (i : SpotNo) (tag : Word16) (v : VesselNo) (s : State) : s.Sound F (creditVessel i tag v s) := by
  unfold creditVessel
  simp only
  split
  · exact .of_spots rfl
  · exact (runCut_sound v _).after rfl

theorem decideTarget_soundBut (i : SpotNo) (s : State) : s.SoundBut i F (decideTarget i s) := by
  unfold decideTarget
  repeat' split
  · exact .refl i s
  · exact .refl i s
  · exact .of_fits (fun j e => off_endHead e _ s) (endHead_fits _ _ _)
  · exact .refl i s

theorem restartStall_soundBut (i : SpotNo) (s : State) : s.SoundBut i F (restartStall i s) := by
  unfold restartStall
  split
  · exact .modSpot (.refl _ _)
  · exact .refl i s

theorem countInWindow_soundBut (i : SpotNo) (s : State) (h : F i = true) : s.SoundBut i F (countInWindow i s) := by
  unfold countInWindow
  simp only
  repeat' split
  · exact State.SoundBut.trans (.modSpot (.refl _ _))
      (.of_fits (fun j e => off_enterIsolating e _ _ _ _) (enterIsolating_fits _ _ _ _ _ fun e => by rw [h] at e; cases e))
  · exact .modSpot (.refl _ _)
  · exact .refl i s

theorem creditLitre_soundBut (i : SpotNo) (o : Order) (l : Liquid) (s : State) (h : F i = true) :
    s.SoundBut i F (creditLitre i o l s) := by
  unfold creditLitre
  simp only
  have hcar : ∀ f (u : State), u.SoundBut i F (u.modCarAt i f) := fun f u => .of_sound (.of_spots (spots_modCarAt i f u))
  exact ((((((creditOrder_soundBut i l s).trans (hcar _ _)).trans (.of_sound (creditVessel_sound _ _ _ _))).trans
    (decideTarget_soundBut i _)).trans (restartStall_soundBut i _)).trans (countInWindow_soundBut i _ h))

theorem creepLitre_soundBut (i : SpotNo) (s : State) (h : F i = true) : s.SoundBut i F (creepLitre i s) := by
  have hg : s.SoundBut i F (s.modSpot i fun sp => if sp.creep < sp.active.creep then { sp with creep := sp.creep + 1 } else sp) :=
    .modSpot (by split <;> exact .refl _ _)
  unfold creepLitre
  simp only
  split
  · exact hg.trans (.of_fits (fun j e => off_enterIsolating e _ _ _ _)
      (enterIsolating_fits _ _ _ _ _ fun e => by rw [h] at e; cases e))
  · exact hg

theorem disposeLitre_soundBut (i : SpotNo) (s : State) (h : F i = true) : s.SoundBut i F (disposeLitre i s) := by
  have hc : s.SoundBut i F (if (s.spot i).liquid.isFault then s
      else if (s.spot i).state.countsCreep then creepLitre i s else s) := by
    repeat' split
    · exact .refl i s
    · exact creepLitre_soundBut i s h
    · exact .refl i s
  unfold disposeLitre
  simp only
  split
  · exact hc
  · rename_i o _
    cases o.liquid with
    | none => exact hc
    | some l =>
      simp only
      split
      · exact creditLitre_soundBut i o l s h
      · exact hc

theorem emitLitre_sound (i : SpotNo) (s : State) (h : F i = true) : s.Sound F (emitLitre i s) := by
  unfold emitLitre
  exact .settle (State.SoundBut.advance ((State.SoundBut.modSpot (.refl _ _)).trans (disposeLitre_soundBut i _ h)))

/-- A change of a spot's fields that no queue, hold or arrival looks at. -/
theorem State.Sound.idle {i : SpotNo} {s : State} {g : Spot → Spot} (hl : (g (s.spot i)).line = (s.spot i).line)
    (hs : (s.spot i).steady → (g (s.spot i)).steady) : s.Sound F (s.modSpot i g) :=
  .modSpot ⟨.of_eq hl, fun _ => hs⟩

theorem takePulse_sound (i : SpotNo) (s : State) (h : s.fittedSpot i = true → F i = true) : s.Sound F (takePulse i s) := by
  unfold takePulse
  split
  · rename_i hi
    repeat' split
    · exact .refl F s
    · exact emitLitre_sound i s (h hi)
    · exact .idle rfl id
  · exact .refl F s

theorem takeLitre_sound (i : SpotNo) (s : State) (h : s.fittedSpot i = true → F i = true) : s.Sound F (takeLitre i s) := by
  unfold takeLitre
  split
  · rename_i hi
    simp only [Bool.and_eq_true] at hi
    exact emitLitre_sound i s (h hi.1)
  · exact .refl F s

/-! ## Field inputs -/

theorem ifFitted_sound {i : SpotNo} {g : SpotNo → State → State} {s : State} (h : s.Sound F (g i s)) :
    s.Sound F (ifFitted i g s) := by
  unfold ifFitted
  split
  · exact h
  · exact .refl F s

theorem failProving_sound {x : SpotFault} {i : SpotNo} {s : State} (h : (s.spot i).state = .proving) :
    s.Sound F (settle (advanceSpot i (failProving x i s))) :=
  .settle (.advance (fun _ e => off_failProving e x s) (failProving_fits x h))

theorem isolating_sound {a b : EndReason} {x : Option SpotFault} {i : SpotNo} {s : State}
    (h : (s.spot i).state.quiet = false) : s.Sound F (advanceSpot i (enterIsolating a b x i s)) :=
  .advance (fun _ e => off_enterIsolating e a b x s) (enterIsolating_fits _ _ _ _ _ fun _ => h)

theorem endHead_sound (r : EndReason) (i : SpotNo) (s : State) : s.Sound F (settle (advanceSpot i (endHead i r s))) :=
  .settle (.advance (fun _ e => off_endHead e r s) (endHead_fits i r s))

theorem failStroke_sound (k : Bool) (x : SpotFault) {i : SpotNo} {s : State} (h : (s.spot i).state = .stroking) :
    s.Sound F (failStroke k x i s) := by
  have e := failStroke_line k x i s
  have hst : ((failStroke k x i s).spot i).state = .faulted := Spot.state_of_line e
  refine .at (fun _ e => off_failStroke e k x s) (.of_idle (failStroke_fits k x i s h) (fun hl => ?_) (by simp [hst]) (by simp [hst]))
  exact (Spot.orders_of_line e).trans (hl.orders_of_stroking h)

theorem faultSpot_sound (x : SpotFault) (i : SpotNo) (s : State) : s.Sound F (faultSpot x i s) := by
  have e := faultSpot_line x i s
  have hst : ((faultSpot x i s).spot i).state = .faulted := Spot.state_of_line e
  exact .at (fun _ e => off_faultSpot e x s) (.of_idle (faultSpot_fits x i s) (fun _ => Spot.orders_of_line e)
    (by simp [hst]) (by simp [hst]))

theorem bondTrip_sound (i : SpotNo) (s : State) : s.Sound F (bondTrip i s) := by
  unfold bondTrip
  split
  case h_1 h => exact failProving_sound h
  case h_7 | h_8 | h_9 | h_10 | h_11 => exact .refl F s
  all_goals
    rename_i h
    exact .settle (isolating_sound (by rw [h]; rfl))

theorem pressureMade_sound (i : SpotNo) (s : State) : s.Sound F (pressureMade i s) := by
  unfold pressureMade
  split
  · rename_i hst hp
    refine .modSpot ⟨.step _ (by simp [Spot.line, hst]), fun _ h => ?_⟩
    obtain ⟨hr, -⟩ := (steady_iff _).mp h
    exact (steady_iff _).mpr ⟨⟨fun c => (by cases c.2.1), hr.transfer, hr.drained, hr.resumed⟩,
      .of_state (by simp [hst])⟩
  · rename_i hst; exact failStroke_sound _ _ hst
  · exact .refl F s

theorem pressureLost_sound (i : SpotNo) (s : State) : s.Sound F (pressureLost i s) := by
  unfold pressureLost
  split
  · rename_i h _; exact failProving_sound h
  · exact .refl F s

theorem residualMade_sound (i : SpotNo) (s : State) : s.Sound F (residualMade i s) := by
  unfold residualMade
  split
  · exact endHead_sound _ _ _
  · exact .refl F s

theorem bondChange_sound (i : SpotNo) (b : Bool) (s : State) : s.Sound F (bondChange i b s) := by
  unfold bondChange
  split
  · exact .refl F s
  · refine .of_event (State.Sound.trans (.idle (i := i) (g := fun sp => { sp with bond := .at b }) rfl id) ?_)
    split
    · exact .refl F _
    · exact ifFitted_sound (bondTrip_sound _ _)

theorem hoseChange_sound (i : SpotNo) (b : Bool) (s : State) : s.Sound F (hoseChange i b s) := by
  unfold hoseChange
  split
  · exact .refl F s
  · refine .of_event (State.Sound.trans (.idle (i := i) (g := fun sp => { sp with hose := .at b }) rfl id) ?_)
    split
    · exact ifFitted_sound (pressureMade_sound _ _)
    · exact ifFitted_sound (pressureLost_sound _ _)

theorem residualChange_sound (i : SpotNo) (b : Bool) (s : State) : s.Sound F (residualChange i b s) := by
  unfold residualChange
  split
  · exact .refl F s
  · refine .of_event (State.Sound.trans (.idle (i := i) (g := fun sp => { sp with residual := .at b }) rfl id) ?_)
    split
    · exact ifFitted_sound (residualMade_sound _ _)
    · exact .refl F _

/-- A held spot resumes: CONNECTED without orders, STAGED with them (R39). -/
theorem resumeSpot_sound {i : SpotNo} {s : State} (h : (s.spot i).state = .held) (hd : (s.spot i).holds.isEmpty = true) :
    s.Sound F (resumeSpot i s) := by
  have he : (s.spot i).holds = .empty := by
    revert hd
    cases (s.spot i).holds
    simp [HoldSet.isEmpty, HoldSet.empty]
    tauto
  unfold resumeSpot
  simp only
  refine .settle (.advance (fun j e => by rw [off_commandSpot e, off_modSpot e]) ?_)
  rw [line_commandSpot, modSpot_spot_same]
  split
  · rename_i ho
    refine .of_busy (by simp [Spot.line, h, SpotState.quiet]) (fun hl => ?_) fun _ _ => he
    exact Line.legal_of_nil (by simpa [Spot.line] using ho) (by simp [Spot.line]) (by simp [Spot.line]) (by simp [Spot.line])
  · rename_i ho
    refine .of_busy (by simp [Spot.line, h, SpotState.quiet]) (fun hl => ?_) fun _ _ => he
    exact Line.legal_of_queue hl.1 (fun _ => by simpa [Spot.line] using ho) (.inl rfl)

theorem pressConnected_sound (i : SpotNo) (s : State) : s.Sound F (pressConnected i s) := by
  unfold pressConnected
  repeat' split
  · exact .refl F s
  · exact .of_spots (spots_modCarAt _ _ _)
  · exact .refl F s

theorem pressStop_sound (i : SpotNo) (s : State) : s.Sound F (pressStop i s) := by
  unfold pressStop
  split
  case h_1 h => exact failProving_sound h
  case h_7 | h_8 | h_9 | h_10 | h_11 => exact .refl F s
  all_goals exact .settle (holdSpot_sound _ _ _)

theorem pressClear_sound (i : SpotNo) (s : State) : s.Sound F (pressClear i s) := by
  unfold pressClear
  simp only
  split
  · rename_i h
    refine (removeHold_sound i .crewStop s).trans ?_
    split
    · rename_i hc
      simp only [Bool.and_eq_true] at hc
      exact resumeSpot_sound (by simp [removeHold, h]) hc.1
    · exact .refl F _
  · exact .refl F s

theorem connectedPressed_sound (i : SpotNo) (s : State) : s.Sound F (connectedPressed i s) :=
  .of_event (State.Sound.trans (.idle (i := i) (g := fun sp => { sp with connectedButton := .at true }) rfl id)
    (ifFitted_sound (pressConnected_sound _ _)))

theorem stopPressed_sound (i : SpotNo) (s : State) : s.Sound F (stopPressed i s) :=
  .of_event (State.Sound.trans (.idle (i := i) (g := fun sp => { sp with stopButton := .at true }) rfl id)
    (ifFitted_sound (pressStop_sound _ _)))

theorem clearPressed_sound (i : SpotNo) (s : State) : s.Sound F (clearPressed i s) :=
  .of_event (State.Sound.trans (.idle (i := i) (g := fun sp => { sp with clearButton := .at true }) rfl id)
    (ifFitted_sound (pressClear_sound _ _)))

theorem vesselTrips_sound (v : VesselNo) (s : State) : s.Sound F (vesselTrips v s) := by
  unfold vesselTrips
  refine State.Sound.settle (State.Sound.eachFittedSpot (fun i s => ?_) s)
  split
  · exact holdSpot_sound _ _ _
  · exact .refl F s

theorem vesselClears_sound (v : VesselNo) (s : State) : s.Sound F (vesselClears v s) := by
  unfold vesselClears
  refine State.Sound.eachFittedSpot (fun i s => ?_) s
  split
  · exact removeHold_sound _ _ _
  · exact .refl F s

theorem tripChange_sound (v : VesselNo) (b : Bool) (s : State) : s.Sound F (tripChange v b s) := by
  unfold tripChange
  split
  · exact .refl F s
  · refine .of_event ?_
    simp only
    generalize hu : (clearScratch s).modVessel v _ = u
    have hs : u.spots = (clearScratch s).spots := by rw [← hu]; rfl
    refine State.Sound.after ?_ hs
    repeat' split
    · exact vesselTrips_sound v u
    · exact vesselClears_sound v u
    · exact .refl F _

theorem runLost_sound (c : CompNo) (s : State) : s.Sound F (runLost c s) := by
  unfold runLost
  split
  all_goals first
    | exact .settle (faultComp_sound _ _ _)
    | exact .refl F s

theorem runChange_sound (c : CompNo) (b : Bool) (s : State) : s.Sound F (runChange c b s) := by
  unfold runChange
  split
  · exact .refl F s
  · refine .of_event ?_
    simp only
    generalize hu : (clearScratch s).modComp c _ = u
    have hs : u.spots = (clearScratch s).spots := by rw [← hu]; rfl
    refine State.Sound.after ?_ hs
    repeat' split
    · exact State.Sound.settle (.of_spots (spots_compOnRun _ _))
    · exact runLost_sound _ _
    · exact .refl F _

theorem faultChange_sound (c : CompNo) (b : Bool) (s : State) : s.Sound F (faultChange c b s) := by
  unfold faultChange
  split
  · exact .refl F s
  · refine .of_event ?_
    simp only
    generalize hu : (clearScratch s).modComp c _ = u
    have hs : u.spots = (clearScratch s).spots := by rw [← hu]; rfl
    refine State.Sound.after ?_ hs
    split
    · exact State.Sound.settle (faultComp_sound _ _ _)
    · exact .refl F _

/-! ## Limits and strokes -/

/-- A valve of a spot changes; where that is a fault the spot faults, and otherwise the arrivals are worked off (R147). -/
theorem reportValve_sound (b : State) (v : ValveId) (x : Bool) (g : Valve → Valve) (s : State) :
    s.Sound F (reportValve b v x (s.modValve v g)) := by
  cases v with
  | direction c d =>
    refine State.Sound.trans (t := s.modValve (.direction c d) g) (.of_spots rfl) ?_
    unfold reportValve
    simp only
    split
    · exact .settle (faultComp_sound _ _ _)
    · exact .settle (.of_spots (spots_compReported _ _ _))
  | spot i n =>
    have hm : ∀ j, j ≠ i → (s.modValve (.spot i n) g).spot j = s.spot j := fun j e => off_modSpot e _ s
    have hl : (s.spot i).line.Fits (F i) ((s.modValve (.spot i n) g).spot i).line := by
      refine .of_eq ?_
      exact line_modSpot _ _ _ _ fun sp => Spot.setValve_line _ _ _
    unfold reportValve
    simp only
    split
    · refine .settle ?_
      generalize s.modValve (.spot i n) g = u at *
      have hf := hl.trans (spotValveFault_fits i n u)
      refine .at (fun j e => (off_spotValveFault e n u).trans (hm j e)) (.of_idle hf (fun hleg => ?_) ?_ ?_)
      · have hlu := (hl hleg).1
        unfold spotValveFault
        split
        case h_1 h => exact hlu.orders_of_quiet (by simp [Spot.line, h, SpotState.quiet])
        case h_2 h => exact (Spot.orders_of_line (failStroke_line _ _ _ _)).trans (hlu.orders_of_stroking h)
        all_goals exact Spot.orders_of_line (faultSpot_line _ _ _)
      all_goals
        have hst : ((spotValveFault i n u).spot i).state = .faulted := by
          unfold spotValveFault
          split
          case h_1 h => exact h
          case h_2 => exact Spot.state_of_line (failStroke_line _ _ _ _)
          all_goals exact Spot.state_of_line (faultSpot_line _ _ _)
        simp [hst]
    · exact .settle (.advance hm hl)

theorem limitChange_sound (v : ValveId) (o h : Bool) (s : State) : s.Sound F (limitChange v o h s) := by
  unfold limitChange
  split
  · exact .refl F s
  · exact .of_event (reportValve_sound _ _ _ _ _)

/-! ## Expiries -/

theorem State.Sound.ite_event {p : Prop} [Decidable p] {f : State → State} {s : State}
    (h : p → (clearScratch s).Sound F (f (clearScratch s))) : s.Sound F (if p then event f s else s) := by
  split
  · rename_i hp; exact .of_event (h hp)
  · exact .refl F s

theorem pressureWaitExpires_sound (i : SpotNo) (s : State) : s.Sound F (pressureWaitExpires i s) :=
  .ite_event fun h => failProving_sound h.1

theorem passProving_sound {i : SpotNo} {s : State} (h : (s.spot i).state = .proving) : s.Sound F (passProving i s) := by
  have ho : (s.spot i).line.legal → (s.spot i).orders = [] := fun hl => by
    have := hl.2
    unfold Line.placed at this
    rw [show (s.spot i).line.state = .proving from h] at this
    exact this
  unfold passProving
  refine State.Sound.trans (.modSpot ?_) (.of_spots (spots_modCarAt _ _ _))
  have ho' : ∀ sp : Spot, (sp.takeStaged s).orders = sp.orders := fun sp => Spot.orders_of_line (Spot.takeStaged_line s sp)
  have hh' : ∀ sp : Spot, (sp.takeStaged s).holds = sp.holds := fun sp => Spot.holds_of_line (Spot.takeStaged_line s sp)
  refine .of_idle (.of_busy (by simp [Spot.line, h, SpotState.quiet]) (fun hl => ?_) fun hh _ => ?_) (fun hl => ?_) (by simp) (by simp)
  · exact Line.legal_of_nil ((ho' _).trans (ho hl)) (by simp [Spot.line]) (by simp [Spot.line]) (by simp [Spot.line])
  · exact (hh' _).trans (hh (by simp [Spot.line, h]))
  · exact (ho' _).trans (ho hl)

theorem pressureHoldExpires_sound (i : SpotNo) (s : State) : s.Sound F (pressureHoldExpires i s) :=
  .ite_event fun h => passProving_sound h.1

theorem bleedExpires_sound (i : SpotNo) (s : State) : s.Sound F (bleedExpires i s) := by
  refine .ite_event fun h => ?_
  unfold judgeBleed
  split
  · exact .settle (faultSpot_sound _ _ _)
  · refine .settle (.advance (fun j e => by rw [off_commandSpot e, off_modSpot e]) ?_)
    rw [line_commandSpot, modSpot_spot_same]
    exact .of_isolation h.1 (fun hl => hl.orders_of_step h.1 (by simp [Spot.line, h.2.1])) (.inl h.1) rfl

theorem recoveryExpires_sound (i : SpotNo) (s : State) : s.Sound F (recoveryExpires i s) :=
  .ite_event fun _ => endHead_sound _ _ _

theorem stallExpires_sound (i : SpotNo) (s : State) : s.Sound F (stallExpires i s) :=
  .ite_event fun _ => endHead_sound _ _ _

theorem windowExpires_sound (i : SpotNo) (s : State) : s.Sound F (windowExpires i s) := by
  unfold windowExpires
  split
  · exact .idle rfl id
  · exact .refl F s

theorem startExpires_sound (c : CompNo) (s : State) : s.Sound F (startExpires c s) :=
  .ite_event fun _ => .settle (faultComp_sound _ _ _)

theorem runOnExpires_sound (c : CompNo) (s : State) : s.Sound F (runOnExpires c s) :=
  .ite_event fun _ => .settle (.of_spots rfl)

theorem proofRunExpires_sound (c : CompNo) (s : State) : s.Sound F (proofRunExpires c s) :=
  .ite_event fun _ => .settle (.of_spots (by rw [spots_compAdvance]; rfl))

theorem guardExpires_sound (c : CompNo) (d : Direction) (s : State) : s.Sound F (guardExpires c d s) :=
  .ite_event fun _ => .settle (.of_spots (spots_compPassGuard _ _))

theorem strokeExpires_sound (v : ValveId) (s : State) : s.Sound F (strokeExpires v s) :=
  .ite_event fun _ => reportValve_sound _ _ _ _ _

theorem flashToggles_sound (i : SpotNo) (s : State) : s.Sound F (flashToggles i s) := by
  unfold flashToggles
  split
  · exact .of_spots rfl
  · exact .refl F s

end Events

end Sys2Proof.Machine
end

section
/-! PROOFS. Every request on the spots, and from it that queues stay legal (O20) and that spots owe nothing between events (O8). -/

namespace Sys2Proof.Machine

section Requests

variable {F : SpotNo → Bool}

theorem namedSpot_ok {s : State} {b : Byte} {i : SpotNo} (h : s.namedSpot b = .ok i) : s.fittedSpot i = true := by
  unfold State.namedSpot at h
  repeat' split at h
  all_goals first
    | (cases h; assumption)
    | cases h

theorem State.Sound.reply {s t : State} {r : Reply} (h : s.Sound F t) : s.Sound F (t, r).1 := h

theorem withSpot_sound {b : Byte} {s : State} {f : SpotNo → State × Reply}
    (h : ∀ i, s.fittedSpot i = true → s.Sound F (f i).1) : s.Sound F (withSpot b s f).1 := by
  unfold withSpot
  split
  · exact .refl F s
  · rename_i i hi
    exact h i (namedSpot_ok hi)

theorem withVessel_sound {b : Byte} {s : State} {f : VesselNo → State × Reply} (h : ∀ v, s.Sound F (f v).1) :
    s.Sound F (withVessel b s f).1 := by
  unfold withVessel
  split
  · exact .refl F s
  · exact h _

theorem withComp_sound {b : Byte} {s : State} {f : CompNo → State × Reply} (h : ∀ c, s.Sound F (f c).1) :
    s.Sound F (withComp b s f).1 := by
  unfold withComp
  split
  · exact .refl F s
  · exact h _

/-! ## Cars and spots -/

theorem bind_sound {i : SpotNo} {k : SlotNo} {b : Byte} {s : State} (h : (s.spot i).state = .vacant) :
    s.Sound F (bind i k b s) := by
  have ho : (s.spot i).line.legal → (s.spot i).orders = [] := fun hl =>
    hl.orders_of_quiet (by simp [Spot.line, h, SpotState.quiet])
  unfold bind
  refine State.Sound.trans (.modSpot ?_) (.of_spots (modCar_spots _ _ _))
  exact .of_idle (.of_idle ho (by simp [Spot.line]) (fun _ _ => rfl) rfl (by simp [Spot.line, h])) ho (by simp) (by simp)

theorem unbind_sound {i : SpotNo} {s : State} (h : (s.spot i).state = .spotted ∨ (s.spot i).state = .faulted) :
    s.Sound F (unbind i s) := by
  have ho : (s.spot i).line.legal → (s.spot i).orders = [] := fun hl =>
    hl.orders_of_quiet (by rcases h with h | h <;> simp [Spot.line, h, SpotState.quiet])
  unfold unbind
  refine State.Sound.after (t := s.modCarAt i _) (.modSpot ?_) (spots_modCarAt _ _ _)
  rw [spot_of_spots (spots_modCarAt _ _ _)]
  refine .of_idle (.of_idle ho ?_ (fun _ _ => ?_) rfl ?_) ho ?_ ?_ <;>
    rcases h with h | h <;> simp [Spot.line, h, SpotState.quiet]

theorem startProving_sound {i : SpotNo} {s : State} (hi : F i = true) (h : (s.spot i).state = .spotted) :
    s.Sound F (startProving i s) := by
  unfold startProving
  refine .advance (fun j e => by rw [off_commandSpot e, off_modSpot e]) ?_
  rw [line_commandSpot, modSpot_spot_same]
  exact .of_idle (fun hl => hl.orders_of_quiet (by simp [Spot.line, h, SpotState.quiet])) (by simp [Spot.line])
    (fun e => by rw [hi] at e; cases e) rfl (by simp [Spot.line, h])

theorem answerOpen_sound {place : Byte} {s : State} (hF : ∀ i, s.fittedSpot i = true → F i = true) :
    s.Sound F (answerOpen place s).1 := by
  refine withSpot_sound fun i hi => ?_
  simp only
  by_cases h1 : s.siding ≠ .operating
  · rw [if_pos h1]; exact .refl F s
  by_cases h2 : (!s.fe) = true
  · rw [if_neg h1, if_pos h2]; exact .refl F s
  by_cases h3 : (s.spot i).state ≠ .spotted
  · rw [if_neg h1, if_neg h2, if_pos h3]; exact .refl F s
  have hp := startProving_sound (hF i hi) (not_not.mp h3)
  rw [if_neg h1, if_neg h2, if_neg h3]
  split
  · exact .refl F s
  · repeat' split
    · exact .refl F s
    · exact .refl F s
    · exact .refl F s
    · exact .reply hp

theorem isolateSpot_sound {i : SpotNo} {s : State} (hi : F i = true) : s.Sound F (isolateSpot i s) := by
  unfold isolateSpot
  split
  · exact .advance (fun j e => off_failProving e _ s) (enterIsolating_fits _ _ _ _ _ fun e => by rw [hi] at e; cases e)
  · exact .advance (fun j e => off_enterIsolating e _ _ _ s) (enterIsolating_fits _ _ _ _ _ fun e => by rw [hi] at e; cases e)

theorem isolateAll_sound {l : List SpotNo} (hl : ∀ i ∈ l, F i = true) (s : State) :
    s.Sound F (l.foldl (fun s i => isolateSpot i s) s) := by
  induction l generalizing s with
  | nil => exact .refl F s
  | cons i l ih =>
    rw [List.foldl_cons]
    exact State.Sound.trans (isolateSpot_sound (hl i List.mem_cons_self)) (ih (fun j hj => hl j (List.mem_cons_of_mem _ hj)) _)

theorem strokeSpot_sound {i : SpotNo} {s : State} (hi : F i = true) (h : (s.spot i).state.quiet = true) :
    s.Sound F (advanceSpot i (enterStroking i s)) := by
  refine .advance (fun j e => ?_) (by rw [hi]; exact enterStroking_fits i s h)
  have hv : ∀ (l : List ValveName) (u : State), (l.foldl (fun s n =>
      s.modSpot i fun sp => sp.setValve n ((sp.valve n).beginTest (s.strokeOf n))) u).spot j = u.spot j := fun l u =>
    foldl_keeps (fun s => s.spot j) _ (fun s n => off_modSpot e _ s) l u
  unfold enterStroking
  simp only
  split <;> simp only [off_failStroke e, off_pursueSpotAll e, hv, off_modSpot e, touchSpot_spot]

/-! ## Orders -/

theorem placeOrder_sound {i : SpotNo} {r : OrderRequest} {l : Option Liquid} {s : State}
    (ht : (s.spot i).state.takesOrders = true) (hn : (s.spot i).hasTag r.tag = false) : s.Sound F (placeOrder i r l s) := by
  have hbusy : (s.spot i).line.state.quiet = false := by
    revert ht
    simp only [Spot.line]
    cases (s.spot i).state <;> simp [SpotState.takesOrders, SpotState.quiet]
  unfold placeOrder
  simp only
  generalize hu : ((match l with
    | some l => (s.touchVessel l.vessel).modVessel l.vessel (Vessel.reserve i r.tag l.target)
    | none => s).touchSpot i) = u
  have hs : u.spots = s.spots := by rw [← hu]; split <;> rfl
  have hsp := spot_of_spots hs
  generalize ho : ({ tag := r.tag, liquid := l, closeAfter := r.closeAfter, state := .queued, reason := none } : Order) = o
  have htag : o.tag = r.tag := by rw [← ho]
  have hst : o.state = .queued ∧ o.reason = none := by rw [← ho]; exact ⟨rfl, rfl⟩
  have hline : ((u.modSpot i fun sp => { sp with orders := sp.orders ++ [o] }).spot i).line =
      { (s.spot i).line with orders := (s.spot i).line.orders ++ [o] } := by
    rw [modSpot_spot_same, hsp]; rfl
  have hoff : ∀ j, j ≠ i → (u.modSpot i fun sp => { sp with orders := sp.orders ++ [o] }).spot j = s.spot j :=
    fun j e => (off_modSpot e _ u).trans (hsp j)
  refine State.Sound.settle (.advance (fun j e => ?_) ?_)
  · split
    · rw [off_becomeHead e, hoff j e]
    · exact hoff j e
  · split
    · rename_i he
      have hnil : (s.spot i).line.orders = [] := by simpa [Spot.line] using he
      rw [hnil] at hline
      have hwaits : QueueWaits [o] := ⟨by simp, by simpa using hst⟩
      obtain ⟨h1, h2⟩ := becomeHead_begun i _ (by rw [hline]; exact hwaits) (by rw [hline]; simp)
      refine .of_busy hbusy (fun _ => h1.legal) fun hh => h2 ?_
      rw [hline]; exact hh
    · rename_i he
      have hne : (s.spot i).line.orders ≠ [] := by simpa [Spot.line] using he
      rw [hline]
      refine .of_busy hbusy (fun hl => ⟨⟨?_, fun p hp hr => ?_, fun p hp => ?_⟩, ?_⟩) fun hh => hh
      · have hfresh : ∀ p ∈ (s.spot i).line.orders, p.tag ≠ o.tag := by
          have : ∀ p ∈ (s.spot i).orders, ¬ p.tag = r.tag := by simpa [Spot.hasTag] using hn
          exact htag ▸ this
        rw [List.map_append, List.nodup_append]
        refine ⟨hl.1.tags, by simp, fun a ha b hb => ?_⟩
        obtain ⟨p, hp, rfl⟩ := List.mem_map.mp ha
        simp only [List.map_cons, List.map_nil, List.mem_singleton] at hb
        exact hb ▸ hfresh p hp
      · rcases List.mem_append.mp hp with hp | hp
        · exact hl.1.reasons p hp hr
        · rw [List.mem_singleton.mp hp] at hr
          exact absurd hst.2 hr
      · rw [List.tail_append_of_ne_nil hne] at hp
        rcases List.mem_append.mp hp with hp | hp
        · exact hl.1.behind p hp
        · rw [List.mem_singleton.mp hp]; exact hst.1
      · have hp := hl.2
        revert hp ht
        unfold Line.placed
        rw [show (s.spot i).line.state = (s.spot i).state from rfl]
        cases (s.spot i).state <;> simp [SpotState.takesOrders]
        exact fun h => absurd h hne

theorem orderRequestOf_tag {tag : Word16} {kind : Byte} {target : Option Word32} {vessel : Option Byte} {closeAfter : Byte}
    {r : OrderRequest} (h : orderRequestOf tag kind target vessel closeAfter = some r) : r.tag = tag := by
  unfold orderRequestOf at h
  split at h
  · split at h
    · cases h; rfl
    · cases h
  · cases h; rfl
  · cases h

theorem placedReply_sound {i : SpotNo} {r : OrderRequest} {l : Option Liquid} {s t : State} (h : s.Sound F t) :
    s.Sound F (placedReply i r l t).1 := by
  unfold placedReply
  simp only
  split
  · exact h
  · exact h.trans (.of_spots rfl)

/-- A trim changes the amount of one order (R77). -/
theorem applyTrim_soundBut (i : SpotNo) (tag : Word16) (l : Liquid) (n : Nat) (s : State) :
    s.SoundBut i F (applyTrim i tag l n s) := by
  have hg : ∀ o : Order, ((if o.tag = tag then { o with liquid := some { l with target := n } } else o).tag = o.tag) ∧
      ((if o.tag = tag then { o with liquid := some { l with target := n } } else o).state = o.state) ∧
      ((if o.tag = tag then { o with liquid := some { l with target := n } } else o).reason = o.reason) := fun o => by
    split <;> exact ⟨rfl, rfl, rfl⟩
  generalize hgo : (fun o : Order => if o.tag = tag then { o with liquid := some { l with target := n } } else o) = g at hg
  have hg' : ∀ o, (g o).tag = o.tag ∧ (g o).state = o.state ∧ (g o).reason = o.reason := fun o => by rw [← hgo]; exact hg o
  refine .of_fits (fun j e => off_modSpot e _ _) ?_
  have hline : ((applyTrim i tag l n s).spot i).line =
      { (s.spot i).line with orders := (s.spot i).line.orders.map g } := by
    unfold applyTrim Spot.modOrder
    rw [modVessel_spot, modSpot_spot_same, hgo]
    rfl
  rw [hline]
  refine fun hl => ⟨⟨⟨?_, fun p hp hr => ?_, fun p hp => ?_⟩, ?_⟩, id, fun _ => id⟩
  · rw [List.map_map, show Order.tag ∘ g = Order.tag from funext fun o => (hg' o).1]
    exact hl.1.tags
  · obtain ⟨o, ho, rfl⟩ := List.mem_map.mp hp
    rw [(hg' o).2.2] at hr
    exact (hg' o).2.1.trans (hl.1.reasons o ho hr)
  · rw [← List.map_tail] at hp
    obtain ⟨o, ho, rfl⟩ := List.mem_map.mp hp
    exact (hg' o).2.1.trans (hl.1.behind o ho)
  · have hp := hl.2
    unfold Line.placed at *
    revert hp
    cases (s.spot i).line.state <;> simp
    rintro h1 h2
    refine ⟨h1, h2.imp id ?_⟩
    rintro ⟨o, ho, hd⟩
    exact ⟨o, ho, (hg' o).2.1.trans hd⟩

theorem trimmed_soundBut (i : SpotNo) (tag : Word16) (r : EndReason) (l : Liquid) (n : Nat) (s : State) (p : Prop)
    [Decidable p] : s.SoundBut i F (if p then endOrder i tag r (applyTrim i tag l n s) else applyTrim i tag l n s) := by
  split
  · exact (applyTrim_soundBut i tag l n s).trans (.of_fits (fun j e => off_endOrder e _ _ _) (endOrder_fits _ _ _ _))
  · exact applyTrim_soundBut i tag l n s

/-! ## Commissioning and restart -/

theorem beginSpotTest_sound {i : SpotNo} {s : State} (hi : F i = true) (h : (s.spot i).state.quiet = true) :
    s.Sound F (beginSpotTest i s) := by
  unfold beginSpotTest
  simp only
  split
  · refine State.Sound.trans ?_ (.of_spots (spots_endSpotTest _ _))
    refine .at (fun j e => by rw [off_shutAll e, off_modSpot e]) ?_
    have hl := line_shutAll i i (s.modSpot i fun sp => { sp with state := .faulted, step := none, fault := some .pressure })
    rw [modSpot_spot_same] at hl
    have hst := Spot.state_of_line hl
    simp only [Spot.line] at hst
    have ho : (s.spot i).line.legal → ((shutAll i (s.modSpot i fun sp =>
        { sp with state := .faulted, step := none, fault := some .pressure })).spot i).orders = [] := fun hleg =>
      (Spot.orders_of_line hl).trans (hleg.orders_of_quiet h)
    refine .of_idle (.of_idle ho ?_ (fun e => by rw [hi] at e; cases e) ?_ fun hc => ?_) ho (by simp [hst]) (by simp [hst])
    · rw [hl]; simp [Spot.line]
    · rw [hl]; rfl
    · rw [show (s.spot i).state = .held from hc] at h; cases h
  · split
    · exact .of_spots (spots_endSpotTest _ _)
    · exact strokeSpot_sound hi h

theorem beginCompTest_sound (c : CompNo) (s : State) : s.Sound F (beginCompTest c s) := by
  have he : (enterProof c s).spots = s.spots := rfl
  unfold beginCompTest
  simp only
  split
  · exact (faultComp_sound _ _ _).trans (.of_spots (spots_endCompTest _ _))
  · split
    · exact (faultComp_sound _ _ _).after he
    · exact .of_spots ((spots_compAdvance _ _).trans he)

theorem off_beginSpotTest {i j : SpotNo} (h : j ≠ i) (s : State) : (beginSpotTest i s).spot j = s.spot j := by
  have hv : ∀ (l : List ValveName) (u : State), (l.foldl (fun s n =>
      s.modSpot i fun sp => sp.setValve n ((sp.valve n).beginTest (s.strokeOf n))) u).spot j = u.spot j := fun l u =>
    foldl_keeps (fun s => s.spot j) _ (fun s n => off_modSpot h _ s) l u
  have he : (enterStroking i s).spot j = s.spot j := by
    unfold enterStroking
    simp only
    split <;> simp only [off_failStroke h, off_pursueSpotAll h, hv, off_modSpot h, touchSpot_spot]
  unfold beginSpotTest
  simp only
  split
  · rw [endSpotTest_spot, off_shutAll h, off_modSpot h]
  · split
    · exact endSpotTest_spot _ _ _
    · rw [off_advanceSpot h, he]

/-- The commissioning tests of the fitted spots begin at quiet spots (R179). -/
theorem beginTests_sound {s : State} (hF : ∀ i, s.fittedSpot i = true → F i = true)
    (h : ∀ i, s.fittedSpot i = true → (s.spot i).state.quiet = true) : s.Sound F (eachFittedSpot beginSpotTest s) := by
  suffices hl : ∀ (l : List SpotNo) (u : State), l.Nodup → u.profile = s.profile → (∀ i ∈ l, u.spot i = s.spot i) →
      u.Sound F (l.foldl (fun s i => if s.fittedSpot i then beginSpotTest i s else s) u) from
    hl _ s (List.nodup_finRange 8) rfl fun _ _ => rfl
  intro l
  induction l with
  | nil => exact fun u _ _ _ => .refl F u
  | cons i l ih =>
    intro u hnd hp hu
    obtain ⟨hi, hnd⟩ := List.nodup_cons.mp hnd
    have hfit : u.fittedSpot i = s.fittedSpot i := by unfold State.fittedSpot State.site; rw [hp]
    rw [List.foldl_cons]
    split
    · rename_i hf
      rw [hfit] at hf
      refine State.Sound.trans (beginSpotTest_sound (hF i hf) (hu i List.mem_cons_self ▸ h i hf)) (ih _ hnd ?_ fun j hj => ?_)
      · exact (profile_of_guarded (guarded_beginSpotTest i u)).trans hp
      · rw [off_beginSpotTest (fun e : j = i => hi (by rwa [← e]))]
        exact hu j (List.mem_cons_of_mem _ hj)
    · exact ih u hnd hp fun j hj => hu j (List.mem_cons_of_mem _ hj)

theorem quiet_spot {s : State} (h : s.quiet = true) {i : SpotNo} (hi : s.fittedSpot i = true) :
    (s.spot i).state.quiet = true := by
  unfold State.quiet at h
  simp only [Bool.and_eq_true] at h
  have := List.all_eq_true.mp h.1 i (List.mem_finRange i)
  simpa [hi] using this

theorem answerCommission_sound {s : State} (hF : ∀ i, s.fittedSpot i = true → F i = true) :
    s.Sound F (answerCommission s).1 := by
  unfold answerCommission
  split
  · exact .refl F s
  split
  · exact .refl F s
  split
  · exact .refl F s
  · rename_i hq
    simp only
    generalize hu : ({ s with siding := SidingState.commissioning, tests := _ } : State) = u
    have hs : u.spots = s.spots := by rw [← hu]
    have hp : u.profile = s.profile := by rw [← hu]
    have hfit : ∀ i, u.fittedSpot i = s.fittedSpot i := fun i => by unfold State.fittedSpot State.site; rw [hp]
    refine State.Sound.settle (State.Sound.after ?_ hs)
    refine State.Sound.trans ?_ (.of_spots (spots_settleTests _))
    refine State.Sound.trans ?_ (.eachFittedComp beginCompTest_sound _)
    refine beginTests_sound (fun i hi => hF i (hfit i ▸ hi)) fun i hi => ?_
    rw [spot_of_spots hs]
    exact quiet_spot (by simpa using hq) (hfit i ▸ hi)

theorem restartSpot_sound (i : SpotNo) (s : State) : s.Sound F (restartSpot i s) := by
  unfold restartSpot
  split
  case h_1 h => exact .advance (fun j e => off_failProving e _ s) (failProving_fits _ h)
  case h_7 h => exact failStroke_sound _ _ h
  case h_8 | h_9 | h_10 | h_11 => exact .refl F s
  all_goals
    rename_i h
    exact isolating_sound (by rw [h]; rfl)

theorem restart_sound (s : State) : s.Sound F (restart s) := by
  have hc : ∀ c (u : State), u.Sound F (flagComp c (restartComp c (u.modComp c fun k => { k with turning := none }))) :=
    fun c u => by
      refine State.Sound.trans ?_ (.of_spots rfl)
      refine State.Sound.after (t := u.modComp c fun k => { k with turning := none }) ?_ rfl
      unfold restartComp
      split
      · exact .refl F _
      · exact haltComp_sound _ _ _
  have he : ∀ u : State, (emptyReservations u).spots = u.spots := fun u => by
    unfold emptyReservations
    exact foldl_keeps State.spots _ (by intros; rfl) allVessels u
  unfold restart
  simp only
  refine State.Sound.trans ?_ (.of_spots (flagSiding_spots _))
  generalize hu : emptyReservations _ = u
  have hs : u.spots = s.spots := by rw [← hu, he]
  exact ((State.Sound.eachFittedComp hc u).trans (.eachFittedSpot restartSpot_sound _)).after hs

/-! ## Every request but WRITE PROFILE -/

theorem answer_sound (c : Instr) {s : State} (hF : ∀ i, s.fittedSpot i = true → F i = true)
    (hw : ∀ via sec fields, c ≠ .writeProfile via sec fields) : s.Sound F (answer c s).1 := by
  cases c <;> simp only [answer] <;> try exact State.Sound.refl F s
  case announce via m g l =>
    rcases answerAnnounce_cases m g l s with e | ⟨k, c, -, -, -, e⟩ <;> rw [e]
    · exact .refl F s
    · exact .of_spots rfl
  case amend via k i v a b c d =>
    rcases answerAmend_cases k i v a b c d s with e | ⟨k, c, a, -, -, e⟩ <;> rw [e]
    · exact .refl F s
    · exact .of_spots rfl
  case readCar =>
    unfold answerReadCar
    split <;> exact State.Sound.refl F s
  case find =>
    unfold answerFind
    repeat' split
    all_goals exact State.Sound.refl F s
  case release via k i v =>
    rcases answerRelease_cases k i v s with e | ⟨k, c, -, -, e⟩ <;> rw [e]
    · exact .refl F s
    · exact .of_spots rfl
  case spot via k i p =>
    rcases answerSpot_cases k i p s with e | ⟨j, k, c, -, -, -, hj, -, e⟩ <;> rw [e]
    · exact .refl F s
    · exact bind_sound hj
  case unspot via p =>
    rcases answerUnspot_cases p s with e | ⟨i, hi, e⟩ <;> rw [e]
    · exact .refl F s
    · exact unbind_sound hi
  case openSpot via place => exact answerOpen_sound hF
  case isolate =>
    refine withSpot_sound fun i hi => ?_
    split
    · exact .reply (State.Sound.settle (isolateSpot_sound (hF i hi)))
    · exact .refl F s
  case isolateAll =>
    unfold answerIsolateAll
    split
    · exact .refl F s
    · refine .reply (State.Sound.settle (isolateAll_sound (fun i hi => hF i ?_) s))
      have := (List.mem_filter.mp hi).2
      simp only [Bool.and_eq_true] at this
      exact this.1
  case clearHold =>
    refine withSpot_sound fun i _ => ?_
    split
    · exact .refl F s
    split
    · exact .refl F s
    split
    · exact .refl F s
    · exact .reply (removeHold_sound _ _ _)
  case resume =>
    refine withSpot_sound fun i _ => ?_
    simp only
    split
    · exact .refl F s
    · rename_i hst
      split
      · exact .refl F s
      · rename_i hh
        split
        · exact .refl F s
        · exact .reply (resumeSpot_sound (not_not.mp hst) (by simpa using hh))
  case strokeSpot =>
    refine withSpot_sound fun i hi => ?_
    simp only
    split
    · exact .refl F s
    split
    · exact .refl F s
    split
    · exact .refl F s
    · rename_i hq
      split
      · exact .refl F s
      split
      · exact .refl F s
      · exact .reply (strokeSpot_sound (hF i hi) (by simpa using hq))
  case readSpot => exact withSpot_sound fun i _ => .refl F s
  case placeOrder =>
    refine withSpot_sound fun i _ => ?_
    simp only
    split
    · exact .refl F s
    split
    · exact .refl F s
    rename_i ht
    split
    · exact .refl F s
    split
    · exact .refl F s
    · rename_i hn
      have ht' : (s.spot i).state.takesOrders = true := by simpa using ht
      have hn' : ∀ b : Word16, ¬ (s.spot i).hasTag b = true → (s.spot i).hasTag b = false := fun b h => by simpa using h
      split
      · exact .refl F s
      · rename_i r hr
        have hn : (s.spot i).hasTag r.tag = false := hn' _ (orderRequestOf_tag hr ▸ hn)
        split
        · exact placedReply_sound (placeOrder_sound ht' hn)
        split
        · exact .refl F s
        split
        · exact .refl F s
        · exact placedReply_sound (placeOrder_sound ht' hn)
  case trim via place tag target =>
    refine withSpot_sound fun i _ => ?_
    split
    · exact .refl F s
    split
    · exact .refl F s
    split
    · exact .refl F s
    split
    · exact .refl F s
    · exact .reply (State.Sound.settle (trimmed_soundBut i tag _ _ _ s _).advance)
  case cancelOrder =>
    refine withSpot_sound fun i _ => ?_
    split
    · exact .refl F s
    split
    · exact .refl F s
    · exact .reply (State.Sound.settle (.advance (fun j e => off_endOrder e _ _ s) (endOrder_fits _ _ _ _)))
  case gauge =>
    refine withVessel_sound fun v => ?_
    simp only
    split
    · exact .refl F s
    split
    · exact .refl F s
    · exact .reply (State.Sound.settle ((runCut_sound v _).after rfl))
  case setVesselService =>
    refine withVessel_sound fun v => ?_
    simp only
    split
    · exact .refl F s
    split
    · exact .refl F s
    · exact .of_spots rfl
  case readVessel => exact withVessel_sound fun v => .refl F s
  case clearCompressor =>
    refine withComp_sound fun c => ?_
    simp only
    split
    · exact .refl F s
    · exact .reply (State.Sound.settle (.of_spots (spots_pursueDirAll c _)))
  case readCompressor => exact withComp_sound fun v => .refl F s
  case rearm =>
    unfold answerRearm
    split
    · exact .refl F s
    split
    · exact .refl F s
    · exact .reply (enableOn_sound s)
  case writeProfile via sec fields => exact absurd rfl (hw via sec fields)
  case readProfile =>
    unfold answerReadProfile
    split <;> exact State.Sound.refl F s
  case setLock =>
    rcases answerSetLock_cases _ s with e | ⟨-, -, e⟩ <;> rw [e] <;> exact .of_spots rfl
  case stageSetpoints =>
    rcases answerStageSetpoints_cases _ _ _ _ _ s with e | ⟨p, v, e⟩ <;> rw [e] <;> exact .of_spots rfl
  case setpointHold =>
    rcases answerSetpointHold_cases _ s with e | ⟨b, e⟩ <;> rw [e] <;> exact .of_spots rfl
  case commission => exact answerCommission_sound hF
  case restartSiding =>
    unfold answerRestart
    split
    · exact .refl F s
    · exact .reply (restart_sound s)

end Requests

end Sys2Proof.Machine
end

section
/-! PROOFS. Queues and hold sets fit their spots (O20), and spots owe nothing between events (O8). -/

namespace Sys2Proof.Machine

section Write

variable {F : SpotNo → Bool}

/-! ## A profile write on the lines (R168 to R171) -/

theorem takeUpSpot_fits (i : SpotNo) (s : State) : s.Fits F (takeUpSpot i s) := by
  have hv : ∀ (l : List ValveName) (u : State), u.Fits F (l.foldl (fun s n =>
      s.modSpot i fun sp => sp.setValve n ((sp.valve n).takeUp (s.strokeOf n))) u) := fun l u =>
    .foldl (fun s n => .of_line fun j => line_modSpot _ _ _ _ fun sp => Spot.setValve_line _ _ _) l u
  unfold takeUpSpot
  simp only
  refine (hv _ s).trans (State.Fits.foldl (fun t n => ?_) _ _)
  split
  · exact .at (fun j e => off_spotValveFault e _ _) (spotValveFault_fits _ _ _)
  · exact .refl F t

theorem superviseSpot_fits (b : State) (i : SpotNo) (s : State) : s.Fits F (superviseSpot b i s) := by
  unfold superviseSpot
  split
  · exact takeUpSpot_fits i s
  · exact .of_line fun j => line_modSpot _ _ _ _ fun sp => Spot.mapValves_line _ _
  · exact .refl F s

theorem takeUpComp_sound (c : CompNo) (s : State) : s.Sound F (takeUpComp c s) := by
  unfold takeUpComp
  simp only
  generalize hu : s.modComp c _ = u
  have hs : u.spots = s.spots := by rw [← hu]; rfl
  refine State.Sound.after (.foldl (fun t d => ?_) _ u) hs
  split
  · exact faultComp_sound _ _ _
  · exact .refl F t

theorem superviseComp_sound (b : State) (c : CompNo) (s : State) : s.Sound F (superviseComp b c s) := by
  unfold superviseComp
  split
  · exact takeUpComp_sound c s
  · exact .refl F s

theorem greetComp_sound (b : State) (c : CompNo) (s : State) : s.Sound F (greetComp b c s) := by
  unfold greetComp
  split
  · exact faultComp_sound _ _ _
  · exact .refl F s

theorem refitComp_sound (b : State) (c : CompNo) (s : State) : s.Sound F (refitComp b c s) := by
  unfold refitComp
  split
  · exact .of_spots (spots_stopComp c s)
  · exact .refl F s

theorem releaseComp_sound (b : State) (c : CompNo) (s : State) : s.Sound F (releaseComp b c s) := by
  unfold releaseComp
  split
  · exact .of_spots rfl
  · exact .refl F s

theorem clearRemainder_sound (b : State) (i : SpotNo) (s : State) : s.Sound F (clearRemainder b i s) := by
  unfold clearRemainder
  split
  · exact .refl F s
  · exact .idle rfl id

theorem loseGauge_sound (b : State) (v : VesselNo) (s : State) : s.Sound F (loseGauge b v s) := by
  unfold loseGauge
  split
  · exact .refl F s
  · exact .of_spots rfl

theorem rejudge_sound (b s : State) : s.Sound F (rejudge b s) := by
  have h : s.Sound F (if s.esdActive then esdBecomesActive s else s) := by
    split
    · exact esdBecomesActive_sound s
    · exact .refl F s
  unfold rejudge
  simp only
  split
  · exact h
  · exact h.trans (.eachFittedComp (fun c s => .of_spots (spots_compPassGuard c s)) _)

theorem takeSection_fits (b : State) (w : Section) (s : State) : s.Fits F (takeSection b w s) := by
  have hspots : ∀ u : State, u.Fits F (eachSpot (superviseSpot b) u) := fun u =>
    .foldl (fun s i => superviseSpot_fits b i s) _ u
  have hcomps : ∀ u : State, u.Fits F (eachComp (superviseComp b) u) := fun u =>
    (State.Sound.eachComp (superviseComp_sound b) u).fits
  cases w with
  | site p =>
    have h1 := State.Sound.eachComp (F := F) (releaseComp_sound b) s
    have h2 := h1.trans (.eachComp (refitComp_sound b) _)
    have h3 := h2.trans (.eachComp (greetComp_sound b) _)
    exact (h3.fits.trans (hspots _)).trans (hcomps _)
  | spots p => exact ((State.Sound.eachSpot (clearRemainder_sound b) s).fits.trans (hspots _)).trans (hcomps _)
  | vessels p => exact (State.Sound.foldl (fun s v => loseGauge_sound b v s) _ s).fits
  | protection p => exact (rejudge_sound b s).fits

theorem spots_sidingAfterWrite (w : Section) (s : State) : (sidingAfterWrite w s).spots = s.spots := by
  obtain ⟨x, e, -⟩ := sidingAfterWrite_eq w s
  rw [e]

theorem spots_storeSection (w : Section) (s : State) : (storeSection w s).spots = s.spots := by
  rw [storeSection_eq]

/-- The state in which a write's section is taken. -/
theorem spots_written (w : Section) (s : State) : (sidingAfterWrite w (storeSection w s)).spots = s.spots :=
  (spots_sidingAfterWrite w _).trans (spots_storeSection w s)

theorem acceptWrite_fits (w : Section) (s : State) : s.Fits F (acceptWrite w s) := by
  unfold acceptWrite
  refine State.Fits.trans (State.Sound.fits (.of_spots (spots_written w s))) ?_
  exact (takeSection_fits s w _).trans
    ((State.Sound.of_spots (flagSiding_spots (takeSection s w (sidingAfterWrite w (storeSection w s))))).settle).fits

theorem acceptWrite_sound {w : Section} (h : w.isQuietClass = false) (s : State) : s.Sound F (acceptWrite w s) := by
  obtain ⟨p, rfl⟩ : ∃ p, w = .protection p := by cases w <;> first | exact ⟨_, rfl⟩ | cases h
  unfold acceptWrite
  exact State.Sound.settle (State.Sound.after
    ((rejudge_sound s _).trans (.of_spots (flagSiding_spots (takeSection s (.protection p) _))))
    (spots_written (.protection p) s))

/-- Alike in all that arrivals look at. -/
theorem steady_of_alike {a b : Spot} (hl : b.line = a.line) (hst : b.standing = a.standing) (hm : b.stall = a.stall)
    (hv : ∀ n, (b.valve n).state = (a.valve n).state) (h : a.steady) : b.steady := by
  have hopen : ∀ n, (b.valve n).isOpen = (a.valve n).isOpen := fun n => by unfold Valve.isOpen; rw [hv]
  have hshut : ∀ n, (b.valve n).isShut = (a.valve n).isShut := fun n => by unfold Valve.isShut; rw [hv]
  have hhead : ∀ st, b.headIs st = a.headIs st := fun st => by
    unfold Spot.headIs Spot.head; rw [Spot.orders_of_line hl]; rfl
  have hstate : b.state = a.state := Spot.state_of_line hl
  have hstep : b.step = a.step := congrArg Line.step hl
  have hlines : b.linesShut = a.linesShut := by
    unfold Spot.linesShut
    rw [show b.liquid.isShut = a.liquid.isShut from hshut .liquid, show b.vapour.isShut = a.vapour.isShut from hshut .vapour,
      show b.shutoff.isShut = a.shutoff.isShut from hshut .shutoff]
  unfold Spot.steady at *
  rw [hstate, hstep, hst, hm, hlines, hhead, hhead, hhead,
    show b.shutoff.isOpen = a.shutoff.isOpen from hopen .shutoff, show b.liquid.isOpen = a.liquid.isOpen from hopen .liquid,
    show b.liquid.isShut = a.liquid.isShut from hshut .liquid, show b.vapour.isShut = a.vapour.isShut from hshut .vapour,
    show b.vent.isOpen = a.vent.isOpen from hopen .vent, show b.vent.isShut = a.vent.isShut from hshut .vent]
  exact h

/-- What a valve's filters and timers do reaches no queue and no arrival. -/
theorem modValve_sound (v : ValveId) (g : Valve → Valve) (hg : ∀ x, (g x).state = x.state) (s : State) :
    s.Sound F (s.modValve v g) := by
  cases v with
  | direction c d => exact .of_spots rfl
  | spot i n =>
    have hl := Spot.setValve_line n (g ((s.spot i).valve n)) (s.spot i)
    exact .idle hl (steady_of_alike hl (by cases n <;> rfl) (by cases n <;> rfl) fun m => by
      cases n <;> cases m <;> first | rfl | exact hg _)

end Write

/-! ## Every step -/

/-- A property of spots and profile that sound events keep is kept by every step but PIN_RESET, where profile writes keep it. -/
theorem stepClosed_of_sound {P : State → Prop}
    (hP : ∀ s t, s.Sound s.fittedSpot t → t.profile = s.profile → P s → P t)
    (hw : ∀ w s, (w.isQuietClass = true → s.quiet = true) → P s → P (acceptWrite w s)) : StepClosed P where
  link := by
    rintro s _ ⟨l, ch, rfl⟩ h
    exact hP s _ (.of_spots rfl) rfl h
  queue := fun s _ h => hP s _ (.of_spots rfl) rfl h
  tick := fun s h => by
    refine hP s _ (fun i => ?_) rfl h
    rw [tick_spot]
    refine ⟨.of_eq rfl, fun _ hs => ?_⟩
    obtain ⟨hr, hi⟩ := (steady_iff _).mp hs
    refine (steady_iff _).mpr ⟨⟨hr.proving, fun c => hr.transfer ⟨c.1, c.2.1, c.2.2.1, ?_⟩, hr.drained, hr.resumed⟩,
      ⟨hi.lines, hi.opened, hi.closed⟩⟩
    have hstall : (s.spot i).stall.tick.isRunning = false := c.2.2.2
    revert hstall
    cases (s.spot i).stall <;> exact id
  execute := fun c s h => by
    rcases execute_cases c s with e | ⟨l, ch, e⟩
    · rw [e]
      have h0 : P (clearScratch s) := hP s _ (.of_spots rfl) rfl h
      refine hP _ _ (.of_spots (closeEvent_spots _ _)) (closeEvent_profile _ _) ?_
      by_cases hc : ∃ via sec fields, c = .writeProfile via sec fields
      · obtain ⟨via, sec, fields, rfl⟩ := hc
        rcases answerWriteProfile_cases sec fields (clearScratch s) with e | ⟨w, -, -, hq, -, e⟩ <;> simp only [answer] <;>
          rw [e]
        · exact h0
        · exact hw w _ hq h0
      · refine hP _ _ (answer_sound c (fun _ h => h) fun via sec fields e => hc ⟨via, sec, fields, e⟩) ?_ h0
        by_cases hb : Instr.bondRequest c = true
        · rcases config_bondRequest c (clearScratch s) hb with ⟨-, hp⟩ | ⟨_, _, _, _, ec, -⟩
          · exact hp
          · exact absurd ⟨_, _, _, ec⟩ hc
        · exact profile_answer c _ (by simpa using hb)
    · rw [e]; exact hP s _ (.of_spots rfl) rfl h
  filter := fun x f s h => by
    refine hP s _ ?_ (profile_of_guarded (by cases x <;> simp [State.withFilter])) h
    cases x with
    | openLimit v => exact modValve_sound v _ (by intros; rfl) s
    | shutLimit v => exact modValve_sound v _ (by intros; rfl) s
    | trip v => exact .of_spots rfl
    | run c => exact .of_spots rfl
    | faultInput c => exact .of_spots rfl
    | _ i => exact .idle rfl id
  limitFilters := fun v f g s h => by
    exact hP s _ (modValve_sound v _ (by intros; rfl) s) (profile_of_guarded (guarded_modValve _ _ _)) h
  pulse := fun i s h => hP s _ (.of_event (takePulse_sound i _ id)) (profile_of_guarded (guarded_event _ _ (guarded_takePulse i))) h
  litre := fun i s h => hP s _ (.of_event (takeLitre_sound i _ id)) (profile_of_guarded (guarded_event _ _ (guarded_takeLitre i))) h
  limit := fun v o sh s h => hP s _ (limitChange_sound v o sh s) (profile_of_guarded (guarded_limitChange v o sh s)) h
  bond := fun i b s h => hP s _ (bondChange_sound i b s) (profile_of_guarded (guarded_bondChange i b s)) h
  hose := fun i b s h => hP s _ (hoseChange_sound i b s) (profile_of_guarded (guarded_hoseChange i b s)) h
  residual := fun i b s h => hP s _ (residualChange_sound i b s) (profile_of_guarded (guarded_residualChange i b s)) h
  connected := fun i s h => hP s _ (connectedPressed_sound i s) (profile_of_guarded (guarded_connectedPressed i s)) h
  stop := fun i s h => hP s _ (stopPressed_sound i s) (profile_of_guarded (guarded_stopPressed i s)) h
  clear := fun i s h => hP s _ (clearPressed_sound i s) (profile_of_guarded (guarded_clearPressed i s)) h
  trip := fun v b s h => hP s _ (tripChange_sound v b s) (profile_of_guarded (guarded_tripChange v b s)) h
  run := fun c b s h => hP s _ (runChange_sound c b s) (profile_of_guarded (guarded_runChange c b s)) h
  faultInput := fun c b s h => hP s _ (faultChange_sound c b s) (profile_of_guarded (guarded_faultChange c b s)) h
  esd := fun b s h => by
    refine hP s _ (.of_event (changeEsdLevel_sound b _)) ((closeEvent_profile _ _).trans ?_) h
    rcases guarded_changeEsdLevel b (clearScratch s) with ⟨e, -⟩ | e <;> exact congrArg Guarded.profile e
  beat := fun s h => by
    refine hP s _ (.of_event (takeBeat_sound _)) ((closeEvent_profile _ _).trans ?_) h
    rcases guarded_takeBeat (clearScratch s) with ⟨n, e, -⟩ | ⟨-, e⟩ <;> exact congrArg Guarded.profile e
  pressureWait := fun i s h => hP s _ (pressureWaitExpires_sound i s) (profile_of_guarded (guarded_pressureWaitExpires i s)) h
  pressureHold := fun i s h => hP s _ (pressureHoldExpires_sound i s) (profile_of_guarded (guarded_pressureHoldExpires i s)) h
  bleed := fun i s h => hP s _ (bleedExpires_sound i s) (profile_of_guarded (guarded_bleedExpires i s)) h
  recovery := fun i s h => hP s _ (recoveryExpires_sound i s) (profile_of_guarded (guarded_recoveryExpires i s)) h
  stall := fun i s h => hP s _ (stallExpires_sound i s) (profile_of_guarded (guarded_stallExpires i s)) h
  window := fun i s h => hP s _ (windowExpires_sound i s) (by unfold windowExpires; split <;> rfl) h
  start := fun c s h => hP s _ (startExpires_sound c s) (profile_of_guarded (guarded_startExpires c s)) h
  runOn := fun c s h => hP s _ (runOnExpires_sound c s) (profile_of_guarded (guarded_runOnExpires c s)) h
  proofRun := fun c s h => hP s _ (proofRunExpires_sound c s) (profile_of_guarded (guarded_proofRunExpires c s)) h
  guard := fun c d s h => hP s _ (guardExpires_sound c d s) (profile_of_guarded (guarded_guardExpires c d s)) h
  stroke := fun v s h => hP s _ (strokeExpires_sound v s) (profile_of_guarded (guarded_strokeExpires v s)) h
  flash := fun i s h => hP s _ (flashToggles_sound i s) (by unfold flashToggles; split <;> rfl) h

/-! ## O20 and O8 -/

/-- Settles O20: every event takes a legal line to a legal line, and PIN_RESET to the empty one. -/
theorem queuesStayLegal : Obligations.QueuesStayLegal := fun s t h he => by
  refine step_keeps_all (P := fun s => ∀ i, (s.spot i).queueLegal ∧ (s.spot i).holdsLegal) (stepClosed_of_sound ?_ ?_) ?_ h he
  · intro s t hst _ hs i
    obtain ⟨hl, hh, -⟩ := (hst i).fits ((queueLegal_iff _).mp (hs i).1)
    exact ⟨(queueLegal_iff _).mpr hl, hh (hs i).2⟩
  · intro w s _ hs i
    obtain ⟨hl, hh, -⟩ := acceptWrite_fits (F := fun _ => true) w s i ((queueLegal_iff _).mp (hs i).1)
    exact ⟨(queueLegal_iff _).mpr hl, hh (hs i).2⟩
  · intro x s _ i
    rw [pinReset_spot]
    exact ⟨Spot.reset_queueLegal, fun _ => rfl⟩

/-- What O8 says of one state. -/
def State.owesNothing (s : State) : Prop := ∀ i, (s.spot i).queueLegal ∧ s.unfittedQuiet i ∧ (s.spot i).steady

theorem owesNothing_of_sound {s t : State} (h : s.Sound s.fittedSpot t) (hp : t.profile = s.profile) (hs : s.owesNothing) :
    t.owesNothing := fun i => by
  obtain ⟨hleg, hquiet, hsteady⟩ := hs i
  have hl := (queueLegal_iff _).mp hleg
  obtain ⟨hl', -, hq⟩ := (h i).fits hl
  have hfit : t.fittedSpot i = s.fittedSpot i := by unfold State.fittedSpot State.site; rw [hp]
  exact ⟨(queueLegal_iff _).mpr hl', fun hf => hq (hfit ▸ hf) (hquiet (hfit ▸ hf)), (h i).steady hl hsteady⟩

/-- A write of a quiet class finds every spot quiet, and leaves it so. -/
theorem owesNothing_acceptWrite {w : Section} {s : State} (hq : w.isQuietClass = true → s.quiet = true)
    (hs : s.owesNothing) : (acceptWrite w s).owesNothing := by
  cases hw : w.isQuietClass with
  | true =>
    intro i
    obtain ⟨hleg, hquiet, -⟩ := hs i
    have hall : (s.spot i).state.quiet = true := by
      cases hf : s.fittedSpot i with
      | true => exact quiet_spot (hq hw) hf
      | false => exact hquiet hf
    obtain ⟨hl, -, hq'⟩ := acceptWrite_fits (F := fun _ => false) w s i ((queueLegal_iff _).mp hleg)
    have hqt : ((acceptWrite w s).spot i).state.quiet = true := hq' rfl hall
    refine ⟨(queueLegal_iff _).mpr hl, fun _ => hqt, Spot.steady_of_idle (hl.orders_of_quiet hqt) ?_ ?_⟩ <;>
      intro e <;> rw [e] at hqt <;> cases hqt
  | false =>
    obtain ⟨p, rfl⟩ : ∃ p, w = .protection p := by cases w <;> first | exact ⟨_, rfl⟩ | cases hw
    intro i
    obtain ⟨hleg, hquiet, hsteady⟩ := hs i
    have hl := (queueLegal_iff _).mp hleg
    have h := acceptWrite_sound (F := s.fittedSpot) hw s i
    obtain ⟨hl', -, hqt⟩ := h.fits hl
    have hfit : (acceptWrite (.protection p) s).fittedSpot i = s.fittedSpot i := by
      unfold State.fittedSpot State.site
      rw [acceptWrite_profile]
      rfl
    exact ⟨(queueLegal_iff _).mpr hl', fun hf => hqt (hfit ▸ hf) (hquiet (hfit ▸ hf)), h.steady hl hsteady⟩

/-- Settles O8: every event works off the arrivals it brings, and a spot that it does not reach owes what it owed. -/
theorem spotsOweNothingBetweenEvents : Obligations.SpotsOweNothingBetweenEvents := fun s t h he =>
  step_keeps_all (P := State.owesNothing)
    (stepClosed_of_sound (fun _ _ => owesNothing_of_sound) fun _ _ => owesNothing_acceptWrite)
    (fun x s _ i => by
      rw [pinReset_spot]
      refine ⟨Spot.reset_queueLegal, fun _ => ?_, Spot.reset_steady⟩
      rw [pinReset_spot]; rfl)
    h he

end Sys2Proof.Machine
end

section
/-! PROOFS. The characters of requests (R188, R189, section 11.2): a reader gives back what was written and leaves what follows, and
what is read whole from some characters is read the same from more. -/

namespace Sys2Proof.Machine

/-! ## Readers that leave what follows -/

/-- What a reader takes from some characters it takes from them with more behind, and leaves these. -/
def Stable {α : Type} (f : List Byte → Option (α × List Byte)) : Prop :=
  ∀ cs a r x, f cs = some (a, r) → f (cs ++ x) = some (a, r ++ x)

theorem stable_pure {α : Type} (a : α) : Stable fun cs => some (a, cs) := by
  rintro cs b r x ⟨⟩
  rfl

theorem stable_bind {α β : Type} {f : List Byte → Option (α × List Byte)} {g : α → List Byte → Option (β × List Byte)}
    (hf : Stable f) (hg : ∀ a, Stable (g a)) : Stable fun cs => (f cs).bind fun q => g q.1 q.2 := by
  intro cs b r x h
  obtain ⟨⟨a, r'⟩, hfa, hga⟩ := Option.bind_eq_some_iff.mp h
  simp only [hf cs a r' x hfa, Option.bind_some]
  exact hg a r' b r x hga

theorem stable_readByte : Stable readByte := by
  rintro (_ | ⟨c, cs⟩) a r x h <;> cases h
  rfl

theorem stable_readWord16 : Stable readWord16 := by
  rintro (_ | ⟨c, _ | ⟨d, cs⟩⟩) a r x h <;> cases h
  rfl

theorem stable_readWord32 : Stable readWord32 := by
  rintro (_ | ⟨c, _ | ⟨d, _ | ⟨e, _ | ⟨f, cs⟩⟩⟩⟩) a r x h <;> cases h
  rfl

theorem stable_readChars (n : Nat) : Stable (readChars n) := by
  intro cs a r x h
  unfold readChars at h ⊢
  split at h
  · rename_i hn
    cases h
    rw [if_pos (by rw [List.length_append]; omega), List.take_append_of_le_length hn, List.drop_append_of_le_length hn]
  · cases h

theorem stable_readText : Stable readText := by
  rintro (_ | ⟨n, cs⟩) a r x h
  · cases h
  · exact stable_readChars n.toNat cs a r x h

theorem stable_readOptional {α : Type} {f : List Byte → Option (α × List Byte)} (hf : Stable f) :
    Stable (readOptional f) := by
  rintro (_ | ⟨p, cs⟩) a r x h
  · cases h
  · simp only [List.cons_append, readOptional] at h ⊢
    by_cases hp : p = 0
    · rw [if_pos hp] at h ⊢
      cases h
      rfl
    · rw [if_neg hp] at h ⊢
      obtain ⟨⟨b, r'⟩, hb, e⟩ := Option.map_eq_some_iff.mp h
      cases e
      rw [hf cs b _ x hb]
      rfl

theorem stable_parse (v : Via) (k : Byte) : Stable (parse v k) := by
  have h8 := stable_readByte
  have h16 := stable_readWord16
  have h32 := stable_readWord32
  have ht := stable_readText
  have h1 : ∀ m : Byte → Instr, Stable (readOne m) := fun m => stable_bind h8 fun b => stable_pure _
  have h2 : ∀ m : Byte → Byte → Instr, Stable (readTwo m) := fun m =>
    stable_bind h8 fun a => stable_bind h8 fun b => stable_pure _
  intro cs a r x h
  unfold parse at h ⊢
  revert h
  split
  case h_1 =>
    exact (stable_bind ht fun _ => stable_bind h8 fun _ => stable_bind h32 fun _ => stable_pure _ : Stable (parseAnnounce v)) cs a r x
  case h_2 =>
    exact (stable_bind h8 fun _ => stable_bind h8 fun _ => stable_bind h16 fun _ =>
      stable_bind (stable_readOptional ht) fun _ => stable_bind (stable_readOptional h8) fun _ =>
      stable_bind (stable_readOptional h32) fun _ => stable_bind (stable_readOptional h8) fun _ => stable_pure _ :
        Stable (parseAmend v)) cs a r x
  case h_4 => exact (stable_bind ht fun _ => stable_pure _ : Stable (parseFind v)) cs a r x
  case h_6 =>
    exact (stable_bind h8 fun _ => stable_bind h8 fun _ => stable_bind h16 fun _ => stable_pure _ : Stable (parseRelease v)) cs a r x
  case h_7 =>
    exact (stable_bind h8 fun _ => stable_bind h8 fun _ => stable_bind h8 fun _ => stable_pure _ : Stable (parseSpot v)) cs a r x
  case h_16 =>
    exact (stable_bind h8 fun _ => stable_bind h16 fun _ => stable_bind h8 fun _ =>
      stable_bind (stable_readOptional h32) fun _ => stable_bind (stable_readOptional h8) fun _ =>
      stable_bind h8 fun _ => stable_pure _ : Stable (parsePlaceOrder v)) cs a r x
  case h_17 =>
    exact (stable_bind h8 fun _ => stable_bind h16 fun _ => stable_bind h32 fun _ => stable_pure _ : Stable (parseTrim v)) cs a r x
  case h_18 =>
    exact (stable_bind h8 fun _ => stable_bind h16 fun _ => stable_pure _ : Stable (parseCancelOrder v)) cs a r x
  case h_19 =>
    exact (stable_bind h8 fun _ => stable_bind h32 fun _ => stable_bind h32 fun _ => stable_pure _ : Stable (parseGauge v)) cs a r x
  case h_25 =>
    exact (stable_bind h8 fun _ => stable_bind (stable_readChars _) fun _ => stable_pure _ : Stable (parseWriteProfile v)) cs a r x
  case h_28 =>
    exact (stable_bind h16 fun _ => stable_bind h8 fun _ => stable_bind h16 fun _ => stable_bind h16 fun _ =>
      stable_bind h16 fun _ => stable_pure _ : Stable (parseStageSetpoints v)) cs a r x
  case h_3 | h_13 | h_20 => exact h2 _ cs a r x
  case h_8 | h_9 | h_10 | h_11 | h_14 | h_15 | h_21 | h_22 | h_23 | h_26 | h_27 | h_29 => exact h1 _ cs a r x
  case h_5 | h_12 | h_24 | h_30 | h_31 | h_32 | h_33 | h_34 => exact stable_pure _ cs a r x
  case h_35 => intro h; cases h

/-! ## Reading what was written -/


theorem word16_chars (w : Word16) : word16 (w.extractLsb' 8 8) (w.extractLsb' 0 8) = w := by
  unfold word16
  rw [BitVec.extractLsb'_append_extractLsb'_eq_extractLsb' (by rfl)]
  simp

theorem word32_chars (w : Word32) :
    word32 (w.extractLsb' 24 8) (w.extractLsb' 16 8) (w.extractLsb' 8 8) (w.extractLsb' 0 8) = w := by
  unfold word32
  rw [BitVec.extractLsb'_append_extractLsb'_eq_extractLsb' (by rfl),
    BitVec.extractLsb'_append_extractLsb'_eq_extractLsb' (by rfl),
    BitVec.extractLsb'_append_extractLsb'_eq_extractLsb' (by rfl)]
  simp

theorem readWord16_chars (w : Word16) (r : List Byte) : readWord16 (chars16 w ++ r) = some (w, r) :=
  congrArg (fun x => some (x, r)) (word16_chars w)

theorem readWord32_chars (w : Word32) (r : List Byte) : readWord32 (chars32 w ++ r) = some (w, r) :=
  congrArg (fun x => some (x, r)) (word32_chars w)

theorem readChars_append {n : Nat} {m : List Byte} (h : m.length = n) (r : List Byte) : readChars n (m ++ r) = some (m, r) := by
  subst h
  unfold readChars
  rw [if_pos (by rw [List.length_append]; omega), List.take_left, List.drop_left]

theorem readText_text {m : List Byte} (h : markFits m = true) (r : List Byte) : readText (Layout.text m ++ r) = some (m, r) := by
  have hl : (Layout.byteOf m.length).toNat = m.length := by
    unfold Layout.byteOf
    rw [BitVec.toNat_ofNat]
    have : m.length ≤ 255 := by simpa [markFits] using h
    omega
  exact readChars_append hl.symm r

theorem readOptional_optional {α : Type} {f : List Byte → Option (α × List Byte)} {g : α → List Byte} {o : Option α}
    (r : List Byte) (h : ∀ a, o = some a → ∀ r, f (g a ++ r) = some (a, r)) :
    readOptional f (Layout.optional g o ++ r) = some (o, r) := by
  cases o with
  | none => rfl
  | some a =>
    show (if (1 : Byte) = 0 then some (none, g a ++ r) else (f (g a ++ r)).map fun q => (some q.1, q.2)) = _
    rw [if_neg (by decide), h a rfl]
    rfl

theorem readOptional_byte (o : Option Byte) (r : List Byte) :
    readOptional readByte (Layout.optional (fun b => [b]) o ++ r) = some (o, r) :=
  readOptional_optional r fun _ _ _ => rfl

theorem readOptional_word32 (o : Option Word32) (r : List Byte) :
    readOptional readWord32 (Layout.optional chars32 o ++ r) = some (o, r) :=
  readOptional_optional r fun a _ r => readWord32_chars a r

/-- Settles O12: each reader of a request's body gives back what the body writes and leaves what follows. -/
theorem requestCharactersReadBack : Obligations.RequestCharactersReadBack := by
  intro c rest hw hk
  have hr : ∀ b (r : List Byte), readByte (b :: r) = some (b, r) := fun _ _ => rfl
  cases c <;> try contradiction
  case unknownRequest via k =>
    have : knownCode k = false := by simpa [WellFormed] using hw
    rw [show code (.unknownRequest via k) = k from rfl, this] at hk; cases hk
  case announce via mark grade load =>
    have ht : markFits mark = true := hw
    show parseAnnounce via _ = _
    simp only [parseAnnounce, body, List.append_assoc, readText_text ht, hr, readWord32_chars, List.cons_append, List.nil_append,
      Option.bind_eq_bind, Option.bind_some]
  case amend via slot issue expected mark grade load hoses =>
    have ht : ∀ r, readOptional readText (Layout.optional Layout.text mark ++ r) = some (mark, r) := fun r =>
      readOptional_optional r fun m e r => readText_text (by subst e; exact hw) r
    show parseAmend via _ = _
    simp only [parseAmend, body, List.append_assoc, ht, hr, readWord16_chars, readOptional_byte, readOptional_word32,
      List.cons_append, List.nil_append, Option.bind_eq_bind, Option.bind_some]
  case find via mark =>
    have ht : markFits mark = true := hw
    show parseFind via _ = _
    simp only [parseFind, body, readText_text ht, Option.bind_eq_bind, Option.bind_some]
  case writeProfile via sec fields =>
    have hl : fields.length = sectionLength sec := by simpa [WellFormed] using hw
    show parseWriteProfile via _ = _
    simp only [parseWriteProfile, body, hr, readChars_append hl, List.cons_append, Option.bind_eq_bind, Option.bind_some]
  case release via slot issue expected =>
    show parseRelease via _ = _
    simp only [parseRelease, body, hr, readWord16_chars, List.cons_append, List.nil_append,
      Option.bind_eq_bind, Option.bind_some]
  case placeOrder via place tag kind target vessel closeAfter =>
    show parsePlaceOrder via _ = _
    simp only [parsePlaceOrder, body, List.append_assoc, hr, readWord16_chars, readOptional_byte, readOptional_word32,
      List.cons_append, List.nil_append, Option.bind_eq_bind, Option.bind_some]
  case trim via place tag target =>
    show parseTrim via _ = _
    simp only [parseTrim, body, List.append_assoc, hr, readWord16_chars, readWord32_chars, List.cons_append, List.nil_append,
      Option.bind_eq_bind, Option.bind_some]
  case cancelOrder via place tag =>
    show parseCancelOrder via _ = _
    simp only [parseCancelOrder, body, hr, readWord16_chars, List.cons_append, List.nil_append,
      Option.bind_eq_bind, Option.bind_some]
  case gauge via vessel free stamp =>
    show parseGauge via _ = _
    simp only [parseGauge, body, List.append_assoc, hr, readWord32_chars, List.cons_append, List.nil_append,
      Option.bind_eq_bind, Option.bind_some]
  case stageSetpoints via flowHigh window stall recovery creep =>
    show parseStageSetpoints via _ = _
    simp only [parseStageSetpoints, body, List.append_assoc, hr, readWord16_chars, List.cons_append, List.nil_append,
      Option.bind_eq_bind, Option.bind_some]
  all_goals rfl

end Sys2Proof.Machine
end

section
/-! PROOFS. The characters of the command link (R185 to R191): a whole request is the sum of its characters, a head character begins
or completes a request, and what a discard and a surplus character do. -/

namespace Sys2Proof.Machine

/-! ## The form lock, and what a head character breaks into -/

theorem hears_clocked {f : LinkForm} : f.hears .clocked = true ↔ f = .clocked := by cases f <;> decide
theorem hears_receive {f : LinkForm} : f.hears .receive = true ↔ f = .asynchronous := by cases f <;> decide

theorem lockForm_unlocked (line : Sys2Proof.Line) {s : State} (h : s.link.form = .unlocked) :
    lockForm line s = (s.modLink fun l => { l with form := match line with
      | .clocked => .clocked
      | .receive => .asynchronous }).flagSiding := if_pos h

theorem lockForm_clocked {s : State} (h : s.link.form ≠ .asynchronous) : (lockForm .clocked s).link.form = .clocked :=
  hears_clocked.mp (hears_of_canTake s .clocked (by simpa [State.canTake] using h))

theorem lockForm_receive {s : State} (h : s.link.form ≠ .clocked) : (lockForm .receive s).link.form = .asynchronous := by
  by_cases hu : s.link.form = .unlocked
  · rw [lockForm_unlocked _ hu]; rfl
  · rw [lockForm_locked _ _ hu]
    cases hf : s.link.form <;> simp_all

theorem lockForm_incoming (line : Sys2Proof.Line) (s : State) : (lockForm line s).link.incoming = s.link.incoming := by
  unfold lockForm; split <;> rfl

theorem lockForm_fetching (line : Sys2Proof.Line) (s : State) : (lockForm line s).link.fetching = s.link.fetching := by
  unfold lockForm; split <;> rfl

theorem endFetch_none {s : State} (h : s.link.fetching = none) : endFetch s = s := by
  unfold endFetch; rw [h]

theorem endFetch_some {s : State} {o : Outgoing} (h : s.link.fetching = some o) :
    endFetch s = s.modLink fun l => { l with fetching := none, discarded := l.discarded || decide (o.sent < o.length) } := by
  unfold endFetch; rw [h]

theorem discardPartial_none {s : State} (h : s.link.incoming = none) : discardPartial s = s := by
  unfold discardPartial; rw [h]

theorem discardPartial_some {s : State} {p : PartialRequest} (h : s.link.incoming = some p) :
    discardPartial s = s.modLink fun l =>
      { l with incoming := none, discarded := l.discarded || l.form == .clocked || p.addressing != .awaited } := by
  unfold discardPartial; rw [h]

theorem endFetch_fetching (s : State) : (endFetch s).link.fetching = none := by
  unfold endFetch
  split
  · assumption
  · rfl

theorem discardPartial_fetching (s : State) : (discardPartial s).link.fetching = s.link.fetching := by
  unfold discardPartial; split <;> rfl

/-! ## Partial requests -/

/-- The part with this partial request. -/
def State.partway (s : State) (p : PartialRequest) : State := s.modLink fun l => { l with incoming := some p }

/-- The part without a partial request. -/
def State.noPartial (s : State) : State := s.modLink fun l => { l with incoming := none }

/-- The part past what a head character breaks into. -/
def State.cleared (s : State) : State := (discardPartial (endFetch s)).modLink fun l => { l with answered := false }

/-- The partial request that a head character begins on a line. -/
def PartialRequest.opened (line : Sys2Proof.Line) (ch : Byte) : PartialRequest :=
  { code := ch, chars := []
    addressing := match line with
      | .clocked => .own
      | .receive => .awaited }

theorem openRequest_heard {line : Sys2Proof.Line} {s : State} (ch : Byte) (h : (lockForm line s).link.form.hears line = true) :
    openRequest line ch s = ((lockForm line s).cleared).partway (.opened line ch) := by
  unfold openRequest
  simp only [h, if_true]
  rfl

theorem receiveHead_heard {line : Sys2Proof.Line} {s : State} (ch : Byte) (h : (lockForm line s).link.form.hears line = true) :
    receiveHead line ch s = tryComplete (((lockForm line s).cleared).partway (.opened line ch)) := by
  unfold receiveHead
  rw [if_pos h, openRequest_heard ch h]

theorem partway_noPartial (s : State) (p : PartialRequest) : (s.partway p).noPartial = s.noPartial := rfl

theorem tryComplete_awaited (s : State) {p : PartialRequest} (h : p.addressing = .awaited) :
    tryComplete (s.partway p) = s.partway p := by
  show (if p.addressing = .awaited then s.partway p else _) = _
  rw [if_pos h]

/-- Characters that do not make a request whole leave it partial. -/
theorem tryComplete_short (s : State) {p : PartialRequest} (hk : knownCode p.code = true)
    (hp : ∀ c, parse (s.routeOf p.addressing) p.code p.chars ≠ some (c, [])) :
    tryComplete (s.partway p) = s.partway p := by
  by_cases ha : p.addressing = .awaited
  · exact tryComplete_awaited s ha
  · show (if p.addressing = .awaited then s.partway p else if knownCode p.code = true then
      match parse (s.routeOf p.addressing) p.code p.chars with
      | some (c, []) => complete p.addressing c s.noPartial
      | _ => s.partway p
      else complete p.addressing (.unknownRequest (s.routeOf p.addressing) p.code) s.noPartial) = _
    rw [if_neg ha, if_pos hk]
    split
    · exact absurd ‹_› (hp _)
    · rfl

/-- Characters that make a request whole complete it. -/
theorem tryComplete_whole (s : State) {p : PartialRequest} {c : Instr} (ha : p.addressing ≠ .awaited)
    (hk : knownCode p.code = true) (hp : parse (s.routeOf p.addressing) p.code p.chars = some (c, [])) :
    tryComplete (s.partway p) = complete p.addressing c s.noPartial := by
  show (if p.addressing = .awaited then s.partway p else if knownCode p.code = true then
    match parse (s.routeOf p.addressing) p.code p.chars with
    | some (c, []) => complete p.addressing c s.noPartial
    | _ => s.partway p
    else complete p.addressing (.unknownRequest (s.routeOf p.addressing) p.code) s.noPartial) = _
  rw [if_neg ha, if_pos hk, hp]

/-- A request with no known code is whole at once. -/
theorem tryComplete_unknown (s : State) {p : PartialRequest} (ha : p.addressing ≠ .awaited) (hk : knownCode p.code = false) :
    tryComplete (s.partway p) = complete p.addressing (.unknownRequest (s.routeOf p.addressing) p.code) s.noPartial := by
  show (if p.addressing = .awaited then s.partway p else if knownCode p.code = true then
    match parse (s.routeOf p.addressing) p.code p.chars with
    | some (c, []) => complete p.addressing c s.noPartial
    | _ => s.partway p
    else complete p.addressing (.unknownRequest (s.routeOf p.addressing) p.code) s.noPartial) = _
  rw [if_neg ha, if_neg (by simp [hk])]

theorem receiveBody_partway (line : Sys2Proof.Line) (ch : Byte) (s : State) {p : PartialRequest} (hh : s.link.form.hears line = true)
    (ha : p.addressing ≠ .awaited) :
    receiveBody line ch (s.partway p) = tryComplete (s.partway { p with chars := p.chars ++ [ch] }) := by
  show (if s.link.form.hears line then if p.addressing = .awaited then _ else _ else _) = _
  rw [if_pos hh, if_neg ha]
  rfl

theorem receiveBody_awaited (ch : Byte) (s : State) {p : PartialRequest} (hh : s.link.form.hears .receive = true)
    (ha : p.addressing = .awaited) :
    receiveBody .receive ch (s.partway p) = match s.addressed p.code ch with
      | some a => tryComplete (s.partway { p with addressing := a })
      | none => s.noPartial := by
  show (if s.link.form.hears .receive then if p.addressing = .awaited then receiveAddress p ch (s.partway p) else _ else _) = _
  rw [if_pos hh, if_pos ha]
  rfl

/-- A part that has answered nothing since its last request takes surplus characters without a trace. -/
theorem receiveBody_idle (line : Sys2Proof.Line) (ch : Byte) {s : State} (hi : s.link.incoming = none) (hf : s.link.fetching = none)
    (ha : s.link.answered = false) : receiveBody line ch s = s := by
  unfold receiveBody
  split
  · simp only [hi, hf]
    unfold takeSurplus
    rw [if_neg (by simp [ha])]
  · rfl

theorem foldl_idle (line : Sys2Proof.Line) {s : State} (hi : s.link.incoming = none) (hf : s.link.fetching = none)
    (ha : s.link.answered = false) : ∀ l : List Byte, l.foldl (fun u ch => receiveBody line ch u) s = s
  | [] => rfl
  | ch :: l => by rw [List.foldl_cons, receiveBody_idle line ch hi hf ha, foldl_idle line hi hf ha l]

/-! ## A request character by character -/

/-- A proper part of a request's body does not read as a whole body. -/
theorem parse_short {c : Instr} (hw : WellFormed c = true) (hk : knownCode (code c) = true) {l r : List Byte}
    (h : l ++ r = body c) (hr : r ≠ []) (d : Instr) : parse (route c) (code c) l ≠ some (d, []) := by
  intro hd
  have h1 := stable_parse (route c) (code c) l d [] r hd
  have h2 := requestCharactersReadBack c [] hw hk
  rw [h, List.nil_append] at h1
  rw [List.append_nil, h1] at h2
  exact hr (Prod.mk.inj (Option.some.inj h2)).2

/-- The rest of a request's body, character by character, completes the request. -/
theorem foldl_body {c : Instr} (hw : WellFormed c = true) (hk : knownCode (code c) = true) {line : Sys2Proof.Line} {u : State}
    {a : Addressing} (hh : u.link.form.hears line = true) (ha : a ≠ .awaited) (hv : u.routeOf a = route c) :
    ∀ (r l : List Byte), l ++ r = body c →
      r.foldl (fun u ch => receiveBody line ch u) (tryComplete (u.partway { code := code c, addressing := a, chars := l }))
        = complete a c u.noPartial := by
  intro r
  induction r with
  | nil =>
    intro l h
    have hp := requestCharactersReadBack c [] hw hk
    rw [← h, List.append_nil, List.append_nil] at hp
    exact tryComplete_whole u ha hk (hv ▸ hp)
  | cons ch r ih =>
    intro l h
    rw [List.foldl_cons, tryComplete_short u (p := ⟨code c, a, l⟩) hk (hv ▸ parse_short hw hk h (List.cons_ne_nil _ _)),
      receiveBody_partway line ch u (p := ⟨code c, a, l⟩) hh ha]
    exact ih (l ++ [ch]) (by rw [List.append_assoc]; exact h)

theorem continues_none {s : State} (c : Instr) (h : s.link.incoming = none) : s.continues c = false := by
  unfold State.continues; rw [h]

theorem continues_other {s : State} (c : Instr) (h : ∀ p, s.link.incoming = some p → p.code ≠ code c) :
    s.continues c = false := by
  unfold State.continues
  split
  · rfl
  · next p hp => simp [h p hp]

theorem cleared_form (s : State) : s.cleared.link.form = s.link.form := by
  obtain ⟨f, d, h1⟩ := endFetch_rest s
  obtain ⟨p, e, h2⟩ := discardPartial_rest (endFetch s)
  unfold State.cleared
  rw [h2, h1]; rfl

theorem cleared_fetching (s : State) : s.cleared.link.fetching = none :=
  (discardPartial_fetching (endFetch s)).trans (endFetch_fetching s)

/-- A whole clocked request whose head has not come yet. -/
theorem deliver_clocked {c : Instr} {s : State} (hc : s.continues c = false) (hr : route c = .clocked)
    (hf : s.link.form ≠ .asynchronous) :
    deliver c s = complete .own c (lockForm .clocked s).cleared.noPartial := by
  have hh := hears_clocked.mpr (lockForm_clocked hf)
  unfold deliver
  simp only [hc, hr, Via.line, Bool.false_eq_true, if_false]
  rw [openRequest_heard _ hh, if_pos (by exact hears_clocked.mpr ((cleared_form _).trans (lockForm_clocked hf)))]
  rfl

/-- A whole asynchronous request whose head has not come yet. -/
theorem deliver_async {c : Instr} {s : State} {a : Byte} (hc : s.continues c = false) (hr : route c = .async a)
    (hf : s.link.form ≠ .clocked) :
    deliver c s = match (lockForm .receive s).cleared.addressed (code c) a with
      | some d => complete d c (lockForm .receive s).cleared.noPartial
      | none => (lockForm .receive s).cleared.noPartial := by
  have hh := hears_receive.mpr (lockForm_receive hf)
  unfold deliver
  simp only [hc, hr, Via.line, Bool.false_eq_true, if_false]
  rw [openRequest_heard _ hh, if_pos (by exact hears_receive.mpr ((cleared_form _).trans (lockForm_receive hf)))]
  rfl

theorem addressed_not_awaited {s : State} {c a : Byte} {d : Addressing} (h : s.addressed c a = some d) : d ≠ .awaited := by
  unfold State.addressed at h
  split at h
  · cases h; decide
  · split at h <;> cases h
    decide

/-- The way a partial request has come is the address that it was found addressed by. -/
theorem routeOf_addressed {s : State} {c a : Byte} {d : Addressing} (hf : s.link.form = .asynchronous)
    (h : s.addressed c a = some d) : s.routeOf d = .async a := by
  unfold State.addressed at h
  unfold State.routeOf
  split at h
  · next e => cases h; rw [hf, e]
  · split at h <;> cases h
    next e => rw [hf, e.1]

/-- Settles O13: the partial request holds the characters so far until they make the request whole (`foldl_body`). -/
theorem requestByCharacters : Obligations.RequestByCharacters := by
  intro s c hw hk hi
  have hc := continues_none c hi
  refine ⟨fun hr hf => ?_, fun a hr hf => ?_⟩
  · have hform := lockForm_clocked hf
    have hu : (lockForm .clocked s).cleared.link.form = .clocked := (cleared_form _).trans hform
    rw [receiveHead_heard _ (hears_clocked.mpr hform), deliver_clocked hc hr hf]
    refine foldl_body hw hk (a := .own) (hears_clocked.mpr hu) (by decide) ?_ (body c) [] rfl
    unfold State.routeOf
    rw [hu, hr]
  · have hform := lockForm_receive hf
    have hu : (lockForm .receive s).cleared.link.form = .asynchronous := (cleared_form _).trans hform
    rw [receiveHead_heard _ (hears_receive.mpr hform), deliver_async hc hr hf, tryComplete_awaited _ rfl, List.foldl_cons,
      receiveBody_awaited a _ (hears_receive.mpr hu) rfl]
    show List.foldl _ (match (lockForm .receive s).cleared.addressed (code c) a with | some _ => _ | none => _) _ = _
    cases hd : (lockForm .receive s).cleared.addressed (code c) a with
    | none => exact foldl_idle (s := (lockForm .receive s).cleared.noPartial) .receive rfl (cleared_fetching _) rfl (body c)
    | some d =>
      exact foldl_body hw hk (hears_receive.mpr hu) (addressed_not_awaited hd) (hr ▸ routeOf_addressed hu hd) (body c) [] rfl

end Sys2Proof.Machine
end

section
/-! PROOFS. Head characters, discards and surplus characters (R185, R189 to R191). -/

namespace Sys2Proof.Machine

theorem cleared_idle {s : State} (hi : s.link.incoming = none) (hf : s.link.fetching = none) :
    s.cleared = s.modLink fun l => { l with answered := false } := by
  unfold State.cleared
  rw [endFetch_none hf, discardPartial_none hi]

theorem cleared_partial {s : State} {p : PartialRequest} (hi : s.link.incoming = some p) (hf : s.link.fetching = none) :
    s.cleared = s.modLink fun l => { l with
      answered := false, incoming := none
      discarded := l.discarded || l.form == .clocked || p.addressing != .awaited } := by
  unfold State.cleared
  rw [endFetch_none hf, discardPartial_some hi]
  rfl

theorem cleared_fetch {s : State} {o : Outgoing} (hi : s.link.incoming = none) (hf : s.link.fetching = some o) :
    s.cleared = s.modLink fun l => { l with
      answered := false, fetching := none, discarded := l.discarded || decide (o.sent < o.length) } := by
  unfold State.cleared
  rw [endFetch_some hf, discardPartial_none (by exact hi)]
  rfl

theorem asynchronous_not_clocked : (LinkForm.asynchronous == LinkForm.clocked) = false := rfl

theorem opened_own (ch : Byte) : (PartialRequest.opened .clocked ch).addressing ≠ .awaited := by
  show Addressing.own ≠ .awaited
  decide

/-- Outside requests and FETCHes a body character is a surplus character. -/
theorem receiveBody_surplus {line : Sys2Proof.Line} (ch : Byte) {s : State} (hh : s.link.form.hears line = true)
    (hi : s.link.incoming = none) (hg : s.link.fetching = none) : receiveBody line ch s = takeSurplus s := by
  unfold receiveBody
  rw [if_pos hh]
  simp only [hi, hg]

theorem takeSurplus_clocked {s : State} (ha : s.link.answered = true) (hf : s.link.form = .clocked) :
    takeSurplus s = s.modLink fun l => { l with buffer := l.buffer.map fun b => { b with surplus := true } } := by
  unfold takeSurplus
  simp only [ha, hf, if_true]

/-- The reply in transmission takes the surplus mark while its flags character has not gone. -/
theorem takeSurplus_sending {s : State} {o : Outgoing} (ha : s.link.answered = true) (hf : s.link.form = .asynchronous)
    (hs : s.link.sending = some o) (ho : o.flags = none) :
    takeSurplus s = s.modLink fun l => { l with sending := some { o with surplus := true } } := by
  unfold takeSurplus
  simp only [ha, hf, hs, ho, if_true, Option.isNone_none]

theorem takeSurplus_late {s : State} (ha : s.link.answered = true) (hf : s.link.form = .asynchronous)
    (hs : ∀ o, s.link.sending = some o → o.flags ≠ none) :
    takeSurplus s = s.modLink fun l => { l with lateSurplus := true } := by
  unfold takeSurplus
  rw [if_pos ha]
  split
  · next h => rw [hf] at h; cases h
  · next o _ h => rw [if_neg (by simpa using hs o h)]
  · rfl
  · next h => rw [hf] at h; cases h

theorem frame_linked {s t : State} (h : s.linkMoved t) (hu : t.link.unit = s.link.unit) : t.frame = s.frame := by
  obtain ⟨l, ch, rfl⟩ := h
  simp only [State.frame]
  rw [show l.unit = s.link.unit from hu]

theorem partway_frame (s : State) (p : PartialRequest) : (s.partway p).frame = s.frame := rfl

theorem lockForm_frame (line : Sys2Proof.Line) (s : State) : (lockForm line s).frame = s.frame :=
  frame_linked (linkMoved_lockForm line s) (lockForm_unit line s)

theorem cleared_frame (s : State) : s.cleared.frame = s.frame := by
  obtain ⟨f, d, h1⟩ := endFetch_rest s
  obtain ⟨p, e, h2⟩ := discardPartial_rest (endFetch s)
  unfold State.cleared
  rw [h2, h1]; rfl

/-- The records after a head character. -/
theorem opened_frame (line : Sys2Proof.Line) (s : State) (p : PartialRequest) :
    (((lockForm line s).cleared).partway p).frame = s.frame :=
  (cleared_frame _).trans (lockForm_frame line s)

/-- On the receive line a head character waits for its address. -/
theorem receiveHead_receive (ch : Byte) {s : State} (h : s.link.form ≠ .clocked) :
    receiveHead .receive ch s = (lockForm .receive s).cleared.partway (.opened .receive ch) := by
  rw [receiveHead_heard ch (hears_receive.mpr (lockForm_receive h)), tryComplete_awaited _ rfl]

/-- On the clocked lines the head character of a request with a body waits for that body. -/
theorem receiveHead_clocked {ch : Byte} {s : State} (h : s.link.form ≠ .asynchronous) (hk : knownCode ch = true)
    (hp : parse .clocked ch [] = none) :
    receiveHead .clocked ch s = (lockForm .clocked s).cleared.partway (.opened .clocked ch) := by
  rw [receiveHead_heard ch (hears_clocked.mpr (lockForm_clocked h))]
  refine tryComplete_short _ hk fun c => ?_
  have hr : (lockForm .clocked s).cleared.routeOf .own = .clocked := by
    unfold State.routeOf
    rw [cleared_form, lockForm_clocked h]
  show parse ((lockForm .clocked s).cleared.routeOf .own) ch [] ≠ _
  rw [hr, hp]
  exact nofun

theorem receiveHead_deaf {line : Sys2Proof.Line} {ch : Byte} {s : State} (hu : s.link.form ≠ .unlocked)
    (h : s.link.form.hears line = false) : receiveHead line ch s = s := by
  unfold receiveHead
  rw [lockForm_locked _ _ hu, if_neg (by simp [h])]

theorem exec_head {line : Sys2Proof.Line} {ch : Byte} {s t : State} (h : receiveHead line ch s = t) :
    exec (.headCharacterReceived line ch) s = .next t := h ▸ rfl

/-- A request that reads whole from no characters at all is one without operands, and comes the clocked way. -/
theorem parse_nil {ch : Byte} {c : Instr} (h : parse .clocked ch [] = some (c, [])) :
    code c = ch ∧ route c = .clocked ∧ ∀ s, exec c s = .next (deliver c s) := by
  have hb : ∀ n : Nat, ch.toNat = n → BitVec.ofNat 8 n = ch := by
    rintro n rfl
    simp
  unfold parse at h
  split at h <;> cases h <;> exact ⟨hb _ ‹_›, rfl, by intros; rfl⟩

/-- The head character of a request without a body is the whole request. -/
theorem receiveHead_whole {ch : Byte} {s : State} {c : Instr} (h : s.link.form ≠ .asynchronous)
    (hi : ∀ p, s.link.incoming = some p → p.code ≠ ch) (hc : code c = ch) (hr : route c = .clocked)
    (ht : tryComplete ((lockForm .clocked s).cleared.partway (.opened .clocked ch))
      = complete .own c (lockForm .clocked s).cleared.noPartial) :
    receiveHead .clocked ch s = deliver c s := by
  rw [receiveHead_heard ch (hears_clocked.mpr (lockForm_clocked h)), ht,
    deliver_clocked (continues_other c (hc ▸ hi)) hr h]

/-- Settles O14: what a head character breaks into is cleared away, and a request begins or is complete. -/
theorem headCharacterBeginsRequest : Obligations.HeadCharacterBeginsRequest := by
  intro s ch
  have locked : ∀ {f : LinkForm}, s.link.form = f → f ≠ .unlocked → ∀ line, lockForm line s = s := fun e n line =>
    lockForm_locked line s (e ▸ n)
  refine ⟨fun hf hi hg => ?_, fun hf hi hg hk hp => ?_, fun p hf hi hg => ?_, fun hf hi hg => ?_, fun hf => ?_, fun hf => ?_,
    fun hf hi hg hk hp => ?_, fun p hf hi hg hk hp => ?_, fun o hf hi hg hk hp => ?_, fun hf hi => ⟨fun c hk hp => ?_, fun hk => ?_⟩⟩
  · refine ⟨_, exec_head (receiveHead_receive ch (by rw [hf]; decide)), opened_frame _ _ _, ?_⟩
    rw [cleared_idle ((lockForm_incoming _ _).trans hi) ((lockForm_fetching _ _).trans hg), lockForm_unlocked _ hf]
    exact ⟨rfl, rfl⟩
  · refine ⟨_, exec_head (receiveHead_clocked (by rw [hf]; decide) hk hp), opened_frame _ _ _, ?_⟩
    rw [cleared_idle ((lockForm_incoming _ _).trans hi) ((lockForm_fetching _ _).trans hg), lockForm_unlocked _ hf]
    exact ⟨rfl, rfl⟩
  · refine ⟨_, exec_head (receiveHead_receive ch (by rw [hf]; decide)), opened_frame _ _ _, ?_⟩
    rw [locked hf (by decide), cleared_partial hi hg]
    simp [State.partway, PartialRequest.opened, hf, asynchronous_not_clocked]
  · refine ⟨_, exec_head (receiveHead_receive ch (by rw [hf]; decide)), opened_frame _ _ _, ?_⟩
    rw [locked hf (by decide), cleared_idle hi hg]
    exact ⟨rfl, rfl⟩
  · exact exec_head (receiveHead_deaf (by rw [hf]; decide) (by rw [hf]; rfl))
  · exact exec_head (receiveHead_deaf (by rw [hf]; decide) (by rw [hf]; rfl))
  · refine ⟨_, exec_head (receiveHead_clocked (by rw [hf]; decide) hk hp), opened_frame _ _ _, ?_⟩
    rw [locked hf (by decide), cleared_idle hi hg]
    exact ⟨rfl, rfl⟩
  · refine ⟨_, exec_head (receiveHead_clocked (by rw [hf]; decide) hk hp), opened_frame _ _ _, ?_⟩
    rw [locked hf (by decide), cleared_partial hi hg]
    refine ⟨rfl, ?_⟩
    simp [State.partway, PartialRequest.opened, hf]
  · refine ⟨_, exec_head (receiveHead_clocked (by rw [hf]; decide) hk hp), opened_frame _ _ _, ?_⟩
    rw [locked hf (by decide), cleared_fetch hi hg]
    exact ⟨rfl, rfl⟩
  · have hr : (lockForm .clocked s).cleared.routeOf .own = .clocked := by
      unfold State.routeOf
      rw [cleared_form, lockForm_clocked hf]
    obtain ⟨hc, hv, he⟩ := parse_nil hp
    rw [he]
    exact exec_head (receiveHead_whole hf hi hc hv (tryComplete_whole _ (opened_own ch) hk (hr ▸ hp)))
  · have hr : (lockForm .clocked s).cleared.routeOf .own = .clocked := by
      unfold State.routeOf
      rw [cleared_form, lockForm_clocked hf]
    refine exec_head (receiveHead_whole hf hi rfl rfl ?_)
    have := tryComplete_unknown (lockForm .clocked s).cleared (p := .opened .clocked ch) (opened_own ch) hk
    rw [show PartialRequest.addressing (.opened .clocked ch) = .own from rfl, hr] at this
    exact this

/-- Settles O15: by the definitions of a discard, of the end of a FETCH and of a surplus character. -/
theorem discardsAndSurplusCharacters : Obligations.DiscardsAndSurplusCharacters := by
  refine ⟨fun s => ⟨fun p hf hi hg => ?_, fun o hf hi hg => ?_, fun p hf hi c hc => ?_, fun hi c hc => ?_, fun hf => ?_⟩,
    fun s ch hi hg => ⟨fun b hf ha hb => ?_, fun o hf ha hs ho => ?_, fun hf ha hs => ?_, fun line ha => ?_⟩⟩
  · refine ⟨deassertSelect s, rfl, ?_⟩
    unfold deassertSelect
    rw [if_pos hf, discardPartial_some hi, endFetch_none (by exact hg)]
    refine ⟨rfl, rfl, ?_⟩
    simp [hf]
  · refine ⟨deassertSelect s, rfl, ?_⟩
    unfold deassertSelect
    rw [if_pos hf, discardPartial_none hi, endFetch_some hg]
    exact ⟨rfl, rfl, rfl⟩
  · refine ⟨breakRequest s, by rcases hc with rfl | rfl <;> rfl, ?_⟩
    unfold breakRequest
    rw [if_pos hf, discardPartial_some hi]
    refine ⟨rfl, rfl, ?_⟩
    simp [hf, asynchronous_not_clocked]
  · have : breakRequest s = s := by
      unfold breakRequest
      rw [discardPartial_none hi, ite_self]
    rcases hc with rfl | rfl <;> exact congrArg Host.Outcome.next this
  · exact congrArg Host.Outcome.next (if_neg (by rw [hf]; decide))
  · refine ⟨receiveBody .clocked ch s, rfl, ?_⟩
    rw [receiveBody_surplus ch (hears_clocked.mpr hf) hi hg, takeSurplus_clocked ha hf]
    refine ⟨rfl, rfl, ?_⟩
    simp [hb]
  · refine ⟨receiveBody .receive ch s, rfl, ?_⟩
    rw [receiveBody_surplus ch (hears_receive.mpr hf) hi hg, takeSurplus_sending ha hf hs ho]
    exact ⟨rfl, rfl, rfl⟩
  · refine ⟨receiveBody .receive ch s, rfl, ?_⟩
    rw [receiveBody_surplus ch (hears_receive.mpr hf) hi hg, takeSurplus_late ha hf hs]
    exact ⟨rfl, rfl, rfl⟩
  · exact congrArg Host.Outcome.next (receiveBody_idle line ch hi hg ha)

end Sys2Proof.Machine
end

section
/-! PROOFS. No owner touches the link: what an answer leaves of the state that the request reached (section 11.1). -/

namespace Sys2Proof.Machine

/-! ## The link under shared operations -/

theorem link_of_ground {s t : State} (h : t.ground = s.ground) : t.link = s.link := congrArg Ground.link h

theorem link_eachSpot (f : SpotNo → State → State) (h : ∀ i s, (f i s).link = s.link) (s : State) :
    (eachSpot f s).link = s.link := foldl_keeps State.link _ (fun s i => h i s) _ _

theorem link_eachComp (f : CompNo → State → State) (h : ∀ c s, (f c s).link = s.link) (s : State) :
    (eachComp f s).link = s.link := foldl_keeps State.link _ (fun s c => h c s) _ _

theorem link_eachFittedSpot (f : SpotNo → State → State) (h : ∀ i s, (f i s).link = s.link) (s : State) :
    (eachFittedSpot f s).link = s.link :=
  link_eachSpot _ (fun i s => by split <;> simp only [h]) s

theorem link_eachFittedComp (f : CompNo → State → State) (h : ∀ c s, (f c s).link = s.link) (s : State) :
    (eachFittedComp f s).link = s.link :=
  link_eachComp _ (fun c s => by split <;> simp only [h]) s

theorem link_withSpot (b : Byte) (s : State) (f : SpotNo → State × Reply) (h : ∀ i, (f i).1.link = s.link) :
    (withSpot b s f).1.link = s.link := by
  unfold withSpot
  split
  · rfl
  · exact h _

theorem link_withVessel (b : Byte) (s : State) (f : VesselNo → State × Reply) (h : ∀ v, (f v).1.link = s.link) :
    (withVessel b s f).1.link = s.link := by
  unfold withVessel
  split
  · rfl
  · exact h _

theorem link_withComp (b : Byte) (s : State) (f : CompNo → State × Reply) (h : ∀ c, (f c).1.link = s.link) :
    (withComp b s f).1.link = s.link := by
  unfold withComp
  split
  · rfl
  · exact h _

/-! ## Field enable -/

theorem link_enableOff (s : State) : (enableOff s).link = s.link := by
  have hs : ∀ i s, (spotLosesEnable i s).link = s.link := fun i s => link_of_ground (by
    unfold spotLosesEnable; split <;> simp)
  have hc : ∀ c s, (compLosesEnable c s).link = s.link := fun c s => link_of_ground (by
    unfold compLosesEnable; split <;> simp)
  have he : ∀ s, (endCommissioning s).link = s.link := fun s => by
    unfold endCommissioning; split <;> rfl
  unfold enableOff
  simp only
  rw [link_eachComp _ fun c s => link_of_ground (ground_pursueDirAll c s),
    link_eachSpot _ fun i s => link_of_ground (by simp), link_eachFittedSpot _ hs, link_eachFittedComp _ hc, he]

theorem link_enableOn (s : State) : (enableOn s).link = s.link := by
  have hs : ∀ i s, (spotGainsEnable i s).link = s.link := fun i s => link_of_ground (by
    unfold spotGainsEnable; simp only; split <;> simp)
  unfold enableOn
  simp only
  rw [link_of_ground (ground_settle _), link_eachComp _ fun c s => link_of_ground (by simp),
    link_eachSpot _ fun i s => link_of_ground (by simp), link_eachFittedSpot _ hs]

theorem link_esdBecomesActive (s : State) : (esdBecomesActive s).link = s.link := by
  unfold esdBecomesActive
  split
  · rw [link_of_ground (ground_settle _), link_enableOff]
  · rfl

/-! ## A profile write -/

theorem link_superviseSpot (b : State) (i : SpotNo) (s : State) : (superviseSpot b i s).link = s.link := by
  have ht : (takeUpSpot i s).link = s.link := by
    unfold takeUpSpot
    simp only
    rw [foldl_keeps State.link _ (fun t n => by split <;> exact link_of_ground (by simp)),
      foldl_keeps State.link (fun t n => State.modSpot i (fun sp => sp.setValve n ((sp.valve n).takeUp (t.strokeOf n))) t)
        (fun t n => rfl)]
  unfold superviseSpot
  split
  · exact ht
  · rfl
  · rfl

theorem link_superviseComp (b : State) (c : CompNo) (s : State) : (superviseComp b c s).link = s.link := by
  unfold superviseComp
  split
  · unfold takeUpComp
    simp only
    rw [foldl_keeps State.link _ (fun t n => by split <;> exact link_of_ground (by simp))]
    rfl
  · rfl

theorem link_rejudge (b s : State) : (rejudge b s).link = s.link := by
  have h : (if s.esdActive then esdBecomesActive s else s).link = s.link := by
    split
    · exact link_esdBecomesActive s
    · rfl
  unfold rejudge
  simp only
  split
  · exact h
  · rw [link_eachFittedComp _ fun c s => link_of_ground (by simp), h]

theorem link_takeSection (b : State) (w : Section) (s : State) : (takeSection b w s).link = s.link := by
  cases w with
  | site p =>
    have hg : ∀ c s, (greetComp b c s).link = s.link := fun c s => link_of_ground (by unfold greetComp; split <;> simp)
    have hf : ∀ c s, (refitComp b c s).link = s.link := fun c s => link_of_ground (by unfold refitComp; split <;> simp)
    have hr : ∀ c s, (releaseComp b c s).link = s.link := fun c s => by unfold releaseComp; split <;> rfl
    simp only [takeSection]
    rw [link_eachComp _ (link_superviseComp b), link_eachSpot _ (link_superviseSpot b), link_eachComp _ hg,
      link_eachComp _ hf, link_eachComp _ hr]
  | spots p =>
    have hr : ∀ i s, (clearRemainder b i s).link = s.link := fun i s => by unfold clearRemainder; split <;> rfl
    simp only [takeSection]
    rw [link_eachComp _ (link_superviseComp b), link_eachSpot _ (link_superviseSpot b), link_eachSpot _ hr]
  | vessels p => exact foldl_keeps State.link _ (fun s v => by unfold loseGauge; split <;> rfl) _ _
  | protection p => exact link_rejudge b s

theorem link_acceptWrite (w : Section) (s : State) : (acceptWrite w s).link = s.link := by
  obtain ⟨x, hx, -⟩ := sidingAfterWrite_eq w (storeSection w s)
  unfold acceptWrite
  rw [link_of_ground (ground_settle _), flagSiding_link, link_takeSection, hx, storeSection_eq]

/-! ## The owners -/

theorem link_placeOrder (i : SpotNo) (r : OrderRequest) (l : Option Liquid) (s : State) :
    (placeOrder i r l s).link = s.link := by
  unfold placeOrder
  simp only
  rw [link_of_ground (ground_settle _), link_of_ground (ground_advanceSpot _ _)]
  split
  · rw [link_of_ground (ground_becomeHead _ _)]
    split <;> rfl
  · split <;> rfl

theorem link_placedReply (i : SpotNo) (r : OrderRequest) (l : Option Liquid) (t : State) :
    (placedReply i r l t).1.link = t.link := by
  unfold placedReply
  simp only
  split <;> rfl

theorem ground_isolateSpot (i : SpotNo) (s : State) : (isolateSpot i s).ground = s.ground := by
  unfold isolateSpot
  rw [ground_advanceSpot]
  split <;> simp

theorem ground_beginSpotTest (i : SpotNo) (s : State) : (beginSpotTest i s).ground = s.ground := by
  unfold beginSpotTest
  simp only
  repeat' split
  all_goals simp

theorem ground_beginCompTest (c : CompNo) (s : State) : (beginCompTest c s).ground = s.ground := by
  unfold beginCompTest
  simp only
  repeat' split
  all_goals simp

theorem link_answerCommission (s : State) : (answerCommission s).1.link = s.link := by
  unfold answerCommission
  simp only
  repeat' split
  · rfl
  · rfl
  · rfl
  · rw [link_of_ground (ground_settle _), link_of_ground (ground_settleTests _),
      link_eachFittedComp _ fun c s => link_of_ground (ground_beginCompTest c s),
      link_eachFittedSpot _ fun i s => link_of_ground (ground_beginSpotTest i s)]

theorem link_restart (s : State) : (restart s).link = s.link := by
  have hs : ∀ i s, (restartSpot i s).link = s.link := fun i s => link_of_ground (by
    unfold restartSpot; split <;> simp)
  have hc : ∀ (c : CompNo) (s : State), (flagComp c (restartComp c (s.modComp c fun k => { k with turning := none }))).link = s.link :=
    fun c s => link_of_ground (s := s) (t := restartComp c (s.modComp c fun k => { k with turning := none })) (by
      unfold restartComp; split <;> simp)
  unfold restart
  simp only
  rw [flagSiding_link, link_eachFittedSpot _ hs, link_eachFittedComp _ hc]
  exact foldl_keeps State.link (fun t (v : VesselNo) => t.modVessel v fun r => { r with entries := [] }) (fun t v => rfl) _ _

/-- No owner touches the link. -/
theorem answer_link (c : Instr) (s : State) : (answer c s).1.link = s.link := by
  cases c <;> simp only [answer] <;> try rfl
  case announce via m g l => rcases answerAnnounce_cases m g l s with e | ⟨_, _, _, _, _, e⟩ <;> rw [e] <;> rfl
  case amend via k i v m g l h => rcases answerAmend_cases k i v m g l h s with e | ⟨_, _, _, _, _, e⟩ <;> rw [e] <;> rfl
  case readCar => unfold answerReadCar; split <;> rfl
  case find =>
    unfold answerFind
    repeat' split
    all_goals rfl
  case release via k i v => rcases answerRelease_cases k i v s with e | ⟨_, _, _, _, e⟩ <;> rw [e] <;> rfl
  case spot via k i p => rcases answerSpot_cases k i p s with e | ⟨_, _, _, _, _, _, _, _, e⟩ <;> rw [e] <;> rfl
  case unspot via p =>
    rcases answerUnspot_cases p s with e | ⟨i, _, e⟩ <;> rw [e]
    unfold unbind State.modCarAt
    split <;> rfl
  case openSpot =>
    refine link_withSpot _ _ _ fun i => ?_
    simp only
    repeat' split
    all_goals exact link_of_ground (by simp [startProving])
  case isolate =>
    refine link_withSpot _ _ _ fun i => ?_
    split
    · exact link_of_ground (by simp [ground_isolateSpot])
    · rfl
  case isolateAll =>
    unfold answerIsolateAll
    simp only
    split
    · rfl
    · rw [link_of_ground (ground_settle _)]
      exact foldl_keeps State.link _ (fun s i => link_of_ground (ground_isolateSpot i s)) _ _
  case clearHold =>
    refine link_withSpot _ _ _ fun i => ?_
    repeat' split
    all_goals rfl
  case resume =>
    refine link_withSpot _ _ _ fun i => ?_
    simp only
    repeat' split
    all_goals exact link_of_ground (by simp [resumeSpot])
  case strokeSpot =>
    refine link_withSpot _ _ _ fun i => ?_
    simp only
    repeat' split
    all_goals exact link_of_ground (by simp)
  case readSpot => exact link_withSpot _ _ _ fun i => rfl
  case placeOrder =>
    refine link_withSpot _ _ _ fun i => ?_
    simp only
    repeat' split
    all_goals first
      | rw [link_placedReply, link_placeOrder]
      | rfl
  case trim =>
    refine link_withSpot _ _ _ fun i => ?_
    repeat' split
    all_goals exact link_of_ground (by simp [applyTrim])
  case cancelOrder =>
    refine link_withSpot _ _ _ fun i => ?_
    repeat' split
    all_goals exact link_of_ground (by simp)
  case gauge =>
    refine link_withVessel _ _ _ fun i => ?_
    simp only
    repeat' split
    · rfl
    · rfl
    · rw [link_of_ground (ground_settle _), link_of_ground (ground_runCut _ _)]
      rfl
  case setVesselService =>
    refine link_withVessel _ _ _ fun i => ?_
    simp only
    repeat' split
    all_goals rfl
  case readVessel => exact link_withVessel _ _ _ fun i => rfl
  case clearCompressor =>
    refine link_withComp _ _ _ fun i => ?_
    simp only
    split
    · rfl
    · exact link_of_ground (by simp)
  case readCompressor => exact link_withComp _ _ _ fun i => rfl
  case rearm =>
    unfold answerRearm
    repeat' split
    · rfl
    · rfl
    · exact link_enableOn s
  case writeProfile via sec fields =>
    rcases answerWriteProfile_cases sec fields s with e | ⟨w, _, _, _, _, e⟩ <;> rw [e]
    exact link_acceptWrite w s
  case readProfile => unfold answerReadProfile; split <;> rfl
  case setLock =>
    unfold answerSetLock
    repeat' split
    all_goals rfl
  case stageSetpoints => unfold answerStageSetpoints; split <;> rfl
  case setpointHold => unfold answerSetpointHold; split <;> rfl
  case commission => exact link_answerCommission s
  case restartSiding =>
    unfold answerRestart
    split
    · rfl
    · exact link_restart s

/-- Execution leaves the link as the owner found it. -/
theorem execute_link (c : Instr) (s : State) : (execute c s).1.link = s.link := by
  unfold execute
  split
  · exact (closeEvent_link _ _).trans (answer_link c _)
  · exact answer_link c s

end Sys2Proof.Machine
end

section
/-! PROOFS. Replies on their way out, and requests that are not executed (R188, R189, R192 to R194). -/

namespace Sys2Proof.Machine

/-! ## Flags characters -/

/-- R192, as a sum of its three marks. -/
theorem flagsFor_eq (s : State) (o : Outgoing) :
    s.flagsFor o = (if o.surplus || s.link.lateSurplus then 1 else 0) + (if s.link.discarded then 2 else 0)
      + (if s.changes.attention then 4 else 0) := by
  unfold State.flagsFor boolByte
  cases o.surplus || s.link.lateSurplus <;> cases s.link.discarded <;> cases s.changes.attention <;> rfl

theorem sendFlags_idle {s : State} (hf : s.link.fetching = none) (hs : s.link.sending = none) : sendFlags s = s := by
  unfold sendFlags
  simp only [hf, hs]

theorem sendFlags_sending {s : State} {o : Outgoing} (hf : s.link.fetching = none) (hs : s.link.sending = some o)
    (ho : o.flags = none) :
    sendFlags s = s.modLink fun l => { l with sending := some (s.withFlags o), discarded := false, lateSurplus := false } := by
  unfold sendFlags
  simp only [hf, hs, ho, Option.isNone_none, if_true]

theorem sendFlags_sent {s : State} {o : Outgoing} (hf : s.link.fetching = none) (hs : s.link.sending = some o)
    (ho : o.flags ≠ none) : sendFlags s = s := by
  unfold sendFlags
  simp only [hf, hs]
  exact if_neg (by simpa using ho)

theorem sendFlags_fetching {s : State} {o : Outgoing} (hf : s.link.fetching = some o) (ho : o.flags = none) :
    sendFlags s = s.modLink fun l => { l with fetching := some (s.withFlags o), discarded := false, lateSurplus := false } := by
  unfold sendFlags
  simp only [hf, ho, Option.isNone_none, if_true]

theorem sendFlags_fetched {s : State} {o : Outgoing} (hf : s.link.fetching = some o) (ho : o.flags ≠ none) :
    sendFlags s = s := by
  unfold sendFlags
  simp only [hf]
  exact if_neg (by simpa using ho)

/-! ## A FETCH -/

theorem noPartial_none {s : State} (h : s.link.incoming = none) : s.noPartial = s := by
  have hl : ({ s.link with incoming := none } : Link) = s.link := by rw [← h]
  show { s with link := { s.link with incoming := none } } = s
  rw [hl]

/-- A FETCH that arrives whole in the clocked form with nothing under way. -/
theorem deliver_fetch {s : State} (hf : s.link.form = .clocked) (hi : s.link.incoming = none) (hg : s.link.fetching = none) :
    deliver (.fetch .clocked) s = beginFetch (s.modLink fun l => { l with answered := false }) := by
  have hn : (s.modLink fun l => { l with answered := false }).link.incoming = none := hi
  rw [deliver_clocked (continues_none _ hi) rfl (by rw [hf]; decide), lockForm_locked _ _ (by rw [hf]; decide),
    cleared_idle hi hg, noPartial_none hn]
  unfold complete
  rw [show (s.modLink fun l => { l with answered := false }).link.form = .clocked from hf]
  rfl

/-- In a FETCH a body character on the clocked lines is a filler. -/
theorem receiveBody_filler (ch : Byte) {s : State} {o : Outgoing} (hf : s.link.form = .clocked) (hi : s.link.incoming = none)
    (hg : s.link.fetching = some o) : receiveBody .clocked ch s = shiftOut o s := by
  unfold receiveBody
  rw [if_pos (hears_clocked.mpr hf)]
  simp only [hi, hg]

theorem dataOut_fetching {s : State} {o : Outgoing} (hf : s.link.form = .clocked) (hg : s.link.fetching = some o) :
    s.dataOut = some (((o.reply.characters (o.flags.getD (s.flagsFor o)))[o.sent]?).getD .idle) := by
  unfold State.dataOut
  simp only [hf, hg]

theorem dataOut_idle {s : State} (hf : s.link.form ≠ .asynchronous) (hg : s.link.fetching = none) :
    s.dataOut = some .idle := by
  unfold State.dataOut
  rw [hg]
  cases h : s.link.form with
  | unlocked => rfl
  | clocked => rfl
  | asynchronous => exact absurd h hf

theorem transmits_sending {s : State} {o : Outgoing} (hs : s.link.sending = some o) :
    s.transmits = o.reply.characters (o.flags.getD (s.flagsFor o)) := by
  unfold State.transmits
  rw [hs]

/-- The body of a reply stands behind its status and its flags character. -/
theorem Reply.characters_body {r : Reply} {f : Byte} {n : Nat} (h : 2 ≤ n) :
    (r.characters f)[n]? = (r.body[n - 2]?).map fun b => { head := false, data := b } := by
  obtain ⟨m, rfl⟩ := Nat.exists_eq_add_of_le' h
  simp [Reply.characters]

/-! ## Requests that the link executes -/

/-- A request of the table arrives whole. -/
theorem exec_request {c : Instr} (h : knownCode (code c) = true) (s : State) : exec c s = .next (deliver c s) := by
  cases c <;> try contradiction
  all_goals rfl

theorem known_of_writing {k : Byte} (h : writingCode k = true) : knownCode k = true :=
  (Bool.and_eq_true_iff.mp h).1

/-- The state in which a clocked request completes. -/
theorem deliver_clocked_reached {c : Instr} {s : State} (hf : s.link.form = .clocked) (hr : route c = .clocked) :
    ∃ v, deliver c s = complete .own c v ∧ v.link.form = .clocked ∧ v.link.buffer = s.link.buffer ∧
      (s.link.incoming = none → v.link.fetching = none) ∧
      (s.link.incoming = none → s.link.fetching = none → v.link.discarded = s.link.discarded) := by
  by_cases hc : s.continues c = true
  · have hi : s.link.incoming ≠ none := fun e => by rw [continues_none c e] at hc; cases hc
    refine ⟨s.noPartial, ?_, hf, rfl, fun e => absurd e hi, fun e => absurd e hi⟩
    unfold deliver
    simp only [hc, if_true, hr, Via.line]
    exact if_pos (hears_clocked.mpr hf)
  · refine ⟨s.cleared.noPartial, ?_, (cleared_form s).trans hf, ?_, fun _ => cleared_fetching s, fun hi hg => ?_⟩
    · rw [deliver_clocked (by simpa using hc) hr (by rw [hf]; decide), lockForm_locked _ _ (by rw [hf]; decide)]
    · obtain ⟨f, d, h1⟩ := endFetch_rest s
      obtain ⟨p, e, h2⟩ := discardPartial_rest (endFetch s)
      unfold State.cleared
      rw [h2, h1]
      rfl
    · rw [cleared_idle hi hg]
      rfl

/-- The state in which an addressed request completes. -/
theorem deliver_async_reached {c : Instr} {s : State} {a : Byte} (hf : s.link.form ≠ .clocked) (hr : route c = .async a) :
    ∃ v, Reached s v (.async a) ∧ v.link.form = .asynchronous ∧ v.link.sending = s.link.sending ∧
      deliver c s = match v.addressed (code c) a with
        | some d => complete d c v
        | none => v := by
  obtain ⟨u, hu, hs, hd⟩ := deliver_opened c s
  rw [hr] at hu hd
  have hform : u.link.form = .asynchronous := hu.form.trans (lockForm_receive hf)
  refine ⟨u.noPartial, ⟨?_, hu.unit, hu.form⟩, hform, hs, ?_⟩
  · rw [hu.records]
    rfl
  · rw [hd]
    exact if_pos (hears_receive.mpr hform)

/-- Settles O16: a reply's characters, its flags character and its buffer, one equation for each. -/
theorem repliesGoOut : Obligations.RepliesGoOut := by
  refine ⟨fun s o hg hs => ⟨fun ho => ?_, fun ho => ?_⟩, fun s => ⟨fun b hf hi hg hb => ?_, fun hf hi hg hb => ?_, fun a ha => ?_⟩,
    fun s hg hs => ⟨?_, ?_⟩, fun s o hg hs hf => ⟨?_, ?_⟩, fun s ch hf => ⟨fun hg => dataOut_idle hf hg, fun o hc hi hg => ⟨fun h0 => ?_,
      fun ho f hfl => ⟨fun h1 => ?_, fun c hcase => ?_⟩, fun ho => ?_, fun b h2 hb => ?_, fun hl => ?_⟩⟩, fun s c hf hr hne hk => ?_⟩
  · refine ⟨sendFlags s, rfl, ?_⟩
    rw [sendFlags_sending hg hs ho, ← flagsFor_eq]
    exact ⟨rfl, rfl, rfl⟩
  · refine ⟨endTransmission s, rfl, ?_⟩
    unfold endTransmission
    rw [if_pos (by rw [hs]; rfl), sendFlags_sent hg hs ho]
    exact ⟨rfl, rfl, rfl⟩
  · refine ⟨_, congrArg Host.Outcome.next (deliver_fetch hf hi hg), rfl, rfl, ?_⟩
    simp [beginFetch, Outgoing.begin, hb]
  · refine ⟨_, congrArg Host.Outcome.next (deliver_fetch hf hi hg), rfl, rfl, ?_⟩
    simp [beginFetch, Outgoing.begin, hb, Reply.bare]
  · exact answersOnly_of _ s .nothing [] rfl ha (.inr (by exact nofun)) rfl fun u _ => rfl
  · exact congrArg Host.Outcome.next (sendFlags_idle hg hs)
  · exact congrArg Host.Outcome.next (if_neg (by rw [hs]; decide))
  · unfold State.dataOut
    rw [hf]
  · rw [transmits_sending hs, ← flagsFor_eq]
    cases o.flags <;> rfl
  · rw [dataOut_fetching hc hg, h0]
    refine ⟨rfl, receiveBody .clocked ch s, rfl, ?_⟩
    rw [receiveBody_filler ch hc hi hg]
    unfold shiftOut
    rw [if_neg (by omega), if_pos (by unfold Outgoing.length; omega), h0]
    exact ⟨rfl, rfl, rfl⟩
  · rw [dataOut_fetching hc hg, h1, ho, hfl, ← flagsFor_eq]
    rfl
  · have he : ∃ t, exec c s = .next t ∧ t = sendFlags s := by
      rcases hcase with rfl | ⟨rfl, h1⟩
      · exact ⟨_, rfl, rfl⟩
      · exact ⟨_, congrArg Host.Outcome.next (receiveBody_filler ch hc hi hg), if_pos h1⟩
    obtain ⟨t, he, rfl⟩ := he
    refine ⟨_, he, ?_⟩
    rw [sendFlags_fetching hg ho, hfl, ← flagsFor_eq]
    exact ⟨rfl, rfl, rfl⟩
  · exact congrArg Host.Outcome.next (sendFlags_fetched hg ho)
  · rw [dataOut_fetching hc hg, Reply.characters_body h2, hb]
    have hlt : o.sent - 2 < o.reply.body.length := (List.getElem?_eq_some_iff.mp hb).1
    refine ⟨rfl, receiveBody .clocked ch s, rfl, ?_⟩
    rw [receiveBody_filler ch hc hi hg]
    unfold shiftOut
    rw [if_neg (by omega), if_pos (by unfold Outgoing.length; omega)]
    exact ⟨rfl, rfl, rfl⟩
  · rw [dataOut_fetching hc hg, Reply.characters_body (by omega), List.getElem?_eq_none (by omega)]
    refine ⟨rfl, congrArg Host.Outcome.next ?_⟩
    rw [receiveBody_filler ch hc hi hg]
    exact shiftOut_past o s (by unfold Outgoing.length; omega)
  · have he : exec c s = .next (deliver c s) := by
      rcases hk with hk | ⟨x, rfl⟩
      · exact exec_request hk s
      · rfl
    obtain ⟨v, hd, hform, hbuf, hfet, hdis⟩ := deliver_clocked_reached hf hr
    rw [complete_clocked _ c v hform hne] at hd
    have hl : (execute c v).1.link = v.link := execute_link c v
    refine ⟨_, he, ?_⟩
    rw [hd]
    refine ⟨rfl, rfl, fun hi => ?_, fun hb => ?_, fun hb hi hg => ?_⟩
    · exact (congrArg Link.fetching hl).trans (hfet hi)
    · show ((execute c v).1.link.discarded || (execute c v).1.link.buffer.isSome) = true
      rw [hl, hbuf, Option.isSome_iff_ne_none.mpr hb, Bool.or_true]
    · show ((execute c v).1.link.discarded || (execute c v).1.link.buffer.isSome) = _
      rw [hl, hbuf, hb, hdis hi hg, Option.isSome_none, Bool.or_false]

/-- Settles O17: an unknown request's owner answers UNKNOWN, and a foreign address drops the partial request. -/
theorem unknownAndForeignRequests : Obligations.UnknownAndForeignRequests := by
  refine fun s => ⟨fun via ch hc hk => ?_, fun a ch hf hi hg ha hb => ?_⟩
  · have hw : writingCode ch = false := by
      by_contra h
      rw [known_of_writing (by simpa using h)] at hk
      cases hk
    refine answersOnly_of _ s .unknown [] rfl hc (.inl fun e => ?_) hw fun u _ => rfl
    rw [show ch = 34 from e] at hk
    cases hk
  · have hn : s.link.form ≠ .clocked := by rw [hf]; decide
    have hadd : s.addressed ch a = none := by
      unfold State.addressed
      rw [if_neg ha, if_neg (by rintro ⟨e, w⟩; exact hb.elim (absurd e) (by simp [w]))]
    have hopen : receiveHead .receive ch s = (s.modLink fun l => { l with answered := false }).partway (.opened .receive ch) := by
      rw [receiveHead_receive ch hn, lockForm_locked _ _ (by rw [hf]; decide), cleared_idle hi hg]
    have hd : deliverElsewhere a ch s = (s.modLink fun l => { l with answered := false }).noPartial := by
      unfold deliverElsewhere
      simp only [hi, reduceCtorEq, if_false]
      rw [hopen, receiveBody_awaited a (s.modLink fun l => { l with answered := false }) (hears_receive.mpr hf) rfl]
      show (match s.addressed ch a with | some _ => _ | none => _) = _
      rw [hadd]
    refine ⟨_, congrArg Host.Outcome.next hd, rfl, rfl, ?_⟩
    simp [State.noPartial, hi]

/-- Settles O18: a broadcast reaches its owner without a reply, and a reply in transmission bars every request. -/
theorem broadcastsAndBusyReplies : Obligations.BroadcastsAndBusyReplies := by
  refine fun s c hf => ⟨fun hr hw hs => ?_, fun o hform hs hk hr => ?_⟩
  · obtain ⟨v, hv, hform, hsend, hd⟩ := deliver_async_reached hf hr
    have hadd : v.addressed (code c) 15 = some .broadcast := by
      unfold State.addressed
      rw [if_neg, if_pos ⟨rfl, hw⟩]
      generalize v.link.unit = x
      revert x
      decide
    rw [hadd] at hd
    have hx : deliver c s = (execute c v).1 := hd.trans (complete_broadcast c v hform (hsend.trans hs))
    refine ⟨_, v, (exec_request (known_of_writing hw) s).trans (congrArg _ hx), ?_, hv.frame, ?_⟩
    · rw [execute_link, hsend, hs]
    · rw [execute_writing c v hw]
  · have busy : ∀ {a : Byte} {d : Addressing}, route c = .async a → (∀ v : State, v.link.unit = s.link.unit → v.addressed (code c) a = some d) →
        d ≠ .awaited → ∃ t, exec c s = .next t ∧ t.frame = s.frame ∧ t.changes = s.changes ∧ t.link.sending = some o ∧
          t.link.discarded = true := by
      intro a d hr hadd hd
      obtain ⟨v, hv, hvform, hsend, hdel⟩ := deliver_async_reached hf hr
      rw [hadd v hv.unit] at hdel
      have hn : complete d c v = notExecuted v := by
        unfold complete
        rw [hvform, hsend, hs]
        cases d <;> first | rfl | exact absurd rfl hd
      refine ⟨notExecuted v, (exec_request hk s).trans (congrArg Host.Outcome.next (hdel.trans hn)), hv.frame, ?_, hsend.trans hs, rfl⟩
      show v.changes = _
      rw [hv.records, lockForm_locked _ _ (by rw [hform]; decide)]
    rcases hr with hr | ⟨hr, hw⟩
    · exact busy hr (d := .own) (fun v hu => by unfold State.addressed; rw [hu, if_pos rfl]) (by decide)
    · refine busy hr (d := .broadcast) (fun v hu => ?_) (by decide)
      unfold State.addressed
      rw [if_neg, if_pos ⟨rfl, hw⟩]
      generalize v.link.unit = x
      revert x
      decide

end Sys2Proof.Machine
end

section
/-! PROOFS. A request from its owner's answer: reported, turned away, or one event on the records as the request found them
(R14, R185, R189); then the numbers a request names (R24, R85, R120) and the reading requests (R19, R52, R103, R139, R172, R196). -/

namespace Sys2Proof.Machine

/-! ## Requests from answers -/

/-- What an owner reports of the records is the whole answer of a reading request. -/
theorem reports_of {c : Instr} {s : State} {st : Status} {b : List Byte} (ht : s.canTake (route c) = true)
    (hk : knownCode (code c) = true) (hw : writingCode (code c) = false) (h34 : (code c == 34) = false)
    (ha : ∀ l ch, answer c { s with link := l, changes := ch } = ({ s with link := l, changes := ch }, { status := st, body := b })) :
    ∃ t, s.answersOnly c st b t := by
  refine answersOnly_of c s st b (exec_request hk s) ht (.inl (ne_of_beq_false h34)) hw fun u hu => ?_
  rw [hu.records]
  exact ha _ _

/-- An owner that leaves every state with these records alone turns the request away. -/
theorem turnsAway_on {c : Instr} {s : State} {st : Status} {b : List Byte} (ht : s.canTake (route c) = true)
    (hk : knownCode (code c) = true) (h34 : (code c == 34) = false)
    (ha : ∀ u, u.frame = s.frame → answer c u = (u, { status := st, body := b })) : ∃ t, s.turnsAway c st b t :=
  turnsAway_of c s st b (exec_request hk s) ht (.inl (ne_of_beq_false h34)) ha

/-- The state in which the owner of a writing request finds the records of `s`, at the start of the request's event. -/
structure Found (s v : State) (via : Via) : Prop where
  frame : v.frame = s.frame
  scratch : v.scratch = .empty
  changes : v.changes = (lockForm via.line s).changes
  flashes : v.flashes = s.flashes

theorem closeEvent_clearScratch (b s : State) : closeEvent (clearScratch b) s = closeEvent b s := by
  have hw : writeLastEnd (clearScratch b) = writeLastEnd b := rfl
  have hl : ∀ t, followLamps (clearScratch b) t = followLamps b t := fun _ => rfl
  have hr : ∀ t, raiseFlags (clearScratch b) t = raiseFlags b t := fun _ => rfl
  unfold closeEvent
  rw [hw, hl, hr]

/-- A writing request is one event on the records as it found them, and its reply is placed after the event. -/
theorem answers_event {c : Instr} {s : State} {st : Status} {b : List Byte} {f : State → State}
    (ht : s.canTake (route c) = true) (hw : writingCode (code c) = true)
    (ha : ∀ v, v.frame = s.frame → answer c v = (f v, { status := st, body := b })) :
    ∃ v t, Found s v (route c) ∧ s.answers c st b t ∧ t.frame = (closeEvent v (f v)).frame ∧
      t.changes = (closeEvent v (f v)).changes ∧ t.flashes = (closeEvent v (f v)).flashes := by
  obtain ⟨u, hu, hx⟩ := exec_writing c s (exec_request (known_of_writing hw) s) ht hw
  rw [ha (clearScratch u) hu.frame] at hx
  rw [← closeEvent_clearScratch] at hx
  refine ⟨clearScratch u, _, ⟨hu.frame, rfl, ?_, ?_⟩, ⟨hx, placeReply_replied _ _⟩, placeReply_frame _ _, placeReply_changes _ _,
    placeReply_flashes _ _⟩
  · show u.changes = _
    rw [hu.records]
  · show u.flashes = _
    rw [hu.records]

/-- A request of the writing kind is not FETCH. -/
theorem not_fetch_of_writing {k : Byte} (h : writingCode k = true) : (k == 34) = false := by
  refine beq_false_of_ne ?_
  rintro rfl
  exact absurd h (by decide)

/-- Writing requests turned away. -/
theorem refuses_of {c : Instr} {s : State} {st : Status} {b : List Byte} (ht : s.canTake (route c) = true)
    (hw : writingCode (code c) = true) (ha : ∀ u, u.frame = s.frame → answer c u = (u, { status := st, body := b })) :
    ∃ t, s.turnsAway c st b t :=
  turnsAway_on ht (known_of_writing hw) (not_fetch_of_writing hw) ha

/-! ## The car table at the close of an event -/

/-- An event without departures at which no car record changes. -/
theorem closeEvent_frame_quiet (b s : State) (hd : s.scratch.departed = []) (ht : s.scratch.touched = 0) :
    (closeEvent b s).frame = s.frame := by
  rw [closeEvent_frame, closeEvent_cars_quiet b s hd ht]
  rfl

theorem lockForm_cars (line : Sys2Proof.Line) (s : State) : (lockForm line s).changes.cars = s.changes.cars := by
  unfold lockForm; split <;> rfl

/-! ## Numbers and handles -/

theorem namedVessel_of_frame {s u : State} (h : u.frame = s.frame) (b : Byte) : u.namedVessel b = s.namedVessel b := by
  obtain ⟨_, _, _, _, _, _, rfl⟩ := of_frame h
  rfl

theorem namedComp_of_frame {s u : State} (h : u.frame = s.frame) (b : Byte) : u.namedComp b = s.namedComp b := by
  obtain ⟨_, _, _, _, _, _, rfl⟩ := of_frame h
  rfl

theorem resolve_of_frame {s u : State} (h : u.frame = s.frame) (slot issue : Byte) : u.resolve slot issue = s.resolve slot issue := by
  obtain ⟨_, _, _, _, _, _, rfl⟩ := of_frame h
  rfl

theorem withVessel_error {s : State} {b : Byte} {st : Status} (f : VesselNo → State × Reply)
    (h : s.namedVessel b = .error st) : withVessel b s f = (s, .bare st) := by
  unfold withVessel; rw [h]

theorem withVessel_ok {s : State} {b : Byte} {v : VesselNo} (f : VesselNo → State × Reply) (h : s.namedVessel b = .ok v) :
    withVessel b s f = f v := by
  unfold withVessel; rw [h]

theorem withComp_error {s : State} {b : Byte} {st : Status} (f : CompNo → State × Reply)
    (h : s.namedComp b = .error st) : withComp b s f = (s, .bare st) := by
  unfold withComp; rw [h]

theorem withComp_ok {s : State} {b : Byte} {c : CompNo} (f : CompNo → State × Reply) (h : s.namedComp b = .ok c) :
    withComp b s f = f c := by
  unfold withComp; rw [h]

theorem namedVessel_unconfigured {s : State} (b : Byte) (h : s.siding = .unconfigured) :
    s.namedVessel b = .error .notConfigured := by
  unfold State.namedVessel; rw [if_pos h]

theorem namedVessel_unfitted {s : State} {b : Byte} (h : s.siding ≠ .unconfigured)
    (hb : ∀ v : VesselNo, b.toNat = v.val → s.fittedVessel v = false) : s.namedVessel b = .error .range := by
  unfold State.namedVessel
  rw [if_neg h]
  cases hf : finOf 6 b with
  | none => rfl
  | some v => simp [hb v (finOf_eq_some_iff.mp hf)]

theorem namedComp_unconfigured {s : State} (b : Byte) (h : s.siding = .unconfigured) :
    s.namedComp b = .error .notConfigured := by
  unfold State.namedComp; rw [if_pos h]

theorem namedComp_unfitted {s : State} {b : Byte} (h : s.siding ≠ .unconfigured)
    (hb : ∀ c : CompNo, b.toNat = c.val → s.fittedComp c = false) : s.namedComp b = .error .range := by
  unfold State.namedComp
  rw [if_neg h]
  cases hf : finOf 2 b with
  | none => rfl
  | some c => simp [hb c (finOf_eq_some_iff.mp hf)]

/-- The requests that name a spot, as their owners begin them. -/
theorem answer_spot_error {c : Instr} {via : Via} {b : Byte} {s : State} {st : Status}
    (hc : c = .unspot via b ∨ c = .openSpot via b ∨ c = .isolate via b ∨ (∃ r, c = .clearHold via b r) ∨ c = .resume via b ∨
        c = .strokeSpot via b ∨ c = .readSpot via b ∨
        (∃ tag kind target vessel closeAfter, c = .placeOrder via b tag kind target vessel closeAfter) ∨
        (∃ tag target, c = .trim via b tag target) ∨ ∃ tag, c = .cancelOrder via b tag)
    (h : s.namedSpot b = .error st) : answer c s = (s, .bare st) := by
  rcases hc with rfl | rfl | rfl | ⟨_, rfl⟩ | rfl | rfl | rfl | ⟨_, _, _, _, _, rfl⟩ | ⟨_, _, rfl⟩ | ⟨_, rfl⟩ <;>
    exact withSpot_error _ h

/-- Settles O25: every owner looks the number up before all else. -/
theorem namedNumbersAreChecked : Obligations.NamedNumbersAreChecked := by
  intro s via b c ht
  refine ⟨fun hc => ?_, fun hc => ?_, fun hc => ?_⟩
  · obtain ⟨hr, hk, h34⟩ : route c = via ∧ knownCode (code c) = true ∧ (code c == 34) = false := by
      rcases hc with rfl | rfl | rfl | ⟨_, rfl⟩ | rfl | rfl | rfl | ⟨_, _, _, _, _, rfl⟩ | ⟨_, _, rfl⟩ | ⟨_, rfl⟩ <;>
        exact ⟨rfl, rfl, rfl⟩
    have err : ∀ {st}, s.namedSpot b = .error st → ∃ t, s.turnsAway c st [] t := fun h =>
      turnsAway_on (hr ▸ ht) hk h34 fun u hu => answer_spot_error hc ((namedSpot_of_frame hu b).trans h)
    exact ⟨fun hs => err (namedSpot_unconfigured b hs), fun hs hb => err (namedSpot_unfitted hs hb)⟩
  · obtain ⟨hr, hk, h34⟩ : route c = via ∧ knownCode (code c) = true ∧ (code c == 34) = false := by
      rcases hc with ⟨_, _, rfl⟩ | ⟨_, rfl⟩ | rfl <;> exact ⟨rfl, rfl, rfl⟩
    have err : ∀ {st}, s.namedVessel b = .error st → ∃ t, s.turnsAway c st [] t := fun h =>
      turnsAway_on (hr ▸ ht) hk h34 fun u hu => by
        have hn := (namedVessel_of_frame hu b).trans h
        rcases hc with ⟨_, _, rfl⟩ | ⟨_, rfl⟩ | rfl <;> exact withVessel_error _ hn
    exact ⟨fun hs => err (namedVessel_unconfigured b hs), fun hs hb => err (namedVessel_unfitted hs hb)⟩
  · obtain ⟨hr, hk, h34⟩ : route c = via ∧ knownCode (code c) = true ∧ (code c == 34) = false := by
      rcases hc with rfl | rfl <;> exact ⟨rfl, rfl, rfl⟩
    have err : ∀ {st}, s.namedComp b = .error st → ∃ t, s.turnsAway c st [] t := fun h =>
      turnsAway_on (hr ▸ ht) hk h34 fun u hu => by
        have hn := (namedComp_of_frame hu b).trans h
        rcases hc with rfl | rfl <;> exact withComp_error _ hn
    exact ⟨fun hs => err (namedComp_unconfigured b hs), fun hs hb => err (namedComp_unfitted hs hb)⟩

/-! ## Plant records and the profile -/

theorem answerReadProfile_range {sec : Byte} (h : 3 < sec.toNat) (s : State) : answerReadProfile sec s = (s, .bare .range) := by
  unfold answerReadProfile
  split <;> first | rfl | omega

/-- Settles O26: the owners' answers are the layouts of the records. -/
theorem plantRecordsAndProfileAreReported : Obligations.PlantRecordsAndProfileAreReported := by
  refine ⟨fun s via b ht => ⟨fun i hn => ?_, fun v hn => ?_, fun c hn => ?_⟩, fun s via ht => ⟨fun sec hs => ?_, ?_, ?_, ?_, ?_⟩⟩
  · exact reports_of (c := .readSpot via b) ht rfl rfl rfl fun l ch => withSpot_ok _ hn
  · exact reports_of (c := .readVessel via b) ht rfl rfl rfl fun l ch => withVessel_ok _ hn
  · exact reports_of (c := .readCompressor via b) ht rfl rfl rfl fun l ch => withComp_ok _ hn
  · exact reports_of (c := .readProfile via sec) ht rfl rfl rfl fun l ch => answerReadProfile_range hs _
  · refine reports_of (c := .readProfile via 0) ht rfl rfl rfl fun l ch => ?_
    show (_, Reply.ok (0 :: Layout.siteSection s.profile.site)) = _
    cases s.profile.site <;> rfl
  · refine reports_of (c := .readProfile via 1) ht rfl rfl rfl fun l ch => ?_
    show (_, Reply.ok (1 :: Layout.spotsSection s.profile.spots)) = _
    cases s.profile.spots with
    | none => rfl
    | some p => simp [Layout.spotsSection, Layout.perClass, nat8, Layout.byteOf, Reply.ok]
  · refine reports_of (c := .readProfile via 2) ht rfl rfl rfl fun l ch => ?_
    show (_, Reply.ok (2 :: Layout.vesselsSection s.profile.vessels)) = _
    cases s.profile.vessels <;> rfl
  · refine reports_of (c := .readProfile via 3) ht rfl rfl rfl fun l ch => ?_
    show (_, Reply.ok (3 :: s.protectionLayout)) = _
    unfold State.protectionLayout
    cases s.profile.protection <;> rfl

/-! ## The car table -/

theorem byteOf_slot_toNat (k : SlotNo) : (Layout.byteOf k.val).toNat = k.val := by
  have := k.isLt
  unfold Layout.byteOf
  rw [BitVec.toNat_ofNat]
  omega

theorem resolve_beyond {s : State} {slot issue : Byte} (h : 24 ≤ slot.toNat) : s.resolve slot issue = .error .range := by
  unfold State.resolve
  rw [show finOf 24 slot = none from dif_neg (by omega)]

theorem resolve_named {s : State} {k : SlotNo} {c : Car} {issue : Byte} (hc : s.car k = some c)
    (hi : (s.carSlot k).issue = issue) : s.resolve (Layout.byteOf k.val) issue = .ok (k, c) := by
  unfold State.resolve
  rw [finOf_eq_some_iff.mpr (byteOf_slot_toNat k)]
  show (match s.car k with | none => _ | some c => if (s.carSlot k).issue = issue then Except.ok (k, c) else _) = _
  rw [hc]
  exact if_pos hi

theorem resolve_nothing {s : State} {k : SlotNo} {issue : Byte} (h : s.car k = none ∨ issue ≠ (s.carSlot k).issue) :
    s.resolve (Layout.byteOf k.val) issue = .error .noRecord := by
  unfold State.resolve
  rw [finOf_eq_some_iff.mpr (byteOf_slot_toNat k)]
  show (match s.car k with | none => _ | some c => if (s.carSlot k).issue = issue then _ else _) = Except.error _
  cases hc : s.car k with
  | none => rfl
  | some c => exact if_neg (h.elim (fun e => by rw [hc] at e; cases e) Ne.symm)

theorem answerReadCar_error {s : State} {slot issue : Byte} {st : Status} (h : s.resolve slot issue = .error st) :
    answerReadCar slot issue s = (s, .bare st) := by
  unfold answerReadCar; rw [h]

theorem answerReadCar_ok {s : State} {slot issue : Byte} {k : SlotNo} {c : Car} (h : s.resolve slot issue = .ok (k, c)) :
    answerReadCar slot issue s = (s, .ok (Layout.car { slot := k, issue } c (s.viewOf c))) := by
  unfold answerReadCar; rw [h]

/-- With unique marks a mark's holder is the record that has it. -/
theorem holder_of_mark {s : State} {k : SlotNo} {c : Car} (hu : s.marksUnique) (hk : s.car k = some c) :
    s.holder c.mark = some k := by
  cases hh : s.holder c.mark with
  | none => exact absurd rfl (holder_eq_none hh hk)
  | some j =>
    have hj := List.find?_some hh
    cases hd : s.car j with
    | none => rw [hd] at hj; cases hj
    | some d =>
      rw [hd] at hj
      rw [hu j k d c hd hk (by simpa using hj)]

theorem holder_none {s : State} {m : List Byte} (h : ∀ k c, s.car k = some c → c.mark ≠ m) : s.holder m = none := by
  refine List.find?_eq_none.mpr fun k _ => ?_
  cases hk : s.car k with
  | none => simp
  | some c => simpa using h k c hk

theorem answerFind_holder {s : State} {k : SlotNo} {c : Car} (hm : markOk c.mark = true) (hh : s.holder c.mark = some k)
    (hk : s.car k = some c) :
    answerFind c.mark s = (s, .ok (Layout.car { slot := k, issue := (s.carSlot k).issue } c (s.viewOf c))) := by
  unfold answerFind
  rw [hm, hh]
  simp only [hk]
  rfl

theorem answerFind_nobody {s : State} {m : List Byte} (hm : markOk m = true) (hh : s.holder m = none) :
    answerFind m s = (s, .bare .noRecord) := by
  unfold answerFind
  rw [hm, hh]
  rfl

theorem answerFind_range {s : State} {m : List Byte} (hm : markOk m = false) : answerFind m s = (s, .bare .range) := by
  unfold answerFind
  rw [hm]
  rfl

/-- Settles O21: by the handle's check, the mark's holder and the list of held slots. -/
theorem carReadsReport : Obligations.CarReadsReport := by
  intro s via ht
  refine ⟨fun slot issue hs => ?_, fun k issue hk => ?_, fun k c hk => ⟨?_, fun hu hm => ?_⟩, fun m hm => ?_, fun m hm hn => ?_, ?_⟩
  · exact reports_of (c := .readCar via slot issue) ht rfl rfl rfl fun l ch => answerReadCar_error (resolve_beyond hs)
  · exact reports_of (c := .readCar via _ issue) ht rfl rfl rfl fun l ch =>
      answerReadCar_error (resolve_nothing (s := { s with link := l, changes := ch }) hk)
  · exact reports_of (c := .readCar via _ _) ht rfl rfl rfl fun l ch =>
      answerReadCar_ok (resolve_named (s := { s with link := l, changes := ch }) hk rfl)
  · exact reports_of (c := .find via _) ht rfl rfl rfl fun l ch =>
      answerFind_holder (s := { s with link := l, changes := ch }) hm (holder_of_mark hu hk) hk
  · exact reports_of (c := .find via m) ht rfl rfl rfl fun l ch => answerFind_range hm
  · exact reports_of (c := .find via m) ht rfl rfl rfl fun l ch =>
      answerFind_nobody (s := { s with link := l, changes := ch }) hm (holder_none hn)
  · exact reports_of (c := .listCars via) ht rfl rfl rfl fun l ch => rfl

/-! ## Taking the change sets -/

theorem lockForm_changes (line : Sys2Proof.Line) (s : State) :
    (lockForm line s).changes = { s.changes with siding := s.changes.siding || decide (s.link.form = .unlocked) } := by
  unfold lockForm
  split
  · next h => simp [h, State.flagSiding, State.modLink]
  · next h => simp [h]

/-- Settles O33: the owner answers with the sets as the form lock has left them, and clears them. -/
theorem takeChangesReturnsAndClears : Obligations.TakeChangesReturnsAndClears := by
  intro s via ht
  obtain ⟨u, hu, hx⟩ := exec_reading (.takeChanges via) s rfl ht (.inl (by show (33 : Byte) ≠ 34; decide)) rfl
  have hch : u.changes = { s.changes with siding := s.changes.siding || decide (s.link.form = .unlocked) } := by
    rw [hu.records]
    exact lockForm_changes _ s
  have hflag : boolByte u.changes.siding = if s.changes.siding = true ∨ s.link.form = .unlocked then 1 else 0 := by
    rw [hch]
    unfold boolByte
    simp
  refine ⟨_, ⟨hx, ?_⟩, ?_, ?_, ?_⟩
  · rw [← hflag]
    have hr := placeReply_replied via (answer (.takeChanges via) u)
    have hb : (answer (.takeChanges via) u).2.body = Layout.changes u.changes := rfl
    rw [hb] at hr
    unfold Layout.changes at hr
    rw [hch] at hr ⊢
    exact hr
  · rw [placeReply_frame]
    exact hu.frame
  · rw [placeReply_changes]
    rfl
  · rw [placeReply_changes]
    rfl

end Sys2Proof.Machine
end

section
/-! PROOFS. The requests that change the car table (R16 to R22, R27, R28): each changes one record at one event, whose revision the
close of the event raises (R5). -/

namespace Sys2Proof.Machine

/-! ## One record at one event -/

theorem carSlot_of_frame {s u : State} (h : u.frame = s.frame) (k : SlotNo) : u.carSlot k = s.carSlot k := by
  have hc : u.cars = s.cars := congrArg Frame.cars h
  unfold State.carSlot
  rw [hc]

theorem car_of_frame {s u : State} (h : u.frame = s.frame) (k : SlotNo) : u.car k = s.car k :=
  congrArg CarSlot.car (carSlot_of_frame h k)

/-- A record with its revision one on. -/
def Car.revised (c : Car) : Car := { c with revision := c.revision + 1 }

/-- The event of one changed record raises that record's revision and no other. -/
theorem closeEvent_cars_revised {b w : State} {k : SlotNo} (hd : w.scratch.departed = [])
    (ht : w.scratch.touched = BitVec.twoPow 24 k) :
    (closeEvent b w).cars = w.cars.set k { w.carSlot k with car := (w.car k).map Car.revised } := by
  refine Vector.ext fun j hj => ?_
  have h := closeEvent_carSlot b w ⟨j, hj⟩ hd
  rw [ht, BitVec.getLsbD_twoPow] at h
  have e : (closeEvent b w).carSlot ⟨j, hj⟩ = (closeEvent b w).cars[j] := rfl
  rw [← e, h, Vector.getElem_set]
  by_cases hjk : k.val = j
  · subst hjk
    simp
    rfl
  · have hne : ¬ (k.val < 24 ∧ k.val = j) := fun x => hjk x.2
    rw [if_neg hjk, if_neg (by simpa using hjk)]
    rfl

/-- The slot flags after an event without departures: those set before, and those of the records it has changed. -/
theorem closeEvent_carFlags {b w : State} (hd : w.scratch.departed = []) :
    (closeEvent b w).changes.cars = w.changes.cars ||| w.scratch.touched := by
  have hd' : w.refreshInlets.scratch.departed = [] := hd
  have hb : ∀ t : State, (bumpRevisions t).changes.cars = t.changes.cars ||| t.scratch.touched := fun t => by
    unfold bumpRevisions
    split
    · next h => rw [h]; simp
    · rfl
  unfold closeEvent
  rw [eachLastEnd_none b _ hd']
  exact hb _

theorem found_cars {s v : State} {via : Via} (h : Found s v via) : v.changes.cars = s.changes.cars := by
  rw [h.changes, lockForm_cars]

theorem modCar_frame (k : SlotNo) (f : Car → Car) (s : State) :
    (s.modCar k f).frame = { s.frame with cars := s.cars.set k { s.carSlot k with car := (s.car k).map f } } := rfl

/-- The records after an event that changes the record in slot `k` and otherwise leaves the frame `x`. -/
theorem closeEvent_modCar_frame {b w : State} {k : SlotNo} {f : Car → Car} {c : Car} (h : w.scratch = .empty) (hc : w.car k = some c) :
    (closeEvent b (w.modCar k f)).frame =
      { w.frame with cars := w.cars.set k { issue := (w.carSlot k).issue, car := some (f c).revised } } := by
  have hd : (w.modCar k f).scratch.departed = [] := by
    show w.scratch.departed = []
    rw [h]
    rfl
  have ht : (w.modCar k f).scratch.touched = BitVec.twoPow 24 k := by
    show w.scratch.touched ||| _ = _
    rw [h]
    exact BitVec.zero_or
  have hcar : (w.modCar k f).car k = some (f c) := by
    rw [modCar_car, if_pos rfl, hc]
    rfl
  have hissue : ((w.modCar k f).carSlot k).issue = (w.carSlot k).issue := by
    simp [State.modCar, State.modSlot, State.carSlot]
  have hcars : (w.modCar k f).cars = w.cars.set k { w.carSlot k with car := (w.car k).map f } := rfl
  rw [closeEvent_frame, closeEvent_cars_revised hd ht, hcar, hcars, Vector.set_set, modCar_frame]
  simp only [Option.map_some, hissue]

theorem closeEvent_modCar_flags {b w : State} {k : SlotNo} {f : Car → Car} (h : w.scratch = .empty) :
    (closeEvent b (w.modCar k f)).changes.cars = w.changes.cars ||| BitVec.twoPow 24 k := by
  rw [closeEvent_carFlags (by show w.scratch.departed = []; rw [h]; rfl)]
  show w.changes.cars ||| (w.scratch.touched ||| _) = _
  rw [h]
  exact congrArg _ BitVec.zero_or

/-! ## ANNOUNCE and RELEASE -/

theorem litresOk_iff (n : Nat) : litresOk n = true ↔ 1 ≤ n ∧ n ≤ 200000 := by
  simp [litresOk]

/-- R16: the record of a car just announced. -/
def Car.announced (mark : List Byte) (g : Grade) (n : Nat) : Car :=
  { mark, grade := g, load := n, phase := .announced, spot := none, hoses := false, delivered := 0, recovered := false
    lastEnd := none, revision := 0 }

theorem emptySlot_first {s : State} {k : SlotNo} (hk : s.car k = none) (hj : ∀ j, j < k → s.car j ≠ none) :
    s.emptySlot = some k := by
  cases he : s.emptySlot with
  | none =>
    have := List.find?_eq_none.mp he k (List.mem_finRange k)
    rw [hk] at this
    exact absurd rfl this
  | some j =>
    obtain ⟨hp, as, bs, hl, has⟩ := List.find?_eq_some_iff_append.mp he
    have hnone : s.car j = none := by simpa using hp
    have hjk : ¬ j < k := fun h => hj j h hnone
    have hsorted : (as ++ j :: bs).Pairwise (· < ·) := hl ▸ List.pairwise_lt_finRange 24
    have hmem : k ∈ as ++ j :: bs := hl ▸ List.mem_finRange k
    rcases List.mem_append.mp hmem with h | h
    · have := has k h
      rw [hk] at this
      cases this
    · rcases List.mem_cons.mp h with rfl | h
      · rfl
      · have := (List.pairwise_cons.mp (List.pairwise_append.mp hsorted).2.1).1 k h
        exact absurd this hjk

theorem emptySlot_none {s : State} (h : ∀ k, s.car k ≠ none) : s.emptySlot = none :=
  List.find?_eq_none.mpr fun k _ => by simpa using h k

section Announce

variable {mark : List Byte} {grade : Byte} {load : Word32} {s : State}

theorem answerAnnounce_range (h : markOk mark = false ∨ gradeOf grade = none ∨ load.toNat = 0 ∨ 200000 < load.toNat) :
    answerAnnounce mark grade load s = (s, .bare .range) := by
  unfold answerAnnounce
  by_cases hm : markOk mark = true
  · rw [if_neg (by simp [hm])]
    cases hg : gradeOf grade with
    | none => rfl
    | some g =>
      refine if_pos ?_
      have hl : ¬ litresOk load.toNat = true := by
        rw [litresOk_iff]
        rcases h with h | h | h | h
        · rw [hm] at h; cases h
        · rw [hg] at h; cases h
        · omega
        · omega
      simpa using hl
  · exact if_pos (by simpa using hm)

variable {g : Grade} (hm : markOk mark = true) (hg : gradeOf grade = some g) (h1 : 1 ≤ load.toNat) (h2 : load.toNat ≤ 200000)

include hm hg h1 h2

theorem answerAnnounce_inForm :
    answerAnnounce mark grade load s = if (s.holder mark).isSome then (s, .bare .duplicate)
      else match s.emptySlot with
        | none => (s, .bare .full)
        | some k =>
          ((s.modSlot k fun sl => { sl with car := some (.announced mark g load.toNat) }).flagSlot k,
           .ok (Layout.handle { slot := k, issue := (s.carSlot k).issue } ++ chars16 0)) := by
  unfold answerAnnounce
  rw [if_neg (by simp [hm]), hg]
  exact if_neg (by simpa using (litresOk_iff _).mpr ⟨h1, h2⟩)

theorem answerAnnounce_duplicate (hh : ∃ k c, s.car k = some c ∧ c.mark = mark) :
    answerAnnounce mark grade load s = (s, .bare .duplicate) := by
  obtain ⟨k, c, hk, hc⟩ := hh
  rw [answerAnnounce_inForm hm hg h1 h2]
  refine if_pos ?_
  cases h : s.holder mark with
  | none => exact absurd hc (holder_eq_none h hk)
  | some j => rfl

theorem answerAnnounce_full (hh : ∀ k c, s.car k = some c → c.mark ≠ mark) (hf : ∀ k, s.car k ≠ none) :
    answerAnnounce mark grade load s = (s, .bare .full) := by
  rw [answerAnnounce_inForm hm hg h1 h2, if_neg (by rw [holder_none hh]; decide), emptySlot_none hf]

theorem answerAnnounce_done {k : SlotNo} (hh : ∀ k c, s.car k = some c → c.mark ≠ mark) (hk : s.car k = none)
    (hj : ∀ j, j < k → s.car j ≠ none) :
    answerAnnounce mark grade load s =
      ((s.modSlot k fun sl => { sl with car := some (.announced mark g load.toNat) }).flagSlot k,
       .ok [Layout.byteOf k.val, (s.carSlot k).issue, 0, 0]) := by
  rw [answerAnnounce_inForm hm hg h1 h2, if_neg (by rw [holder_none hh]; decide), emptySlot_first hk hj]
  rfl

end Announce

section Release

variable {slot issue : Byte} {expected : Word16} {s : State}

theorem answerRelease_error {st : Status} (h : s.resolve slot issue = .error st) :
    answerRelease slot issue expected s = (s, .bare st) := by
  unfold answerRelease; rw [h]

variable {k : SlotNo} {c : Car} (h : s.resolve slot issue = .ok (k, c))

include h

theorem answerRelease_stale (he : expected ≠ c.revision) :
    answerRelease slot issue expected s = (s, .withRevision .stale c) := by
  unfold answerRelease
  rw [h]
  exact if_pos he

theorem answerRelease_phase (he : expected = c.revision) (hp : ¬ c.releasable = true) :
    answerRelease slot issue expected s = (s, .withRevision .phase c) := by
  unfold answerRelease
  rw [h]
  exact (if_neg (not_not.mpr he)).trans (if_pos (by simpa using hp))

theorem answerRelease_done (he : expected = c.revision) (hp : c.releasable = true) :
    answerRelease slot issue expected s =
      ((s.modSlot k fun sl => { issue := sl.issue + 1, car := none }).flagSlot k,
       .ok (Layout.text c.mark ++ chars32 c.delivered ++ [boolByte c.recovered] ++ Layout.optional Layout.lastEnd c.lastEnd)) := by
  unfold answerRelease
  rw [h]
  exact (if_neg (not_not.mpr he)).trans (if_neg (by simp [hp]))

end Release

theorem Car.releasable_iff (c : Car) : c.releasable = true ↔ c.phase = .announced ∨ (c.phase = .served ∧ c.spot = none) := by
  simp [Car.releasable]

/-- A slot written with its flag set, at an event that changes no other record. -/
theorem modSlot_event {s v : State} {via : Via} (hv : Found s v via) (k : SlotNo) (x : CarSlot) (f : CarSlot → CarSlot)
    (hx : f (s.carSlot k) = x) :
    (closeEvent v ((v.modSlot k f).flagSlot k)).frame = { s.frame with cars := s.cars.set k x } ∧
    (closeEvent v ((v.modSlot k f).flagSlot k)).changes.cars = s.changes.cars ||| BitVec.twoPow 24 k := by
  have hsc : ((v.modSlot k f).flagSlot k).scratch = .empty := hv.scratch
  have hcars : v.cars = s.cars := congrArg Frame.cars hv.frame
  refine ⟨?_, ?_⟩
  · rw [closeEvent_frame_quiet _ _ (by rw [hsc]; rfl) (by rw [hsc]; rfl)]
    calc ((v.modSlot k f).flagSlot k).frame = { v.frame with cars := v.cars.set k (f (v.carSlot k)) } := rfl
      _ = _ := by rw [hv.frame, hcars, carSlot_of_frame hv.frame, hx]
  · rw [closeEvent_carFlags (by rw [hsc]; rfl), hsc]
    show (v.changes.cars ||| _) ||| 0#24 = _
    rw [found_cars hv, BitVec.or_zero]

/-- Settles O22: each check is a clause of the owner's answer, and the accepted request writes one slot. -/
theorem announceCreatesAndReleaseRetires : Obligations.AnnounceCreatesAndReleaseRetires := by
  refine ⟨fun s via mark grade load ht => ⟨fun h => ?_, fun g hm hg h1 h2 => ⟨fun hh => ?_, fun hh => ⟨fun hf => ?_, fun k hk hj => ?_⟩⟩⟩,
    fun s via slot issue expected ht => ⟨fun st h => ?_, fun k c h => ⟨fun he => ?_, fun he hp => ?_, fun he hp => ?_⟩⟩⟩
  · exact refuses_of (c := .announce via mark grade load) ht rfl fun u _ => answerAnnounce_range h
  · exact refuses_of (c := .announce via mark grade load) ht rfl fun u hu =>
      answerAnnounce_duplicate hm hg h1 h2 (by simpa only [car_of_frame hu] using hh)
  · exact refuses_of (c := .announce via mark grade load) ht rfl fun u hu =>
      answerAnnounce_full hm hg h1 h2 (by simpa only [car_of_frame hu] using hh) (by simpa only [car_of_frame hu] using hf)
  · obtain ⟨v, t, hv, ha, hframe, hch, -⟩ := answers_event (c := .announce via mark grade load) (st := .done)
      (b := [Layout.byteOf k.val, (s.carSlot k).issue, 0, 0])
      (f := fun v => (v.modSlot k fun sl => { sl with car := some (.announced mark g load.toNat) }).flagSlot k) ht rfl fun v hv => by
        rw [← carSlot_of_frame hv]
        exact answerAnnounce_done hm hg h1 h2 (by simpa only [car_of_frame hv] using hh) (by rw [car_of_frame hv]; exact hk)
          (by simpa only [car_of_frame hv] using hj)
    obtain ⟨h1, h2⟩ := modSlot_event hv k _ (fun sl => { sl with car := some (.announced mark g load.toNat) }) rfl
    exact ⟨t, ha, hframe.trans h1, (congrArg Changes.cars hch).trans h2⟩
  · exact refuses_of (c := .release via slot issue expected) ht rfl fun u hu =>
      answerRelease_error ((resolve_of_frame hu slot issue).trans h)
  · exact refuses_of (c := .release via slot issue expected) ht rfl fun u hu =>
      answerRelease_stale ((resolve_of_frame hu slot issue).trans h) he
  · exact refuses_of (c := .release via slot issue expected) ht rfl fun u hu =>
      answerRelease_phase ((resolve_of_frame hu slot issue).trans h) he (by rwa [Car.releasable_iff])
  · obtain ⟨v, t, hv, ha, hframe, hch, -⟩ := answers_event (c := .release via slot issue expected) (s := s) ht rfl fun v hv =>
      answerRelease_done ((resolve_of_frame hv slot issue).trans h) he ((Car.releasable_iff c).mpr hp)
    obtain ⟨h1, h2⟩ := modSlot_event hv k _ (fun sl => { issue := sl.issue + 1, car := none }) rfl
    exact ⟨t, ha, hframe.trans h1, (congrArg Changes.cars hch).trans h2⟩

/-! ## AMEND -/

theorem judged_none_iff {α β : Type} {f : α → Option β} {o : Option α} {r : Option β} (h : judged f o = some r) :
    r = none ↔ o = none := by
  cases o with
  | none => cases h; simp
  | some a =>
    obtain ⟨b, -, rfl⟩ := Option.map_eq_some_iff.mp h
    simp

/-- An AMEND's values are absent where it gives no field. -/
theorem amendment_empty_iff {mark : Option (List Byte)} {grade : Option Byte} {load : Option Word32} {hoses : Option Byte}
    {a : Amendment} (h : amendmentOf mark grade load hoses = some a) :
    a = { mark := none, grade := none, load := none, hoses := none } ↔
      mark = none ∧ grade = none ∧ load = none ∧ hoses = none := by
  unfold amendmentOf at h
  split at h
  · next hm hg hl hh =>
    cases h
    rw [Amendment.mk.injEq, judged_none_iff hm, judged_none_iff hg, judged_none_iff hl, judged_none_iff hh]
  · cases h

section Amend

variable {slot issue : Byte} {expected : Word16} {mark : Option (List Byte)} {grade : Option Byte} {load : Option Word32}
  {hoses : Option Byte} {s : State}

theorem answerAmend_error {st : Status} (h : s.resolve slot issue = .error st) :
    answerAmend slot issue expected mark grade load hoses s = (s, .bare st) := by
  unfold answerAmend; rw [h]

variable {k : SlotNo} {c : Car} (h : s.resolve slot issue = .ok (k, c))

include h

theorem answerAmend_stale (he : expected ≠ c.revision) :
    answerAmend slot issue expected mark grade load hoses s = (s, .withRevision .stale c) := by
  unfold answerAmend
  rw [h]
  exact if_pos he

variable (he : expected = c.revision)

include he

theorem answerAmend_range (ha : amendmentOf mark grade load hoses = none) :
    answerAmend slot issue expected mark grade load hoses s = (s, .withRevision .range c) := by
  unfold answerAmend
  rw [h, ha]
  exact if_neg (not_not.mpr he)

variable {a : Amendment} (ha : amendmentOf mark grade load hoses = some a)

include ha

/-- An AMEND in range of the car's current revision. -/
theorem answerAmend_inRange :
    answerAmend slot issue expected mark grade load hoses s =
      if !a.phaseAllows c then (s, .withRevision .phase c)
      else if !s.hosesAmendable a c then (s, .withRevision .state c)
      else if s.markTaken a k then (s, .withRevision .duplicate c)
      else if s.loadTooLow a c then (s, .withRevision .allowance c)
      else if a = { mark := none, grade := none, load := none, hoses := none } then
        (s, .ok (a.previous c ++ chars16 c.revision))
      else (s.modCar k a.apply, .ok (a.previous c ++ chars16 (c.revision + 1))) := by
  unfold answerAmend
  rw [h, ha]
  exact if_neg (not_not.mpr he)

theorem answerAmend_phase (h1 : a.phaseAllows c = false) :
    answerAmend slot issue expected mark grade load hoses s = (s, .withRevision .phase c) := by
  rw [answerAmend_inRange h he ha, if_pos (by simp [h1])]

variable (h1 : a.phaseAllows c = true)

include h1

theorem answerAmend_state (h2 : s.hosesAmendable a c = false) :
    answerAmend slot issue expected mark grade load hoses s = (s, .withRevision .state c) := by
  rw [answerAmend_inRange h he ha, if_neg (by simp [h1]), if_pos (by simp [h2])]

variable (h2 : s.hosesAmendable a c = true)

include h2

theorem answerAmend_duplicate (h3 : s.markTaken a k = true) :
    answerAmend slot issue expected mark grade load hoses s = (s, .withRevision .duplicate c) := by
  rw [answerAmend_inRange h he ha, if_neg (by simp [h1]), if_neg (by simp [h2]), if_pos h3]

variable (h3 : s.markTaken a k = false)

include h3

theorem answerAmend_allowance (h4 : s.loadTooLow a c = true) :
    answerAmend slot issue expected mark grade load hoses s = (s, .withRevision .allowance c) := by
  rw [answerAmend_inRange h he ha, if_neg (by simp [h1]), if_neg (by simp [h2]), if_neg (by simp [h3]), if_pos h4]

variable (h4 : s.loadTooLow a c = false)

include h4

theorem answerAmend_nothing (hn : a = { mark := none, grade := none, load := none, hoses := none }) :
    answerAmend slot issue expected mark grade load hoses s = (s, .ok ([0, 0, 0, 0] ++ chars16 c.revision)) := by
  rw [answerAmend_inRange h he ha, if_neg (by simp [h1]), if_neg (by simp [h2]), if_neg (by simp [h3]), if_neg (by simp [h4]),
    if_pos hn, hn]
  rfl

theorem answerAmend_done (hn : a ≠ { mark := none, grade := none, load := none, hoses := none }) :
    answerAmend slot issue expected mark grade load hoses s =
      (s.modCar k a.apply, .ok (a.previous c ++ chars16 (c.revision + 1))) := by
  rw [answerAmend_inRange h he ha, if_neg (by simp [h1]), if_neg (by simp [h2]), if_neg (by simp [h3]), if_neg (by simp [h4]),
    if_neg hn]

end Amend

/-- Settles O23: the checks in the rule's order, then the record with the given fields and its revision one on. -/
theorem amendChangesGivenFields : Obligations.AmendChangesGivenFields := by
  intro s via slot issue expected mark grade load hoses ht
  have no : ∀ {st b}, (∀ u : State, u.frame = s.frame → answerAmend slot issue expected mark grade load hoses u = (u, { status := st, body := b })) →
      ∃ t, s.turnsAway (.amend via slot issue expected mark grade load hoses) st b t :=
    refuses_of (c := .amend via slot issue expected mark grade load hoses) ht rfl
  refine ⟨fun st h => no fun u hu => answerAmend_error ((resolve_of_frame hu _ _).trans h), fun k c h => ?_⟩
  have hr : ∀ {u : State}, u.frame = s.frame → u.resolve slot issue = .ok (k, c) := fun hu => (resolve_of_frame hu _ _).trans h
  have hh : ∀ {u : State} (a : Amendment), u.frame = s.frame → u.hosesAmendable a c = s.hosesAmendable a c := fun a hu => by
    obtain ⟨_, _, _, _, _, _, rfl⟩ := of_frame hu
    rfl
  have hm : ∀ {u : State} (a : Amendment), u.frame = s.frame → u.markTaken a k = s.markTaken a k := fun a hu => by
    obtain ⟨_, _, _, _, _, _, rfl⟩ := of_frame hu
    rfl
  have hl : ∀ {u : State} (a : Amendment), u.frame = s.frame → u.loadTooLow a c = s.loadTooLow a c := fun a hu => by
    obtain ⟨_, _, _, _, _, _, rfl⟩ := of_frame hu
    rfl
  refine ⟨fun he => no fun u hu => answerAmend_stale (hr hu) he, fun he => ⟨fun ha => no fun u hu => answerAmend_range (hr hu) he ha,
    fun a ha => ⟨fun h1 => no fun u hu => answerAmend_phase (hr hu) he ha h1,
      fun h1 h2 => no fun u hu => answerAmend_state (hr hu) he ha h1 ((hh a hu).trans h2),
      fun h1 h2 h3 => no fun u hu => answerAmend_duplicate (hr hu) he ha h1 ((hh a hu).trans h2) ((hm a hu).trans h3),
      fun h1 h2 h3 h4 => no fun u hu =>
        answerAmend_allowance (hr hu) he ha h1 ((hh a hu).trans h2) ((hm a hu).trans h3) ((hl a hu).trans h4),
      fun h1 h2 h3 h4 => ⟨fun hn => no fun u hu => answerAmend_nothing (hr hu) he ha h1 ((hh a hu).trans h2)
        ((hm a hu).trans h3) ((hl a hu).trans h4) ((amendment_empty_iff ha).mpr hn), fun hn => ?_⟩⟩⟩⟩
  obtain ⟨v, t, hv, hans, hframe, hch, -⟩ := answers_event (c := .amend via slot issue expected mark grade load hoses) (s := s) ht rfl
    fun v hv => answerAmend_done (hr hv) he ha h1 ((hh a hv).trans h2) ((hm a hv).trans h3) ((hl a hv).trans h4)
      fun e => hn ((amendment_empty_iff ha).mp e)
  have hcar : v.car k = some c := (resolve_ok (hr hv.frame)).2.1
  have hcars : v.cars = s.cars := congrArg Frame.cars hv.frame
  refine ⟨t, hans, hframe.trans ?_, (congrArg Changes.cars hch).trans ?_⟩
  · rw [closeEvent_modCar_frame hv.scratch hcar, hv.frame, hcars, carSlot_of_frame hv.frame]
    rfl
  · rw [closeEvent_modCar_flags hv.scratch, found_cars hv]

end Sys2Proof.Machine
end

section
/-! PROOFS. SPOT and UNSPOT (R27, R28), and the requests that write one value each: SET VESSEL SERVICE (R98), STAGE SETPOINTS (R177),
SETPOINT HOLD (R178) and SET LOCK (R176). -/

namespace Sys2Proof.Machine

/-! ## SPOT -/

section Spot

variable {slot issue place : Byte} {s : State}

theorem answerSpot_error {st : Status} (h : s.resolve slot issue = .error st) : answerSpot slot issue place s = (s, .bare st) := by
  unfold answerSpot; rw [h]

variable {k : SlotNo} {c : Car} (h : s.resolve slot issue = .ok (k, c))

include h

theorem answerSpot_place {st : Status} (hn : s.namedSpot place = .error st) : answerSpot slot issue place s = (s, .bare st) := by
  unfold answerSpot
  rw [h]
  exact withSpot_error _ hn

variable {i : SpotNo} (hn : s.namedSpot place = .ok i)

include hn

theorem answerSpot_named :
    answerSpot slot issue place s =
      if (s.spot i).car.isSome then (s, .bare .occupied)
      else if (s.spot i).state ≠ .vacant then (s, .bare .state)
      else if !c.releasable then (s, .bare .phase)
      else (bind i k issue s, .ok (chars16 (c.revision + 1))) := by
  unfold answerSpot
  rw [h]
  exact withSpot_ok _ hn

theorem answerSpot_occupied (h1 : (s.spot i).car ≠ none) : answerSpot slot issue place s = (s, .bare .occupied) := by
  rw [answerSpot_named h hn, if_pos (Option.isSome_iff_ne_none.mpr h1)]

variable (h1 : (s.spot i).car = none)

include h1

theorem answerSpot_state (h2 : (s.spot i).state ≠ .vacant) : answerSpot slot issue place s = (s, .bare .state) := by
  rw [answerSpot_named h hn, if_neg (by simp [h1]), if_pos h2]

variable (h2 : (s.spot i).state = .vacant)

include h2

theorem answerSpot_phase (h3 : ¬ c.releasable = true) : answerSpot slot issue place s = (s, .bare .phase) := by
  rw [answerSpot_named h hn, if_neg (by simp [h1]), if_neg (not_not.mpr h2), if_pos (by simpa using h3)]

theorem answerSpot_done (h3 : c.releasable = true) :
    answerSpot slot issue place s = (bind i k issue s, .ok (chars16 (c.revision + 1))) := by
  rw [answerSpot_named h hn, if_neg (by simp [h1]), if_neg (not_not.mpr h2), if_neg (by simp [h3])]

end Spot

/-- A spot whose state or car differs at the end of an event has its flag set. -/
theorem spotFlag_of_ne {b w : State} {i : SpotNo} (h : (b.spot i).state ≠ (w.spot i).state ∨ (b.spot i).car ≠ (w.spot i).car) :
    (closeEvent b w).changes.spots.getLsbD i = true := by
  have hv : b.spotView i ≠ w.spotView i := fun e => h.elim (absurd (congrArg SpotView.state e)) (absurd (congrArg SpotView.car e))
  rw [closeEvent_spotFlag]
  simp [hv]

theorem modSpot_frame (i : SpotNo) (f : Spot → Spot) (s : State) :
    (s.modSpot i f).frame = { s.frame with spots := s.spots.set i (f (s.spot i)) } := rfl

/-- The event of a binding or an unbinding: one spot and one record. -/
theorem spotAndCar_event {s v : State} (hv : v.frame = s.frame) (hx : v.scratch = .empty) (hch : v.changes.cars = s.changes.cars)
    {i : SpotNo} {k : SlotNo} {c : Car} {f : Spot → Spot} {g : Car → Car} (hc : s.car k = some c) {w : State}
    (hw : w = (v.modSpot i f).modCar k g) :
    (closeEvent v w).frame = { s.frame with
      cars := s.cars.set k { issue := (s.carSlot k).issue, car := some (g c).revised }
      spots := s.spots.set i (f (s.spot i)) } ∧
    (closeEvent v w).changes.cars = s.changes.cars ||| BitVec.twoPow 24 k := by
  subst hw
  have hcar : (v.modSpot i f).car k = some c := (car_of_frame hv k).trans hc
  have hcars : v.cars = s.cars := congrArg Frame.cars hv
  have hspots : v.spots = s.spots := congrArg Frame.spots hv
  refine ⟨?_, ?_⟩
  · rw [closeEvent_modCar_frame (w := v.modSpot i f) hx hcar, modSpot_frame, hv]
    have e1 : (v.modSpot i f).cars = s.cars := hcars
    have e2 : (v.modSpot i f).carSlot k = s.carSlot k := carSlot_of_frame hv k
    rw [e1, e2, hspots, spot_of_frame hv]
  · rw [closeEvent_modCar_flags (w := v.modSpot i f) hx]
    show v.changes.cars ||| _ = _
    rw [hch]

/-! ## UNSPOT -/

theorem answerUnspot_state {place : Byte} {s : State} {i : SpotNo} (hn : s.namedSpot place = .ok i)
    (h : ¬ ((s.spot i).state = .spotted ∨ ((s.spot i).state = .faulted ∧ (s.spot i).car ≠ none))) :
    answerUnspot place s = (s, .bare .state) := by
  unfold answerUnspot
  rw [withSpot_ok _ hn]
  exact if_neg (by simpa only [Option.isSome_iff_ne_none] using h)

theorem answerUnspot_done {place : Byte} {s : State} {i : SpotNo} (hn : s.namedSpot place = .ok i)
    (h : (s.spot i).state = .spotted ∨ ((s.spot i).state = .faulted ∧ (s.spot i).car ≠ none)) :
    answerUnspot place s = (unbind i s, .okBare) := by
  unfold answerUnspot
  rw [withSpot_ok _ hn]
  exact if_pos (by simpa only [Option.isSome_iff_ne_none] using h)

/-- The unbinding at a spot with its car. -/
theorem unbind_bound {s : State} {i : SpotNo} {h : Handle} (hc : (s.spot i).car = some h) :
    unbind i s = (s.modSpot i fun sp => { sp with car := none, state := if sp.state = .spotted then .vacant else sp.state }).modCar h.slot
      fun c => { c with spot := none, hoses := false, phase := if c.phase = .placed then .announced else c.phase } := by
  unfold unbind State.modCarAt
  rw [hc]
  rfl

/-- Settles O24: the checks in order; a binding writes the spot and the record at one event, and so does an unbinding. -/
theorem spotBindsAndUnspotUnbinds : Obligations.SpotBindsAndUnspotUnbinds := by
  intro s via place ht
  refine ⟨fun slot issue st h => ?_, fun slot issue p st h hn => ?_, fun slot issue k c i h hn => ⟨fun h1 => ?_, fun h1 h2 => ?_,
    fun h1 h2 h3 => ?_, fun h1 h2 h3 => ?_⟩, fun i hn => ⟨fun hs => ?_, fun hd c hs hcar hc => ?_⟩⟩
  · exact refuses_of (c := .spot via slot issue place) ht rfl fun u hu => answerSpot_error ((resolve_of_frame hu _ _).trans h)
  · exact refuses_of (c := .spot via slot issue place) ht rfl fun u hu =>
      answerSpot_place (k := p.1) (c := p.2) ((resolve_of_frame hu _ _).trans h) ((namedSpot_of_frame hu _).trans hn)
  · exact refuses_of (c := .spot via slot issue place) ht rfl fun u hu =>
      answerSpot_occupied ((resolve_of_frame hu _ _).trans h) ((namedSpot_of_frame hu _).trans hn) (by rwa [spot_of_frame hu])
  · exact refuses_of (c := .spot via slot issue place) ht rfl fun u hu =>
      answerSpot_state ((resolve_of_frame hu _ _).trans h) ((namedSpot_of_frame hu _).trans hn) (by rwa [spot_of_frame hu])
        (by rwa [spot_of_frame hu])
  · exact refuses_of (c := .spot via slot issue place) ht rfl fun u hu =>
      answerSpot_phase ((resolve_of_frame hu _ _).trans h) ((namedSpot_of_frame hu _).trans hn) (by rwa [spot_of_frame hu])
        (by rwa [spot_of_frame hu]) (by rwa [Car.releasable_iff])
  · obtain ⟨v, t, hv, ha, hframe, hch, -⟩ := answers_event (c := .spot via slot issue place) (s := s) ht rfl fun v hv =>
      answerSpot_done ((resolve_of_frame hv _ _).trans h) ((namedSpot_of_frame hv _).trans hn) (by rwa [spot_of_frame hv])
        (by rwa [spot_of_frame hv]) ((Car.releasable_iff c).mpr h3)
    obtain ⟨e1, e2⟩ := spotAndCar_event hv.frame hv.scratch (found_cars hv) (resolve_ok h).2.1 (w := bind i k issue v) rfl
    refine ⟨t, ha, hframe.trans (e1.trans ?_), ?_, (congrArg Changes.cars hch).trans e2⟩
    · by_cases hp : c.phase = .announced <;> simp [hp, Car.revised]
    · rw [hch]
      refine spotFlag_of_ne (.inl ?_)
      rw [spot_of_frame hv.frame, h2]
      simp [bind]
  · exact refuses_of (c := .unspot via place) ht rfl fun u hu =>
      answerUnspot_state ((namedSpot_of_frame hu _).trans hn) (by rwa [spot_of_frame hu])
  · have hs' : (s.spot i).state = .spotted ∨ ((s.spot i).state = .faulted ∧ (s.spot i).car ≠ none) :=
      hs.imp_right fun h => ⟨h, by rw [hcar]; exact nofun⟩
    obtain ⟨v, t, hv, ha, hframe, hch, -⟩ := answers_event (c := .unspot via place) (s := s) ht rfl fun v hv =>
      answerUnspot_done ((namedSpot_of_frame hv _).trans hn) (by rwa [spot_of_frame hv])
    have hvcar : (v.spot i).car = some hd := by rw [spot_of_frame hv.frame, hcar]
    obtain ⟨e1, e2⟩ := spotAndCar_event hv.frame hv.scratch (found_cars hv) hc (unbind_bound hvcar)
    refine ⟨t, ha, hframe.trans (e1.trans ?_), ?_, (congrArg Changes.cars hch).trans e2⟩
    · rcases hs with hs | hs <;> simp [hs, Car.revised]
    · rw [hch]
      refine spotFlag_of_ne (.inr ?_)
      rw [hvcar, unbind_bound hvcar]
      simp

end Sys2Proof.Machine
end

section
/-! PROOFS. The requests that write one value each: SET VESSEL SERVICE (R98), STAGE SETPOINTS (R177), SETPOINT HOLD (R178) and
SET LOCK (R176). -/

namespace Sys2Proof.Machine

theorem vessel_of_frame {s u : State} (h : u.frame = s.frame) (v : VesselNo) : u.vessel v = s.vessel v := by
  have hv : u.vessels = s.vessels := congrArg Frame.vessels h
  unfold State.vessel
  rw [hv]

/-- A vessel whose service differs at the end of an event has its flag set. -/
theorem vesselFlag_of_service {b w : State} {v : VesselNo} (h : (b.vessel v).service ≠ (w.vessel v).service) :
    (closeEvent b w).changes.vessels.getLsbD v = true := by
  have hv : b.vesselView v ≠ w.refreshInlets.vesselView v := fun e => h (congrArg VesselView.service e)
  rw [closeEvent_vesselFlag]
  simp [hv]

/-- A siding whose view differs at the end of an event has its flag set. -/
theorem sidingFlag_of_ne {b w : State} (h : b.sidingView ≠ w.sidingView) : (closeEvent b w).changes.siding = true := by
  rw [closeEvent_sidingFlag]
  simp [h]

/-- An event that changes no car record and sees no order leave closes on the records it has made. -/
theorem event_frame {s v w : State} {via : Via} (hv : Found s v via) (hw : w.scratch = v.scratch) :
    (closeEvent v w).frame = w.frame := by
  have h : w.scratch = .empty := hw.trans hv.scratch
  exact closeEvent_frame_quiet _ _ (by rw [h]; rfl) (by rw [h]; rfl)

/-! ## SET VESSEL SERVICE -/

theorem serviceOf_none {b : Byte} (h : 1 < b.toNat) : serviceOf b = none := by
  unfold serviceOf
  split <;> first | rfl | omega

section Service

variable {b sv : Byte} {s : State} {v : VesselNo} (hn : s.namedVessel b = .ok v)

include hn

theorem answerSetVesselService_range (h : serviceOf sv = none) : answerSetVesselService b sv s = (s, .bare .range) := by
  unfold answerSetVesselService
  rw [withVessel_ok _ hn, h]

theorem answerSetVesselService_reserved (h : serviceOf sv = some .outOfService) (he : (s.vessel v).entries ≠ []) :
    answerSetVesselService b sv s = (s, .bare .reserved) := by
  unfold answerSetVesselService
  rw [withVessel_ok _ hn, h]
  exact if_pos ⟨rfl, he⟩

theorem answerSetVesselService_done {x : Service} (h : serviceOf sv = some x) (he : ¬ (x = .outOfService ∧ (s.vessel v).entries ≠ [])) :
    answerSetVesselService b sv s =
      (s.modVessel v fun r => { r with service := x }, .ok [Layout.service (s.vessel v).service]) := by
  unfold answerSetVesselService
  rw [withVessel_ok _ hn, h]
  exact if_neg he

end Service

theorem setVesselService_done {s : State} {via : Via} {b sv : Byte} {v : VesselNo} {x : Service} (ht : s.canTake via = true)
    (hn : s.namedVessel b = .ok v) (h : serviceOf sv = some x) (he : ¬ (x = .outOfService ∧ (s.vessel v).entries ≠ [])) :
    ∃ t, s.answers (.setVesselService via b sv) .done [Layout.service (s.vessel v).service] t ∧
      t.frame = { s.frame with vessels := s.vessels.set v { s.vessel v with service := x } } ∧
      (x ≠ (s.vessel v).service → t.changes.vessels.getLsbD v = true) := by
  obtain ⟨u, t, hu, ha, hframe, hch, -⟩ := answers_event (c := .setVesselService via b sv) (s := s) (st := .done)
    (b := [Layout.service (s.vessel v).service]) (f := fun u => u.modVessel v fun r => { r with service := x }) ht rfl fun u hu => by
      rw [← vessel_of_frame hu]
      exact answerSetVesselService_done ((namedVessel_of_frame hu b).trans hn) h (by rwa [vessel_of_frame hu])
  refine ⟨t, ha, hframe.trans ?_, fun hx => ?_⟩
  · refine (event_frame hu (by rfl)).trans ?_
    have hvessels : u.vessels = s.vessels := congrArg Frame.vessels hu.frame
    calc (u.modVessel v fun r => { r with service := x }).frame
        = { u.frame with vessels := u.vessels.set v { u.vessel v with service := x } } := rfl
      _ = _ := by rw [hu.frame, hvessels, vessel_of_frame hu.frame]
  · rw [hch]
    refine vesselFlag_of_service ?_
    rw [vessel_of_frame hu.frame]
    simpa using hx.symm

/-! ## STAGE SETPOINTS and SETPOINT HOLD -/

theorem setpointsOf_some {flowHigh : Word16} {window : Byte} {stall recovery creep : Word16}
    (h : (1 ≤ flowHigh.toNat ∧ flowHigh.toNat ≤ 10000) ∧ (1 ≤ window.toNat ∧ window.toNat ≤ 60) ∧
      (5 ≤ stall.toNat ∧ stall.toNat ≤ 600) ∧ (60 ≤ recovery.toNat ∧ recovery.toNat ≤ 14400) ∧
      (1 ≤ creep.toNat ∧ creep.toNat ≤ 1000)) :
    setpointsOf flowHigh window stall recovery creep =
      some { flowHigh := flowHigh.toNat, window := window.toNat, stall := stall.toNat, recovery := recovery.toNat, creep := creep.toNat } := by
  unfold setpointsOf
  exact if_pos (by simpa [within, and_assoc] using h)

theorem setpointsOf_none {flowHigh : Word16} {window : Byte} {stall recovery creep : Word16}
    (h : ¬ ((1 ≤ flowHigh.toNat ∧ flowHigh.toNat ≤ 10000) ∧ (1 ≤ window.toNat ∧ window.toNat ≤ 60) ∧
      (5 ≤ stall.toNat ∧ stall.toNat ≤ 600) ∧ (60 ≤ recovery.toNat ∧ recovery.toNat ≤ 14400) ∧
      (1 ≤ creep.toNat ∧ creep.toNat ≤ 1000))) :
    setpointsOf flowHigh window stall recovery creep = none := by
  unfold setpointsOf
  exact if_neg (by simpa [within, and_assoc] using h)

theorem answerStageSetpoints_range {flowHigh : Word16} {window : Byte} {stall recovery creep : Word16}
    (h : setpointsOf flowHigh window stall recovery creep = none) (s : State) :
    answerStageSetpoints flowHigh window stall recovery creep s = (s, .bare .range) := by
  unfold answerStageSetpoints; rw [h]

theorem answerStageSetpoints_done {flowHigh : Word16} {window : Byte} {stall recovery creep : Word16} {p : Setpoints}
    (h : setpointsOf flowHigh window stall recovery creep = some p) (s : State) :
    answerStageSetpoints flowHigh window stall recovery creep s =
      ({ s with staged := p, stagedVersion := s.stagedVersion + 1 },
       .ok (Layout.setpoints s.staged ++ chars16 s.stagedVersion ++ chars16 (s.stagedVersion + 1))) := by
  unfold answerStageSetpoints; rw [h]

theorem stageSetpoints_done {s : State} {via : Via} {flowHigh : Word16} {window : Byte} {stall recovery creep : Word16}
    {p : Setpoints} (ht : s.canTake via = true) (h : setpointsOf flowHigh window stall recovery creep = some p) :
    ∃ t, s.answers (.stageSetpoints via flowHigh window stall recovery creep) .done
        (Layout.setpoints s.staged ++ chars16 s.stagedVersion ++ chars16 (s.stagedVersion + 1)) t ∧
      t.frame = { s.frame with staged := p, stagedVersion := s.stagedVersion + 1 } ∧ t.changes.siding = true := by
  have hst : ∀ {u : State}, u.frame = s.frame → u.staged = s.staged ∧ u.stagedVersion = s.stagedVersion := fun hu =>
    ⟨congrArg Frame.staged hu, congrArg Frame.stagedVersion hu⟩
  obtain ⟨u, t, hu, ha, hframe, hch, -⟩ := answers_event (c := .stageSetpoints via flowHigh window stall recovery creep) (s := s)
    (st := .done) (b := Layout.setpoints s.staged ++ chars16 s.stagedVersion ++ chars16 (s.stagedVersion + 1))
    (f := fun u => { u with staged := p, stagedVersion := u.stagedVersion + 1 }) ht rfl fun u hu => by
      rw [← (hst hu).1, ← (hst hu).2]
      exact answerStageSetpoints_done h u
  refine ⟨t, ha, hframe.trans ?_, ?_⟩
  · refine (event_frame hu (by rfl)).trans ?_
    calc State.frame { u with staged := p, stagedVersion := u.stagedVersion + 1 }
        = { u.frame with staged := p, stagedVersion := u.stagedVersion + 1 } := rfl
      _ = _ := by rw [hu.frame, (hst hu.frame).2]
  · rw [hch]
    refine sidingFlag_of_ne fun e => ?_
    have hver : u.stagedVersion = u.stagedVersion + 1 := congrArg SidingView.stagedVersion e
    simp at hver

theorem boolOf_none {b : Byte} (h : 1 < b.toNat) : boolOf b = none := by
  unfold boolOf
  split <;> first | rfl | omega

theorem answerSetpointHold_range {value : Byte} (h : boolOf value = none) (s : State) :
    answerSetpointHold value s = (s, .bare .range) := by
  unfold answerSetpointHold; rw [h]

theorem answerSetpointHold_done {value : Byte} {b : Bool} (h : boolOf value = some b) (s : State) :
    answerSetpointHold value s = ({ s with setpointHold := b }, .ok [boolByte s.setpointHold]) := by
  unfold answerSetpointHold; rw [h]

theorem setpointHold_done {s : State} {via : Via} {value : Byte} {b : Bool} (ht : s.canTake via = true) (h : boolOf value = some b) :
    ∃ t, s.answers (.setpointHold via value) .done [boolByte s.setpointHold] t ∧
      t.frame = { s.frame with setpointHold := b } ∧ (b ≠ s.setpointHold → t.changes.siding = true) := by
  have hold : ∀ {u : State}, u.frame = s.frame → u.setpointHold = s.setpointHold := fun hu => congrArg Frame.setpointHold hu
  obtain ⟨u, t, hu, ha, hframe, hch, -⟩ := answers_event (c := .setpointHold via value) (s := s) (st := .done)
    (b := [boolByte s.setpointHold]) (f := fun u => { u with setpointHold := b }) ht rfl fun u hu => by
      rw [← hold hu]
      exact answerSetpointHold_done h u
  refine ⟨t, ha, hframe.trans ?_, fun hb => ?_⟩
  · refine (event_frame hu (by rfl)).trans ?_
    calc State.frame { u with setpointHold := b } = { u.frame with setpointHold := b } := rfl
      _ = _ := by rw [hu.frame]
  · rw [hch]
    refine sidingFlag_of_ne fun e => ?_
    have hb' : u.setpointHold = b := congrArg SidingView.setpointHold e
    exact hb (hb'.symm.trans (hold hu.frame))

/-! ## SET LOCK -/

theorem answerSetLock_range {level : Byte} (h : 3 < level.toNat) (s : State) : answerSetLock level s = (s, .bare .range) :=
  if_pos h

theorem answerSetLock_once {level : Byte} {s : State} (h : level.toNat ≤ 3) (hl : s.lockTaken = true) :
    answerSetLock level s = (s, { status := .once, body := nat8 s.lock }) :=
  (if_neg (by omega)).trans (if_pos hl)

theorem answerSetLock_done {level : Byte} {s : State} (h : level.toNat ≤ 3) (hl : s.lockTaken = false) :
    answerSetLock level s = ({ s with lock := level.toNat, lockTaken := true }, .ok [level]) :=
  (if_neg (by omega)).trans (if_neg (by simp [hl]))

/-- Settles O40: each request writes its one value at an event that changes nothing else. -/
theorem serviceSetpointsAndLock : Obligations.ServiceSetpointsAndLock := by
  refine ⟨fun s via ht => ⟨fun b v hn => ⟨fun sv hs => ?_, fun he => ?_, fun sv x hx => ?_⟩,
    fun flowHigh window stall recovery creep => ⟨fun h => ?_, fun h => ?_⟩, fun value hv => ?_, fun value b hb => ?_⟩,
    fun s via level ht => ⟨fun h => ?_, fun h hl => ?_, fun h hl => ?_⟩⟩
  · exact refuses_of (c := .setVesselService via b sv) ht rfl fun u hu =>
      answerSetVesselService_range ((namedVessel_of_frame hu b).trans hn) (serviceOf_none hs)
  · exact refuses_of (c := .setVesselService via b 1) ht rfl fun u hu =>
      answerSetVesselService_reserved (sv := 1) ((namedVessel_of_frame hu b).trans hn) rfl (by rwa [vessel_of_frame hu])
  · rcases hx with ⟨rfl, rfl⟩ | ⟨rfl, rfl, he⟩
    · exact setVesselService_done ht hn rfl (by simp)
    · exact setVesselService_done ht hn rfl (by simp [he])
  · exact refuses_of (c := .stageSetpoints via flowHigh window stall recovery creep) ht rfl fun u _ =>
      answerStageSetpoints_range (setpointsOf_none h) u
  · exact stageSetpoints_done ht (setpointsOf_some h)
  · exact refuses_of (c := .setpointHold via value) ht rfl fun u _ => answerSetpointHold_range (boolOf_none hv) u
  · rcases hb with ⟨rfl, rfl⟩ | ⟨rfl, rfl⟩
    · exact setpointHold_done ht rfl
    · exact setpointHold_done ht rfl
  · exact refuses_of (c := .setLock via level) ht rfl fun u _ => answerSetLock_range h u
  · refine refuses_of (c := .setLock via level) ht rfl fun u hu => ?_
    rw [show s.lock = u.lock from (congrArg Frame.lock hu).symm]
    exact answerSetLock_once h ((congrArg Frame.lockTaken hu).trans hl)
  · obtain ⟨u, t, hu, ha, hframe, hch, -⟩ := answers_event (c := .setLock via level) (s := s) ht rfl fun u hu =>
      answerSetLock_done h ((congrArg Frame.lockTaken hu).trans hl)
    have hlu : u.lockTaken = false := (congrArg Frame.lockTaken hu.frame).trans hl
    refine ⟨t, ha, hframe.trans ?_, ?_⟩
    · refine (event_frame hu (by rfl)).trans ?_
      calc State.frame { u with lock := level.toNat, lockTaken := true }
          = { u.frame with lock := level.toNat, lockTaken := true } := rfl
        _ = _ := by rw [hu.frame]
    · rw [hch]
      refine sidingFlag_of_ne fun e => ?_
      have : u.lockTaken = true := congrArg SidingView.lockTaken e
      rw [hlu] at this
      cases this

end Sys2Proof.Machine
end

section
/-! PROOFS. The checks of PLACE ORDER (R57 to R60), in the rules' order. -/

namespace Sys2Proof.Machine

theorem boundCar_of_frame {s u : State} (h : u.frame = s.frame) (i : SpotNo) : u.boundCar i = s.boundCar i := by
  obtain ⟨_, _, _, _, _, _, rfl⟩ := of_frame h
  rfl

theorem roomiest_congr {s u : State} (h : ∀ v, u.vessel v = s.vessel v) : ∀ l, u.roomiest l = s.roomiest l
  | [] => rfl
  | v :: rest => by
    unfold State.roomiest
    rw [roomiest_congr h rest]
    simp only [h]

theorem chooseAny_of_frame {s u : State} (h : u.frame = s.frame) (g : Grade) (n : Nat) : u.chooseAny g n = s.chooseAny g n := by
  have hv : ∀ v, u.vessel v = s.vessel v := vessel_of_frame h
  have hs : u.suits g = s.suits g := by
    obtain ⟨_, _, _, _, _, _, rfl⟩ := of_frame h
    rfl
  unfold State.chooseAny
  rw [hs, roomiest_congr hv]
  simp only [hv]

theorem judgeLiquid_of_frame {s u : State} (h : u.frame = s.frame) (c : Car) (l : LiquidRequest) :
    u.judgeLiquid c l = s.judgeLiquid c l := by
  have hn : ∀ b, u.chooseNamed b c.grade l.target = s.chooseNamed b c.grade l.target := fun b => by
    obtain ⟨_, _, _, _, _, _, rfl⟩ := of_frame h
    rfl
  have hsite : u.site (·.overAllowance) = s.site (·.overAllowance) := by
    obtain ⟨_, _, _, _, _, _, rfl⟩ := of_frame h
    rfl
  have hcom : u.committed c = s.committed c := by
    obtain ⟨_, _, _, _, _, _, rfl⟩ := of_frame h
    rfl
  unfold State.judgeLiquid
  simp only [hn, hsite, hcom, chooseAny_of_frame h]

/-! ## The checks up to the arguments -/

section Place

variable {place : Byte} {tag : Word16} {kind : Byte} {target : Option Word32} {vessel : Option Byte} {closeAfter : Byte}
  {s : State} {i : SpotNo} (hn : s.namedSpot place = .ok i)

include hn

theorem answerPlaceOrder_notOperating (h : s.siding ≠ .operating) :
    answerPlaceOrder place tag kind target vessel closeAfter s = (s, .bare .notOperating) := by
  unfold answerPlaceOrder
  rw [withSpot_ok _ hn]
  exact if_pos h

variable (h1 : s.siding = .operating)

include h1

theorem answerPlaceOrder_state (h : (s.spot i).state.takesOrders = false) :
    answerPlaceOrder place tag kind target vessel closeAfter s = (s, .bare .state) := by
  unfold answerPlaceOrder
  rw [withSpot_ok _ hn]
  simp only [h1, h, ne_eq, not_true_eq_false, if_false, Bool.not_false, if_true]

variable (h2 : (s.spot i).state.takesOrders = true)

include h2

theorem answerPlaceOrder_full (h : 4 ≤ (s.spot i).orders.length) :
    answerPlaceOrder place tag kind target vessel closeAfter s = (s, .bare .queueFull) := by
  unfold answerPlaceOrder
  rw [withSpot_ok _ hn]
  simp only [h1, h2, ne_eq, not_true_eq_false, if_false, Bool.not_true, Bool.false_eq_true]
  exact if_pos h

variable (h3 : (s.spot i).orders.length < 4)

include h3

theorem answerPlaceOrder_duplicate (h : (s.spot i).hasTag tag = true) :
    answerPlaceOrder place tag kind target vessel closeAfter s = (s, .bare .duplicate) := by
  unfold answerPlaceOrder
  rw [withSpot_ok _ hn]
  have h3' : ¬ Config.queueDepth ≤ (s.spot i).orders.length := Nat.not_le.mpr h3
  simp only [h1, h2, h3', h, ne_eq, not_true_eq_false, if_false, Bool.not_true, Bool.false_eq_true, if_true]

variable (h4 : (s.spot i).hasTag tag = false)

include h4

theorem answerPlaceOrder_range (h : orderRequestOf tag kind target vessel closeAfter = none) :
    answerPlaceOrder place tag kind target vessel closeAfter s = (s, .bare .range) := by
  unfold answerPlaceOrder
  rw [withSpot_ok _ hn]
  have h3' : ¬ Config.queueDepth ≤ (s.spot i).orders.length := Nat.not_le.mpr h3
  simp only [h1, h2, h3', h4, h, ne_eq, not_true_eq_false, if_false, Bool.not_true, Bool.false_eq_true]

variable {r : OrderRequest} (hr : orderRequestOf tag kind target vessel closeAfter = some r)

include hr

theorem answerPlaceOrder_recovery (hl : r.liquid = none) :
    answerPlaceOrder place tag kind target vessel closeAfter s = placedReply i r none (placeOrder i r none s) := by
  unfold answerPlaceOrder
  rw [withSpot_ok _ hn]
  have h3' : ¬ Config.queueDepth ≤ (s.spot i).orders.length := Nat.not_le.mpr h3
  simp only [h1, h2, h3', h4, hr, hl, ne_eq, not_true_eq_false, if_false, Bool.not_true, Bool.false_eq_true]

variable {lr : LiquidRequest} {c : Car} (hl : r.liquid = some lr) (hb : s.boundCar i = some c)

include hl hb

theorem answerPlaceOrder_judged {st : Status} (hj : s.judgeLiquid c lr = .error st) :
    answerPlaceOrder place tag kind target vessel closeAfter s = (s, .bare st) := by
  unfold answerPlaceOrder
  rw [withSpot_ok _ hn]
  have h3' : ¬ Config.queueDepth ≤ (s.spot i).orders.length := Nat.not_le.mpr h3
  simp only [h1, h2, h3', h4, hr, hl, hb, hj, ne_eq, not_true_eq_false, if_false, Bool.not_true, Bool.false_eq_true]

theorem answerPlaceOrder_liquid {v : VesselNo} (hj : s.judgeLiquid c lr = .ok v) :
    answerPlaceOrder place tag kind target vessel closeAfter s =
      placedReply i r (some { target := lr.target, vessel := v, delivered := 0 })
        (placeOrder i r (some { target := lr.target, vessel := v, delivered := 0 }) s) := by
  unfold answerPlaceOrder
  rw [withSpot_ok _ hn]
  have h3' : ¬ Config.queueDepth ≤ (s.spot i).orders.length := Nat.not_le.mpr h3
  simp only [h1, h2, h3', h4, hr, hl, hb, hj, ne_eq, not_true_eq_false, if_false, Bool.not_true, Bool.false_eq_true]

end Place

/-! ## The choice of the vessel -/

section Choice

variable {s : State} {g : Grade} {n : Nat}

theorem judgeLiquid_allowance {c : Car} {l : LiquidRequest}
    (h : c.load + s.site (·.overAllowance) < s.committed c + l.target) : s.judgeLiquid c l = .error .allowance := by
  unfold State.judgeLiquid; rw [if_pos h]

theorem judgeLiquid_named {c : Car} {b : Byte} (hb : b ≠ 255) (h : s.committed c + n ≤ c.load + s.site (·.overAllowance)) :
    s.judgeLiquid c { target := n, vessel := vesselChoice b } = s.chooseNamed b c.grade n := by
  unfold State.judgeLiquid vesselChoice
  rw [if_neg (Nat.not_lt.mpr h), if_neg hb]

theorem judgeLiquid_any {c : Car} (h : s.committed c + n ≤ c.load + s.site (·.overAllowance)) :
    s.judgeLiquid c { target := n, vessel := vesselChoice 255 } = s.chooseAny c.grade n := by
  unfold State.judgeLiquid vesselChoice
  rw [if_neg (Nat.not_lt.mpr h), if_pos rfl]

theorem chooseNamed_unfitted {b : Byte} (h : ∀ v : VesselNo, b.toNat = v.val → s.fittedVessel v = false) :
    s.chooseNamed b g n = .error .range := by
  unfold State.chooseNamed
  cases hf : finOf 6 b with
  | none => rfl
  | some v => simp [h v (finOf_eq_some_iff.mp hf)]

variable {b : Byte} {v : VesselNo} (hb : b.toNat = v.val) (hv : s.fittedVessel v = true)

include hb hv

theorem chooseNamed_fitted :
    s.chooseNamed b g n =
      if (s.vessel v).service = .outOfService then .error .service
      else if (s.vesselData v).map (·.grade) ≠ some g then .error .grade
      else if (s.vessel v).freeUnreserved < n then .error .ullage
      else .ok v := by
  unfold State.chooseNamed
  rw [finOf_eq_some_iff.mpr hb]
  simp only [hv, Bool.not_true, Bool.false_eq_true, if_false]

theorem chooseNamed_service (h : (s.vessel v).service = .outOfService) : s.chooseNamed b g n = .error .service := by
  rw [chooseNamed_fitted hb hv, if_pos h]

theorem chooseNamed_grade (h : (s.vessel v).service = .inService) (hg : (s.vesselData v).map (·.grade) ≠ some g) :
    s.chooseNamed b g n = .error .grade := by
  rw [chooseNamed_fitted hb hv, if_neg (by simp [h]), if_pos hg]

theorem chooseNamed_ullage (h : (s.vessel v).service = .inService) (hg : (s.vesselData v).map (·.grade) = some g)
    (hu : (s.vessel v).freeUnreserved < n) : s.chooseNamed b g n = .error .ullage := by
  rw [chooseNamed_fitted hb hv, if_neg (by simp [h]), if_neg (not_not.mpr hg), if_pos hu]

omit hb hv

theorem mem_allVessels (v : VesselNo) : v ∈ allVessels := by revert v; decide

theorem roomiest_mem : ∀ {l : List VesselNo} {v : VesselNo}, s.roomiest l = some v → v ∈ l
  | w :: rest, v, h => by
    unfold State.roomiest at h
    cases hr : s.roomiest rest with
    | none =>
      rw [hr] at h
      simp_all
    | some x =>
      rw [hr] at h
      have hx := roomiest_mem hr
      simp only at h
      split at h <;> cases h <;> simp [hx]

theorem chooseAny_grade (h : ∀ v, s.suits g v = false) : s.chooseAny g n = .error .grade := by
  have hno : allVessels.any (s.suits g) = false := by simp [h]
  unfold State.chooseAny
  rw [hno]
  rfl

theorem chooseAny_ullage (h : ∃ v, s.suits g v = true)
    (hu : ∀ v, s.suits g v = true → (s.vessel v).trip.active = false → (s.vessel v).freeUnreserved < n) :
    s.chooseAny g n = .error .ullage := by
  obtain ⟨v, hv⟩ := h
  have hsome : allVessels.any (s.suits g) = true := List.any_eq_true.mpr ⟨v, mem_allVessels v, hv⟩
  unfold State.chooseAny
  simp only [hsome, Bool.not_true, Bool.false_eq_true, if_false]
  cases hr : s.roomiest (allVessels.filter fun v => s.suits g v && !(s.vessel v).trip.active) with
  | none => rfl
  | some w =>
    have hw := roomiest_mem hr
    simp only [List.mem_filter, Bool.and_eq_true, Bool.not_eq_true'] at hw
    exact if_pos (hu w hw.2.1 hw.2.2)

end Choice

/-- A LIQUID order in range, from its arguments. -/
theorem orderRequestOf_liquid {tag : Word16} {w : Word32} {b closeAfter : Byte} {ca : Bool} (hc : boolOf closeAfter = some ca)
    (h1 : 1 ≤ w.toNat) (h2 : w.toNat ≤ 200000) :
    orderRequestOf tag 0 (some w) (some b) closeAfter =
      some { tag := tag, liquid := some { target := w.toNat, vessel := vesselChoice b }, closeAfter := ca } := by
  have hk : orderKindOf 0 = some .liquid := rfl
  have hl : litresOk w.toNat = true := (litresOk_iff _).mpr ⟨h1, h2⟩
  unfold orderRequestOf
  simp only [hk, hc, hl, if_true]

/-- Settles O35: each check in the rules' order, from the siding's state to the vessel's room. -/
theorem placeOrderRefusals : Obligations.PlaceOrderRefusals := by
  rintro s via place i tag kind target vessel closeAfter c ht hn rfl
  have hname {u : State} (hu : u.frame = s.frame) : u.namedSpot place = .ok i := (namedSpot_of_frame hu _).trans hn
  have hsiding {u : State} (hu : u.frame = s.frame) : u.siding = s.siding := congrArg Frame.siding hu
  refine ⟨fun h => ?_, fun h1 => ⟨fun h => ?_, fun h2 => ⟨fun h => ?_, fun h3 => ⟨fun h => ?_, fun h4 => ⟨fun h => ?_, ?_⟩⟩⟩⟩⟩
  · exact refuses_of (c := .placeOrder via place tag kind target vessel closeAfter) ht rfl fun u hu =>
      answerPlaceOrder_notOperating (hname hu) (by rwa [hsiding hu])
  · exact refuses_of (c := .placeOrder via place tag kind target vessel closeAfter) ht rfl fun u hu =>
      answerPlaceOrder_state (hname hu) ((hsiding hu).trans h1) (by rwa [spot_of_frame hu])
  · exact refuses_of (c := .placeOrder via place tag kind target vessel closeAfter) ht rfl fun u hu =>
      answerPlaceOrder_full (hname hu) ((hsiding hu).trans h1) (by rwa [spot_of_frame hu]) (by rwa [spot_of_frame hu])
  · exact refuses_of (c := .placeOrder via place tag kind target vessel closeAfter) ht rfl fun u hu =>
      answerPlaceOrder_duplicate (hname hu) ((hsiding hu).trans h1) (by rwa [spot_of_frame hu]) (by rwa [spot_of_frame hu])
        (by rwa [spot_of_frame hu])
  · exact refuses_of (c := .placeOrder via place tag kind target vessel closeAfter) ht rfl fun u hu =>
      answerPlaceOrder_range (hname hu) ((hsiding hu).trans h1) (by rwa [spot_of_frame hu]) (by rwa [spot_of_frame hu])
        (by rwa [spot_of_frame hu]) h
  · rintro w b ca car rfl rfl rfl hca hw1 hw2 hcar
    have judged {st : Status} (hj : s.judgeLiquid car { target := w.toNat, vessel := vesselChoice b } = .error st) :
        ∃ t, s.turnsAway (.placeOrder via place tag 0 (some w) (some b) closeAfter) st [] t :=
      refuses_of (c := .placeOrder via place tag 0 (some w) (some b) closeAfter) ht rfl fun u hu =>
        answerPlaceOrder_judged (hname hu) ((hsiding hu).trans h1) (by rwa [spot_of_frame hu]) (by rwa [spot_of_frame hu])
          (by rwa [spot_of_frame hu]) (orderRequestOf_liquid hca hw1 hw2) rfl ((boundCar_of_frame hu i).trans hcar)
          ((judgeLiquid_of_frame hu _ _).trans hj)
    refine ⟨fun h => judged (judgeLiquid_allowance h), fun h => ⟨fun hb hv => ?_, fun v hb hv => ?_, ?_⟩⟩
    · exact judged ((judgeLiquid_named hb h).trans (chooseNamed_unfitted hv))
    · have hb255 : b ≠ 255 := by
        rintro rfl
        have hlt := v.isLt
        rw [← hb] at hlt
        exact absurd hlt (by decide)
      have named {st : Status} (hj : s.chooseNamed b car.grade w.toNat = .error st) :=
        judged ((judgeLiquid_named hb255 h).trans hj)
      exact ⟨fun hs => named (chooseNamed_service hb hv hs), fun hs => ⟨fun hg => named (chooseNamed_grade hb hv hs hg),
        fun hg hu => named (chooseNamed_ullage hb hv hs hg hu)⟩⟩
    · rintro rfl
      exact ⟨fun hs => judged ((judgeLiquid_any h).trans (chooseAny_grade hs)),
        fun hs hu => judged ((judgeLiquid_any h).trans (chooseAny_ullage hs hu))⟩

end Sys2Proof.Machine
end

section
/-! PROOFS. How far the work of one compressor and of one spot reaches: the relations `Kept`, `CompWork` and `SpotWork` between the
states before and after, with one lemma per operation. They are what "nothing else changes" rests on (R127, R147). -/

namespace Sys2Proof.Machine

/-! ## What all the plant's work keeps -/

/-- The fields that no work of spots, compressors, orders and the arbiter changes, but for the siding's state. -/
structure Fixed where
  profile : Profile
  staged : Setpoints
  stagedVersion : Word16
  setpointHold : Bool
  lockTaken : Bool
  lock : Nat
  fe : Bool
  rearmRun : Nat
  beatTimer : Timer
  esdHigh : Bool
  link : Link
  changes : Changes
  flashes : Vector Flash 8
  inlets : BitVec 6
  pending : List Instr

def State.fixed (s : State) : Fixed :=
  { profile := s.profile, staged := s.staged, stagedVersion := s.stagedVersion, setpointHold := s.setpointHold,
    lockTaken := s.lockTaken, lock := s.lock, fe := s.fe, rearmRun := s.rearmRun, beatTimer := s.beatTimer,
    esdHigh := s.esdHigh, link := s.link, changes := s.changes, flashes := s.flashes, inlets := s.inlets, pending := s.pending }

/-- No test is pending that was not pending before. -/
def PendingTests.within (t s : PendingTests) : Prop := (∀ i ∈ t.spots, i ∈ s.spots) ∧ ∀ c ∈ t.comps, c ∈ s.comps

theorem PendingTests.within.of_eq {s t : PendingTests} (h : t = s) : t.within s := h ▸ ⟨fun _ => id, fun _ => id⟩

/-- No test is pending. -/
def State.testless (s : State) : Prop := s.tests.spots = [] ∧ s.tests.comps = []

/-- What the work of an event keeps: the fixed fields, the siding's state outside a commissioning run, and every flag that a rule
of the event has called for. It begins no test, and a commissioning run ends with its last test (R180). -/
structure Kept (s t : State) : Prop where
  fixed : t.fixed = s.fixed
  siding : s.siding ≠ .commissioning → t.siding = s.siding
  spots : ∀ j : SpotNo, s.scratch.spots.getLsbD j = true → t.scratch.spots.getLsbD j = true
  vessels : ∀ v : VesselNo, s.scratch.vessels.getLsbD v = true → t.scratch.vessels.getLsbD v = true
  comps : ∀ c : CompNo, s.scratch.comps.getLsbD c = true → t.scratch.comps.getLsbD c = true
  tests : t.tests.within s.tests
  run : s.siding = .commissioning → (t.siding = .commissioning ∧ (¬ s.testless → ¬ t.testless)) ∨ (t.siding = .operating ∧ t.testless)

theorem PendingTests.within.testless {s t : State} (h : t.tests.within s.tests) (hs : s.testless) : t.testless := by
  obtain ⟨h1, h2⟩ := h
  refine ⟨List.eq_nil_iff_forall_not_mem.mpr fun i hi => ?_, List.eq_nil_iff_forall_not_mem.mpr fun c hc => ?_⟩
  · have := h1 i hi
    rw [hs.1] at this
    exact nomatch this
  · have := h2 c hc
    rw [hs.2] at this
    exact nomatch this

theorem Kept.refl (s : State) : Kept s s := ⟨rfl, fun _ => rfl, fun _ => id, fun _ => id, fun _ => id, .of_eq rfl, fun h => .inl ⟨h, id⟩⟩

theorem Kept.trans {s t u : State} (h : Kept s t) (k : Kept t u) : Kept s u where
  fixed := k.fixed.trans h.fixed
  siding hs := (k.siding (by rwa [h.siding hs])).trans (h.siding hs)
  spots j hj := k.spots j (h.spots j hj)
  vessels v hv := k.vessels v (h.vessels v hv)
  comps c hc := k.comps c (h.comps c hc)
  tests := by
    obtain ⟨h1, h2⟩ := h.tests
    obtain ⟨k1, k2⟩ := k.tests
    exact ⟨fun i hi => h1 i (k1 i hi), fun c hc => h2 c (k2 c hc)⟩
  run hs := by
    rcases h.run hs with ⟨e, hne⟩ | ⟨e, hno⟩
    · exact (k.run e).imp_left fun ⟨e', hne'⟩ => ⟨e', fun x => hne' (hne x)⟩
    · exact .inr ⟨(k.siding (by rw [e]; exact nofun)).trans e, k.tests.testless hno⟩

/-- An update that touches neither the fixed fields, nor the siding, nor the scratch, nor the pending tests. -/
theorem Kept.plain {s t : State} (hf : t.fixed = s.fixed) (hs : t.siding = s.siding) (hx : t.scratch = s.scratch) (ht : t.tests = s.tests) :
    Kept s t :=
  ⟨hf, fun _ => hs, fun _ h => by rwa [hx], fun _ h => by rwa [hx], fun _ h => by rwa [hx], .of_eq ht,
    fun h => .inl ⟨hs.trans h, by unfold State.testless; rw [ht]; exact id⟩⟩

theorem Kept.modSpot (i : SpotNo) (f : Spot → Spot) (s : State) : Kept s (s.modSpot i f) := .plain rfl rfl rfl rfl
theorem Kept.modComp (c : CompNo) (f : Comp → Comp) (s : State) : Kept s (s.modComp c f) := .plain rfl rfl rfl rfl
theorem Kept.modVessel (v : VesselNo) (f : Vessel → Vessel) (s : State) : Kept s (s.modVessel v f) := .plain rfl rfl rfl rfl

theorem Kept.touchSpot (i : SpotNo) (s : State) : Kept s (s.touchSpot i) :=
  ⟨rfl, fun _ => rfl, fun j hj => by simp [State.touchSpot, hj], fun _ => id, fun _ => id, .of_eq rfl, fun h => .inl ⟨h, id⟩⟩
theorem Kept.touchVessel (v : VesselNo) (s : State) : Kept s (s.touchVessel v) :=
  ⟨rfl, fun _ => rfl, fun _ => id, fun j hj => by simp [State.touchVessel, hj], fun _ => id, .of_eq rfl, fun h => .inl ⟨h, id⟩⟩
theorem Kept.touchComp (c : CompNo) (s : State) : Kept s (s.touchComp c) :=
  ⟨rfl, fun _ => rfl, fun _ => id, fun _ => id, fun j hj => by simp [State.touchComp, hj], .of_eq rfl, fun h => .inl ⟨h, id⟩⟩
theorem Kept.touchQueue (s : State) : Kept s s.touchQueue :=
  ⟨rfl, fun _ => rfl, fun _ => id, fun _ => id, fun j hj => by simp [State.touchQueue, hj], .of_eq rfl, fun h => .inl ⟨h, id⟩⟩

theorem Kept.modCar (k : SlotNo) (f : Car → Car) (s : State) : Kept s (s.modCar k f) :=
  ⟨rfl, fun _ => rfl, fun _ => id, fun _ => id, fun _ => id, .of_eq rfl, fun h => .inl ⟨h, id⟩⟩

theorem settleTests_rest (s : State) : ∃ x, settleTests s = { s with siding := x } := by
  unfold settleTests
  split
  · exact ⟨_, rfl⟩
  · exact ⟨s.siding, rfl⟩

/-- Tests that end (R180). -/
theorem Kept.endTests {s : State} {x : PendingTests} (h : x.within s.tests) : Kept s (settleTests { s with tests := x }) := by
  unfold settleTests
  split
  next e =>
    exact ⟨rfl, fun hs => absurd e.1 hs, fun _ => id, fun _ => id, fun _ => id, h, fun _ => .inr ⟨rfl, e.2⟩⟩
  next e =>
    exact ⟨rfl, fun _ => rfl, fun _ => id, fun _ => id, fun _ => id, h, fun hs => .inl ⟨hs, fun _ hno => e ⟨hs, hno⟩⟩⟩

theorem Kept.foldl {α : Type} {f : State → α → State} (h : ∀ s a, Kept s (f s a)) : ∀ (l : List α) (s : State), Kept s (l.foldl f s)
  | [], s => .refl s
  | a :: l, s => (h s a).trans (Kept.foldl h l _)

theorem Kept.eachSpot {f : SpotNo → State → State} (h : ∀ i s, Kept s (f i s)) (s : State) : Kept s (eachSpot f s) :=
  .foldl (fun s i => h i s) _ s

theorem Kept.eachComp {f : CompNo → State → State} (h : ∀ c s, Kept s (f c s)) (s : State) : Kept s (eachComp f s) :=
  .foldl (fun s c => h c s) _ s

theorem Kept.eachFittedSpot {f : SpotNo → State → State} (h : ∀ i s, Kept s (f i s)) (s : State) : Kept s (eachFittedSpot f s) :=
  .eachSpot (fun i s => by split <;> [exact h i s; exact .refl s]) s

theorem Kept.eachFittedComp {f : CompNo → State → State} (h : ∀ c s, Kept s (f c s)) (s : State) : Kept s (eachFittedComp f s) :=
  .eachComp (fun c s => by split <;> [exact h c s; exact .refl s]) s

/-! ## The work of one compressor -/

/-- The work of compressor `c` changes that compressor, its own pending test and the flags called for, and marks it TURNING for no new
spot. -/
structure CompWork (c : CompNo) (s t : State) : Prop where
  kept : Kept s t
  spots : t.spots = s.spots
  vessels : t.vessels = s.vessels
  cars : t.cars = s.cars
  grants : t.grants = s.grants
  departed : t.scratch.departed = s.scratch.departed
  touched : t.scratch.touched = s.scratch.touched
  others : ∀ k, k ≠ c → t.comp k = s.comp k
  turning : ∀ i, (t.comp c).turning = some i → (s.comp c).turning = some i
  spotTests : t.tests.spots = s.tests.spots
  compTests : ∀ d, d ≠ c → d ∈ s.tests.comps → d ∈ t.tests.comps

theorem CompWork.refl (c : CompNo) (s : State) : CompWork c s s :=
  ⟨.refl s, rfl, rfl, rfl, rfl, rfl, rfl, fun _ _ => rfl, fun _ => id, rfl, fun _ _ => id⟩

theorem CompWork.trans {c : CompNo} {s t u : State} (h : CompWork c s t) (k : CompWork c t u) : CompWork c s u where
  kept := h.kept.trans k.kept
  spots := k.spots.trans h.spots
  vessels := k.vessels.trans h.vessels
  cars := k.cars.trans h.cars
  grants := k.grants.trans h.grants
  departed := k.departed.trans h.departed
  touched := k.touched.trans h.touched
  others j hj := (k.others j hj).trans (h.others j hj)
  turning i hi := h.turning i (k.turning i hi)
  spotTests := k.spotTests.trans h.spotTests
  compTests d hd hm := k.compTests d hd (h.compTests d hd hm)

theorem CompWork.modComp {c : CompNo} {f : Comp → Comp} (h : ∀ k i, (f k).turning = some i → k.turning = some i) (s : State) :
    CompWork c s (s.modComp c f) :=
  ⟨.modComp c f s, rfl, rfl, rfl, rfl, rfl, rfl, fun k hk => modComp_comp_other s c k f hk, fun i hi => h (s.comp c) i (by
    rwa [modComp_comp_same] at hi), rfl, fun _ _ => id⟩

/-- A change of a compressor that keeps its TURNING mark. -/
theorem CompWork.mod {c : CompNo} {f : Comp → Comp} (h : ∀ k, (f k).turning = k.turning) (s : State) : CompWork c s (s.modComp c f) :=
  .modComp (fun k i hi => by rwa [h] at hi) s

theorem CompWork.touchComp (c : CompNo) (s : State) : CompWork c s (s.touchComp c) :=
  ⟨.touchComp c s, rfl, rfl, rfl, rfl, rfl, rfl, fun _ _ => rfl, fun _ => id, rfl, fun _ _ => id⟩

theorem CompWork.ite {c : CompNo} {p : Prop} [Decidable p] {s t u : State} (h : p → CompWork c s t) (k : ¬ p → CompWork c s u) :
    CompWork c s (if p then t else u) := by
  split
  next hp => exact h hp
  next hp => exact k hp

theorem Comp.putValve_turning (d : Direction) (v : Valve) (k : Comp) : (k.putValve d v).turning = k.turning := by
  unfold Comp.putValve
  cases d <;> simp only [Comp.setMark] <;> repeat' split
  all_goals rfl

theorem Comp.mapValves_turning (f : Valve → Valve) (k : Comp) : (k.mapValves f).turning = k.turning := by
  unfold Comp.mapValves
  rw [Comp.putValve_turning, Comp.putValve_turning]

section CompOps

variable (c : CompNo) (s : State)

theorem compWork_pursueDir (d : Direction) : CompWork c s (pursueDir c d s) := .mod (fun k => k.putValve_turning d _) s
theorem compWork_commandDir (d : Direction) (x : Command) : CompWork c s (commandDir c d x s) :=
  (CompWork.mod (fun k => k.putValve_turning d _) s).trans (compWork_pursueDir c _ d)
theorem compWork_shutDirs : CompWork c s (shutDirs c s) := (compWork_commandDir c s _ _).trans (compWork_commandDir c _ _ _)
theorem compWork_pursueDirAll : CompWork c s (pursueDirAll c s) := (compWork_pursueDir c s _).trans (compWork_pursueDir c _ _)
theorem compWork_stopComp : CompWork c s (stopComp c s) := (CompWork.mod (by intro; rfl) s).trans (compWork_shutDirs c _)
theorem compWork_enterRunOn : CompWork c s (enterRunOn c s) := .ite (fun _ => compWork_stopComp c s) fun _ => .mod (by intro; rfl) s
theorem compWork_enterRunWait : CompWork c s (enterRunWait c s) := .mod (by intro; rfl) s

theorem compWork_endCompTest : CompWork c s (endCompTest c s) := by
  have hk : Kept s (endCompTest c s) := .endTests ⟨fun _ => id, fun _ => List.mem_of_mem_filter⟩
  obtain ⟨x, e⟩ := settleTests_rest { s with tests := { s.tests with comps := s.tests.comps.filter (· ≠ c) } }
  unfold endCompTest at hk ⊢
  rw [e] at hk ⊢
  exact ⟨hk, rfl, rfl, rfl, rfl, rfl, rfl, fun _ _ => rfl, fun _ => id, rfl,
    fun d hd hm => List.mem_filter.mpr ⟨hm, decide_eq_true hd⟩⟩

theorem compWork_compOnOpen : CompWork c s (compOnOpen c s) := by
  have stroked : ∀ d, CompWork c s (commandDir c d .toShut (s.modComp c fun k => { k with stroked := true })) := fun d =>
    (CompWork.mod (by intro; rfl) s).trans (compWork_commandDir c _ d _)
  unfold compOnOpen
  dsimp only
  split
  · split
    · exact .ite (fun _ => compWork_enterRunWait c s) fun _ => .refl c s
    · exact .refl c s
  · split
    · exact .ite (fun _ => compWork_enterRunWait c s) fun _ => .refl c s
    · exact .refl c s
  · exact .ite (fun _ => stroked _) fun _ => .refl c s
  · exact .ite (fun _ => stroked _) fun _ => .refl c s
  · exact .ite (fun _ => .mod (by intro; rfl) s) fun _ => .refl c s
  · exact .refl c s

theorem compWork_compOnRun : CompWork c s (compOnRun c s) := by
  unfold compOnRun
  dsimp only
  refine .ite (fun _ => ?_) fun _ => .refl c s
  split
  · exact .ite (fun _ => compWork_enterRunOn c s) fun _ => .mod (by intro; rfl) s
  · exact .mod (by intro; rfl) s
  · exact .refl c s

theorem compWork_passProof : CompWork c s (passProof c s) := by
  unfold passProof
  refine .trans ?_ (compWork_endCompTest c _)
  refine .mod ?_ s
  exact fun k => k.mapValves_turning Valve.passTest

theorem compWork_compOnShut : CompWork c s (compOnShut c s) := by
  unfold compOnShut
  dsimp only
  split
  · exact .ite (fun _ => .mod (by intro; rfl) s) fun _ => .refl c s
  · exact .ite (fun _ => .mod (by intro; rfl) s) fun _ => .refl c s
  · exact .ite (fun _ => .mod (by intro; rfl) s) fun _ => .refl c s
  · exact .ite (fun _ => .mod (by intro; rfl) s) fun _ => .refl c s
  · exact .ite (fun _ => compWork_passProof c s) fun _ => .refl c s
  · exact .refl c s

theorem compWork_compOnGuard : CompWork c s (compOnGuard c s) := by
  unfold compOnGuard
  dsimp only
  split
  · exact .ite (fun _ => (CompWork.mod (fun k => by split <;> rfl) s).trans (compWork_commandDir c _ _ _)) fun _ => .refl c s
  · exact .refl c s

theorem compWork_compPassGuard : CompWork c s (compPassGuard c s) :=
  ((compWork_compOnGuard c s).trans (compWork_compOnOpen c _)).trans (compWork_compOnRun c _)
theorem compWork_compOnArrivals : CompWork c s (compOnArrivals c s) :=
  ((compWork_compOnOpen c s).trans (compWork_compOnRun c _)).trans (compWork_compOnShut c _)
theorem compWork_compAdvance : CompWork c s (compAdvance c s) :=
  (compWork_compOnArrivals c s).trans (compWork_compPassGuard c _)
theorem compWork_compReported (b : State) : CompWork c s (compReported b c s) :=
  .ite (fun _ => compWork_compOnArrivals c s) fun _ => (compWork_compOnArrivals c s).trans (compWork_compPassGuard c _)
theorem compWork_startComp (d : Direction) : CompWork c s (startComp c d s) :=
  (CompWork.mod (by intro; rfl) s).trans (compWork_compAdvance c _)
theorem compWork_enterReversing (d : Direction) : CompWork c s (enterReversing c d s) := by
  unfold enterReversing
  refine .trans (.trans ?_ (compWork_shutDirs c _)) (compWork_compAdvance c _)
  refine (CompWork.touchComp c s).trans (.modComp ?_ _)
  exact fun _ _ h => nomatch h

theorem compWork_compOnEmpty : CompWork c s (compOnEmpty c s) := by
  unfold compOnEmpty
  dsimp only
  refine .ite (fun _ => ?_) fun _ => .refl c s
  split
  · exact .ite (fun _ => compWork_enterReversing c s _) fun _ => .refl c s
  · exact .ite (fun _ => compWork_enterRunOn c s) fun _ => .refl c s

end CompOps

end Sys2Proof.Machine
end

section
/-! PROOFS. The work of one spot: which other records it reaches (R41, R64, R71, R126, R130). -/

namespace Sys2Proof.Machine

/-- The work of spot `i` leaves every other spot, every car record but the bound one, every vessel but for entries of its own
orders, every compressor that neither seats it nor is TURNING for it, every other grant-queue entry, and the other spots' tests. -/
structure SpotWork (i : SpotNo) (s t : State) : Prop where
  kept : Kept s t
  others : ∀ j, j ≠ i → t.spot j = s.spot j
  bound : (t.spot i).car = (s.spot i).car
  cars : ∀ k, (∀ h, (s.spot i).car = some h → h.slot ≠ k) → t.carSlot k = s.carSlot k
  touched : ∀ k : SlotNo, (∀ h, (s.spot i).car = some h → h.slot ≠ k) → t.scratch.touched.getLsbD k = s.scratch.touched.getLsbD k
  departed : ∀ d ∈ t.scratch.departed, d ∈ s.scratch.departed ∨ d.spot = i
  stores : ∀ v, (t.vessel v).store = (s.vessel v).store
  entries : ∀ v, (t.vessel v).entries.filter (·.spot ≠ i) = (s.vessel v).entries.filter (·.spot ≠ i)
  seat : (t.spot i).seat = (s.spot i).seat ∨ (t.spot i).seat = none
  turning : ∀ c, (t.comp c).turning = some i → (s.comp c).turning = some i
  comps : ∀ c, (s.spot i).seat ≠ some c → (s.comp c).turning ≠ some i → t.comp c = s.comp c
  grants : GrantsShrink s t
  spotTests : ∀ j, j ≠ i → j ∈ s.tests.spots → j ∈ t.tests.spots
  compTests : ∀ c, (s.spot i).seat ≠ some c → c ∈ s.tests.comps → c ∈ t.tests.comps
  marks : ∀ c, (s.spot i).seat ≠ some c → ∃ x, t.comp c = { s.comp c with turning := x }

theorem SpotWork.refl (i : SpotNo) (s : State) : SpotWork i s s :=
  ⟨.refl s, fun _ _ => rfl, rfl, fun _ _ => rfl, fun _ _ => rfl, fun _ => .inl, fun _ => rfl, fun _ => rfl, .inl rfl, fun _ => id,
    fun _ _ _ => rfl, .refl s, fun _ _ => id, fun _ _ => id, fun _ _ => ⟨_, rfl⟩⟩

theorem SpotWork.trans {i : SpotNo} {s t u : State} (h : SpotWork i s t) (k : SpotWork i t u) : SpotWork i s u where
  kept := h.kept.trans k.kept
  others j hj := (k.others j hj).trans (h.others j hj)
  bound := k.bound.trans h.bound
  cars c hc := (k.cars c (by rwa [h.bound])).trans (h.cars c hc)
  touched c hc := (k.touched c (by rwa [h.bound])).trans (h.touched c hc)
  departed d hd := (k.departed d hd).elim (h.departed d) .inr
  stores v := (k.stores v).trans (h.stores v)
  entries v := (k.entries v).trans (h.entries v)
  seat := by
    rcases k.seat with e | e
    · rw [e]
      exact h.seat
    · exact .inr e
  turning c hc := h.turning c (k.turning c hc)
  comps c hs ht := by
    have hseat : (t.spot i).seat ≠ some c := by
      rcases h.seat with e | e
      · rwa [e]
      · rw [e]
        exact nofun
    exact (k.comps c hseat fun e => ht (h.turning c e)).trans (h.comps c hs ht)
  grants := h.grants.trans k.grants
  spotTests j hj hm := k.spotTests j hj (h.spotTests j hj hm)
  compTests c hs hm := by
    refine k.compTests c ?_ (h.compTests c hs hm)
    rcases h.seat with e | e
    · rwa [e]
    · rw [e]
      exact nofun
  marks c hs := by
    have hseat : (t.spot i).seat ≠ some c := by
      rcases h.seat with e | e
      · rwa [e]
      · rw [e]
        exact nofun
    obtain ⟨x, hx⟩ := h.marks c hs
    obtain ⟨y, hy⟩ := k.marks c hseat
    exact ⟨y, by rw [hy, hx]⟩

theorem SpotWork.ite {i : SpotNo} {p : Prop} [Decidable p] {s t u : State} (h : p → SpotWork i s t) (k : ¬ p → SpotWork i s u) :
    SpotWork i s (if p then t else u) := by
  split
  next hp => exact h hp
  next hp => exact k hp

theorem SpotWork.foldl {i : SpotNo} {α : Type} {f : State → α → State} (h : ∀ s a, SpotWork i s (f s a)) :
    ∀ (l : List α) (s : State), SpotWork i s (l.foldl f s)
  | [], s => .refl i s
  | a :: l, s => (h s a).trans (SpotWork.foldl h l _)

/-! ## Single updates -/

/-- An update of spot `i` that keeps its car and keeps or gives up its seat. -/
theorem SpotWork.modSpot {i : SpotNo} {f : Spot → Spot} (hc : ∀ sp, (f sp).car = sp.car)
    (hs : ∀ sp, (f sp).seat = sp.seat ∨ (f sp).seat = none) (s : State) : SpotWork i s (s.modSpot i f) where
  kept := .modSpot i f s
  others j hj := modSpot_spot_other s i j f hj
  bound := by rw [modSpot_spot_same]; exact hc _
  cars _ _ := rfl
  touched _ _ := rfl
  departed _ := .inl
  stores _ := rfl
  entries _ := rfl
  seat := by rw [modSpot_spot_same]; exact hs _
  turning _ := id
  comps _ _ _ := rfl
  grants := .of_eq rfl
  spotTests _ _ := id
  compTests _ _ := id
  marks _ _ := ⟨_, rfl⟩

/-- An update of spot `i` that keeps its car and its seat. -/
theorem SpotWork.mod {i : SpotNo} {f : Spot → Spot} (hc : ∀ sp, (f sp).car = sp.car) (hs : ∀ sp, (f sp).seat = sp.seat) (s : State) :
    SpotWork i s (s.modSpot i f) := .modSpot hc (fun sp => .inl (hs sp)) s

theorem SpotWork.touchSpot (i j : SpotNo) (s : State) : SpotWork i s (s.touchSpot j) :=
  ⟨.touchSpot j s, fun _ _ => rfl, rfl, fun _ _ => rfl, fun _ _ => rfl, fun _ => .inl, fun _ => rfl, fun _ => rfl, .inl rfl,
    fun _ => id, fun _ _ _ => rfl, .of_eq rfl, fun _ _ => id, fun _ _ => id, fun _ _ => ⟨_, rfl⟩⟩

theorem SpotWork.touchVessel (i : SpotNo) (v : VesselNo) (s : State) : SpotWork i s (s.touchVessel v) :=
  ⟨.touchVessel v s, fun _ _ => rfl, rfl, fun _ _ => rfl, fun _ _ => rfl, fun _ => .inl, fun _ => rfl, fun _ => rfl, .inl rfl,
    fun _ => id, fun _ _ _ => rfl, .of_eq rfl, fun _ _ => id, fun _ _ => id, fun _ _ => ⟨_, rfl⟩⟩

theorem SpotWork.touchQueue (i : SpotNo) (s : State) : SpotWork i s s.touchQueue :=
  ⟨.touchQueue s, fun _ _ => rfl, rfl, fun _ _ => rfl, fun _ _ => rfl, fun _ => .inl, fun _ => rfl, fun _ => rfl, .inl rfl,
    fun _ => id, fun _ _ _ => rfl, .of_eq rfl, fun _ _ => id, fun _ _ => id, fun _ _ => ⟨_, rfl⟩⟩

/-- An update of a vessel's list that concerns the entries of spot `i` alone. -/
theorem SpotWork.modVessel {i : SpotNo} {v : VesselNo} {f : Vessel → Vessel} (hs : ∀ r, (f r).store = r.store)
    (he : ∀ r, (f r).entries.filter (·.spot ≠ i) = r.entries.filter (·.spot ≠ i)) (s : State) : SpotWork i s (s.modVessel v f) where
  kept := .modVessel v f s
  others _ _ := rfl
  bound := rfl
  cars _ _ := rfl
  touched _ _ := rfl
  departed _ := .inl
  stores w := by
    rw [modVessel_vessel]
    split
    next h => rw [hs, h]
    next => rfl
  entries w := by
    rw [modVessel_vessel]
    split
    next h => rw [he, h]
    next => rfl
  seat := .inl rfl
  turning _ := id
  comps _ _ _ := rfl
  grants := .of_eq rfl
  spotTests _ _ := id
  compTests _ _ := id
  marks _ _ := ⟨_, rfl⟩

theorem Entry.names_spot {e : Entry} {i : SpotNo} {tag : Word16} (h : e.names i tag = true) : e.spot = i := by
  simp only [Entry.names, Bool.and_eq_true, beq_iff_eq] at h
  exact h.1

theorem SpotWork.unreserve (i : SpotNo) (tag : Word16) (v : VesselNo) (s : State) :
    SpotWork i s (s.modVessel v (Vessel.unreserve i tag)) := by
  refine .modVessel (by intro; rfl) (fun r => ?_) s
  simp only [Vessel.unreserve, List.filter_filter]
  refine List.filter_congr fun e _ => ?_
  by_cases h : e.spot = i
  · simp [h]
  · have hn : e.names i tag = false := Bool.eq_false_iff.mpr fun e' => h (Entry.names_spot e')
    simp [hn]

theorem SpotWork.lower (i : SpotNo) (tag : Word16) (n : Nat) (v : VesselNo) (s : State) :
    SpotWork i s (s.modVessel v (Vessel.lower i tag n)) := by
  refine .modVessel (by intro; rfl) (fun r => ?_) s
  simp only [Vessel.lower]
  induction r.entries with
  | nil => rfl
  | cons e l ih =>
    rw [List.map_cons]
    by_cases h : e.names i tag = true
    · rw [if_pos h, List.filter_cons_of_neg (by simpa using Entry.names_spot h),
        List.filter_cons_of_neg (by simpa using Entry.names_spot h), ih]
    · rw [if_neg h]
      by_cases hs : e.spot = i
      · rw [List.filter_cons_of_neg (by simpa using hs), List.filter_cons_of_neg (by simpa using hs), ih]
      · rw [List.filter_cons_of_pos (by simpa using hs), List.filter_cons_of_pos (by simpa using hs), ih]

theorem SpotWork.reserve (i : SpotNo) (tag : Word16) (n : Nat) (v : VesselNo) (s : State) :
    SpotWork i s (s.modVessel v (Vessel.reserve i tag n)) := by
  refine .modVessel (by intro; rfl) (fun r => ?_) s
  simp [Vessel.reserve, List.filter_append]

/-- An update of the record of the bound car. -/
theorem SpotWork.modCar {i : SpotNo} {s : State} {h : Handle} (hc : (s.spot i).car = some h) (f : Car → Car) :
    SpotWork i s (s.modCar h.slot f) where
  kept := .modCar _ f s
  others _ _ := rfl
  bound := rfl
  cars k hk := by
    rw [modCar_carSlot, if_neg fun e => hk h hc e.symm]
  touched k hk := by
    have hne : k ≠ h.slot := fun e => hk h hc e.symm
    show (s.scratch.touched ||| BitVec.twoPow 24 h.slot).getLsbD k = _
    have hbit : (BitVec.twoPow 24 h.slot.val).getLsbD k.val = false := by
      rw [BitVec.getLsbD_twoPow]
      have : h.slot.val ≠ k.val := fun e => hne (Fin.ext e.symm)
      simp [this]
    rw [BitVec.getLsbD_or, hbit, Bool.or_false]
  departed _ := .inl
  stores _ := rfl
  entries _ := rfl
  seat := .inl rfl
  turning _ := id
  comps _ _ _ := rfl
  grants := .of_eq rfl
  spotTests _ _ := id
  compTests _ _ := id
  marks _ _ := ⟨_, rfl⟩

theorem SpotWork.modCarAt (i : SpotNo) (f : Car → Car) (s : State) : SpotWork i s (s.modCarAt i f) := by
  unfold State.modCarAt
  split
  next h hc => exact .modCar hc f
  next => exact .refl i s

/-! ## Valves -/

theorem Spot.setValve_seat (n : ValveName) (v : Valve) (sp : Spot) : (sp.setValve n v).seat = sp.seat := by cases n <;> rfl
theorem Spot.modHead_seat (f : Order → Order) (sp : Spot) : (sp.modHead f).seat = sp.seat := by rw [Spot.modHead_eq]

/-- The seat of spot `i` at compressor `c` given up, before the compressor acts on it (R64, R128). -/
def unseat (i : SpotNo) (c : CompNo) (s : State) : State :=
  (((s.touchSpot i).touchComp c).modSpot i fun sp => { sp with seat := none }).modComp c fun k =>
    { k with seated := k.seated.filter (· ≠ i) }

section SpotOps

variable (i : SpotNo) (s : State)

theorem spotWork_pursueSpot (n : ValveName) : SpotWork i s (pursueSpot i n s) :=
  .mod (fun sp => sp.setValve_car n _) (fun sp => sp.setValve_seat n _) s
theorem spotWork_commandSpot (n : ValveName) (c : Command) : SpotWork i s (commandSpot i n c s) := by
  unfold commandSpot
  refine .trans ?_ (spotWork_pursueSpot i _ n)
  exact .mod (fun sp => sp.setValve_car n _) (fun sp => sp.setValve_seat n _) s
theorem spotWork_pursueSpotAll : SpotWork i s (pursueSpotAll i s) := .foldl (fun s n => spotWork_pursueSpot i s n) _ s
theorem spotWork_shutLines : SpotWork i s (shutLines i s) :=
  ((spotWork_commandSpot i s _ _).trans (spotWork_commandSpot i _ _ _)).trans (spotWork_commandSpot i _ _ _)
theorem spotWork_shutAll : SpotWork i s (shutAll i s) := (spotWork_shutLines i s).trans (spotWork_commandSpot i _ _ _)

/-! ## Compressors -/

theorem releaseSeat_unseated {i : SpotNo} {s : State} (h : (s.spot i).seat = none) : releaseSeat i s = s := by
  unfold releaseSeat; rw [h]

theorem releaseSeat_seated {i : SpotNo} {c : CompNo} {s : State} (h : (s.spot i).seat = some c) :
    releaseSeat i s = compOnEmpty c (unseat i c s) := by
  unfold releaseSeat; rw [h]; rfl

theorem unseat_spot (c : CompNo) : (unseat i c s).spot i = { s.spot i with seat := none } :=
  modSpot_spot_same _ i fun sp => { sp with seat := none }

theorem unseat_others (c : CompNo) {j : SpotNo} (h : j ≠ i) : (unseat i c s).spot j = s.spot j :=
  modSpot_spot_other _ i j (fun sp => { sp with seat := none }) h

theorem unseat_comp (c k : CompNo) :
    (unseat i c s).comp k = if k = c then { s.comp k with seated := (s.comp k).seated.filter (· ≠ i) } else s.comp k :=
  modComp_comp _ c k _

theorem unseat_turning (c k : CompNo) : ((unseat i c s).comp k).turning = (s.comp k).turning := by
  rw [unseat_comp]
  split <;> rfl

theorem kept_unseat (c : CompNo) : Kept s (unseat i c s) :=
  (((Kept.touchSpot i s).trans (.touchComp c _)).trans (.modSpot i _ _)).trans (.modComp c _ _)

theorem spotWork_releaseSeat : SpotWork i s (releaseSeat i s) := by
  cases hc : (s.spot i).seat with
  | none =>
    rw [releaseSeat_unseated hc]
    exact .refl i s
  | some c =>
    rw [releaseSeat_seated hc]
    have hk := compWork_compOnEmpty c (unseat i c s)
    have hspot := spot_of_spots hk.spots
    have hvessel : ∀ v, (compOnEmpty c (unseat i c s)).vessel v = s.vessel v := fun v =>
      congrArg (fun x : Vector Vessel 6 => x[v]) hk.vessels
    exact
      { kept := (kept_unseat i s c).trans hk.kept
        others := fun j hj => (hspot j).trans (unseat_others i s c hj)
        bound := by rw [hspot, unseat_spot]
        cars := fun k _ => congrArg (fun x : Vector CarSlot 24 => x[k]) hk.cars
        touched := fun k _ => by rw [hk.touched]; rfl
        departed := fun d hd => .inl (by rw [hk.departed] at hd; exact hd)
        stores := fun v => by rw [hvessel]
        entries := fun v => by rw [hvessel]
        seat := .inr (by rw [hspot, unseat_spot])
        turning := fun k hki => by
          rw [← unseat_turning i s c k]
          by_cases e : k = c
          · subst e
            exact hk.turning i hki
          · rwa [hk.others k e] at hki
        comps := fun k hs _ => by
          have e : k ≠ c := fun e => hs (by rw [hc, e])
          rw [hk.others k e, unseat_comp, if_neg e]
        grants := .of_eq (hk.grants.trans rfl)
        spotTests := fun j _ hj => by rw [hk.spotTests]; exact hj
        compTests := fun k hs hm => hk.compTests k (fun e => hs (by rw [hc, e])) hm
        marks := fun k hs => by
          have e : k ≠ c := fun e => hs (by rw [hc, e])
          rw [hk.others k e, unseat_comp, if_neg e]
          exact ⟨_, rfl⟩ }

theorem spotWork_clearTurning (c : CompNo) : SpotWork i s (clearTurning i c s) := by
  unfold clearTurning
  split
  next hc =>
    exact
      { kept := (Kept.touchComp c s).trans (.modComp c _ _)
        others := fun _ _ => rfl
        bound := rfl
        cars := fun _ _ => rfl
        touched := fun _ _ => rfl
        departed := fun _ => .inl
        stores := fun _ => rfl
        entries := fun _ => rfl
        seat := .inl rfl
        turning := fun k hk => by
          rw [modComp_comp] at hk
          split at hk
          next => cases hk
          next => exact hk
        comps := fun k _ ht => modComp_comp_other _ c k _ fun e => ht (by rw [e, hc])
        grants := .of_eq rfl
        spotTests := fun _ _ => id
        compTests := fun _ _ => id
        marks := fun k _ => by
          rw [modComp_comp]
          split
          · exact ⟨none, rfl⟩
          · exact ⟨_, rfl⟩ }
  next => exact .refl i s

theorem spotWork_dropGrant : SpotWork i s (dropGrant i s) := by
  unfold dropGrant
  have flags : SpotWork i s (if s.grants.any fun g => g.spot == i then (s.touchSpot i).touchQueue else s) :=
    .ite (fun _ => (SpotWork.touchSpot i i s).trans (.touchQueue i _)) fun _ => .refl i s
  have hgrants : (if s.grants.any fun g => g.spot == i then (s.touchSpot i).touchQueue else s).grants = s.grants := by split <;> rfl
  refine (flags.trans (t := if s.grants.any fun g => g.spot == i then (s.touchSpot i).touchQueue else s) ?_).trans
    (.foldl (fun s c => spotWork_clearTurning i s c) _ _)
  generalize (if s.grants.any fun g => g.spot == i then (s.touchSpot i).touchQueue else s) = u at hgrants ⊢
  exact ⟨.plain rfl rfl rfl rfl, fun _ _ => rfl, rfl, fun _ _ => rfl, fun _ _ => rfl, fun _ => .inl, fun _ => rfl, fun _ => rfl, .inl rfl,
    fun _ => id, fun _ _ _ => rfl, fun g hg => hgrants ▸ List.mem_of_mem_filter hg,
    fun _ _ => id, fun _ _ => id, fun _ _ => ⟨_, rfl⟩⟩

theorem spotWork_leaveCompressors : SpotWork i s (leaveCompressors i s) :=
  (spotWork_releaseSeat i s).trans (spotWork_dropGrant i _)

/-! ## Orders -/

theorem spotWork_depart (o : Order) : SpotWork i s (depart i o s) := by
  have leave : SpotWork i s ((s.touchSpot i).modSpot i fun sp => { sp with orders := sp.orders.filter fun p => p.tag ≠ o.tag }) :=
    (SpotWork.touchSpot i i s).trans (.mod (by intro; rfl) (by intro; rfl) _)
  have mark : ∀ u : State, SpotWork i u { u with scratch := { u.scratch with departed := u.scratch.departed ++ [{ spot := i, order := o }] } } :=
    fun u => ⟨⟨rfl, fun _ => rfl, fun _ => id, fun _ => id, fun _ => id, .of_eq rfl, fun h => .inl ⟨h, id⟩⟩, fun _ _ => rfl, rfl, fun _ _ => rfl, fun _ _ => rfl, fun d hd => by
      rcases List.mem_append.mp hd with h | h
      · exact .inl h
      · rw [List.mem_singleton.mp h]
        exact .inr rfl, fun _ => rfl, fun _ => rfl, .inl rfl, fun _ => id, fun _ _ _ => rfl, .of_eq rfl, fun _ _ => id, fun _ _ => id, fun _ _ => ⟨_, rfl⟩⟩
  unfold depart
  dsimp only
  cases o.liquid with
  | none => exact leave.trans (mark _)
  | some l => exact ((leave.trans (.touchVessel i _ _)).trans (.unreserve i _ _ _)).trans (mark _)

theorem spotWork_departs (f : Order → Order) (l : List Order) : SpotWork i s (l.foldl (fun s o => depart i (f o) s) s) :=
  .foldl (fun s o => spotWork_depart i s (f o)) l s

theorem Spot.takeStaged_seat (s : State) (sp : Spot) : (sp.takeStaged s).seat = sp.seat := by unfold Spot.takeStaged; split <;> rfl

theorem spotWork_addHold (r : HoldReason) : SpotWork i s (addHold i r s) := by
  have esd : ∀ u : State, SpotWork i u (if r = .esd then commandSpot i .shutoff .toShut u else u) := fun u =>
    .ite (fun _ => spotWork_commandSpot i u _ _) fun _ => .refl i u
  have held : SpotWork i s (leaveCompressors i ((fun u : State => if r = .esd then commandSpot i .shutoff .toShut u else u)
      (commandSpot i .vapour .toShut (commandSpot i .liquid .toShut ((s.touchSpot i).modSpot i fun sp =>
        { (sp.modHead Order.suspend).stopMeter with
          state := .held, holds := sp.holds.put r true, recoveryTimer := .stopped }))))) := by
    refine .trans ?_ (spotWork_leaveCompressors i _)
    refine .trans (.trans (.trans ?_ (spotWork_commandSpot i _ _ _)) (spotWork_commandSpot i _ _ _)) (esd _)
    refine (SpotWork.touchSpot i i s).trans (.mod ?_ ?_ _)
    · exact fun sp => sp.modHead_car _
    · exact fun sp => sp.modHead_seat _
  unfold addHold
  dsimp only
  refine .ite (fun _ => .refl i s) fun _ => ?_
  cases (s.spot i).state
  case connected => exact held
  case staged => exact held
  case transfer => exact held
  case recovery => exact held
  case held => exact (SpotWork.mod (by intro; rfl) (by intro; rfl) s).trans (esd _)
  all_goals exact .refl i s

theorem spotWork_removeHold (r : HoldReason) : SpotWork i s (removeHold i r s) := .mod (by intro; rfl) (by intro; rfl) s

theorem spotWork_becomeHead : SpotWork i s (becomeHead i s) := by
  have start : SpotWork i s ((s.touchSpot i).modSpot i (Spot.takeStaged s)) :=
    (SpotWork.touchSpot i i s).trans (.mod (fun sp => sp.takeStaged_car s) (fun sp => sp.takeStaged_seat s) _)
  unfold becomeHead
  dsimp only
  refine start.trans (.ite (fun _ => ?_) fun _ => ?_)
  · refine .trans (t := State.modSpot i (Spot.modHead fun o => { o with state := .suspended }) _) ?_ (.mod (by intro; rfl) (by intro; rfl) _)
    exact .mod (fun sp => sp.modHead_car _) (fun sp => sp.modHead_seat _) _
  · have stage : ∀ u : State, SpotWork i u (u.modSpot i fun sp =>
        { sp.modHead (fun o => { o with state := .waiting }) with state := .staged }) := fun u => by
      refine .mod ?_ ?_ u
      · exact fun sp => sp.modHead_car _
      · exact fun sp => sp.modHead_seat _
    exact .ite (fun _ => (stage _).trans (spotWork_addHold i _ _)) fun _ => stage _

theorem spotWork_nextHead : SpotWork i s (nextHead i s) := by
  have running : SpotWork i s
      (if (s.spot i).orders.isEmpty then (s.modSpot i Spot.stopMeter).modSpot i fun sp => { sp with state := .connected, pulses := 0 }
       else becomeHead i (s.modSpot i Spot.stopMeter)) := by
    have stop : SpotWork i s (s.modSpot i Spot.stopMeter) := .mod (by intro; rfl) (by intro; rfl) s
    exact .ite (fun _ => stop.trans (.mod (by intro; rfl) (by intro; rfl) _)) fun _ => stop.trans (spotWork_becomeHead i _)
  unfold nextHead
  dsimp only
  cases (s.spot i).state
  case staged => exact running
  case transfer => exact running
  case recovery => exact running
  case held => exact .ite (fun _ => spotWork_removeHold i s _) fun _ => spotWork_becomeHead i s
  all_goals exact .refl i s

theorem spotWork_endQueue (a b : EndReason) : SpotWork i s (endQueue a b i s) := by
  unfold endQueue
  split
  · exact .refl i s
  · refine .trans ?_ (spotWork_departs i _ _ _)
    refine .ite (fun _ => .refl i s) fun _ => .ite (fun _ => ?_) fun _ => spotWork_depart i s _
    exact .mod (fun sp => sp.modHead_car _) (fun sp => sp.modHead_seat _) s

theorem spotWork_enterIsolating (a b : EndReason) (f : Option SpotFault) : SpotWork i s (enterIsolating a b f i s) := by
  unfold enterIsolating
  refine .trans ?_ (spotWork_shutAll i _)
  refine (((spotWork_endQueue i s a b).trans (spotWork_leaveCompressors i _)).trans (.touchSpot i i _)).trans ?_
  exact .mod (by intro; rfl) (by intro; rfl) _

theorem spotWork_failProving (f : SpotFault) : SpotWork i s (failProving f i s) := spotWork_enterIsolating i s _ _ _

theorem spotWork_headGone (b : Bool) : SpotWork i s (headGone i b s) :=
  .ite (fun _ => spotWork_enterIsolating i s _ _ _) fun _ => spotWork_nextHead i s

theorem spotWork_drainHead (r : EndReason) : SpotWork i s (drainHead i r s) := by
  unfold drainHead
  refine .trans (.trans ?_ (spotWork_leaveCompressors i _)) (spotWork_commandSpot i _ _ _)
  refine (SpotWork.touchSpot i i s).trans (.mod ?_ ?_ _)
  · exact fun sp => sp.modHead_car _
  · exact fun sp => sp.modHead_seat _

theorem spotWork_headLeaves (h : Order) (r : EndReason) : SpotWork i s (headLeaves i h r s) := by
  unfold headLeaves
  refine .trans (.trans (.trans ?_ (spotWork_leaveCompressors i _)) (spotWork_depart i _ _)) (spotWork_headGone i _ _)
  exact .ite (fun _ => (SpotWork.mod (by intro; rfl) (by intro; rfl) s).trans (spotWork_commandSpot i _ _ _)) fun _ => .refl i s

theorem spotWork_endHead (r : EndReason) : SpotWork i s (endHead i r s) := by
  unfold endHead
  split
  · exact .refl i s
  · exact .ite (fun _ => spotWork_drainHead i s r) fun _ => spotWork_headLeaves i s _ r

theorem spotWork_endOrder (tag : Word16) (r : EndReason) : SpotWork i s (endOrder i tag r s) := by
  unfold endOrder
  split
  · exact .refl i s
  · refine .ite (fun _ => spotWork_endHead i s r) fun _ => ?_
    split
    · exact spotWork_depart i s _
    · exact .refl i s

/-! ## Faults and stroke tests -/

theorem spotWork_serveUnloading : SpotWork i s (serveUnloading i s) := by
  unfold serveUnloading
  split
  · exact .refl i s
  next h hc =>
    split
    · exact .ite (fun _ => .modCar hc _) fun _ => .refl i s
    · exact .refl i s

theorem spotWork_faultSpot (f : SpotFault) : SpotWork i s (faultSpot f i s) := by
  unfold faultSpot
  refine .trans (.trans ?_ (spotWork_shutAll i _)) (spotWork_serveUnloading i _)
  refine .trans (t := State.touchSpot i (leaveCompressors i _)) ?_ (.mod (by intro; rfl) (by intro; rfl) _)
  exact ((spotWork_departs i s (fun o => { o with reason := some .fault }) _).trans (spotWork_leaveCompressors i _)).trans
    (.touchSpot i i _)

theorem spotWork_endSpotTest : SpotWork i s (endSpotTest i s) := by
  have hk : Kept s (endSpotTest i s) := .endTests ⟨fun _ => List.mem_of_mem_filter, fun _ => id⟩
  obtain ⟨x, e⟩ := settleTests_rest { s with tests := { s.tests with spots := s.tests.spots.filter (· ≠ i) } }
  unfold endSpotTest at hk ⊢
  rw [e] at hk ⊢
  exact ⟨hk, fun _ _ => rfl, rfl, fun _ _ => rfl, fun _ _ => rfl, fun _ => .inl, fun _ => rfl, fun _ => rfl, .inl rfl, fun _ => id,
    fun _ _ _ => rfl, .of_eq rfl, fun j hj hm => List.mem_filter.mpr ⟨hm, decide_eq_true hj⟩, fun _ _ => id,
    fun _ _ => ⟨_, rfl⟩⟩

theorem spotWork_failStroke (k : Bool) (f : SpotFault) : SpotWork i s (failStroke k f i s) := by
  unfold failStroke
  refine .trans ?_ (spotWork_endSpotTest i _)
  have fail : SpotWork i s (State.modSpot i (Spot.mapValves Valve.failTest)
      (shutAll i ((s.touchSpot i).modSpot i fun sp => { sp with state := .faulted, step := none, fault := some f }))) := by
    refine .trans ?_ (.mod (by intro; rfl) (by intro; rfl) _)
    refine .trans ?_ (spotWork_shutAll i _)
    exact (SpotWork.touchSpot i i s).trans (.mod (by intro; rfl) (by intro; rfl) _)
  exact .ite (fun _ => fail) fun _ => fail.trans (.mod (by intro; rfl) (by intro; rfl) _)

theorem spotWork_spotValveFault (n : ValveName) : SpotWork i s (spotValveFault i n s) := by
  unfold spotValveFault
  cases (s.spot i).state
  case faulted => exact .touchSpot i i s
  case stroking => exact spotWork_failStroke i s _ _
  all_goals exact spotWork_faultSpot i s _

theorem spotWork_passStroke : SpotWork i s (passStroke i s) := by
  unfold passStroke
  refine .trans ?_ (spotWork_endSpotTest i _)
  exact (SpotWork.touchSpot i i s).trans (.mod (by intro; rfl) (by intro; rfl) _)

theorem spotWork_enterStroking : SpotWork i s (enterStroking i s) := by
  unfold enterStroking
  dsimp only
  have begun : ∀ (l : List ValveName) (u : State), SpotWork i u (l.foldl (fun s n =>
      s.modSpot i fun sp => sp.setValve n ((sp.valve n).beginTest (s.strokeOf n))) u) :=
    SpotWork.foldl fun s n => .mod (fun sp => sp.setValve_car n _) (fun sp => sp.setValve_seat n _) s
  have start : SpotWork i s ((s.touchSpot i).modSpot i fun sp => { sp with state := .stroking, step := some (.stroking .vent false) }) :=
    (SpotWork.touchSpot i i s).trans (.mod (by intro; rfl) (by intro; rfl) _)
  have ready := (start.trans (begun (s.spot i).strokeOrder _)).trans (spotWork_pursueSpotAll i _)
  split
  · exact ready.trans (spotWork_failStroke i _ _ _)
  · exact ready

/-! ## Arrivals -/

theorem spotWork_onShutoffOpen : SpotWork i s (onShutoffOpen i s) :=
  .ite (fun _ => .mod (by intro; rfl) (by intro; rfl) s) fun _ => .refl i s
theorem spotWork_onLiquidOpen : SpotWork i s (onLiquidOpen i s) :=
  .ite (fun _ => .mod (by intro; rfl) (by intro; rfl) s) fun _ => .refl i s
theorem spotWork_onDrained : SpotWork i s (onDrained i s) := by
  unfold onDrained
  split
  · exact .refl i s
  · exact .ite (fun _ => (((spotWork_commandSpot i s _ _).trans (spotWork_leaveCompressors i _)).trans (spotWork_depart i _ _)).trans
      (spotWork_headGone i _ _)) fun _ => .refl i s
theorem spotWork_onResumed : SpotWork i s (onResumed i s) :=
  .ite (fun _ => (SpotWork.touchSpot i i s).trans (.mod (fun sp => sp.modHead_car _) (fun sp => sp.modHead_seat _) _)) fun _ => .refl i s
theorem spotWork_onLinesShut : SpotWork i s (onLinesShut i s) :=
  .ite (fun _ => (SpotWork.mod (by intro; rfl) (by intro; rfl) s).trans (spotWork_commandSpot i _ _ _)) fun _ => .refl i s
theorem spotWork_onVentOpen : SpotWork i s (onVentOpen i s) :=
  .ite (fun _ => .mod (by intro; rfl) (by intro; rfl) s) fun _ => .refl i s
theorem spotWork_onVentShut : SpotWork i s (onVentShut i s) :=
  .ite (fun _ => (SpotWork.mod (by intro; rfl) (by intro; rfl) s).trans (.modCarAt i _ _)) fun _ => .refl i s
theorem spotWork_onStrokeOpen : SpotWork i s (onStrokeOpen i s) := by
  unfold onStrokeOpen
  dsimp only
  split
  · exact .ite (fun _ => (SpotWork.mod (by intro; rfl) (by intro; rfl) s).trans (spotWork_commandSpot i _ _ _)) fun _ => .refl i s
  · exact .refl i s
theorem spotWork_onStrokeShut : SpotWork i s (onStrokeShut i s) := by
  unfold onStrokeShut
  dsimp only
  split
  · refine .ite (fun _ => ?_) fun _ => .refl i s
    split
    · exact .mod (by intro; rfl) (by intro; rfl) s
    · exact spotWork_passStroke i s
  · exact .refl i s
theorem spotWork_onStrokeTurn : SpotWork i s (onStrokeTurn i s) := by
  unfold onStrokeTurn
  dsimp only
  split
  · exact .ite (fun _ => spotWork_commandSpot i s _ _) fun _ => .refl i s
  · exact .refl i s

theorem spotWork_advanceSpot : SpotWork i s (advanceSpot i s) := by
  refine .trans ?_ (spotWork_onStrokeTurn i _)
  refine .trans ?_ (spotWork_onStrokeShut i _)
  refine .trans ?_ (spotWork_onStrokeOpen i _)
  refine .trans ?_ (spotWork_onVentShut i _)
  refine .trans ?_ (spotWork_onVentOpen i _)
  refine .trans ?_ (spotWork_onLinesShut i _)
  refine .trans ?_ (spotWork_onResumed i _)
  refine .trans ?_ (spotWork_onDrained i _)
  exact (spotWork_onShutoffOpen i s).trans (spotWork_onLiquidOpen i _)

theorem spotWork_holdSpot (r : HoldReason) : SpotWork i s (holdSpot i r s) := (spotWork_addHold i s r).trans (spotWork_advanceSpot i _)

theorem spotWork_runHead : SpotWork i s (runHead i s) := by
  unfold runHead
  dsimp only
  split
  · exact .refl i s
  · have run : ∀ {f : Spot → Spot}, (∀ sp, (f sp).car = sp.car) → (∀ sp, (f sp).seat = sp.seat) →
        SpotWork i s ((s.touchSpot i).modSpot i f) := fun hc hs => (SpotWork.touchSpot i i s).trans (.mod hc hs _)
    refine .ite (fun _ => ?_) fun _ => .ite (fun _ => (spotWork_endHead i s _).trans (spotWork_advanceSpot i _)) fun _ => ?_
    · refine .trans (.trans ?_ (spotWork_commandSpot i _ _ _)) (spotWork_commandSpot i _ _ _)
      refine run ?_ ?_
      · exact fun sp => sp.modHead_car _
      · exact fun sp => sp.modHead_seat _
    · refine .trans ?_ (spotWork_commandSpot i _ _ _)
      refine run ?_ ?_
      · exact fun sp => sp.modHead_car _
      · exact fun sp => sp.modHead_seat _

theorem spotWork_isolateSpot : SpotWork i s (isolateSpot i s) :=
  .trans (.ite (fun _ => spotWork_failProving i s _) fun _ => spotWork_enterIsolating i s _ _ _) (spotWork_advanceSpot i _)

end SpotOps

end Sys2Proof.Machine
end

section
/-! PROOFS. What the reach of the work says at the close of an event: the store that stands, the one spot that has changed, the
flags that are set, and the arbiter that has nothing to do (R127, R195). -/

namespace Sys2Proof.Machine

/-! ## The arbiter's work -/

theorem kept_joinGrants (s : State) : Kept s (joinGrants s) := (Kept.touchQueue s).trans (.plain rfl rfl rfl rfl)

theorem kept_grantSeat (c : CompNo) (g : Grant) (s : State) : Kept s (grantSeat c g s) := by
  have seated : Kept s (dropGrant g.spot ((((s.touchSpot g.spot).touchComp c).modSpot g.spot fun sp =>
      { sp with seat := some c }).modComp c fun k => { k with seated := insertSpot g.spot k.seated })) :=
    ((((Kept.touchSpot _ s).trans (.touchComp c _)).trans (.modSpot _ _ _)).trans (.modComp c _ _)).trans
      (spotWork_dropGrant g.spot _).kept
  unfold grantSeat
  dsimp only
  split
  · exact seated.trans (compWork_startComp c _ g.dir).kept
  · exact seated.trans (.modComp c _ _)
  all_goals exact seated

theorem kept_markTurning (i : SpotNo) (c : CompNo) (s : State) : Kept s (markTurning i c s) :=
  ((Kept.touchComp c s).trans (.modComp c _ _)).trans (compWork_compOnEmpty c _).kept

theorem kept_performDue (d : Due) (s : State) : Kept s (performDue d s) := by
  cases d with
  | run i => exact (spotWork_runHead i s).kept
  | join => exact kept_joinGrants s
  | seat g c => exact kept_grantSeat c g s
  | turn i c => exact kept_markTurning i c s

theorem kept_settleFor : ∀ (n : Nat) (s : State), Kept s (settleFor n s)
  | 0, s => .refl s
  | n + 1, s => by
    unfold settleFor
    split
    · exact .refl s
    · exact (kept_performDue _ s).trans (kept_settleFor n _)

theorem kept_settle (s : State) : Kept s (settle s) := kept_settleFor _ s

theorem headReady_waits {s : State} {i : SpotNo} (h : s.headReady i = true) : (s.spot i).waits := by
  unfold State.headReady at h
  dsimp only at h
  split at h
  next hs hh _ =>
    simp only [Bool.and_eq_true] at h
    refine ⟨hs, ?_⟩
    unfold Spot.headIs
    rw [hh]
    exact h.1.1.1.1.1
  next => cases h

theorem mustJoin_waits {s : State} {i : SpotNo} (h : s.mustJoin i = true) : (s.spot i).waits := by
  unfold State.mustJoin at h
  simp only [Bool.and_eq_true, beq_iff_eq] at h
  exact ⟨h.1.1.1, h.1.1.2⟩

/-- Where no head waits and the grant queue is empty, nothing is due to the arbiter. -/
theorem due_none {s : State} (h : s.waitsNowhere) : s.due = none := by
  obtain ⟨hw, hg⟩ := h
  have hready : allSpots.find? s.headReady = none := List.find?_eq_none.mpr fun i _ hi => hw i (headReady_waits hi)
  have hjoin : allSpots.any s.mustJoin = false := List.any_eq_false.mpr fun i _ hi => hw i (mustJoin_waits hi)
  have hnext : s.nextGrant = none := by unfold State.nextGrant; rw [hg]; rfl
  have hturn : s.nextTurn = none := by unfold State.nextTurn; rw [hg]
  unfold State.due
  rw [hready, hjoin, hnext, hturn]
  simp

theorem settle_quietly {s : State} (h : s.waitsNowhere) : settle s = s := settle_none s (due_none h)

theorem waitsNowhere_of_frame {s u : State} (h : u.frame = s.frame) (hw : s.waitsNowhere) : u.waitsNowhere := by
  have hg : u.grants = s.grants := congrArg Frame.grants h
  exact ⟨fun j => by rw [spot_of_frame h]; exact hw.1 j, hg.trans hw.2⟩

theorem waitsNowhereBut_of_frame {s u : State} {i : SpotNo} (h : u.frame = s.frame) (hw : s.waitsNowhereBut i) :
    u.waitsNowhereBut i := by
  have hg : u.grants = s.grants := congrArg Frame.grants h
  exact ⟨fun j hj => by rw [spot_of_frame h]; exact hw.1 j hj, fun g hm => hw.2 g (hg ▸ hm)⟩

/-- The work of spot `i` that ends with the spot off the grant queue and its head not waiting leaves the arbiter nothing to do. -/
theorem SpotWork.settles {i : SpotNo} {s t : State} (h : SpotWork i s t) (hw : s.waitsNowhereBut i) (hi : ¬ (t.spot i).waits)
    (hg : ∀ g ∈ t.grants, g.spot ≠ i) : settle t = t := by
  refine settle_quietly ⟨fun j => ?_, List.eq_nil_iff_forall_not_mem.mpr fun g hm => hg g hm (hw.2 g (h.grants g hm))⟩
  by_cases e : j = i
  · rwa [e]
  · rw [h.others j e]
    exact hw.1 j e

/-! ## The store -/

theorem Kept.sameStore {s v w t : State} (h : Kept v w) (hv : v.frame = s.frame) (ht : t.frame = (closeEvent v w).frame) :
    s.sameStore t := by
  rw [closeEvent_frame] at ht
  have field {α : Type} (p : Frame → α) (q : Fixed → α) (hp : ∀ x : State, p x.frame = q x.fixed)
      (hc : ∀ (x : Frame) (k : Vector CarSlot 24), p { x with cars := k } = p x) : p t.frame = p s.frame := by
    rw [ht, hc, hp, h.fixed, ← hp, hv]
  refine ⟨field Frame.profile Fixed.profile (fun _ => rfl) (fun _ _ => rfl), field Frame.staged Fixed.staged (fun _ => rfl) (fun _ _ => rfl),
    field Frame.stagedVersion Fixed.stagedVersion (fun _ => rfl) (fun _ _ => rfl),
    field Frame.setpointHold Fixed.setpointHold (fun _ => rfl) (fun _ _ => rfl),
    field Frame.lockTaken Fixed.lockTaken (fun _ => rfl) (fun _ _ => rfl), field Frame.lock Fixed.lock (fun _ => rfl) (fun _ _ => rfl),
    field Frame.fe Fixed.fe (fun _ => rfl) (fun _ _ => rfl), field Frame.rearmRun Fixed.rearmRun (fun _ => rfl) (fun _ _ => rfl),
    field Frame.beatTimer Fixed.beatTimer (fun _ => rfl) (fun _ _ => rfl),
    field Frame.esdHigh Fixed.esdHigh (fun _ => rfl) (fun _ _ => rfl), field Frame.unit (·.link.unit) (fun _ => rfl) (fun _ _ => rfl),
    field Frame.pending Fixed.pending (fun _ => rfl) (fun _ _ => rfl), fun hs => ?_⟩
  have hsv : v.siding = s.siding := congrArg Frame.siding hv
  calc t.siding = w.siding := congrArg Frame.siding ht
    _ = v.siding := h.siding (by rwa [hsv])
    _ = s.siding := hsv

/-! ## One spot alone -/

theorem spotWork_writeLastEnd (b : State) (i : SpotNo) (s : State) : SpotWork i s (writeLastEnd b i s) := by
  unfold writeLastEnd
  dsimp only
  split
  · exact .refl i s
  · exact .modCarAt i _ s

/-- The work of spot `i` alone, closed as an event. -/
theorem SpotWork.onlyAt {i : SpotNo} {s v w t : State} (h : SpotWork i v w) (hv : v.frame = s.frame) (hx : v.scratch = .empty)
    (ht : t.frame = (closeEvent v w).frame) : s.onlyAt t i := by
  have hfr := ht
  rw [closeEvent_frame] at hfr
  have hspot : ∀ j, t.spot j = w.spot j := fun j => congrArg (fun x : Frame => x.spots[j]) hfr
  have hvessel : ∀ x, t.vessel x = w.vessel x := fun x => congrArg (fun y : Frame => y.vessels[x]) hfr
  have hcomp : ∀ c, t.comp c = w.comp c := fun c => congrArg (fun x : Frame => x.comps[c]) hfr
  have hgrants : t.grants = w.grants := congrArg Frame.grants hfr
  have hvcomp : ∀ c, v.comp c = s.comp c := fun c => congrArg (fun x : Frame => x.comps[c]) hv
  have hvgrants : v.grants = s.grants := congrArg Frame.grants hv
  refine ⟨h.kept.sameStore hv ht, fun j hj => ?_, fun k hk => ?_, fun x => ⟨?_, ?_⟩, fun c hs hc => ?_, fun g hg => ?_⟩
  · rw [hspot, h.others j hj, spot_of_frame hv]
  · have hdep : ∀ d ∈ w.scratch.departed, d.spot = i := fun d hd => by
      refine (h.departed d hd).resolve_left fun hd' => ?_
      rw [hx] at hd'
      cases hd'
    have hall := h.trans (spotWork_writeLastEnd v i w)
    have hk' : ∀ hd, (v.spot i).car = some hd → hd.slot ≠ k := by rwa [spot_of_frame hv]
    have htouch : (writeLastEnd v i w).scratch.touched.getLsbD k = false := by
      rw [hall.touched k hk', hx]
      simp [Scratch.empty]
    calc t.carSlot k = (closeEvent v w).carSlot k := carSlot_of_frame ht k
      _ = (writeLastEnd v i w).carSlot k := by rw [closeEvent_carSlot_one v w i k hdep, htouch]; rfl
      _ = v.carSlot k := hall.cars k hk'
      _ = s.carSlot k := carSlot_of_frame hv k
  · rw [hvessel, ← vessel_of_frame hv]
    exact h.stores x
  · rw [hvessel, h.entries x, vessel_of_frame hv]
  · rw [hcomp, ← hvcomp]
    exact h.comps c (by rwa [spot_of_frame hv]) (by rwa [hvcomp])
  · rw [hgrants] at hg
    rw [← hvgrants]
    exact h.grants g hg

/-! ## Flags -/

theorem touchSpot_flag (i : SpotNo) (s : State) : (s.touchSpot i).scratch.spots.getLsbD i = true := by
  simp [State.touchSpot]

theorem touchVessel_flag (v : VesselNo) (s : State) : (s.touchVessel v).scratch.vessels.getLsbD v = true := by
  simp [State.touchVessel]

theorem touchComp_flag (c : CompNo) (s : State) : (s.touchComp c).scratch.comps.getLsbD c = true := by
  have h : c.val ≤ 1 := Nat.lt_succ_iff.mp c.isLt
  simp [State.touchComp, h]

theorem touchQueue_flag {c : CompNo} {s : State} (h : s.fittedComp c = true) : s.touchQueue.scratch.comps.getLsbD c = true := by
  show (s.scratch.comps ||| BitVec.ofFnLE fun c => s.fittedComp c).getLsbD c = true
  rw [BitVec.getLsbD_or, ofFnLE_bit, h, Bool.or_true]

theorem spotFlag_of_touched {b w : State} {i : SpotNo} (h : w.scratch.spots.getLsbD i = true) :
    (closeEvent b w).changes.spots.getLsbD i = true := by
  rw [closeEvent_spotFlag, h]
  simp

theorem vesselFlag_of_touched {b w : State} {v : VesselNo} (h : w.scratch.vessels.getLsbD v = true) :
    (closeEvent b w).changes.vessels.getLsbD v = true := by
  rw [closeEvent_vesselFlag, h]
  simp

theorem compFlag_of_touched {b w : State} {c : CompNo} (h : w.scratch.comps.getLsbD c = true) :
    (closeEvent b w).changes.comps.getLsbD c = true := by
  rw [closeEvent_compFlag, h]
  simp

/-! ## Events that no request brings -/

/-- An event of the plant begins on the records as they stand. -/
theorem event_eq (f : State → State) (s : State) : event f s = closeEvent (clearScratch s) (f (clearScratch s)) :=
  (closeEvent_clearScratch s _).symm

theorem clearScratch_frame (s : State) : (clearScratch s).frame = s.frame := rfl

end Sys2Proof.Machine
end

section
/-! PROOFS. Rules for one spot's valves and for the arrivals that do not concern the state it is in; then OPEN (R29) and STROKE SPOT
(R47, R150). -/

namespace Sys2Proof.Machine

/-! ## One record changed twice -/

theorem modSpot_modSpot (i : SpotNo) (f g : Spot → Spot) (s : State) :
    (s.modSpot i f).modSpot i g = s.modSpot i fun sp => g (f sp) := by
  simp [State.modSpot]

theorem modSpot_congr {i : SpotNo} {f g : Spot → Spot} {s : State} (h : f (s.spot i) = g (s.spot i)) :
    s.modSpot i f = s.modSpot i g := by
  have h' : f s.spots[i] = g s.spots[i] := h
  unfold State.modSpot
  rw [h']

theorem modSpot_self {i : SpotNo} {f : Spot → Spot} {s : State} (h : f (s.spot i) = s.spot i) : s.modSpot i f = s := by
  have h' : f s.spots[i] = s.spots[i] := h
  unfold State.modSpot
  rw [h']
  simp

/-! ## A valve put back -/

@[simp] theorem Spot.setValve_valve (n m : ValveName) (v : Valve) (sp : Spot) :
    (sp.setValve n v).valve m = if m = n then v else sp.valve m := by cases n <;> cases m <;> rfl
@[simp] theorem Spot.setValve_state (n : ValveName) (v : Valve) (sp : Spot) : (sp.setValve n v).state = sp.state := by cases n <;> rfl
@[simp] theorem Spot.setValve_step (n : ValveName) (v : Valve) (sp : Spot) : (sp.setValve n v).step = sp.step := by cases n <;> rfl
@[simp] theorem Spot.setValve_orders (n : ValveName) (v : Valve) (sp : Spot) : (sp.setValve n v).orders = sp.orders := by
  cases n <;> rfl
@[simp] theorem Spot.setValve_standing (n : ValveName) (v : Valve) (sp : Spot) : (sp.setValve n v).standing = sp.standing := by
  cases n <;> rfl
@[simp] theorem Spot.setValve_fault (n : ValveName) (v : Valve) (sp : Spot) : (sp.setValve n v).fault = sp.fault := by cases n <;> rfl

theorem Spot.setValve_setValve (n : ValveName) (v w : Valve) (sp : Spot) : (sp.setValve n v).setValve n w = sp.setValve n w := by
  cases n <;> rfl

/-! ## A command to a valve -/

/-- A valve at its owner's command, with `live` saying that field enable and the owner's state let it move (R143, R144). -/
def Valve.told (stroke : Timer) (live : Bool) (c : Command) (v : Valve) : Valve :=
  { v with command := c }.pursue stroke (c == Command.toOpen && live && !v.isFault)

theorem commandSpot_eq (i : SpotNo) (n : ValveName) (c : Command) (s : State) :
    commandSpot i n c s = s.modSpot i fun sp =>
      sp.setValve n ((sp.valve n).told (s.strokeOf n) (s.fe && sp.state != .faulted) c) := by
  unfold commandSpot pursueSpot
  rw [modSpot_modSpot]
  refine congrFun (congrArg _ (funext fun sp => ?_)) s
  rw [Spot.setValve_setValve]
  refine congrArg (sp.setValve n) ?_
  have hv : (sp.setValve n { sp.valve n with command := c }).valve n = { sp.valve n with command := c } := by simp
  unfold Spot.effective
  rw [hv, Spot.setValve_state]
  unfold Valve.told
  simp only [Bool.and_assoc]
  rfl

theorem Valve.pursue_idle {stroke : Timer} {e : Bool} {v : Valve}
    (h : (e = false ∧ (v.isShut = true ∨ v.state = some .movingShut ∨ v.isFault = true)) ∨
      (e = true ∧ (v.isOpen = true ∨ v.state = some .movingOpen ∨ v.isFault = true)) ∨ v.supervised = false) :
    v.pursue stroke e = v := by
  unfold Valve.pursue
  split
  next hs =>
    rcases h with ⟨rfl, h⟩ | ⟨rfl, h⟩ | h
    · rcases h with h | h | h <;> simp_all [Valve.isShut, Valve.isFault]
    · rcases h with h | h | h <;> simp_all [Valve.isOpen, Valve.isFault]
    · rw [h] at hs
      cases hs
  next => rfl

theorem Valve.told_command (stroke : Timer) (live : Bool) (c : Command) (v : Valve) : (v.told stroke live c).command = c := by
  unfold Valve.told Valve.pursue
  repeat' split
  all_goals rfl

theorem Valve.told_toShut (stroke : Timer) (live : Bool) (v : Valve) :
    v.told stroke live .toShut = { v with command := .toShut }.pursue stroke false := rfl

/-- A SHUT valve under supervision, told to open while it may move, starts to open. -/
theorem Valve.told_opening {stroke : Timer} {v : Valve} (hs : v.supervised = true) (h : v.isShut = true) :
    v.told stroke true .toOpen = v.opening stroke := by
  have hst : v.state = some .shut := by simpa [Valve.isShut] using h
  have hlive : (Command.toOpen == Command.toOpen && true && !v.isFault) = true := by simp [Valve.isFault, hst]
  unfold Valve.told
  rw [hlive]
  simp [Valve.pursue, Valve.opening, hs, hst]

/-- An OPEN valve under supervision, told to shut, starts to shut. -/
theorem Valve.told_shutting {stroke : Timer} {live : Bool} {v : Valve} (hs : v.supervised = true) (h : v.isOpen = true) :
    v.told stroke live .toShut = v.shutting stroke := by
  have hst : v.state = some .opened := by simpa [Valve.isOpen] using h
  rw [Valve.told_toShut]
  simp [Valve.pursue, Valve.shutting, hs, hst]

theorem Valve.opening_isOpen (stroke : Timer) (v : Valve) : (v.opening stroke).isOpen = false := rfl
theorem Valve.opening_isShut (stroke : Timer) (v : Valve) : (v.opening stroke).isShut = false := rfl

/-! ## Arrivals that do not concern the spot's state -/

section Off

variable {i : SpotNo} {s : State}

theorem onShutoffOpen_off (h : (s.spot i).state ≠ .proving) : onShutoffOpen i s = s := if_neg fun e => h e.1
theorem onShutoffOpen_shut (h : (s.spot i).shutoff.isOpen = false) : onShutoffOpen i s = s :=
  if_neg fun e => Bool.false_ne_true (h.symm.trans e.2.2)
theorem onLiquidOpen_off (h : (s.spot i).state ≠ .transfer) : onLiquidOpen i s = s := if_neg fun e => h e.1
theorem onDrained_off (h : ¬ ((s.spot i).headIs .draining = true ∧ (s.spot i).liquid.isShut = true)) : onDrained i s = s := by
  rcases onDrained_cases i s with ⟨e, -⟩ | ⟨o, ho, -⟩
  · exact e
  · unfold onDrained
    rw [ho]
    exact if_neg fun e => h ⟨by simp [Spot.headIs, ho, e.1], e.2⟩
theorem Spot.headIs_nil {sp : Spot} (h : sp.orders = []) (st : OrderState) : sp.headIs st = false := by
  simp [Spot.headIs, Spot.head, h]
theorem onDrained_empty (h : (s.spot i).orders = []) : onDrained i s = s :=
  onDrained_off fun e => Bool.false_ne_true ((Spot.headIs_nil h _).symm.trans e.1)
theorem onResumed_off (h : (s.spot i).state ≠ .staged) : onResumed i s = s := if_neg fun e => h e.1
theorem onLinesShut_off (h : (s.spot i).state ≠ .isolating) : onLinesShut i s = s := if_neg fun e => h e.1
theorem onVentOpen_off (h : (s.spot i).state ≠ .isolating) : onVentOpen i s = s := if_neg fun e => h e.1
theorem onVentShut_off (h : (s.spot i).state ≠ .isolating) : onVentShut i s = s := if_neg fun e => h e.1
theorem onStrokeOpen_off (h : (s.spot i).state ≠ .stroking) : onStrokeOpen i s = s := by
  unfold onStrokeOpen
  dsimp only
  split
  next hs _ => exact absurd hs h
  next => rfl
theorem onStrokeShut_off (h : (s.spot i).state ≠ .stroking) : onStrokeShut i s = s := by
  unfold onStrokeShut
  dsimp only
  split
  next hs _ => exact absurd hs h
  next => rfl
theorem onStrokeTurn_off (h : (s.spot i).state ≠ .stroking) : onStrokeTurn i s = s := by
  unfold onStrokeTurn
  dsimp only
  split
  next hs _ => exact absurd hs h
  next => rfl

/-- Outside ISOLATING and STROKING, and with the head not resuming, only the first three arrivals act. -/
theorem advanceSpot_head {u : State} (hu : onDrained i (onLiquidOpen i (onShutoffOpen i s)) = u) (h1 : (u.spot i).state ≠ .staged)
    (h2 : (u.spot i).state ≠ .isolating) (h3 : (u.spot i).state ≠ .stroking) : advanceSpot i s = u := by
  unfold advanceSpot
  rw [hu, onResumed_off h1, onLinesShut_off h2, onVentOpen_off h2, onVentShut_off h2, onStrokeOpen_off h3, onStrokeShut_off h3,
    onStrokeTurn_off h3]

/-- A PROVING spot without orders owes its valves' arrivals the shutoff valve's alone. -/
theorem advanceSpot_proving (h : (s.spot i).state = .proving) (ho : (s.spot i).orders = []) : advanceSpot i s = onShutoffOpen i s := by
  have hst : ((onShutoffOpen i s).spot i).state = .proving ∧ ((onShutoffOpen i s).spot i).orders = [] := by
    rcases onShutoffOpen_spot i s with ⟨e, -⟩ | ⟨-, p, t, -, e⟩
    · rw [e]
      exact ⟨h, ho⟩
    · rw [e]
      exact ⟨h, ho⟩
  refine advanceSpot_head ?_ ?_ ?_ ?_
  · rw [onLiquidOpen_off (by rw [hst.1]; exact nofun), onDrained_empty hst.2]
  all_goals rw [hst.1]; exact nofun

/-- A spot without orders in STROKING owes its valves' arrivals the steps of its test alone. -/
theorem advanceSpot_stroking (h : (s.spot i).state = .stroking) (ho : (s.spot i).orders = []) :
    advanceSpot i s = onStrokeTurn i (onStrokeShut i (onStrokeOpen i s)) := by
  unfold advanceSpot
  rw [onShutoffOpen_off (by rw [h]; exact nofun), onLiquidOpen_off (by rw [h]; exact nofun), onDrained_empty ho,
    onResumed_off (by rw [h]; exact nofun), onLinesShut_off (by rw [h]; exact nofun), onVentOpen_off (by rw [h]; exact nofun),
    onVentShut_off (by rw [h]; exact nofun)]

/-- A spot without orders in ISOLATING owes its valves' arrivals the steps of its isolation alone. -/
theorem advanceSpot_isolating (h : (s.spot i).state = .isolating) (ho : (s.spot i).orders = []) :
    advanceSpot i s = onStrokeTurn i (onStrokeShut i (onStrokeOpen i (onVentShut i (onVentOpen i (onLinesShut i s))))) := by
  unfold advanceSpot
  rw [onShutoffOpen_off (by rw [h]; exact nofun), onLiquidOpen_off (by rw [h]; exact nofun), onDrained_empty ho,
    onResumed_off (by rw [h]; exact nofun)]

end Off

/-! ## One spot changed in an event -/

/-- An event that changes one spot and no car record, and at which no order leaves. -/
theorem oneSpot_event {s v w : State} {i : SpotNo} {f : Spot → Spot} (hv : v.frame = s.frame) (hx : v.scratch = .empty)
    (hw : w = v.modSpot i f ∨ w = (v.touchSpot i).modSpot i f) :
    (closeEvent v w).frame = { s.frame with spots := s.spots.set i (f (s.spot i)) } := by
  have hspots : v.spots = s.spots := congrArg Frame.spots hv
  have hd : w.scratch.departed = [] := by
    rcases hw with rfl | rfl <;> exact congrArg Scratch.departed hx
  have ht : w.scratch.touched = 0 := by
    rcases hw with rfl | rfl <;> exact congrArg Scratch.touched hx
  have hwf : w.frame = { v.frame with spots := v.spots.set i (f (v.spot i)) } := by rcases hw with rfl | rfl <;> rfl
  rw [closeEvent_frame_quiet v w hd ht, hwf, hv, hspots, spot_of_frame hv]

theorem spot_of_oneSpot {s t : State} {i : SpotNo} {sp : Spot} (h : t.frame = { s.frame with spots := s.spots.set i sp }) :
    t.spot i = sp := by
  have ht : t.spots = s.spots.set i sp := congrArg Frame.spots h
  unfold State.spot
  rw [ht]
  exact Vector.getElem_set_self i.isLt

/-- A spot of which READ SPOT reports something else at the end of an event has its flag set. -/
theorem spotFlag_of_view {α : Type} {b w : State} {i : SpotNo} (p : SpotView → α) (h : p (b.spotView i) ≠ p (w.spotView i)) :
    (closeEvent b w).changes.spots.getLsbD i = true := by
  have hv : b.spotView i ≠ w.spotView i := fun e => h (congrArg p e)
  rw [closeEvent_spotFlag]
  simp [hv]

theorem fe_of_frame {s u : State} (h : u.frame = s.frame) : u.fe = s.fe := congrArg Frame.fe h
theorem siding_of_frame {s u : State} (h : u.frame = s.frame) : u.siding = s.siding := congrArg Frame.siding h

theorem strokeOf_of_frame {s u : State} (h : u.frame = s.frame) (n : ValveName) : u.strokeOf n = s.strokeOf n := by
  have hp : u.profile = s.profile := congrArg Frame.profile h
  unfold State.strokeOf
  rw [hp]

/-! ## OPEN -/

section Open

variable {place : Byte} {s : State} {i : SpotNo} (hn : s.namedSpot place = .ok i)

include hn

theorem answerOpen_notOperating (h : s.siding ≠ .operating) : answerOpen place s = (s, .bare .notOperating) := by
  unfold answerOpen
  rw [withSpot_ok _ hn]
  exact if_pos h

variable (h1 : s.siding = .operating)

include h1

theorem answerOpen_fieldOff (h : s.fe = false) : answerOpen place s = (s, .bare .fieldOff) := by
  unfold answerOpen
  rw [withSpot_ok _ hn]
  simp only [h1, h, ne_eq, not_true_eq_false, if_false, Bool.not_false, if_true]

variable (h2 : s.fe = true)

include h2

theorem answerOpen_state (h : (s.spot i).state ≠ .spotted) : answerOpen place s = (s, .bare .state) := by
  unfold answerOpen
  rw [withSpot_ok _ hn]
  simp only [h1, h2, h, ne_eq, not_true_eq_false, not_false_eq_true, if_false, Bool.not_true, Bool.false_eq_true, if_true]

variable (h3 : (s.spot i).state = .spotted) {c : Car} (h4 : s.boundCar i = some c)

include h3 h4

theorem answerOpen_bound :
    answerOpen place s =
      if !c.hoses then (s, .bare .noHoses)
      else if !(s.spot i).bond.active then (s, .bare .noBond)
      else if (s.spot i).hose.active then (s, .bare .hosePressure)
      else (startProving i s, .okBare) := by
  unfold answerOpen
  rw [withSpot_ok _ hn]
  simp only [h1, h2, h3, h4, ne_eq, not_true_eq_false, if_false, Bool.not_true, Bool.false_eq_true]

theorem answerOpen_noHoses (h : c.hoses = false) : answerOpen place s = (s, .bare .noHoses) := by
  rw [answerOpen_bound hn h1 h2 h3 h4, if_pos (by simp [h])]

variable (h5 : c.hoses = true)

include h5

theorem answerOpen_noBond (h : (s.spot i).bond.active = false) : answerOpen place s = (s, .bare .noBond) := by
  rw [answerOpen_bound hn h1 h2 h3 h4, if_neg (by simp [h5]), if_pos (by simp [h])]

variable (h6 : (s.spot i).bond.active = true)

include h6

theorem answerOpen_hosePressure (h : (s.spot i).hose.active = true) : answerOpen place s = (s, .bare .hosePressure) := by
  rw [answerOpen_bound hn h1 h2 h3 h4, if_neg (by simp [h5]), if_neg (by simp [h6]), if_pos h]

theorem answerOpen_done (h : (s.spot i).hose.active = false) : answerOpen place s = (startProving i s, .okBare) := by
  rw [answerOpen_bound hn h1 h2 h3 h4, if_neg (by simp [h5]), if_neg (by simp [h6]), if_neg (by simp [h])]

end Open

/-- A spot at the start of its proving, before its shutoff valve's arrival is looked at (R29). -/
def Spot.provingStarts (stroke : Timer) (fe : Bool) (sp : Spot) : Spot :=
  { sp with state := .proving, step := some .shutoffOpening, shutoff := sp.shutoff.told stroke fe .toOpen }

theorem startProving_eq {i : SpotNo} {s : State} (ho : (s.spot i).orders = []) :
    startProving i s = onShutoffOpen i (s.modSpot i (Spot.provingStarts (s.strokeOf .shutoff) s.fe)) := by
  have hc : commandSpot i .shutoff .toOpen (s.modSpot i fun sp => { sp with state := .proving, step := some .shutoffOpening })
      = s.modSpot i (Spot.provingStarts (s.strokeOf .shutoff) s.fe) := by
    rw [commandSpot_eq, modSpot_modSpot]
    refine modSpot_congr ?_
    have hlive : ((s.modSpot i fun sp => { sp with state := .proving, step := some .shutoffOpening }).fe &&
        (SpotState.proving != .faulted)) = s.fe := Bool.and_true _
    show Spot.setValve .shutoff _ _ = _
    rw [hlive]
    rfl
  unfold startProving
  rw [hc]
  refine advanceSpot_proving ?_ ?_ <;> rw [modSpot_spot_same]
  · rfl
  · exact ho

/-- However far its shutoff valve stands open already, a start of proving changes the spot alone. -/
theorem startProving_alone {i : SpotNo} {s : State} (ho : (s.spot i).orders = []) :
    ∃ f, startProving i s = s.modSpot i f ∧ (f (s.spot i)).state = .proving ∧ (f (s.spot i)).shutoff.command = .toOpen := by
  rw [startProving_eq ho]
  unfold onShutoffOpen
  dsimp only
  split
  · rw [modSpot_modSpot]
    exact ⟨_, rfl, rfl, Valve.told_command _ _ _ _⟩
  · exact ⟨_, rfl, rfl, Valve.told_command _ _ _ _⟩

theorem startProving_shut {i : SpotNo} {s : State} (ho : (s.spot i).orders = []) (hfe : s.fe = true)
    (hs : (s.spot i).shutoff.supervised = true) (h : (s.spot i).shutoff.isShut = true) :
    startProving i s = s.modSpot i fun sp =>
      { sp with state := .proving, step := some .shutoffOpening, shutoff := sp.shutoff.opening (s.strokeOf .shutoff) } := by
  have hsp : Spot.provingStarts (s.strokeOf .shutoff) s.fe (s.spot i) = { s.spot i with
      state := .proving, step := some .shutoffOpening, shutoff := (s.spot i).shutoff.opening (s.strokeOf .shutoff) } := by
    unfold Spot.provingStarts
    rw [hfe, Valve.told_opening hs h]
  rw [startProving_eq ho, onShutoffOpen_shut (by rw [modSpot_spot_same, hsp]; rfl)]
  exact modSpot_congr hsp

theorem Spot.queueLegal.orders_nil {sp : Spot} (h : sp.queueLegal) (hs : sp.state.quiet = true) : sp.orders = [] :=
  ((queueLegal_iff sp).mp h).orders_of_quiet hs

/-- Settles O27: the checks in order; the accepted request starts the proving at its spot alone. -/
theorem openBeginsProving : Obligations.OpenBeginsProving := by
  intro s via place i ht hn
  have hname {u : State} (hu : u.frame = s.frame) : u.namedSpot place = .ok i := (namedSpot_of_frame hu _).trans hn
  refine ⟨fun h => ?_, fun h1 => ⟨fun h => ?_, fun h2 => ⟨fun h => ?_, fun hd c h3 hcar hc => ?_⟩⟩⟩
  · exact refuses_of (c := .openSpot via place) ht rfl fun u hu => answerOpen_notOperating (hname hu) (by rwa [siding_of_frame hu])
  · exact refuses_of (c := .openSpot via place) ht rfl fun u hu =>
      answerOpen_fieldOff (hname hu) ((siding_of_frame hu).trans h1) ((fe_of_frame hu).trans h)
  · exact refuses_of (c := .openSpot via place) ht rfl fun u hu =>
      answerOpen_state (hname hu) ((siding_of_frame hu).trans h1) ((fe_of_frame hu).trans h2) (by rwa [spot_of_frame hu])
  · have hbound : s.boundCar i = some c := by
      unfold State.boundCar
      rw [hcar]
      exact hc
    have hb {u : State} (hu : u.frame = s.frame) : u.boundCar i = some c := (boundCar_of_frame hu i).trans hbound
    have hst {u : State} (hu : u.frame = s.frame) : (u.spot i).state = .spotted := by rwa [spot_of_frame hu]
    refine ⟨fun h => ?_, fun h5 h => ?_, fun h5 h6 h => ?_, fun h5 h6 h7 hq => ?_⟩
    · exact refuses_of (c := .openSpot via place) ht rfl fun u hu =>
        answerOpen_noHoses (hname hu) ((siding_of_frame hu).trans h1) ((fe_of_frame hu).trans h2) (hst hu) (hb hu) h
    · exact refuses_of (c := .openSpot via place) ht rfl fun u hu =>
        answerOpen_noBond (hname hu) ((siding_of_frame hu).trans h1) ((fe_of_frame hu).trans h2) (hst hu) (hb hu) h5
          (by rwa [spot_of_frame hu])
    · exact refuses_of (c := .openSpot via place) ht rfl fun u hu =>
        answerOpen_hosePressure (hname hu) ((siding_of_frame hu).trans h1) ((fe_of_frame hu).trans h2) (hst hu) (hb hu) h5
          (by rwa [spot_of_frame hu]) (by rwa [spot_of_frame hu])
    · obtain ⟨v, t, hv, ha, hframe, hch, -⟩ := answers_event (c := .openSpot via place) (s := s) ht rfl fun v hv =>
        answerOpen_done (hname hv) ((siding_of_frame hv).trans h1) ((fe_of_frame hv).trans h2) (hst hv) (hb hv) h5
          (by rwa [spot_of_frame hv]) (by rwa [spot_of_frame hv])
      have ho : (v.spot i).orders = [] := by
        rw [spot_of_frame hv.frame]
        exact hq.orders_nil (by rw [h3]; rfl)
      obtain ⟨f, hf, hproving, hopen⟩ := startProving_alone ho
      have hone := hframe.trans (oneSpot_event hv.frame hv.scratch (.inl hf))
      have hti := spot_of_oneSpot hone
      rw [spot_of_frame hv.frame] at hproving hopen
      refine ⟨t, ha, by rw [hti, hproving], by rw [hti, hopen], ?_, by rw [hti]; exact hone, fun hs hshut => ?_⟩
      · rw [hch]
        refine spotFlag_of_ne (.inl ?_)
        rw [hf, modSpot_spot_same, spot_of_frame hv.frame, h3, hproving]
        exact nofun
      · have hshut := startProving_shut ho ((fe_of_frame hv.frame).trans h2) (by rwa [spot_of_frame hv.frame])
          (by rwa [spot_of_frame hv.frame])
        rw [spot_of_oneSpot (hframe.trans (oneSpot_event hv.frame hv.scratch (.inl hshut))), strokeOf_of_frame hv.frame]
        rfl

end Sys2Proof.Machine
end

section
/-! PROOFS. A valve's arrival as one event (R145, R147), and the arrivals of isolations (R43, R44) and stroke tests (R48, R150). -/

namespace Sys2Proof.Machine

/-! ## What is due to the arbiter -/

theorem fewestSeats_congr {s t : State} (h : t.comp = s.comp) : ∀ l, t.fewestSeats l = s.fewestSeats l
  | [] => rfl
  | c :: rest => by
    unfold State.fewestSeats
    rw [fewestSeats_congr h rest]
    simp only [h]

/-- What is due depends on the waiting heads, the grant queue, the compressors, field enable and the profile. -/
theorem due_congr {s t : State} (hr : t.headReady = s.headReady) (hj : t.mustJoin = s.mustJoin) (hg : t.grants = s.grants)
    (hc : t.comps = s.comps) (hf : t.fe = s.fe) (hp : t.profile = s.profile) : t.due = s.due := by
  have hcomp : t.comp = s.comp := by
    funext c
    unfold State.comp
    rw [hc]
  have hsite : ∀ f, t.site f = s.site f := fun f => by
    unfold State.site
    rw [hp]
  have hfit : t.fittedComp = s.fittedComp := by
    funext c
    unfold State.fittedComp
    rw [hsite]
  have hseat : t.hasSeat = s.hasSeat := by
    funext d c
    unfold State.hasSeat
    rw [hfit, hcomp, hsite]
  have hstart : t.canStart = s.canStart := by
    funext c
    unfold State.canStart
    rw [hfit, hcomp]
  have hfor : t.seatFor = s.seatFor := by
    funext d
    unfold State.seatFor
    rw [hseat, hstart]
  have hturn : t.canTurn = s.canTurn := by
    funext d c
    unfold State.canTurn
    rw [hfit, hcomp]
  have hnextGrant : t.nextGrant = s.nextGrant := by
    unfold State.nextGrant
    rw [hg, hfor]
  have hnextTurn : t.nextTurn = s.nextTurn := by
    unfold State.nextTurn
    rw [hg, hcomp]
    simp only [hturn, fewestSeats_congr hcomp]
  unfold State.due
  rw [hr, hj, hf, hnextGrant, hnextTurn]

theorem headReady_congr {s t : State} {i : SpotNo} (hs : t.spot i = s.spot i) (hc : t.comps = s.comps) :
    t.headReady i = s.headReady i := by
  unfold State.headReady State.comp
  rw [hs, hc]

theorem mustJoin_congr {s t : State} {i : SpotNo} (hs : t.spot i = s.spot i) (hg : t.grants = s.grants) :
    t.mustJoin i = s.mustJoin i := by
  unfold State.mustJoin
  rw [hs, hg]

theorem headReady_of_unstaged {s : State} {i : SpotNo} (h : (s.spot i).state ≠ .staged) : s.headReady i = false :=
  Bool.eq_false_iff.mpr fun e => h (headReady_waits e).1

theorem mustJoin_of_unstaged {s : State} {i : SpotNo} (h : (s.spot i).state ≠ .staged) : s.mustJoin i = false :=
  Bool.eq_false_iff.mpr fun e => h (mustJoin_waits e).1

/-- Where nothing was due, nothing is after a change of one spot that is STAGED neither before nor after. -/
theorem settle_unstaged {s w : State} {i : SpotNo} (hd : s.due = none) (hs : (s.spot i).state ≠ .staged)
    (hw : (w.spot i).state ≠ .staged) (ho : ∀ j, j ≠ i → w.spot j = s.spot j) (hg : w.grants = s.grants) (hc : w.comps = s.comps)
    (hf : w.fe = s.fe) (hp : w.profile = s.profile) : settle w = w := by
  refine settle_none w ((due_congr ?_ ?_ hg hc hf hp).trans hd)
  · funext j
    by_cases e : j = i
    · rw [e, headReady_of_unstaged hs, headReady_of_unstaged hw]
    · exact headReady_congr (ho j e) hc
  · funext j
    by_cases e : j = i
    · rw [e, mustJoin_of_unstaged hs, mustJoin_of_unstaged hw]
    · exact mustJoin_congr (ho j e) hg

/-! ## An arrival as an event -/

theorem Valve.onLimits_nears {o : Bool} {v : Valve} (h : v.nears o) : v.onLimits o (!o) = v.arrived o := by
  obtain ⟨hs, hst, hl⟩ := h
  cases o
  · simp_all [Valve.onLimits, Valve.arrived]
  · simp_all [Valve.onLimits, Valve.arrived]

theorem Valve.nears_changes {o : Bool} {v : Valve} (h : v.nears o) : ¬ (v.openLimit.active = o ∧ v.shutLimit.active = !o) := by
  obtain ⟨-, -, hl⟩ := h
  cases o
  · rintro ⟨-, e⟩
    cases hl.symm.trans e
  · rintro ⟨e, -⟩
    cases hl.symm.trans e

theorem Valve.arrived_isFault (o : Bool) (v : Valve) : (v.arrived o).isFault = false := by cases o <;> rfl
theorem Valve.arrived_isShut (o : Bool) (v : Valve) : (v.arrived o).isShut = !o := by cases o <;> rfl
theorem Valve.arrived_isOpen (o : Bool) (v : Valve) : (v.arrived o).isOpen = o := by cases o <;> rfl
theorem Valve.arrived_supervised (o : Bool) (v : Valve) : (v.arrived o).supervised = v.supervised := rfl

theorem reportValve_spot (b : State) (i : SpotNo) (n : ValveName) (s : State) :
    reportValve b (.spot i n) false s = settle (advanceSpot i s) := by
  simp only [reportValve, Bool.false_eq_true, if_false]

theorem reportValve_spotFault (b : State) (i : SpotNo) (n : ValveName) (s : State) :
    reportValve b (.spot i n) true s = settle (spotValveFault i n s) := by
  simp only [reportValve, if_true]

/-- The records as the arrival of a spot's valve leaves them, before the spot goes on. -/
def State.arrivedAt (s : State) (i : SpotNo) (n : ValveName) (o : Bool) : State :=
  (clearScratch s).modSpot i fun sp => sp.setValve n (((s.spot i).valve n).arrived o)

/-- The spot as its valve's arrival leaves it, before the spot goes on. -/
theorem arrivedAt_spot (s : State) (i : SpotNo) (n : ValveName) (o : Bool) :
    (s.arrivedAt i n o).spot i =
      (s.spot i).setValve n (((s.spot i).valve n).arrived o) := modSpot_spot_same _ i _

theorem arrivedAt_modSpot (s : State) (i : SpotNo) (n : ValveName) (o : Bool) (f : Spot → Spot) :
    (s.arrivedAt i n o).modSpot i f =
      (clearScratch s).modSpot i fun sp => f (sp.setValve n (((s.spot i).valve n).arrived o)) := modSpot_modSpot i _ f _

theorem exec_limitChange (v : ValveId) (o sh : Bool) (s : State) : exec (.limitChange v o sh) s = .next (limitChange v o sh s) := rfl

/-- The arrival of a spot's valve is one event: the valve arrives, and the spot and the arbiter go as far as it lets them. -/
theorem exec_spotArrival {s : State} {i : SpotNo} {n : ValveName} {o : Bool} (h : ((s.spot i).valve n).nears o) :
    exec (.limitChange (.spot i n) o (!o)) s = .next (closeEvent (clearScratch s) (settle (advanceSpot i
      (s.arrivedAt i n o)))) := by
  have hmod : (clearScratch s).modValve (.spot i n) (Valve.onLimits o (!o)) =
      s.arrivedAt i n o := by
    refine modSpot_congr ?_
    exact congrArg ((s.spot i).setValve n) (Valve.onLimits_nears h)
  have hsame : ((s.arrivedAt i n o).valve (.spot i n)) =
      ((s.spot i).valve n).arrived o := by
    show (State.spot _ i).valve n = _
    rw [arrivedAt_spot, Spot.setValve_valve, if_pos rfl]
  have hchange : limitChange (.spot i n) o (!o) s = event (limitsBecome (.spot i n) o (!o)) s := if_neg (Valve.nears_changes h)
  have hlimits : limitsBecome (.spot i n) o (!o) (clearScratch s) = settle (advanceSpot i
      (s.arrivedAt i n o)) := by
    unfold limitsBecome
    dsimp only
    rw [hmod, hsame, Valve.arrived_isFault, Bool.false_and, reportValve_spot]
  rw [exec_limitChange, hchange, event_eq, hlimits]

/-- A spot whose valve stands elsewhere at the end of an event has its flag set. -/
theorem spotFlag_of_valve {b w : State} {i : SpotNo} (n : ValveName) (h : ((b.spot i).valve n).state ≠ ((w.spot i).valve n).state) :
    (closeEvent b w).changes.spots.getLsbD i = true := by
  cases n
  · exact spotFlag_of_view SpotView.shutoff h
  · exact spotFlag_of_view SpotView.liquid h
  · exact spotFlag_of_view SpotView.vapour h
  · exact spotFlag_of_view SpotView.vent h

/-- A spot whose step differs at the end of an event has its flag set. -/
theorem spotFlag_of_step {b w : State} {i : SpotNo} (h : (b.spot i).step ≠ (w.spot i).step) :
    (closeEvent b w).changes.spots.getLsbD i = true := spotFlag_of_view SpotView.step h

/-- An arrival that changes its spot alone: the event is that change. -/
theorem arrival_alone {s : State} {i : SpotNo} {n : ValveName} {o : Bool} {f : Spot → Spot} (h : ((s.spot i).valve n).nears o)
    (hd : s.due = none) (hs : (s.spot i).state ≠ .staged) (hf : (f (s.spot i)).state ≠ .staged)
    (hw : advanceSpot i (s.arrivedAt i n o) =
      (clearScratch s).modSpot i f) :
    ∃ t, exec (.limitChange (.spot i n) o (!o)) s = .next t ∧ t.frame = { s.frame with spots := s.spots.set i (f (s.spot i)) } ∧
      t = closeEvent (clearScratch s) ((clearScratch s).modSpot i f) := by
  have hsettle : settle ((clearScratch s).modSpot i f) = (clearScratch s).modSpot i f :=
    settle_unstaged (s := s) hd hs (by rw [modSpot_spot_same]; exact hf) (fun j hj => modSpot_spot_other _ i j _ hj) rfl rfl rfl rfl
  refine ⟨_, exec_spotArrival h, ?_, by rw [hw, hsettle]⟩
  rw [hw, hsettle]
  exact oneSpot_event (clearScratch_frame s) rfl (.inl rfl)

/-! ## Isolations -/

theorem Spot.linesShut_iff (sp : Spot) : sp.linesShut = true ↔ ∀ m, m ≠ ValveName.vent → (sp.valve m).isShut = true := by
  simp only [Spot.linesShut, Bool.and_eq_true]
  constructor
  · rintro ⟨⟨hl, hv⟩, hs⟩ m hm
    cases m with
    | shutoff => exact hs
    | liquid => exact hl
    | vapour => exact hv
    | vent => exact absurd rfl hm
  · exact fun h => ⟨⟨h .liquid nofun, h .vapour nofun⟩, h .shutoff nofun⟩

section Isolation

variable {i : SpotNo} {s : State}

theorem onLinesShut_step (h : (s.spot i).step ≠ some .linesClosing) : onLinesShut i s = s := if_neg fun e => h e.2.2.1
theorem onVentOpen_step (h : (s.spot i).step ≠ some .ventOpening) : onVentOpen i s = s := if_neg fun e => h e.2.2.1
theorem onVentShut_step (h : (s.spot i).step ≠ some .ventClosing) : onVentShut i s = s := if_neg fun e => h e.2.2.1
theorem onVentOpen_unopened (h : (s.spot i).vent.isOpen = false) : onVentOpen i s = s :=
  if_neg fun e => Bool.false_ne_true (h.symm.trans e.2.2.2)

/-- The last line valve has come to SHUT in an isolation that is not standing (R43). -/
theorem onLinesShut_opens (h1 : (s.spot i).state = .isolating) (h2 : (s.spot i).standing = false)
    (h3 : (s.spot i).step = some .linesClosing) (h4 : (s.spot i).linesShut = true) (hs : (s.spot i).vent.supervised = true)
    (hv : (s.spot i).vent.isShut = true) (hfe : s.fe = true) :
    onLinesShut i s = s.modSpot i fun sp => { sp with step := some .ventOpening, vent := sp.vent.opening (s.strokeOf .vent) } := by
  unfold onLinesShut
  dsimp only
  rw [if_pos ⟨h1, h2, h3, h4⟩, commandSpot_eq, modSpot_modSpot]
  refine modSpot_congr ?_
  have hlive : ((s.modSpot i fun sp => { sp with step := some .ventOpening }).fe && ((s.spot i).state != .faulted)) = true := by
    rw [h1]
    exact (Bool.and_true _).trans hfe
  show Spot.setValve .vent _ _ = _
  dsimp only
  rw [hlive]
  exact congrArg (Spot.setValve .vent · { s.spot i with step := some .ventOpening }) (Valve.told_opening hs hv)

variable (hst : (s.spot i).state = .isolating) (ho : (s.spot i).orders = [])

include hst ho

/-- The lines have closed in an isolation that is not standing: the vent starts to open. -/
theorem advanceSpot_linesShut (h2 : (s.spot i).standing = false) (h3 : (s.spot i).step = some .linesClosing)
    (h4 : (s.spot i).linesShut = true) (hs : (s.spot i).vent.supervised = true) (hv : (s.spot i).vent.isShut = true)
    (hfe : s.fe = true) :
    advanceSpot i s = s.modSpot i fun sp => { sp with step := some .ventOpening, vent := sp.vent.opening (s.strokeOf .vent) } := by
  have hw := modSpot_spot_same s i fun sp => { sp with step := some .ventOpening, vent := sp.vent.opening (s.strokeOf .vent) }
  have hstroke : ((s.modSpot i fun sp =>
      { sp with step := some .ventOpening, vent := sp.vent.opening (s.strokeOf .vent) }).spot i).state ≠ .stroking := by
    rw [hw]
    show (s.spot i).state ≠ _
    rw [hst]
    exact nofun
  rw [advanceSpot_isolating hst ho, onLinesShut_opens hst h2 h3 h4 hs hv hfe, onVentOpen_unopened (by rw [hw]; rfl),
    onVentShut_step (by rw [hw]; exact nofun), onStrokeOpen_off hstroke, onStrokeShut_off hstroke, onStrokeTurn_off hstroke]

/-- The vent has opened in an isolation that is not standing: the bleed begins. -/
theorem advanceSpot_ventOpen (h2 : (s.spot i).standing = false) (h3 : (s.spot i).step = some .ventOpening)
    (hv : (s.spot i).vent.isOpen = true) :
    advanceSpot i s = s.modSpot i fun sp => { sp with step := some .bleeding, timer := .seconds (s.site (·.bleedTime)) } := by
  have hw := modSpot_spot_same s i fun sp => { sp with step := some .bleeding, timer := .seconds (s.site (·.bleedTime)) }
  have hstroke : ((s.modSpot i fun sp =>
      { sp with step := some .bleeding, timer := .seconds (s.site (·.bleedTime)) }).spot i).state ≠ .stroking := by
    rw [hw]
    show (s.spot i).state ≠ _
    rw [hst]
    exact nofun
  have hopen : onVentOpen i s = s.modSpot i fun sp => { sp with step := some .bleeding, timer := .seconds (s.site (·.bleedTime)) } :=
    if_pos ⟨hst, h2, h3, hv⟩
  rw [advanceSpot_isolating hst ho, onLinesShut_step (by rw [h3]; exact nofun), hopen, onVentShut_step (by rw [hw]; exact nofun),
    onStrokeOpen_off hstroke, onStrokeShut_off hstroke, onStrokeTurn_off hstroke]

/-- The vent has closed at the end of an isolation that is not standing: the spot is SPOTTED. -/
theorem advanceSpot_ventShut (h2 : (s.spot i).standing = false) (h3 : (s.spot i).step = some .ventClosing)
    (hv : (s.spot i).vent.isShut = true) {hd : Handle} (hc : (s.spot i).car = some hd) :
    advanceSpot i s = (s.modSpot i fun sp => { sp with state := .spotted, step := none, standing := false }).modCar hd.slot fun c =>
      { c with hoses := false, phase := if c.phase = .unloading then .served else c.phase } := by
  have hw := modSpot_spot_same s i fun sp => { sp with state := .spotted, step := none, standing := false }
  have hcar : ((s.modSpot i fun sp => { sp with state := .spotted, step := none, standing := false }).spot i).car = some hd := by
    rw [hw]
    exact hc
  have hshut : onVentShut i s = (s.modSpot i fun sp => { sp with state := .spotted, step := none, standing := false }).modCar hd.slot
      fun c => { c with hoses := false, phase := if c.phase = .unloading then .served else c.phase } := by
    refine (if_pos ⟨hst, h2, h3, hv⟩).trans ?_
    unfold State.modCarAt
    rw [hcar]
  have hstroke : (((s.modSpot i fun sp => { sp with state := .spotted, step := none, standing := false }).modCar hd.slot
      fun c => { c with hoses := false, phase := if c.phase = .unloading then .served else c.phase }).spot i).state ≠ .stroking := by
    rw [modCar_spot, hw]
    exact nofun
  rw [advanceSpot_isolating hst ho, onLinesShut_step (by rw [h3]; exact nofun), onVentOpen_step (by rw [h3]; exact nofun), hshut,
    onStrokeOpen_off hstroke, onStrokeShut_off hstroke, onStrokeTurn_off hstroke]

/-- In a standing isolation no arrival leads on. -/
theorem advanceSpot_standing (h2 : (s.spot i).standing = true) : advanceSpot i s = s := by
  have hno (p : Option SpotStep) (q : Prop) : ¬ ((s.spot i).state = .isolating ∧ (s.spot i).standing = false ∧ (s.spot i).step = p ∧ q) :=
    fun e => Bool.false_ne_true (e.2.1.symm.trans h2)
  refine advanceSpot_steady i s ((steady_iff _).mpr ⟨⟨?_, ?_, ?_, ?_⟩, ⟨hno _ _, hno _ _, hno _ _⟩⟩) (by rw [hst]; exact nofun)
  · exact fun e => by rw [hst] at e; cases e.1
  · exact fun e => by rw [hst] at e; cases e.1
  · exact fun e => Bool.false_ne_true ((Spot.headIs_nil ho _).symm.trans e.1)
  · exact fun e => by rw [hst] at e; cases e.1

end Isolation

section IsolationEvents

variable {s : State} {i : SpotNo} (hst : (s.spot i).state = .isolating) (ho : (s.spot i).orders = []) (hd : s.due = none)

include hst ho hd

/-- The shut arrival of the last line valve. -/
theorem linesShut_arrival {n : ValveName} (hn : n ≠ .vent) (h2 : (s.spot i).standing = false)
    (h3 : (s.spot i).step = some .linesClosing) (h : ((s.spot i).valve n).nears false)
    (hrest : ∀ m, m ≠ n → m ≠ .vent → ((s.spot i).valve m).isShut = true)
    (hs : (s.spot i).vent.supervised = true) (hv : (s.spot i).vent.isShut = true) (hfe : s.fe = true) :
    ∃ t, exec (.limitChange (.spot i n) false true) s = .next t ∧
      t.frame = { s.frame with
        spots := s.spots.set i ({ s.spot i with
          step := some .ventOpening, vent := (s.spot i).vent.opening (s.strokeOf .vent) }.setValve n
            (((s.spot i).valve n).arrived false)) } ∧
      t.changes.spots.getLsbD i = true := by
  have hvent (sp : Spot) (x : Valve) : (sp.setValve n x).vent = sp.vent := by cases n <;> first | rfl | exact absurd rfl hn
  have hu := arrivedAt_spot s i n false
  have hlines : ((s.spot i).setValve n (((s.spot i).valve n).arrived false)).linesShut = true := by
    refine (Spot.linesShut_iff _).mpr fun m hm => ?_
    rw [Spot.setValve_valve]
    split
    · rfl
    next e => exact hrest m e hm
  have hadv : advanceSpot i (s.arrivedAt i n false) =
      (clearScratch s).modSpot i fun sp => { sp with
        step := some .ventOpening, vent := sp.vent.opening (s.strokeOf .vent) }.setValve n (((s.spot i).valve n).arrived false) := by
    rw [advanceSpot_linesShut (s := s.arrivedAt i n false) (by rw [hu, Spot.setValve_state]; exact hst)
      (by rw [hu, Spot.setValve_orders]; exact ho)
      (by rw [hu, Spot.setValve_standing]; exact h2) (by rw [hu, Spot.setValve_step]; exact h3) (by rw [hu]; exact hlines)
      (by rw [hu, hvent]; exact hs) (by rw [hu, hvent]; exact hv) hfe, arrivedAt_modSpot]
    refine modSpot_congr ?_
    cases n <;> first | rfl | exact absurd rfl hn
  obtain ⟨t, ht, hframe, hclose⟩ := arrival_alone h hd (by rw [hst]; exact nofun) (by simp [hst]) hadv
  refine ⟨t, ht, hframe, ?_⟩
  rw [hclose]
  refine spotFlag_of_step ?_
  rw [modSpot_spot_same, Spot.setValve_step]
  show (s.spot i).step ≠ _
  rw [h3]
  exact nofun

/-- The open arrival of the vent. -/
theorem ventOpen_arrival (h2 : (s.spot i).standing = false) (h3 : (s.spot i).step = some .ventOpening)
    (h : (s.spot i).vent.nears true) :
    ∃ t, exec (.limitChange (.spot i .vent) true false) s = .next t ∧
      t.frame = { s.frame with
        spots := s.spots.set i { s.spot i with
          step := some .bleeding, timer := .seconds (s.site (·.bleedTime)), vent := (s.spot i).vent.arrived true } } ∧
      t.changes.spots.getLsbD i = true := by
  have hu := arrivedAt_spot s i .vent true
  have hadv : advanceSpot i (s.arrivedAt i .vent true) =
      (clearScratch s).modSpot i fun sp => { sp with
        step := some .bleeding, timer := .seconds (s.site (·.bleedTime)), vent := (s.spot i).vent.arrived true } := by
    rw [advanceSpot_ventOpen (by rw [hu]; exact hst) (by rw [hu]; exact ho) (by rw [hu]; exact h2) (by rw [hu]; exact h3)
      (by rw [hu]; rfl), arrivedAt_modSpot]
    rfl
  obtain ⟨t, ht, hframe, hclose⟩ := arrival_alone (n := .vent) h hd (by rw [hst]; exact nofun) (by simp [hst]) hadv
  refine ⟨t, ht, hframe, ?_⟩
  rw [hclose]
  refine spotFlag_of_step ?_
  rw [modSpot_spot_same]
  show (s.spot i).step ≠ _
  rw [h3]
  exact nofun

/-- The shut arrival of the vent at the end of an isolation. -/
theorem ventShut_arrival {hd' : Handle} {car : Car} (h2 : (s.spot i).standing = false) (h3 : (s.spot i).step = some .ventClosing)
    (h : (s.spot i).vent.nears false) (hc : (s.spot i).car = some hd') (hcar : s.car hd'.slot = some car) :
    ∃ t, exec (.limitChange (.spot i .vent) false true) s = .next t ∧
      t.frame = { s.frame with
        spots := s.spots.set i { s.spot i with
          state := .spotted, step := none, vent := (s.spot i).vent.arrived false }
        cars := s.cars.set hd'.slot
          { issue := (s.carSlot hd'.slot).issue
            car := some { car with
              hoses := false, phase := if car.phase = .unloading then .served else car.phase
              revision := car.revision + 1 } } } ∧
      t.changes.spots.getLsbD i = true ∧ t.changes.cars = s.changes.cars ||| BitVec.twoPow 24 hd'.slot := by
  have hu := arrivedAt_spot s i .vent false
  have hadv : advanceSpot i (s.arrivedAt i .vent false) =
      ((clearScratch s).modSpot i fun sp => { sp with
        state := .spotted, step := none, standing := false, vent := (s.spot i).vent.arrived false }).modCar hd'.slot fun c =>
          { c with hoses := false, phase := if c.phase = .unloading then .served else c.phase } := by
    rw [advanceSpot_ventShut (by rw [hu]; exact hst) (by rw [hu]; exact ho) (by rw [hu]; exact h2) (by rw [hu]; exact h3)
      (by rw [hu]; rfl) (by rw [hu]; exact hc), arrivedAt_modSpot]
    rfl
  have hw := modSpot_spot_same (clearScratch s) i fun sp => { sp with
    state := .spotted, step := none, standing := false, vent := (s.spot i).vent.arrived false }
  have hsettle := settle_unstaged (s := s) (i := i) (w := ((clearScratch s).modSpot i fun sp => { sp with
      state := .spotted, step := none, standing := false, vent := (s.spot i).vent.arrived false }).modCar hd'.slot fun c =>
        { c with hoses := false, phase := if c.phase = .unloading then .served else c.phase }) hd (by rw [hst]; exact nofun)
    (by rw [modCar_spot, hw]; exact nofun) (fun j hj => by rw [modCar_spot, modSpot_spot_other _ i j _ hj]; rfl) rfl rfl rfl rfl
  obtain ⟨e1, e2⟩ := spotAndCar_event (clearScratch_frame s) rfl rfl hcar (w := ((clearScratch s).modSpot i fun sp => { sp with
      state := .spotted, step := none, standing := false, vent := (s.spot i).vent.arrived false }).modCar hd'.slot fun c =>
        { c with hoses := false, phase := if c.phase = .unloading then .served else c.phase }) rfl
  refine ⟨_, exec_spotArrival (n := .vent) h, ?_, ?_, ?_⟩
  · rw [hadv, hsettle, e1, ← h2]
    rfl
  · rw [hadv, hsettle]
    refine spotFlag_of_ne (.inl ?_)
    rw [modCar_spot, hw]
    show (s.spot i).state ≠ _
    rw [hst]
    exact nofun
  · rw [hadv, hsettle]
    exact e2

/-- An arrival in a standing isolation. -/
theorem standing_arrival {n : ValveName} {o : Bool} (h2 : (s.spot i).standing = true) (h : ((s.spot i).valve n).nears o) :
    ∃ t, exec (.limitChange (.spot i n) o (!o)) s = .next t ∧
      t.frame = { s.frame with
        spots := s.spots.set i ((s.spot i).setValve n (((s.spot i).valve n).arrived o)) } ∧
      t.changes.spots.getLsbD i = true := by
  have hu := arrivedAt_spot s i n o
  have hadv : advanceSpot i (s.arrivedAt i n o) =
      (clearScratch s).modSpot i fun sp => sp.setValve n (((s.spot i).valve n).arrived o) :=
    advanceSpot_standing (by rw [hu, Spot.setValve_state]; exact hst) (by rw [hu, Spot.setValve_orders]; exact ho)
      (by rw [hu, Spot.setValve_standing]; exact h2)
  obtain ⟨t, ht, hframe, hclose⟩ := arrival_alone h hd (by rw [hst]; exact nofun) (by simp [hst]) hadv
  refine ⟨t, ht, hframe, ?_⟩
  rw [hclose]
  refine spotFlag_of_valve n ?_
  rw [modSpot_spot_same, Spot.setValve_valve, if_pos rfl]
  show ((s.spot i).valve n).state ≠ _
  rw [h.2.1]
  cases o <;> exact nofun

end IsolationEvents

/-- Settles O56: each arrival of an isolation without orders leads to the next step, and in a standing one to none. -/
theorem isolationArrivalsMoveOn : Obligations.IsolationArrivalsMoveOn := by
  intro s i hst ho hd
  exact ⟨fun n hn h2 h3 h hrest hs hv hfe => linesShut_arrival hst ho hd hn h2 h3 h hrest hs hv hfe,
    fun h2 h3 h => ventOpen_arrival hst ho hd h2 h3 h,
    fun hd' car h2 h3 h hc hcar => ventShut_arrival hst ho hd h2 h3 h hc hcar,
    fun n o h2 h => standing_arrival hst ho hd h2 h⟩

end Sys2Proof.Machine
end

section
/-! PROOFS. Stroke tests (R48, R150, R151): the arrivals of the valve under test, and STROKE SPOT (R47), which begins one. -/

namespace Sys2Proof.Machine

/-! ## The steps of a test -/

section Steps

variable {i : SpotNo} {s : State} {n : ValveName} (h : (s.spot i).state = .stroking)

include h

theorem onStrokeOpen_at (hp : (s.spot i).step = some (.stroking n false)) :
    onStrokeOpen i s = if ((s.spot i).valve n).isOpen then
        commandSpot i n .toShut (s.modSpot i fun sp => { sp with step := some (.stroking n true) }) else s := by
  unfold onStrokeOpen
  dsimp only
  rw [h, hp]

theorem onStrokeShut_at (hp : (s.spot i).step = some (.stroking n true)) (hv : ((s.spot i).valve n).isShut = true) {m : ValveName}
    (hm : nextStroke (s.spot i) n = some m) : onStrokeShut i s = s.modSpot i fun sp => { sp with step := some (.stroking m false) } := by
  unfold onStrokeShut
  dsimp only
  rw [h, hp]
  dsimp only
  rw [if_pos hv, hm]

theorem onStrokeShut_last (hp : (s.spot i).step = some (.stroking n true)) (hv : ((s.spot i).valve n).isShut = true)
    (hm : nextStroke (s.spot i) n = none) : onStrokeShut i s = passStroke i s := by
  unfold onStrokeShut
  dsimp only
  rw [h, hp]
  dsimp only
  rw [if_pos hv, hm]

theorem onStrokeShut_moving (hp : (s.spot i).step = some (.stroking n true)) (hv : ((s.spot i).valve n).isShut = false) :
    onStrokeShut i s = s := by
  unfold onStrokeShut
  dsimp only
  rw [h, hp]
  exact if_neg (by simp [hv])

theorem onStrokeTurn_at (hp : (s.spot i).step = some (.stroking n false)) :
    onStrokeTurn i s = if ((s.spot i).valve n).isShut then commandSpot i n .toOpen s else s := by
  unfold onStrokeTurn
  dsimp only
  rw [h, hp]

theorem onStrokeOpen_closing (hp : (s.spot i).step = some (.stroking n true)) : onStrokeOpen i s = s := by
  unfold onStrokeOpen
  dsimp only
  rw [h, hp]

theorem onStrokeShut_opening (hp : (s.spot i).step = some (.stroking n false)) : onStrokeShut i s = s := by
  unfold onStrokeShut
  dsimp only
  rw [h, hp]

theorem onStrokeTurn_closing (hp : (s.spot i).step = some (.stroking n true)) : onStrokeTurn i s = s := by
  unfold onStrokeTurn
  dsimp only
  rw [h, hp]

variable (ho : (s.spot i).orders = [])

include ho

/-- The valve under test has come to OPEN. -/
theorem advanceSpot_strokeOpened (hp : (s.spot i).step = some (.stroking n false)) (hs : ((s.spot i).valve n).supervised = true)
    (hv : ((s.spot i).valve n).isOpen = true) :
    advanceSpot i s = s.modSpot i fun sp =>
      { sp with step := some (.stroking n true) }.setValve n ((sp.valve n).shutting (s.strokeOf n)) := by
  have hopen : onStrokeOpen i s = s.modSpot i fun sp =>
      { sp with step := some (.stroking n true) }.setValve n ((sp.valve n).shutting (s.strokeOf n)) := by
    rw [onStrokeOpen_at h hp, if_pos hv, commandSpot_eq, modSpot_modSpot]
    refine modSpot_congr ?_
    have hval : ({ s.spot i with step := some (.stroking n true) } : Spot).valve n = (s.spot i).valve n := by cases n <;> rfl
    dsimp only
    rw [hval]
    exact congrArg (fun x => Spot.setValve n x _) (Valve.told_shutting hs hv)
  have hw := modSpot_spot_same s i fun sp =>
      { sp with step := some (.stroking n true) }.setValve n ((sp.valve n).shutting (s.strokeOf n))
  have hstate : ((s.modSpot i fun sp => { sp with step := some (.stroking n true) }.setValve n
      ((sp.valve n).shutting (s.strokeOf n))).spot i).state = .stroking := by
    rw [hw, Spot.setValve_state]
    exact h
  have hstep : ((s.modSpot i fun sp => { sp with step := some (.stroking n true) }.setValve n
      ((sp.valve n).shutting (s.strokeOf n))).spot i).step = some (.stroking n true) := by
    rw [hw, Spot.setValve_step]
  rw [advanceSpot_stroking h ho, hopen, onStrokeShut_moving hstate hstep (by rw [hw, Spot.setValve_valve, if_pos rfl]; rfl),
    onStrokeTurn_closing hstate hstep]

omit ho in
/-- It is the turn of a valve that stands SHUT. -/
theorem strokeTurn_opens (hp : (s.spot i).step = some (.stroking n false)) (hs : ((s.spot i).valve n).supervised = true)
    (hv : ((s.spot i).valve n).isShut = true) (hfe : s.fe = true) :
    onStrokeTurn i s = s.modSpot i fun sp => sp.setValve n ((sp.valve n).opening (s.strokeOf n)) := by
  rw [onStrokeTurn_at h hp, if_pos hv, commandSpot_eq]
  refine modSpot_congr ?_
  have hlive : (s.fe && (s.spot i).state != .faulted) = true := by rw [h, hfe]; rfl
  rw [hlive]
  exact congrArg (fun x => Spot.setValve n x (s.spot i)) (Valve.told_opening hs hv)

/-- The valve under test has come to SHUT, and the next one stands SHUT. -/
theorem advanceSpot_strokeNext {m : ValveName} (hp : (s.spot i).step = some (.stroking n true))
    (hv : ((s.spot i).valve n).isShut = true) (hm : nextStroke (s.spot i) n = some m) (hs : ((s.spot i).valve m).supervised = true)
    (hmv : ((s.spot i).valve m).isShut = true) (hfe : s.fe = true) :
    advanceSpot i s = s.modSpot i fun sp =>
      { sp with step := some (.stroking m false) }.setValve m ((sp.valve m).opening (s.strokeOf m)) := by
  have hval : ({ s.spot i with step := some (.stroking m false) } : Spot).valve m = (s.spot i).valve m := by cases m <;> rfl
  have hw := modSpot_spot_same s i fun sp => { sp with step := some (.stroking m false) }
  rw [advanceSpot_stroking h ho, onStrokeOpen_closing h hp, onStrokeShut_at h hp hv hm,
    strokeTurn_opens (s := s.modSpot i fun sp => { sp with step := some (.stroking m false) }) (n := m) (by rw [hw]; exact h)
      (by rw [hw]) (by rw [hw, hval]; exact hs) (by rw [hw, hval]; exact hmv) hfe, modSpot_modSpot]
  refine modSpot_congr ?_
  rw [hval]
  rfl

/-- The last valve has come to SHUT. -/
theorem advanceSpot_strokeLast (hp : (s.spot i).step = some (.stroking n true)) (hv : ((s.spot i).valve n).isShut = true)
    (hm : nextStroke (s.spot i) n = none) : advanceSpot i s = passStroke i s := by
  have hstate : ((passStroke i s).spot i).state ≠ .stroking := by
    have hl := congrArg Line.state (passStroke_line i s)
    intro e
    rw [show ((passStroke i s).spot i).line.state = _ from e] at hl
    simp only at hl
    split at hl <;> cases hl
  rw [advanceSpot_stroking h ho, onStrokeOpen_closing h hp, onStrokeShut_last h hp hv hm, onStrokeTurn_off hstate]

end Steps

/-! ## The arrivals of a test -/

/-- A spot that has passed its test, with the last valve's arrival (R48). -/
def Spot.passed (n : ValveName) (v : Valve) (sp : Spot) : Spot :=
  { (sp.setValve n v).mapValves Valve.passTest with
    state := if sp.car.isSome then .spotted else .vacant, step := none, fault := none }

theorem Spot.passed_eq (n : ValveName) (v : Valve) (sp : Spot) : sp.passed n v =
    { sp.setValve n v with state := if sp.car = none then .vacant else .spotted, step := none, fault := none }.mapValves
      fun v => { v with retest := false } := by
  unfold Spot.passed
  cases sp.car <;> rfl

theorem Spot.passed_ready (n : ValveName) (v : Valve) (sp : Spot) :
    (sp.passed n v).state ≠ .staged ∧ (sp.passed n v).state ≠ .stroking := by
  unfold Spot.passed
  cases sp.car <;> exact ⟨nofun, nofun⟩

theorem endSpotTest_frame (i : SpotNo) (s : State) : (endSpotTest i s).frame = { s.frame with
    tests := { s.tests with spots := s.tests.spots.filter (· ≠ i) }
    siding := if s.siding = .commissioning ∧ (∀ j ∈ s.tests.spots, j = i) ∧ s.tests.comps = [] then .operating else s.siding } := by
  have hiff : (s.tests.spots.filter (· ≠ i) = []) ↔ ∀ j ∈ s.tests.spots, j = i := by simp [List.filter_eq_nil_iff]
  unfold endSpotTest settleTests
  simp only [hiff]
  split <;> rfl

theorem endSpotTest_scratch (i : SpotNo) (s : State) : (endSpotTest i s).scratch = s.scratch := by
  unfold endSpotTest settleTests
  split <;> rfl

section Arrivals

variable {s : State} {i : SpotNo} {n : ValveName} (hst : (s.spot i).state = .stroking) (ho : (s.spot i).orders = [])
  (hd : s.due = none)

include hst ho hd

theorem strokeOpen_arrival (hp : (s.spot i).step = some (.stroking n false)) (h : ((s.spot i).valve n).nears true) :
    ∃ t, exec (.limitChange (.spot i n) true false) s = .next t ∧
      t.frame = { s.frame with
        spots := s.spots.set i ({ s.spot i with step := some (.stroking n true) }.setValve n
          ((((s.spot i).valve n).arrived true).shutting (s.strokeOf n))) } ∧
      t.changes.spots.getLsbD i = true := by
  have hu := arrivedAt_spot s i n true
  have hval : ((s.arrivedAt i n true).spot i).valve n = ((s.spot i).valve n).arrived true := by
    rw [hu, Spot.setValve_valve, if_pos rfl]
  have hadv : advanceSpot i (s.arrivedAt i n true) = (clearScratch s).modSpot i fun sp =>
      { sp with step := some (.stroking n true) }.setValve n ((((s.spot i).valve n).arrived true).shutting (s.strokeOf n)) := by
    rw [advanceSpot_strokeOpened (s := s.arrivedAt i n true) (n := n) (by rw [hu, Spot.setValve_state]; exact hst)
      (by rw [hu, Spot.setValve_orders]; exact ho) (by rw [hu, Spot.setValve_step]; exact hp) (by rw [hval]; exact h.1)
      (by rw [hval]; rfl), arrivedAt_modSpot]
    refine modSpot_congr ?_
    rw [Spot.setValve_valve, if_pos rfl]
    cases n <;> rfl
  obtain ⟨t, ht, hframe, hclose⟩ := arrival_alone h hd (by rw [hst]; exact nofun) (by simp [hst]) hadv
  refine ⟨t, ht, hframe, ?_⟩
  rw [hclose]
  refine spotFlag_of_step ?_
  rw [modSpot_spot_same, Spot.setValve_step]
  show (s.spot i).step ≠ _
  rw [hp]
  simp

theorem strokeNext_arrival {m : ValveName} (hp : (s.spot i).step = some (.stroking n true)) (h : ((s.spot i).valve n).nears false)
    (hm : nextStroke (s.spot i) n = some m) (hnm : m ≠ n) (hs : ((s.spot i).valve m).supervised = true)
    (hmv : ((s.spot i).valve m).isShut = true) (hfe : s.fe = true) :
    ∃ t, exec (.limitChange (.spot i n) false true) s = .next t ∧
      t.frame = { s.frame with
        spots := s.spots.set i ((({ s.spot i with step := some (.stroking m false) }.setValve n
          (((s.spot i).valve n).arrived false))).setValve m (((s.spot i).valve m).opening (s.strokeOf m))) } ∧
      t.changes.spots.getLsbD i = true := by
  have hu := arrivedAt_spot s i n false
  have hval : ((s.arrivedAt i n false).spot i).valve n = ((s.spot i).valve n).arrived false := by
    rw [hu, Spot.setValve_valve, if_pos rfl]
  have hvalm : ((s.arrivedAt i n false).spot i).valve m = (s.spot i).valve m := by
    rw [hu, Spot.setValve_valve, if_neg hnm]
  have hnext : nextStroke ((s.arrivedAt i n false).spot i) n = some m := by
    rw [← hm, hu]
    unfold nextStroke
    rw [Spot.setValve_car]
  have hadv : advanceSpot i (s.arrivedAt i n false) = (clearScratch s).modSpot i fun sp =>
      (({ sp with step := some (.stroking m false) }.setValve n (((s.spot i).valve n).arrived false))).setValve m
        (((s.spot i).valve m).opening (s.strokeOf m)) := by
    rw [advanceSpot_strokeNext (s := s.arrivedAt i n false) (n := n) (by rw [hu, Spot.setValve_state]; exact hst)
      (by rw [hu, Spot.setValve_orders]; exact ho) (by rw [hu, Spot.setValve_step]; exact hp) (by rw [hval]; rfl) hnext
      (by rw [hvalm]; exact hs) (by rw [hvalm]; exact hmv) hfe, arrivedAt_modSpot]
    refine modSpot_congr ?_
    rw [Spot.setValve_valve, if_neg hnm]
    cases n <;> rfl
  obtain ⟨t, ht, hframe, hclose⟩ := arrival_alone h hd (by rw [hst]; exact nofun) (by simp [hst]) hadv
  refine ⟨t, ht, hframe, ?_⟩
  rw [hclose]
  refine spotFlag_of_step ?_
  rw [modSpot_spot_same, Spot.setValve_step, Spot.setValve_step]
  show (s.spot i).step ≠ _
  rw [hp]
  simp

theorem strokeLast_arrival (hp : (s.spot i).step = some (.stroking n true)) (h : ((s.spot i).valve n).nears false)
    (hn : (n = .liquid ∧ (s.spot i).car ≠ none) ∨ (n = .shutoff ∧ (s.spot i).car = none)) :
    ∃ t, exec (.limitChange (.spot i n) false true) s = .next t ∧
      t.frame = { s.frame with
        spots := s.spots.set i ({ (s.spot i).setValve n (((s.spot i).valve n).arrived false) with
          state := if (s.spot i).car = none then .vacant else .spotted, step := none, fault := none }.mapValves
            fun v => { v with retest := false })
        tests := { s.tests with spots := s.tests.spots.filter (· ≠ i) }
        siding := if s.siding = .commissioning ∧ (∀ j ∈ s.tests.spots, j = i) ∧ s.tests.comps = [] then .operating
          else s.siding } ∧
      t.changes.spots.getLsbD i = true := by
  have hu := arrivedAt_spot s i n false
  have hval : ((s.arrivedAt i n false).spot i).valve n = ((s.spot i).valve n).arrived false := by
    rw [hu, Spot.setValve_valve, if_pos rfl]
  have hlast : nextStroke ((s.arrivedAt i n false).spot i) n = none := by
    rw [hu]
    rcases hn with ⟨rfl, hc⟩ | ⟨rfl, -⟩
    · unfold nextStroke
      rw [Spot.setValve_car, if_pos (Option.isSome_iff_ne_none.mpr hc)]
    · rfl
  obtain ⟨w, hw⟩ : ∃ w, w = ((clearScratch s).touchSpot i).modSpot i (Spot.passed n (((s.spot i).valve n).arrived false)) :=
    ⟨_, rfl⟩
  have hadv : advanceSpot i (s.arrivedAt i n false) = endSpotTest i w := by
    rw [advanceSpot_strokeLast (s := s.arrivedAt i n false) (n := n) (by rw [hu, Spot.setValve_state]; exact hst)
      (by rw [hu, Spot.setValve_orders]; exact ho) (by rw [hu, Spot.setValve_step]; exact hp) (by rw [hval]; rfl) hlast, hw]
    unfold passStroke
    refine congrArg (endSpotTest i) ((modSpot_modSpot i _ _ ((clearScratch s).touchSpot i)).trans (modSpot_congr ?_))
    cases n <;> rfl
  have hwi : (endSpotTest i w).spot i = (s.spot i).passed n (((s.spot i).valve n).arrived false) := by
    rw [endSpotTest_spot, hw, modSpot_spot_same]
    rfl
  have hwf : w.frame = { s.frame with spots := s.spots.set i ((s.spot i).passed n (((s.spot i).valve n).arrived false)) } := by
    rw [hw]
    rfl
  have hf := (endSpotTest_frame i w).trans (by rw [hwf])
  have hx : (endSpotTest i w).scratch = ((clearScratch s).touchSpot i).scratch := by
    rw [endSpotTest_scratch, hw]
    rfl
  have hsettle : settle (endSpotTest i w) = endSpotTest i w := by
    refine settle_unstaged (s := s) hd (by rw [hst]; exact nofun) (by rw [hwi]; exact (Spot.passed_ready _ _ _).1)
      (fun j hj => ?_) (congrArg Frame.grants hf) (congrArg Frame.comps hf) (congrArg Frame.fe hf) (congrArg Frame.profile hf)
    rw [endSpotTest_spot, hw, modSpot_spot_other _ i j _ hj]
    rfl
  refine ⟨_, exec_spotArrival h, ?_, ?_⟩
  · rw [hadv, hsettle, closeEvent_frame_quiet _ _ (by rw [hx]; rfl) (by rw [hx]; rfl), hf, Spot.passed_eq,
      show w.tests = s.tests from congrArg Frame.tests hwf, show w.siding = s.siding from congrArg Frame.siding hwf]
  · rw [hadv, hsettle]
    refine spotFlag_of_ne (.inl ?_)
    rw [hwi]
    show (s.spot i).state ≠ _
    rw [hst]
    exact (Spot.passed_ready _ _ _).2.symm

end Arrivals

/-- Settles O57: the two arrivals of each valve under test, and the last one's, which passes the test. -/
theorem strokeTestArrivalsMoveOn : Obligations.StrokeTestArrivalsMoveOn := by
  intro s i n hst ho hd
  refine ⟨fun hp h => strokeOpen_arrival hst ho hd hp h, fun m hp h hm hs hmv hfe => ?_,
    fun hp h hn => strokeLast_arrival hst ho hd hp h hn⟩
  have hnext : nextStroke (s.spot i) n = some m ∧ m ≠ n := by
    rcases hm with ⟨rfl, rfl⟩ | ⟨rfl, rfl⟩ | ⟨rfl, rfl, hc⟩
    · exact ⟨rfl, nofun⟩
    · exact ⟨rfl, nofun⟩
    · refine ⟨?_, nofun⟩
      unfold nextStroke
      rw [hc]
      rfl
  exact strokeNext_arrival hst ho hd hp h hnext.1 hnext.2 hs hmv hfe

end Sys2Proof.Machine
end

section
/-! PROOFS. STROKE SPOT (R47, R150): the spot's valves taken up for a test, and the test begun at a vent valve that stands SHUT. -/

namespace Sys2Proof.Machine

/-! ## Every valve of one spot at a time -/

/-- The valves of a spot taken up for a test (R150). -/
def Spot.beginTest (stroke : ValveName → Timer) (sp : Spot) : Spot :=
  sp.strokeOrder.foldl (fun sp n => sp.setValve n ((sp.valve n).beginTest (stroke n))) sp

/-- Every valve of a spot moved toward its effective position (R143). -/
def Spot.pursueAll (stroke : ValveName → Timer) (fe : Bool) (sp : Spot) : Spot :=
  allValveNames.foldl (fun sp n => sp.setValve n ((sp.valve n).pursue (stroke n) (sp.effective fe n))) sp

theorem modSpot_foldl (i : SpotNo) (g : ValveName → Spot → Spot) :
    ∀ (l : List ValveName) (s : State), l.foldl (fun s n => s.modSpot i (g n)) s = s.modSpot i fun sp => l.foldl (fun sp n => g n sp) sp
  | [], s => (modSpot_self rfl).symm
  | n :: l, s => by
    rw [List.foldl_cons, modSpot_foldl i g l, modSpot_modSpot]
    rfl

theorem beginTest_foldl (i : SpotNo) (l : List ValveName) (s : State) :
    l.foldl (fun s n => s.modSpot i fun sp => sp.setValve n ((sp.valve n).beginTest (s.strokeOf n))) s =
      s.modSpot i fun sp => l.foldl (fun sp n => sp.setValve n ((sp.valve n).beginTest (s.strokeOf n))) sp := by
  have h : ∀ (l : List ValveName) (t : State), t.strokeOf = s.strokeOf →
      l.foldl (fun s n => s.modSpot i fun sp => sp.setValve n ((sp.valve n).beginTest (s.strokeOf n))) t =
        l.foldl (fun t n => t.modSpot i fun sp => sp.setValve n ((sp.valve n).beginTest (s.strokeOf n))) t := by
    intro l
    induction l with
    | nil => exact fun _ _ => rfl
    | cons n l ih =>
      intro t ht
      rw [List.foldl_cons, List.foldl_cons, ht]
      exact ih _ ht
  rw [h l s rfl, modSpot_foldl]

theorem pursueSpotAll_eq (i : SpotNo) (s : State) : pursueSpotAll i s = s.modSpot i (Spot.pursueAll s.strokeOf s.fe) := by
  show pursueSpot i .vent (pursueSpot i .vapour (pursueSpot i .liquid (pursueSpot i .shutoff s))) = _
  unfold pursueSpot
  rw [modSpot_modSpot, modSpot_modSpot, modSpot_modSpot]
  rfl

theorem Spot.beginTest_valve (stroke : ValveName → Timer) (sp : Spot) (n : ValveName) :
    (sp.beginTest stroke).valve n = if n ∈ sp.strokeOrder then (sp.valve n).beginTest (stroke n) else sp.valve n := by
  unfold Spot.beginTest Spot.strokeOrder
  cases sp.car <;> cases n <;> rfl

theorem Spot.pursueAll_valve (stroke : ValveName → Timer) (fe : Bool) (sp : Spot) (n : ValveName) :
    (sp.pursueAll stroke fe).valve n = (sp.valve n).pursue (stroke n) (sp.effective fe n) := by cases n <;> rfl

/-- What a spot's valves do not decide. -/
def Spot.bare (sp : Spot) : Spot := { sp with shutoff := .reset, liquid := .reset, vapour := .reset, vent := .reset }

theorem Spot.setValve_bare (n : ValveName) (v : Valve) (sp : Spot) : (sp.setValve n v).bare = sp.bare := by cases n <;> rfl

theorem Spot.foldl_bare (g : ValveName → Spot → Valve) :
    ∀ (l : List ValveName) (sp : Spot), (l.foldl (fun sp n => sp.setValve n (g n sp)) sp).bare = sp.bare
  | [], _ => rfl
  | n :: l, sp => by rw [List.foldl_cons, foldl_bare g l, setValve_bare]

theorem Spot.beginTest_bare (stroke : ValveName → Timer) (sp : Spot) : (sp.beginTest stroke).bare = sp.bare :=
  foldl_bare (fun n sp => (sp.valve n).beginTest (stroke n)) _ sp
theorem Spot.pursueAll_bare (stroke : ValveName → Timer) (fe : Bool) (sp : Spot) : (sp.pursueAll stroke fe).bare = sp.bare :=
  foldl_bare (fun n sp => (sp.valve n).pursue (stroke n) (sp.effective fe n)) _ sp

/-! ## A valve under test -/

theorem Valve.pursue_isFault (stroke : Timer) (e : Bool) (v : Valve) : (v.pursue stroke e).isFault = v.isFault := by
  unfold Valve.pursue
  split
  · split
    next h => simp [Valve.isFault, h]
    next h => split <;> simp [Valve.isFault, h]
    next h => simp [Valve.isFault, h]
    next h => split <;> simp [Valve.isFault, h]
    next => rfl
  · rfl

theorem Valve.pursue_command (stroke : Timer) (e : Bool) (v : Valve) : (v.pursue stroke e).command = v.command := by
  unfold Valve.pursue
  repeat' split
  all_goals rfl

theorem Valve.beginTest_command (stroke : Timer) (v : Valve) : (v.beginTest stroke).command = .toShut := by
  unfold Valve.beginTest Valve.byLimits Valve.enterFault
  repeat' split
  all_goals rfl

theorem Valve.beginTest_sound {stroke : Timer} {v : Valve} (h : v.isFault = false) : v.beginTest stroke = { v with command := .toShut } := by
  unfold Valve.beginTest
  rw [if_neg (by simp [h])]

/-- A faulted valve that finds only its shut limit active is taken up SHUT. -/
theorem Valve.beginTest_shut {stroke : Timer} {v : Valve} (h : v.isFault = true) (hs : v.shutLimit.active = true)
    (ho : v.openLimit.active = false) :
    v.beginTest stroke = { v with command := .toShut, retest := true, state := some .shut, timer := .stopped } := by
  unfold Valve.beginTest
  rw [if_pos h]
  unfold Valve.byLimits
  simp only [hs, ho]

/-! ## The test begun -/

/-- A spot as a test takes it up, before its first valve is told to open (R47, R150). -/
def Spot.testTakenUp (stroke : ValveName → Timer) (fe : Bool) (sp : Spot) : Spot :=
  (({ sp with state := .stroking, step := some (.stroking .vent false) } : Spot).beginTest stroke).pursueAll stroke fe

theorem enterStroking_eq (i : SpotNo) (s : State) :
    enterStroking i s =
      match (s.spot i).strokeOrder.find? fun n => (((s.spot i).testTakenUp s.strokeOf s.fe).valve n).isFault with
      | some n => failStroke false (.valve n) i ((s.touchSpot i).modSpot i (Spot.testTakenUp s.strokeOf s.fe))
      | none => (s.touchSpot i).modSpot i (Spot.testTakenUp s.strokeOf s.fe) := by
  have h : pursueSpotAll i ((s.spot i).strokeOrder.foldl (fun s n =>
        s.modSpot i fun sp => sp.setValve n ((sp.valve n).beginTest (s.strokeOf n)))
      ((s.touchSpot i).modSpot i fun sp => { sp with state := .stroking, step := some (.stroking .vent false) })) =
      (s.touchSpot i).modSpot i (Spot.testTakenUp s.strokeOf s.fe) := by
    rw [beginTest_foldl, modSpot_modSpot, pursueSpotAll_eq, modSpot_modSpot]
    exact modSpot_congr rfl
  unfold enterStroking
  dsimp only
  rw [h, modSpot_spot_same]
  rfl

theorem Spot.testTakenUp_bare (stroke : ValveName → Timer) (fe : Bool) (sp : Spot) :
    (sp.testTakenUp stroke fe).bare = { sp.bare with state := .stroking, step := some (.stroking .vent false) } :=
  (pursueAll_bare _ _ _).trans (beginTest_bare _ _)

theorem Spot.testTakenUp_valve (stroke : ValveName → Timer) (fe : Bool) {sp : Spot} {n : ValveName} (h : n ∈ sp.strokeOrder) :
    (sp.testTakenUp stroke fe).valve n = ((sp.valve n).beginTest (stroke n)).pursue (stroke n) false := by
  have hval : ({ sp with state := .stroking, step := some (.stroking .vent false) } : Spot).valve n = sp.valve n := by cases n <;> rfl
  have hv : (({ sp with state := .stroking, step := some (.stroking .vent false) } : Spot).beginTest stroke).valve n =
      (sp.valve n).beginTest (stroke n) := by
    rw [beginTest_valve, hval]
    exact if_pos h
  unfold Spot.testTakenUp
  rw [pursueAll_valve, hv]
  unfold Spot.effective
  rw [hv, Valve.beginTest_command]
  rfl

/-- A valve that a test may take up: not in FAULT, or in FAULT and found SHUT (R150). -/
def Valve.testable (v : Valve) : Prop :=
  v.isFault = false ∨ (v.isFault = true ∧ v.shutLimit.active = true ∧ v.openLimit.active = false)

theorem Valve.beginTest_testable {stroke : Timer} {v : Valve} (h : v.testable) : (v.beginTest stroke).isFault = false := by
  rcases h with h | ⟨h, hs, ho⟩
  · rw [beginTest_sound h]
    exact h
  · rw [beginTest_shut h hs ho]
    rfl

/-- Where every valve under test may be taken up, the spot stands under test. -/
theorem enterStroking_testable {i : SpotNo} {s : State} (h : ∀ n ∈ (s.spot i).strokeOrder, ((s.spot i).valve n).testable) :
    enterStroking i s = (s.touchSpot i).modSpot i (Spot.testTakenUp s.strokeOf s.fe) := by
  have hnone : ((s.spot i).strokeOrder.find? fun n => (((s.spot i).testTakenUp s.strokeOf s.fe).valve n).isFault) = none := by
    refine List.find?_eq_none.mpr fun n hn => ?_
    rw [Spot.testTakenUp_valve _ _ hn, Valve.pursue_isFault, Valve.beginTest_testable (h n hn)]
    exact Bool.false_ne_true
  rw [enterStroking_eq, hnone]

/-- The vent valve of a spot under test that starts to open, retested where it stood in FAULT. -/
def Valve.testOpening (stroke : Timer) (v : Valve) : Valve :=
  { v with command := .toOpen, state := some .movingOpen, timer := stroke, retest := v.retest || v.isFault }

/-- A spot whose test has begun at its vent valve. -/
def Spot.testBegun (stroke : ValveName → Timer) (fe : Bool) (sp : Spot) : Spot :=
  (sp.testTakenUp stroke fe).setValve .vent (sp.vent.testOpening (stroke .vent))

theorem Spot.testBegun_bare (stroke : ValveName → Timer) (fe : Bool) (sp : Spot) :
    (sp.testBegun stroke fe).bare = { sp.bare with state := .stroking, step := some (.stroking .vent false) } :=
  (setValve_bare _ _ _).trans (testTakenUp_bare _ _ _)

theorem Spot.testBegun_command (stroke : ValveName → Timer) (fe : Bool) {sp : Spot} {n : ValveName} (h : n ∈ sp.strokeOrder)
    (hn : n ≠ .vent) : ((sp.testBegun stroke fe).valve n).command = .toShut := by
  unfold Spot.testBegun
  rw [setValve_valve, if_neg hn, testTakenUp_valve _ _ h, Valve.pursue_command, Valve.beginTest_command]

theorem Spot.mem_strokeOrder (sp : Spot) {n : ValveName} (h : n = .shutoff → sp.car = none) : n ∈ sp.strokeOrder := by
  unfold Spot.strokeOrder
  cases n
  case shutoff =>
    rw [h rfl]
    simp
  all_goals split <;> simp

/-- A vent valve found SHUT is taken up SHUT. -/
theorem Valve.takenUp_shut {stroke : Timer} {v : Valve}
    (h : v.isShut = true ∨ (v.isFault = true ∧ v.shutLimit.active = true ∧ v.openLimit.active = false)) :
    v.testable ∧ ((v.beginTest stroke).pursue stroke false).isShut = true ∧
      ((v.beginTest stroke).pursue stroke false).supervised = v.supervised ∧
      ((v.beginTest stroke).pursue stroke false).opening stroke = v.testOpening stroke := by
  rcases h with h | ⟨h, hs, ho⟩
  · have hst : v.state = some .shut := by simpa [Valve.isShut] using h
    have hf : v.isFault = false := by simp [Valve.isFault, hst]
    have hidle : ({ v with command := .toShut } : Valve).pursue stroke false = { v with command := .toShut } :=
      Valve.pursue_idle (.inl ⟨rfl, .inl h⟩)
    rw [beginTest_sound hf, hidle]
    refine ⟨.inl hf, h, rfl, ?_⟩
    simp [Valve.opening, Valve.testOpening, hf]
  · rw [beginTest_shut h hs ho, Valve.pursue_idle (.inl ⟨rfl, .inl rfl⟩)]
    refine ⟨.inr ⟨h, hs, ho⟩, rfl, rfl, ?_⟩
    simp [Valve.opening, Valve.testOpening, h]

/-- The whole of STROKE SPOT's work at a spot whose vent valve is found SHUT. -/
theorem stroke_begins {i : SpotNo} {s : State} (ho : (s.spot i).orders = []) (hfe : s.fe = true)
    (hsup : (s.spot i).vent.supervised = true)
    (hvent : (s.spot i).vent.isShut = true ∨ ((s.spot i).vent.isFault = true ∧ (s.spot i).vent.shutLimit.active = true ∧
      (s.spot i).vent.openLimit.active = false))
    (hrest : ∀ n, n ≠ .vent → ((s.spot i).valve n).isFault = false) :
    advanceSpot i (enterStroking i s) = (s.touchSpot i).modSpot i (Spot.testBegun s.strokeOf s.fe) := by
  obtain ⟨htest, hshut, hsame, hopening⟩ := Valve.takenUp_shut (stroke := s.strokeOf .vent) hvent
  have hall : ∀ n ∈ (s.spot i).strokeOrder, ((s.spot i).valve n).testable := fun n _ => by
    by_cases e : n = .vent
    · rw [e]
      exact htest
    · exact .inl (hrest n e)
  obtain ⟨u, hu⟩ : ∃ u, u = (s.touchSpot i).modSpot i (Spot.testTakenUp s.strokeOf s.fe) := ⟨_, rfl⟩
  have hui : u.spot i = (s.spot i).testTakenUp s.strokeOf s.fe := by
    rw [hu, modSpot_spot_same]
    rfl
  have hbare := Spot.testTakenUp_bare s.strokeOf s.fe (s.spot i)
  have hst : (u.spot i).state = .stroking := by
    rw [hui]
    exact congrArg Spot.state hbare
  have hstep : (u.spot i).step = some (.stroking .vent false) := by
    rw [hui]
    exact congrArg Spot.step hbare
  have horders : (u.spot i).orders = [] := by
    rw [hui]
    exact (congrArg Spot.orders hbare).trans ho
  have hv : (u.spot i).valve .vent = ((s.spot i).vent.beginTest (s.strokeOf .vent)).pursue (s.strokeOf .vent) false := by
    rw [hui]
    exact Spot.testTakenUp_valve _ _ (Spot.mem_strokeOrder _ nofun)
  have hopen : onStrokeOpen i u = u := by
    rw [onStrokeOpen_at hst hstep, if_neg]
    rw [hv]
    intro hopen
    rw [Valve.isShut, beq_iff_eq] at hshut
    rw [Valve.isOpen, hshut] at hopen
    cases hopen
  rw [enterStroking_testable hall, ← hu, advanceSpot_stroking hst horders, hopen, onStrokeShut_opening hst hstep,
    strokeTurn_opens hst hstep (by rw [hv, hsame]; exact hsup) (by rw [hv]; exact hshut) (by rw [hu]; exact hfe), hu, modSpot_modSpot]
  refine modSpot_congr ?_
  unfold Spot.testBegun
  refine congrArg (Spot.setValve .vent · _) ?_
  have hvent' : ((s.spot i).testTakenUp s.strokeOf s.fe).valve .vent = _ :=
    Spot.testTakenUp_valve _ _ (Spot.mem_strokeOrder _ nofun)
  exact (congrArg (Valve.opening (s.strokeOf .vent)) hvent').trans hopening

/-! ## STROKE SPOT -/

section StrokeSpot

variable {place : Byte} {s : State} {i : SpotNo} (hn : s.namedSpot place = .ok i)

include hn

theorem answerStrokeSpot_notOperating (h : s.siding ≠ .operating) : answerStrokeSpot place s = (s, .bare .notOperating) := by
  unfold answerStrokeSpot
  rw [withSpot_ok _ hn]
  exact if_pos h

variable (h1 : s.siding = .operating)

include h1

theorem answerStrokeSpot_fieldOff (h : s.fe = false) : answerStrokeSpot place s = (s, .bare .fieldOff) := by
  unfold answerStrokeSpot
  rw [withSpot_ok _ hn]
  simp only [h1, h, ne_eq, not_true_eq_false, if_false, Bool.not_false, if_true]

variable (h2 : s.fe = true)

include h2

theorem answerStrokeSpot_named : answerStrokeSpot place s =
    if !(s.spot i).state.quiet then (s, .bare .state)
    else if (s.spot i).hose.active then (s, .bare .hosePressure)
    else if (s.spot i).car.isSome && (s.spot i).shutoff.isFault then (s, .bare .occupied)
    else (advanceSpot i (enterStroking i s), .okBare) := by
  unfold answerStrokeSpot
  rw [withSpot_ok _ hn]
  simp only [h1, h2, ne_eq, not_true_eq_false, if_false, Bool.not_true, Bool.false_eq_true]

theorem answerStrokeSpot_state (h : (s.spot i).state.quiet = false) : answerStrokeSpot place s = (s, .bare .state) := by
  rw [answerStrokeSpot_named hn h1 h2, if_pos (by simp [h])]

variable (h3 : (s.spot i).state.quiet = true)

include h3

theorem answerStrokeSpot_hosePressure (h : (s.spot i).hose.active = true) : answerStrokeSpot place s = (s, .bare .hosePressure) := by
  rw [answerStrokeSpot_named hn h1 h2, if_neg (by simp [h3]), if_pos h]

variable (h4 : (s.spot i).hose.active = false)

include h4

theorem answerStrokeSpot_occupied (hc : (s.spot i).car ≠ none) (h : (s.spot i).shutoff.isFault = true) :
    answerStrokeSpot place s = (s, .bare .occupied) := by
  have hsome : (s.spot i).car.isSome = true := Option.isSome_iff_ne_none.mpr hc
  rw [answerStrokeSpot_named hn h1 h2, if_neg (by simp [h3]), if_neg (by simp [h4]), if_pos (by simp [hsome, h])]

theorem answerStrokeSpot_done (h : (s.spot i).shutoff.isFault = false) :
    answerStrokeSpot place s = (advanceSpot i (enterStroking i s), .okBare) := by
  rw [answerStrokeSpot_named hn h1 h2, if_neg (by simp [h3]), if_neg (by simp [h4]), if_neg (by simp [h])]

end StrokeSpot

theorem SpotState.quiet_iff (st : SpotState) : st.quiet = true ↔ st = .vacant ∨ st = .spotted ∨ st = .faulted := by
  cases st <;> simp [SpotState.quiet]

/-- Settles O31: the checks in order; the accepted request begins the test at its spot alone. -/
theorem strokeSpotBeginsTheTest : Obligations.StrokeSpotBeginsTheTest := by
  intro s via place i ht hn
  have hname {u : State} (hu : u.frame = s.frame) : u.namedSpot place = .ok i := (namedSpot_of_frame hu _).trans hn
  refine ⟨fun h => ?_, fun h1 h => ?_, fun h1 h2 => ⟨fun h => ?_, fun h3 => ?_⟩⟩
  · exact refuses_of (c := .strokeSpot via place) ht rfl fun u hu => answerStrokeSpot_notOperating (hname hu) (by rwa [siding_of_frame hu])
  · exact refuses_of (c := .strokeSpot via place) ht rfl fun u hu =>
      answerStrokeSpot_fieldOff (hname hu) ((siding_of_frame hu).trans h1) ((fe_of_frame hu).trans h)
  · refine refuses_of (c := .strokeSpot via place) ht rfl fun u hu =>
      answerStrokeSpot_state (hname hu) ((siding_of_frame hu).trans h1) ((fe_of_frame hu).trans h2) ?_
    rw [spot_of_frame hu, Bool.eq_false_iff]
    exact fun e => h ((SpotState.quiet_iff _).mp e)
  · have h3 := (SpotState.quiet_iff _).mpr h3
    have hq {u : State} (hu : u.frame = s.frame) : (u.spot i).state.quiet = true := by rwa [spot_of_frame hu]
    refine ⟨fun h => ?_, fun h4 hc h => ?_, fun h4 hsup hvent hs hl hv hlegal => ?_⟩
    · exact refuses_of (c := .strokeSpot via place) ht rfl fun u hu =>
        answerStrokeSpot_hosePressure (hname hu) ((siding_of_frame hu).trans h1) ((fe_of_frame hu).trans h2) (hq hu)
          (by rwa [spot_of_frame hu])
    · exact refuses_of (c := .strokeSpot via place) ht rfl fun u hu =>
        answerStrokeSpot_occupied (hname hu) ((siding_of_frame hu).trans h1) ((fe_of_frame hu).trans h2) (hq hu)
          (by rwa [spot_of_frame hu]) (by rwa [spot_of_frame hu]) (by rwa [spot_of_frame hu])
    · obtain ⟨v, t, hf, ha, hframe, hch, -⟩ := answers_event (c := .strokeSpot via place) (s := s) ht rfl fun v hv =>
        answerStrokeSpot_done (hname hv) ((siding_of_frame hv).trans h1) ((fe_of_frame hv).trans h2) (hq hv)
          (by rwa [spot_of_frame hv]) (by rwa [spot_of_frame hv])
      have hbegin : advanceSpot i (enterStroking i v) = (v.touchSpot i).modSpot i (Spot.testBegun v.strokeOf v.fe) := by
        have hvi := spot_of_frame hf.frame (i := i)
        refine stroke_begins (by rw [hvi]; exact hlegal.orders_nil h3) ((fe_of_frame hf.frame).trans h2) (by rwa [hvi]) (by rwa [hvi])
          fun n hn => ?_
        rw [hvi]
        cases n
        · exact hs
        · exact hl
        · exact hv
        · exact absurd rfl hn
      have hone := hframe.trans (oneSpot_event hf.frame hf.scratch (.inr hbegin))
      have hti := spot_of_oneSpot hone
      have hbare := Spot.testBegun_bare v.strokeOf v.fe (s.spot i)
      have hcmd (n : ValveName) (hnv : n ≠ .vent) (hmem : n = .shutoff → (s.spot i).car = none) :
          ((t.spot i).valve n).command = .toShut := by
        rw [hti]
        exact Spot.testBegun_command _ _ (Spot.mem_strokeOrder _ hmem) hnv
      refine ⟨t, ha, ?_, ?_, ?_, ?_, ?_, hcmd .liquid nofun nofun, hcmd .vapour nofun nofun, fun hc => hcmd .shutoff nofun fun _ => hc,
        ?_, by rw [hti]; exact hone⟩
      · rw [hti]
        exact congrArg Spot.state hbare
      · rw [hti]
        exact congrArg Spot.step hbare
      · rw [hti]
        have hfault := congrArg Spot.fault hbare
        exact hfault
      · rw [hti]
        have hcar := congrArg Spot.car hbare
        exact hcar
      · rw [hti, ← strokeOf_of_frame hf.frame]
        rfl
      · rw [hch, hbegin]
        exact spotFlag_of_touched (touchSpot_flag i v)

end Sys2Proof.Machine
end

section
/-! PROOFS. One compressor changed in an event (R122, R143), and CLEAR COMPRESSOR (R137). -/

namespace Sys2Proof.Machine

/-! ## One compressor's record changed twice -/

theorem modComp_modComp (c : CompNo) (f g : Comp → Comp) (s : State) :
    (s.modComp c f).modComp c g = s.modComp c fun k => g (f k) := by
  simp [State.modComp]

theorem modComp_congr {c : CompNo} {f g : Comp → Comp} {s : State} (h : f (s.comp c) = g (s.comp c)) :
    s.modComp c f = s.modComp c g := by
  have h' : f s.comps[c] = g s.comps[c] := h
  unfold State.modComp
  rw [h']

theorem modComp_self {c : CompNo} {f : Comp → Comp} {s : State} (h : f (s.comp c) = s.comp c) : s.modComp c f = s := by
  have h' : f s.comps[c] = s.comps[c] := h
  unfold State.modComp
  rw [h']
  simp

/-- What a compressor's direction valves and their marks do not decide. -/
def Comp.bare (k : Comp) : Comp := { k with push := .reset, draw := .reset, pushMark := none, drawMark := none }

theorem Comp.putValve_bare (d : Direction) (v : Valve) (k : Comp) : (k.putValve d v).bare = k.bare := by
  unfold Comp.putValve
  dsimp only
  cases d <;> dsimp only <;> repeat' split
  all_goals rfl

/-- Both direction valves of a compressor moved toward their effective positions (R143). -/
def Comp.pursueAll (stroke : Timer) (fe : Bool) (k : Comp) : Comp :=
  let k1 := k.putValve .push ((k.valve .push).pursue stroke (k.effective fe .push))
  k1.putValve .draw ((k1.valve .draw).pursue stroke (k1.effective fe .draw))

theorem pursueDirAll_eq (c : CompNo) (s : State) : pursueDirAll c s = s.modComp c (Comp.pursueAll s.strokeOfDirection s.fe) := by
  unfold pursueDirAll pursueDir
  rw [modComp_modComp]
  rfl

theorem Comp.pursueAll_bare (stroke : Timer) (fe : Bool) (k : Comp) : (k.pursueAll stroke fe).bare = k.bare :=
  (putValve_bare _ _ _).trans (putValve_bare _ _ _)

/-! ## One compressor changed in an event -/

theorem comp_of_frame {s u : State} (h : u.frame = s.frame) (c : CompNo) : u.comp c = s.comp c :=
  congrArg (fun x : Frame => x.comps[c]) h

/-- An event that changes one compressor and no car record, and at which no order leaves. -/
theorem oneComp_event {s v w : State} {c : CompNo} {f : Comp → Comp} (hv : v.frame = s.frame) (hx : v.scratch = .empty)
    (hw : w = v.modComp c f ∨ w = (v.touchComp c).modComp c f) :
    (closeEvent v w).frame = { s.frame with comps := s.comps.set c (f (s.comp c)) } := by
  have hcomps : v.comps = s.comps := congrArg Frame.comps hv
  have hd : w.scratch.departed = [] := by
    rcases hw with rfl | rfl <;> exact congrArg Scratch.departed hx
  have ht : w.scratch.touched = 0 := by
    rcases hw with rfl | rfl <;> exact congrArg Scratch.touched hx
  have hwf : w.frame = { v.frame with comps := v.comps.set c (f (v.comp c)) } := by rcases hw with rfl | rfl <;> rfl
  rw [closeEvent_frame_quiet v w hd ht, hwf, hv, hcomps, comp_of_frame hv]

theorem comp_of_oneComp {s t : State} {c : CompNo} {k : Comp} (h : t.frame = { s.frame with comps := s.comps.set c k }) :
    t.comp c = k := by
  have ht : t.comps = s.comps.set c k := congrArg Frame.comps h
  unfold State.comp
  rw [ht]
  exact Vector.getElem_set_self c.isLt

/-- A compressor of which READ COMPRESSOR reports something else at the end of an event has its flag set. -/
theorem compFlag_of_view {α : Type} {b w : State} {c : CompNo} (p : CompView → α) (h : p (b.compView c) ≠ p (w.compView c)) :
    (closeEvent b w).changes.comps.getLsbD c = true := by
  have hv : b.compView c ≠ w.compView c := fun e => h (congrArg p e)
  rw [closeEvent_compFlag]
  simp [hv]

/-- A change of one compressor leaves no head waiting where none waited. -/
theorem waitsNowhere_modComp {s : State} (c : CompNo) (f : Comp → Comp) (h : s.waitsNowhere) : (s.modComp c f).waitsNowhere := h

/-! ## CLEAR COMPRESSOR -/

theorem answerClearCompressor_state {b : Byte} {c : CompNo} {s : State} (hn : s.namedComp b = .ok c)
    (h : (s.comp c).state ≠ .faulted ∨ (s.comp c).faultInput.active = true ∨ (s.comp c).push.isFault = true ∨
      (s.comp c).draw.isFault = true) : answerClearCompressor b s = (s, .bare .state) := by
  unfold answerClearCompressor
  rw [withComp_ok _ hn]
  exact if_pos h

/-- A compressor cleared of its fault (R137). -/
def Comp.cleared (stroke : Timer) (fe : Bool) (k : Comp) : Comp := { k with state := .stopped, dir := none }.pursueAll stroke fe

theorem answerClearCompressor_done {b : Byte} {c : CompNo} {s : State} (hn : s.namedComp b = .ok c)
    (h : ¬ ((s.comp c).state ≠ .faulted ∨ (s.comp c).faultInput.active = true ∨ (s.comp c).push.isFault = true ∨
      (s.comp c).draw.isFault = true)) :
    answerClearCompressor b s = (settle (s.modComp c (Comp.cleared s.strokeOfDirection s.fe)), .okBare) := by
  have hw : pursueDirAll c (s.modComp c fun k => { k with state := .stopped, dir := none }) =
      s.modComp c (Comp.cleared s.strokeOfDirection s.fe) := (pursueDirAll_eq c _).trans (modComp_modComp c _ _ s)
  unfold answerClearCompressor
  rw [withComp_ok _ hn]
  exact (if_neg h).trans (by rw [hw])

theorem Comp.cleared_bare (stroke : Timer) (fe : Bool) (k : Comp) :
    (k.cleared stroke fe).bare = { k.bare with state := .stopped, dir := none } := pursueAll_bare _ _ _

/-- Settles O41: refused unless FAULTED without a cause; accepted, the compressor stops and nothing else changes. -/
theorem clearCompressorStops : Obligations.ClearCompressorStops := by
  intro s via b c ht hn
  have hname {u : State} (hu : u.frame = s.frame) : u.namedComp b = .ok c := (namedComp_of_frame hu _).trans hn
  refine ⟨fun h => ?_, fun h1 h2 h3 h4 => ?_⟩
  · exact refuses_of (c := .clearCompressor via b) ht rfl fun u hu =>
      answerClearCompressor_state (hname hu) (by rwa [comp_of_frame hu])
  · have hno : ¬ ((s.comp c).state ≠ .faulted ∨ (s.comp c).faultInput.active = true ∨ (s.comp c).push.isFault = true ∨
        (s.comp c).draw.isFault = true) := by simp [h1, h2, h3, h4]
    obtain ⟨v, t, hv, ha, hframe, hch, -⟩ := answers_event (c := .clearCompressor via b) (s := s) ht rfl fun v hv =>
      answerClearCompressor_done (hname hv) (by rwa [comp_of_frame hv])
    refine ⟨t, ha, ((Kept.modComp c _ v).trans (kept_settle _)).sameStore hv.frame hframe, fun hq => ?_⟩
    rw [settle_quietly (waitsNowhere_modComp c _ (waitsNowhere_of_frame hv.frame hq))] at hframe hch
    have hone := hframe.trans (oneComp_event hv.frame hv.scratch (.inl rfl))
    have htc := comp_of_oneComp hone
    have hbare := Comp.cleared_bare v.strokeOfDirection v.fe (s.comp c)
    have hfault := congrArg Comp.fault hbare
    have hstate := congrArg Comp.state hbare
    refine ⟨by rw [htc]; exact hstate, by rw [htc]; exact congrArg Comp.dir hbare, by rw [htc]; exact hfault, ?_,
      by rw [htc]; exact hone⟩
    rw [hch]
    refine compFlag_of_view CompView.state ?_
    show (v.comp c).state ≠ ((v.modComp c _).comp c).state
    rw [modComp_comp_same, comp_of_frame hv.frame, h1]
    exact fun e => CompState.noConfusion (e.trans hstate)

end Sys2Proof.Machine
end

section
/-! PROOFS. A spot that enters ISOLATING (R41, R43, R160): what it keeps, what it loses, and what the arrivals of the same event leave
of that. -/

namespace Sys2Proof.Machine

/-! ## Every valve told to shut -/

/-- A valve commanded SHUT (R143, R144). -/
def Valve.toldShut (stroke : Timer) (v : Valve) : Valve := { v with command := .toShut }.pursue stroke false

theorem Valve.toldShut_command (stroke : Timer) (v : Valve) : (v.toldShut stroke).command = .toShut := Valve.pursue_command _ _ _

/-- Every valve of a spot commanded SHUT. -/
def Spot.shutValves (stroke : ValveName → Timer) (sp : Spot) : Spot :=
  { sp with
    shutoff := sp.shutoff.toldShut (stroke .shutoff), liquid := sp.liquid.toldShut (stroke .liquid)
    vapour := sp.vapour.toldShut (stroke .vapour), vent := sp.vent.toldShut (stroke .vent) }

theorem Spot.shutValves_bare (stroke : ValveName → Timer) (sp : Spot) : (sp.shutValves stroke).bare = sp.bare := rfl

theorem Spot.shutValves_valve (stroke : ValveName → Timer) (sp : Spot) (n : ValveName) :
    (sp.shutValves stroke).valve n = (sp.valve n).toldShut (stroke n) := by cases n <;> rfl

theorem commandSpot_toShut (i : SpotNo) (n : ValveName) (s : State) :
    commandSpot i n .toShut s = s.modSpot i fun sp => sp.setValve n ((sp.valve n).toldShut (s.strokeOf n)) := commandSpot_eq i n _ s

theorem shutAll_eq (i : SpotNo) (s : State) : shutAll i s = s.modSpot i (Spot.shutValves s.strokeOf) := by
  unfold shutAll shutLines
  rw [commandSpot_toShut, commandSpot_toShut, commandSpot_toShut, commandSpot_toShut, modSpot_modSpot, modSpot_modSpot, modSpot_modSpot]
  rfl

/-! ## The seat and the grant-queue entry go -/

theorem releaseSeat_spot (i : SpotNo) (s : State) : (releaseSeat i s).spot i = { s.spot i with seat := none } := by
  cases h : (s.spot i).seat with
  | none =>
    rw [releaseSeat_unseated h]
    exact (congrArg (fun x => ({ s.spot i with seat := x } : Spot)) h).symm ▸ rfl
  | some c => rw [releaseSeat_seated h, spot_of_spots (spots_compOnEmpty _ _), unseat_spot]

theorem leaveCompressors_unseats (i : SpotNo) (s : State) : (leaveCompressors i s).spot i = { s.spot i with seat := none } := by
  unfold leaveCompressors
  rw [spot_of_spots (spots_dropGrant _ _), releaseSeat_spot]

theorem leaveCompressors_ungrants (i : SpotNo) (s : State) : ∀ g ∈ (leaveCompressors i s).grants, g.spot ≠ i := by
  rw [grants_leaveCompressors]
  exact fun g hg => of_decide_eq_true (List.mem_filter.mp hg).2

/-! ## Entry to ISOLATING -/

/-- A spot that enters ISOLATING with the orders `q` left in its queue (R41). -/
def Spot.entersIsolating (fe : Bool) (fault : Option SpotFault) (q : List Order) (sp : Spot) : Spot :=
  { sp.stopMeter with
    state := .isolating, holds := .empty, step := some .linesClosing, standing := !fe, orders := q, seat := none
    timer := .stopped, recoveryTimer := .stopped
    fault := match fault with
      | some f => some f
      | none => sp.fault }

theorem strokeOf_of_fixed {s t : State} (h : t.fixed = s.fixed) : t.strokeOf = s.strokeOf := by
  have hp : t.profile = s.profile := congrArg Fixed.profile h
  funext n
  unfold State.strokeOf
  rw [hp]

theorem enterIsolating_spot (a b : EndReason) (f : Option SpotFault) (i : SpotNo) (s : State) :
    ∃ q, QueueEnded (s.spot i) q ∧
      (enterIsolating a b f i s).spot i = ((s.spot i).entersIsolating s.fe f q).shutValves s.strokeOf := by
  obtain ⟨q, e, hq⟩ := endQueue_spot a b i s
  refine ⟨q, hq, ?_⟩
  obtain ⟨u, hu⟩ : ∃ u, u = leaveCompressors i (endQueue a b i s) := ⟨_, rfl⟩
  have hstroke : u.strokeOf = s.strokeOf :=
    hu ▸ strokeOf_of_fixed ((spotWork_endQueue i s a b).kept.trans (spotWork_leaveCompressors i _).kept).fixed
  have hui : u.spot i = { s.spot i with orders := q, seat := none } := by rw [hu, leaveCompressors_unseats, e]
  unfold enterIsolating
  dsimp only
  rw [← hu, shutAll_eq, modSpot_spot_same, modSpot_spot_same, touchSpot_spot, hui]
  exact congrArg (fun stroke => Spot.shutValves stroke _) hstroke

theorem enterIsolating_touches (a b : EndReason) (f : Option SpotFault) (i : SpotNo) (s : State) :
    (enterIsolating a b f i s).scratch.spots.getLsbD i = true := by
  unfold enterIsolating
  dsimp only
  exact (((Kept.modSpot i _ _).trans (spotWork_shutAll i _).kept)).spots i (touchSpot_flag i _)

theorem enterIsolating_ungrants (a b : EndReason) (f : Option SpotFault) (i : SpotNo) (s : State) :
    ∀ g ∈ (enterIsolating a b f i s).grants, g.spot ≠ i := by
  unfold enterIsolating
  dsimp only
  have h := leaveCompressors_ungrants i (endQueue a b i s)
  revert h
  generalize leaveCompressors i (endQueue a b i s) = u
  exact id

/-! ## What stands at the end of the event -/

/-- The filtered inputs of a spot. -/
def Spot.inputs (sp : Spot) : List Filter :=
  [sp.bond, sp.hose, sp.residual, sp.connectedButton, sp.stopButton, sp.clearButton]

/-- A spot that has entered ISOLATING at this event, out of the spot `a`, but for its step, its vent valve and its timer. -/
structure Spot.Leaving (sp : Spot) (fe : Bool) (fault : Option SpotFault) (a : Spot) : Prop where
  state : sp.state = .isolating
  standing : sp.standing = !fe
  holds : sp.holds = .empty
  seat : sp.seat = none
  recoveryTimer : sp.recoveryTimer = .stopped
  stall : sp.stall = .stopped
  window : sp.window = .stopped
  car : sp.car = a.car
  inputs : sp.inputs = a.inputs
  shutoff : sp.shutoff.command = .toShut
  liquid : sp.liquid.command = .toShut
  vapour : sp.vapour.command = .toShut
  orders : ∀ o ∈ sp.orders, o.state = .draining
  fault : sp.fault = fault.or a.fault

/-- How far the isolation has come at the event of its entry (R43, R147). -/
def Spot.leavesFrom (sp : Spot) : Prop :=
  (sp.step = some .linesClosing ∧ sp.vent.command = .toShut ∧ sp.timer = .stopped) ∨
    (sp.step ≠ some .linesClosing ∧ sp.linesShut = true)

theorem Spot.Leaving.move {fe : Bool} {f : Option SpotFault} {a sp : Spot} (h : sp.Leaving fe f a) (step : Option SpotStep)
    (vent : Valve) (timer : Timer) : Spot.Leaving { sp with step, vent, timer } fe f a :=
  ⟨h.state, h.standing, h.holds, h.seat, h.recoveryTimer, h.stall, h.window, h.car, h.inputs, h.shutoff, h.liquid, h.vapour, h.orders,
    h.fault⟩

theorem QueueEnded.draining {sp : Spot} {q : List Order} (h : QueueEnded sp q) : ∀ o ∈ q, o.state = .draining := by
  rcases h.formed.2 with rfl | ⟨o, rfl, ho⟩
  · simp
  · simpa using ho

theorem Spot.entersIsolating_leaving {stroke : ValveName → Timer} {fe : Bool} {f : Option SpotFault} {q : List Order} {sp : Spot}
    (hq : ∀ o ∈ q, o.state = .draining) :
    Spot.Leaving ((sp.entersIsolating fe f q).shutValves stroke) fe f sp where
  state := rfl
  standing := rfl
  holds := rfl
  seat := rfl
  recoveryTimer := rfl
  stall := rfl
  window := rfl
  car := rfl
  inputs := rfl
  shutoff := Valve.toldShut_command _ _
  liquid := Valve.toldShut_command _ _
  vapour := Valve.toldShut_command _ _
  orders := hq
  fault := by cases f <;> rfl

/-- In ISOLATING a drained head leaves its queue and nothing follows (R72). -/
theorem onDrained_leaving {fe : Bool} {f : Option SpotFault} {a : Spot} {i : SpotNo} {s : State} (h : (s.spot i).Leaving fe f a) :
    ((onDrained i s).spot i).Leaving fe f a ∧ ((onDrained i s).spot i).step = (s.spot i).step ∧
      ((onDrained i s).spot i).vent = (s.spot i).vent ∧ ((onDrained i s).spot i).timer = (s.spot i).timer := by
  rcases onDrained_cases i s with ⟨e, -⟩ | ⟨o, -, e⟩ <;> rw [e]
  · exact ⟨h, rfl, rfl, rfl⟩
  obtain ⟨u, hu⟩ : ∃ u, u = depart i o (leaveCompressors i (commandSpot i .vapour .toShut s)) := ⟨_, rfl⟩
  have hui : u.spot i = { s.spot i with
      vapour := (s.spot i).vapour.toldShut (s.strokeOf .vapour), seat := none
      orders := (s.spot i).orders.filter fun p => p.tag ≠ o.tag } := by
    rw [hu, depart_spot, leaveCompressors_unseats, commandSpot_toShut, modSpot_spot_same]
    rfl
  have hst : (u.spot i).state = .isolating := by
    rw [hui]
    exact h.state
  have hgone : ∀ b, headGone i b u = u := fun b => by
    unfold headGone nextHead
    rw [if_neg (by simp [hst])]
    dsimp only
    rw [hst]
  rw [← hu, hgone, hui]
  exact ⟨⟨h.state, h.standing, h.holds, rfl, h.recoveryTimer, h.stall, h.window, h.car, h.inputs, h.shutoff, h.liquid,
    Valve.toldShut_command _ _, fun p hp => h.orders p (List.mem_of_mem_filter hp), h.fault⟩, rfl, rfl, rfl⟩

/-- The arrivals of the event at which a spot enters ISOLATING. -/
theorem advanceSpot_leaving {fe : Bool} {f : Option SpotFault} {a : Spot} {i : SpotNo} {s : State} (h : (s.spot i).Leaving fe f a)
    (hstep : (s.spot i).step = some .linesClosing) (hvent : (s.spot i).vent.command = .toShut) (htimer : (s.spot i).timer = .stopped) :
    ((advanceSpot i s).spot i).Leaving fe f a ∧ ((advanceSpot i s).spot i).leavesFrom := by
  obtain ⟨hu, e1, e2, e3⟩ := onDrained_leaving h
  have hst := h.state
  unfold advanceSpot
  rw [onShutoffOpen_off (by rw [hst]; exact nofun), onLiquidOpen_off (by rw [hst]; exact nofun)]
  obtain ⟨u, eu⟩ : ∃ u, u = onDrained i s := ⟨_, rfl⟩
  rw [← eu] at hu e1 e2 e3 ⊢
  rw [onResumed_off (by rw [hu.state]; exact nofun)]
  have lines : ((onLinesShut i u).spot i).Leaving fe f a ∧
      ((((onLinesShut i u).spot i).step = some .linesClosing ∧ ((onLinesShut i u).spot i).vent.command = .toShut ∧
          ((onLinesShut i u).spot i).timer = .stopped) ∨
        (((onLinesShut i u).spot i).step = some .ventOpening ∧ ((onLinesShut i u).spot i).linesShut = true)) := by
    rcases onLinesShut_cases i u with ⟨e, -⟩ | ⟨-, hl, v, e⟩ <;> rw [e]
    · exact ⟨hu, .inl ⟨e1.trans hstep, by rw [e2]; exact hvent, e3.trans htimer⟩⟩
    · exact ⟨hu.move _ v _, .inr ⟨rfl, hl⟩⟩
  obtain ⟨w, ew⟩ : ∃ w, w = onLinesShut i u := ⟨_, rfl⟩
  rw [← ew] at lines ⊢
  have opens : ((onVentOpen i w).spot i).Leaving fe f a ∧ ((onVentOpen i w).spot i).leavesFrom ∧
      ((onVentOpen i w).spot i).step ≠ some .ventClosing := by
    rcases onVentOpen_cases i w with ⟨e, -⟩ | ⟨-, hp, t, e⟩ <;> rw [e]
    · refine ⟨lines.1, lines.2.imp id fun ⟨hp, hl⟩ => ⟨by rw [hp]; exact nofun, hl⟩, ?_⟩
      rcases lines.2 with ⟨hp, -⟩ | ⟨hp, -⟩ <;> rw [hp] <;> exact nofun
    · have hl : (w.spot i).linesShut = true := by
        rcases lines.2 with ⟨hp', -⟩ | ⟨-, hl⟩
        · rw [hp] at hp'
          cases hp'
        · exact hl
      exact ⟨lines.1.move _ _ t, .inr ⟨nofun, hl⟩, nofun⟩
  rw [onVentShut_step opens.2.2, onStrokeOpen_off (by rw [opens.1.state]; exact nofun),
    onStrokeShut_off (by rw [opens.1.state]; exact nofun), onStrokeTurn_off (by rw [opens.1.state]; exact nofun)]
  exact ⟨opens.1, opens.2.1⟩

/-- The work of an isolation as its event leaves it (R41): the spot, the grant queue and the spot's flag. -/
structure IsolationWork (fe : Bool) (f : Option SpotFault) (i : SpotNo) (v w : State) : Prop where
  work : SpotWork i v w
  leaving : (w.spot i).Leaving fe f (v.spot i)
  step : (w.spot i).leavesFrom
  ungranted : ∀ g ∈ w.grants, g.spot ≠ i
  flag : w.scratch.spots.getLsbD i = true

theorem isolationWork (a b : EndReason) (f : Option SpotFault) (i : SpotNo) (s : State) :
    IsolationWork s.fe f i s (advanceSpot i (enterIsolating a b f i s)) := by
  obtain ⟨q, hq, e⟩ := enterIsolating_spot a b f i s
  have hadv := spotWork_advanceSpot i (enterIsolating a b f i s)
  have h : ((enterIsolating a b f i s).spot i).Leaving s.fe f (s.spot i) := by
    rw [e]
    exact Spot.entersIsolating_leaving hq.draining
  obtain ⟨hl, hs⟩ := advanceSpot_leaving h (by rw [e]; rfl) (by rw [e]; exact Valve.toldShut_command _ _) (by rw [e]; rfl)
  exact ⟨(spotWork_enterIsolating i s a b f).trans hadv, hl, hs,
    fun g hg => enterIsolating_ungrants a b f i s g (hadv.grants g hg), hadv.kept.spots i (enterIsolating_touches a b f i s)⟩

/-- What an isolated spot shows after the arbiter's scan. -/
theorem IsolationWork.settled {fe : Bool} {f : Option SpotFault} {i : SpotNo} {v w : State} (h : IsolationWork fe f i v w) :
    (settle w).spot i = w.spot i :=
  settle_quiet w i (Spot.not_waits (by rw [h.leaving.state]; exact nofun)) h.ungranted

/-- The event of an isolation that begins, after other work of the spot, in `u`. -/
theorem IsolationWork.event {fe : Bool} {f : Option SpotFault} {i : SpotNo} {s v u w t : State} (hu : SpotWork i v u)
    (h : IsolationWork fe f i u w) (hv : v.frame = s.frame) (hx : v.scratch = .empty)
    (ht : t.frame = (closeEvent v (settle w)).frame) (hch : t.changes = (closeEvent v (settle w)).changes) :
    (t.spot i).Leaving fe f (u.spot i) ∧ (t.spot i).leavesFrom ∧ t.changes.spots.getLsbD i = true ∧ s.sameStore t ∧
      (s.waitsNowhereBut i → s.onlyAt t i) := by
  have hti : t.spot i = w.spot i := by
    rw [spot_of_frame ht, ← h.settled]
    exact closeEvent_spot v _ i
  have hwork := hu.trans h.work
  rw [hti]
  refine ⟨h.leaving, h.step, ?_, (hwork.kept.trans (kept_settle w)).sameStore hv ht, fun hw => ?_⟩
  · rw [hch]
    exact spotFlag_of_touched ((kept_settle w).spots i h.flag)
  · rw [hwork.settles (waitsNowhereBut_of_frame hv hw) (Spot.not_waits (by rw [h.leaving.state]; exact nofun)) h.ungranted] at ht
    exact hwork.onlyAt hv hx ht

end Sys2Proof.Machine
end

section
/-! PROOFS. ISOLATE and ISOLATE ALL (R42, R51). -/

namespace Sys2Proof.Machine

/-! ## The lamp -/

/-- A spot that enters a flashing state at an event has its HALT lamp's flash lit (R51). -/
theorem closeEvent_lit {b w : State} {i : SpotNo} (h : (b.spot i).state ≠ (w.spot i).state) (hf : (w.spot i).state.flashes = true) :
    ((closeEvent b w).flash i).lit = true := by
  obtain ⟨x, y, h1⟩ := eachLastEnd_rest b w.refreshInlets
  obtain ⟨x2, c2, h2⟩ := bumpRevisions_rest { w.refreshInlets with cars := x, scratch := y }
  have hflash : (closeEvent b w).flash i = ((w.refreshInlets.flashes)[i]).follow (b.spot i).state (w.spot i).state := by
    unfold closeEvent
    rw [h1, h2]
    exact Vector.getElem_ofFn _
  rw [hflash]
  unfold Flash.follow
  rw [if_pos hf, if_neg h]

theorem fitted_of_namedSpot {s : State} {b : Byte} {i : SpotNo} (h : s.namedSpot b = .ok i) : s.fittedSpot i = true := by
  unfold State.namedSpot at h
  split at h
  · cases h
  · split at h
    · cases h
    next j _ =>
      split at h
      next hf =>
        cases h
        exact hf
      · cases h

theorem fittedSpot_of_profile {s t : State} (h : t.profile = s.profile) (i : SpotNo) : t.fittedSpot i = s.fittedSpot i := by
  unfold State.fittedSpot State.site
  rw [h]

/-- An isolating spot's lamp at the event of its entry. -/
theorem haltLamp_isolating {s t : State} {i : SpotNo} (hfit : s.fittedSpot i = true) (hp : t.profile = s.profile)
    (hst : (t.spot i).state = .isolating) (hl : (t.flash i).lit = true) : t.haltLamp i = true := by
  unfold State.haltLamp
  rw [fittedSpot_of_profile hp, hfit, hst]
  exact hl

/-! ## ISOLATE -/

/-- The last fault that ISOLATE leaves: proving fails with STOPPED (R32, R42). -/
def Spot.isolateFault (sp : Spot) : Option SpotFault := if sp.state = .proving then some .stopped else none

theorem isolateSpot_work (i : SpotNo) (s : State) : IsolationWork s.fe (s.spot i).isolateFault i s (isolateSpot i s) := by
  unfold isolateSpot Spot.isolateFault
  split
  · exact isolationWork .stopped .stopped (some .stopped) i s
  · exact isolationWork .stopped .stopped none i s

theorem answerIsolate_state {place : Byte} {i : SpotNo} {s : State} (hn : s.namedSpot place = .ok i)
    (h : (s.spot i).state.isolable = false) : answerIsolate place s = (s, .bare .state) := by
  unfold answerIsolate
  rw [withSpot_ok _ hn]
  exact if_neg (by simp [h])

theorem answerIsolate_done {place : Byte} {i : SpotNo} {s : State} (hn : s.namedSpot place = .ok i)
    (h : (s.spot i).state.isolable = true) : answerIsolate place s = (settle (isolateSpot i s), .okBare) := by
  unfold answerIsolate
  rw [withSpot_ok _ hn]
  exact if_pos h

theorem SpotState.isolable_ne {st : SpotState} (h : st.isolable = true) : st ≠ .isolating := by
  rintro rfl
  cases h

theorem isolate_answers {s : State} {via : Via} {place : Byte} {i : SpotNo} (ht : s.canTake via = true)
    (hn : s.namedSpot place = .ok i) (hi : (s.spot i).state.isolable = true) :
    ∃ t, s.answers (.isolate via place) .done [] t ∧ (t.spot i).Leaving s.fe (s.spot i).isolateFault (s.spot i) ∧
      (t.spot i).leavesFrom ∧ t.changes.spots.getLsbD i = true ∧ t.haltLamp i = true ∧ s.sameStore t ∧
      (s.waitsNowhereBut i → s.onlyAt t i) := by
  obtain ⟨v, t, hv, ha, hframe, hch, hflashes⟩ := answers_event (c := .isolate via place) (s := s) ht rfl fun v hv =>
    answerIsolate_done ((namedSpot_of_frame hv _).trans hn) (by rwa [spot_of_frame hv])
  have hwork := isolateSpot_work i v
  rw [fe_of_frame hv.frame, spot_of_frame hv.frame] at hwork
  obtain ⟨hl, hs, hflag, hstore, honly⟩ := hwork.event (.refl i v) hv.frame hv.scratch hframe hch
  rw [spot_of_frame hv.frame] at hl
  refine ⟨t, ha, hl, hs, hflag, haltLamp_isolating (fitted_of_namedSpot hn) hstore.1 hl.state ?_, hstore, honly⟩
  have hst : ((settle (isolateSpot i v)).spot i).state = .isolating := by rw [hwork.settled, hwork.leaving.state]
  show (t.flashes[i]).lit = true
  rw [hflashes]
  exact closeEvent_lit (by rw [hst, spot_of_frame hv.frame]; exact SpotState.isolable_ne hi) (by rw [hst]; rfl)

/-! ## ISOLATE ALL -/

/-- What isolating the spots of a list in turn makes of the plant. -/
structure IsolatedAll (l : List SpotNo) (s t : State) : Prop where
  kept : Kept s t
  grants : GrantsShrink s t
  isolated : ∀ i ∈ l, (t.spot i).Leaving s.fe (s.spot i).isolateFault (s.spot i) ∧ ∀ g ∈ t.grants, g.spot ≠ i
  others : ∀ i, i ∉ l → t.spot i = s.spot i

theorem isolatedAll_cons {j : SpotNo} {l : List SpotNo} {s u t : State} (hj : j ∉ l)
    (h : IsolationWork s.fe (s.spot j).isolateFault j s u) (hl : IsolatedAll l u t) : IsolatedAll (j :: l) s t := by
  obtain ⟨hwork, hleave, -, hgrants, -⟩ := h
  obtain ⟨hkept, hshrink, hiso, hrest⟩ := hl
  have hfe : u.fe = s.fe := congrArg Fixed.fe hwork.kept.fixed
  refine ⟨hwork.kept.trans hkept, hwork.grants.trans hshrink, fun i hi => ?_, fun i hi => ?_⟩
  · rcases List.mem_cons.mp hi with rfl | hi
    · exact ⟨by rw [hrest i hj]; exact hleave, fun g hg => hgrants g (hshrink g hg)⟩
    · obtain ⟨h1, h2⟩ := hiso i hi
      rw [hfe, hwork.others i fun e => hj (e ▸ hi)] at h1
      exact ⟨h1, h2⟩
  · obtain ⟨h1, h2⟩ := not_or.mp fun h => hi (List.mem_cons.mpr h)
    rw [hrest i h2, hwork.others i h1]

theorem isolatedAll (l : List SpotNo) (s : State) (hl : l.Nodup) : IsolatedAll l s (l.foldl (fun s i => isolateSpot i s) s) := by
  induction l generalizing s with
  | nil => exact ⟨.refl s, .refl s, nofun, fun _ _ => rfl⟩
  | cons j l ih =>
    obtain ⟨hj, hl⟩ := List.nodup_cons.mp hl
    rw [List.foldl_cons]
    exact isolatedAll_cons hj (isolateSpot_work j s) (ih _ hl)

/-- The spots that ISOLATE ALL acts on. -/
def State.isolables (s : State) : List SpotNo := allSpots.filter fun i => s.fittedSpot i && (s.spot i).state.isolable

theorem isolables_of_frame {s u : State} (h : u.frame = s.frame) : u.isolables = s.isolables := by
  have hp : u.profile = s.profile := congrArg Frame.profile h
  unfold State.isolables
  refine congrArg (allSpots.filter ·) (funext fun i => ?_)
  rw [spot_of_frame h, fittedSpot_of_profile hp]

theorem mem_isolables (s : State) (i : SpotNo) : i ∈ s.isolables ↔ s.fittedSpot i = true ∧ (s.spot i).state.isolable = true := by
  have hall : i ∈ allSpots := by revert i; decide
  simp [State.isolables, hall]

theorem answerIsolateAll_unconfigured {s : State} (h : s.siding = .unconfigured) : answerIsolateAll s = (s, .bare .notConfigured) :=
  if_pos h

theorem answerIsolateAll_done {s : State} (h : s.siding ≠ .unconfigured) :
    answerIsolateAll s = (settle (s.isolables.foldl (fun s i => isolateSpot i s) s),
      .ok (nat8 s.isolables.length ++ s.isolables.map fun i => Layout.byteOf i.val)) := if_neg h

/-- Settles O28: the check; the queues end, the spot and the arbiter's work are those of an isolation. -/
theorem isolateEndsTheQueues : Obligations.IsolateEndsTheQueues := by
  refine ⟨fun s via place i ht hn => ⟨fun h => ?_, fun h => ?_⟩, fun s via ht => ⟨fun h => ?_, fun h => ?_⟩⟩
  · exact refuses_of (c := .isolate via place) ht rfl fun u hu =>
      answerIsolate_state ((namedSpot_of_frame hu _).trans hn) (by rwa [spot_of_frame hu])
  · obtain ⟨t, ha, hl, hs, hflag, hlamp, hstore, honly⟩ := isolate_answers ht hn h
    have hfault : (t.spot i).fault = if (s.spot i).state = .proving then some .stopped else (s.spot i).fault := by
      rw [hl.fault]
      unfold Spot.isolateFault
      split <;> rfl
    exact ⟨t, ha, hl.state, hl.standing, hl.holds, hl.seat, hl.recoveryTimer, hl.stall, hl.window, hl.car,
      hs.imp (fun e => e.1) fun e => e.2, hl.shutoff, hl.liquid, hl.vapour,
      fun e => hs.elim (fun h => h.2.1) fun h => absurd e h.1, hl.orders, hfault, hflag, hlamp, hstore, honly⟩
  · exact refuses_of (c := .isolateAll via) ht rfl fun u hu => answerIsolateAll_unconfigured (by rwa [siding_of_frame hu])
  · obtain ⟨v, t, hv, ha, hframe, -, -⟩ := answers_event (c := .isolateAll via) (s := s) ht rfl fun v hv => by
      rw [show answer (.isolateAll via) v = answerIsolateAll v from rfl, answerIsolateAll_done (by rwa [siding_of_frame hv]),
        isolables_of_frame hv]
    have hall := isolatedAll s.isolables v (List.Nodup.filter _ (by decide))
    obtain ⟨w, hw⟩ : ∃ w, w = s.isolables.foldl (fun s i => isolateSpot i s) v := ⟨_, rfl⟩
    rw [← hw] at hframe hall
    have hti : ∀ i, t.spot i = (settle w).spot i := fun i => (spot_of_frame hframe i).trans (closeEvent_spot v _ i)
    refine ⟨t, ha, fun i hf hi => ?_, fun i hno hwait hgrant => ?_, (hall.kept.trans (kept_settle w)).sameStore hv.frame hframe⟩
    · obtain ⟨hl, hg⟩ := hall.isolated i ((mem_isolables s i).mpr ⟨hf, hi⟩)
      rw [hti, settle_quiet w i (Spot.not_waits (by rw [hl.state]; exact nofun)) hg]
      exact ⟨hl.state, by rw [hl.standing, fe_of_frame hv.frame], hl.holds, hl.orders⟩
    · have hvi : w.spot i = s.spot i :=
        (hall.others i fun hm => hno ((mem_isolables s i).mp hm)).trans (spot_of_frame hv.frame i)
      rw [hti, settle_quiet w i (by rwa [hvi]) fun g hg => hgrant g ?_, hvi]
      have hgs : v.grants = s.grants := congrArg Frame.grants hv.frame
      exact hgs ▸ hall.grants g hg

end Sys2Proof.Machine
end

section
/-! PROOFS. Changes of filtered inputs (R152, R195): an event that changes one spot, with its flag or without; then the bond and
hose-pressure switches (R30, R33, R48). -/

namespace Sys2Proof.Machine

/-! ## An event that sets no flag -/

theorem refreshInlets_self {w : State} (h : w.inletsFollow) : w.refreshInlets = w := by
  have e : (BitVec.ofFnLE fun v => w.inletFor v) = w.inlets := ofFnLE_eq _ _ h
  unfold State.refreshInlets
  rw [e]

theorem bumpRevisions_self {w : State} (h : w.scratch = .empty) : bumpRevisions w = w := by
  unfold bumpRevisions
  exact if_pos (congrArg Scratch.touched h)

theorem ofFnLE_false (n : Nat) : (BitVec.ofFnLE fun _ : Fin n => false) = 0#n := ofFnLE_eq _ _ (by simp)

/-- Where every record is reported as before, the close of an event sets no flag (R195). -/
theorem closeEvent_changes_quiet {b w : State} (hx : w.scratch = .empty) (hin : w.inletsFollow)
    (hs : ∀ i, w.spotView i = b.spotView i) (hv : ∀ v, w.vesselView v = b.vesselView v) (hc : ∀ c, w.compView c = b.compView c)
    (hg : w.sidingView = b.sidingView) : (closeEvent b w).changes = w.changes := by
  have hclose : closeEvent b w = clearScratch (raiseFlags b (followLamps b w)) := by
    unfold closeEvent
    rw [refreshInlets_self hin, eachLastEnd_none b w (congrArg Scratch.departed hx), bumpRevisions_self hx]
  have es : ∀ i, (followLamps b w).spotView i = b.spotView i := hs
  have ev : ∀ v, (followLamps b w).vesselView v = b.vesselView v := hv
  have ec : ∀ c, (followLamps b w).compView c = b.compView c := hc
  have eg : (followLamps b w).sidingView = b.sidingView := hg
  have ex : (followLamps b w).scratch = .empty := hx
  rw [hclose]
  show (raiseFlags b (followLamps b w)).changes = w.changes
  unfold raiseFlags
  simp only [es, ev, ec, eg, ex, ne_eq, not_true_eq_false, decide_false, ofFnLE_false, Scratch.empty, Bool.or_false]
  simp [followLamps]

/-! ## One spot changed by a field event -/

section OneSpot

variable {g : State → State} {s : State} {i : SpotNo} {f : Spot → Spot} (h : g (clearScratch s) = (clearScratch s).modSpot i f)

include h

theorem event_oneSpot : (event g s).frame = { s.frame with spots := s.spots.set i (f (s.spot i)) } := by
  rw [event_eq]
  exact oneSpot_event (clearScratch_frame s) rfl (.inl h)

theorem event_oneSpot_flag {α : Type} (p : SpotView → α) (hne : p (s.spotView i) ≠ p ((s.modSpot i f).spotView i)) :
    (event g s).changes.spots.getLsbD i = true := by
  rw [event_eq]
  refine spotFlag_of_view p ?_
  rw [h]
  exact hne

/-- A change that READ SPOT does not report, of a spot that keeps its orders and its liquid valve's state. -/
theorem event_oneSpot_quiet (hview : (s.modSpot i f).spotView i = s.spotView i) (ho : (f (s.spot i)).orders = (s.spot i).orders)
    (hl : (f (s.spot i)).liquid.state = (s.spot i).liquid.state) (hin : s.inletsFollow) : (event g s).changes = s.changes := by
  rw [event_eq, h]
  refine closeEvent_changes_quiet (b := clearScratch s) (w := (clearScratch s).modSpot i f) rfl
    (inletsFollow_modSpot (s := clearScratch s) ho hl hin) (fun j => ?_) (fun _ => rfl) (fun _ => rfl) rfl
  by_cases e : j = i
  · rw [e]
    exact hview
  · have hj : ((clearScratch s).modSpot i f).spot j = (clearScratch s).spot j := modSpot_spot_other _ i j f e
    unfold State.spotView
    rw [hj]
    rfl

end OneSpot

theorem modSpot_fitted (i : SpotNo) (f : Spot → Spot) (s : State) (j : SpotNo) : (s.modSpot i f).fittedSpot j = s.fittedSpot j := rfl

/-! ## Bond -/

theorem bondTrip_work {i : SpotNo} {s : State} (h : (s.spot i).state.isolable = true) :
    ∃ w, bondTrip i s = settle w ∧ IsolationWork s.fe (some .bond) i s w := by
  unfold bondTrip
  cases hs : (s.spot i).state <;> rw [hs] at h
  case proving => exact ⟨_, rfl, isolationWork .stopped .stopped _ i s⟩
  case connected => exact ⟨_, rfl, isolationWork .bond .bond _ i s⟩
  case staged => exact ⟨_, rfl, isolationWork .bond .bond _ i s⟩
  case transfer => exact ⟨_, rfl, isolationWork .bond .bond _ i s⟩
  case recovery => exact ⟨_, rfl, isolationWork .bond .bond _ i s⟩
  case held => exact ⟨_, rfl, isolationWork .bond .bond _ i s⟩
  all_goals cases h

theorem bondTrip_off {i : SpotNo} {s : State} (h : (s.spot i).state.isolable = false) : bondTrip i s = s := by
  unfold bondTrip
  cases hs : (s.spot i).state <;> rw [hs] at h
  case proving => cases h
  case connected => cases h
  case staged => cases h
  case transfer => cases h
  case recovery => cases h
  case held => cases h

/-- The bond switch's filter moved to a level. -/
def Spot.bondAt (level : Bool) (sp : Spot) : Spot := { sp with bond := .at level }

theorem exec_bondActive (i : SpotNo) (s : State) : exec (.bondActive i) s = .next (bondChange i true s) := rfl
theorem exec_bondLost (i : SpotNo) (s : State) : exec (.bondLost i) s = .next (bondChange i false s) := rfl

theorem bondChange_same {i : SpotNo} {l : Bool} {s : State} (h : (s.spot i).bond.active = l) : bondChange i l s = s := if_pos h

/-- The effects of the bond switch's change. -/
def bondEffect (i : SpotNo) (l : Bool) (s : State) : State :=
  if l then s.modSpot i (Spot.bondAt l) else ifFitted i bondTrip (s.modSpot i (Spot.bondAt l))

theorem bondChange_eq {i : SpotNo} {l : Bool} {s : State} (h : (s.spot i).bond.active ≠ l) : bondChange i l s = event (bondEffect i l) s :=
  if_neg h

theorem bondEffect_alone {i : SpotNo} {l : Bool} {s : State} (h : l = false → (s.fittedSpot i && (s.spot i).state.isolable) = false) :
    bondEffect i l s = s.modSpot i (Spot.bondAt l) := by
  unfold bondEffect
  cases l
  · rw [if_neg (by simp)]
    unfold ifFitted
    split
    next hf =>
      refine bondTrip_off ?_
      rw [modSpot_spot_same]
      have hh := h rfl
      rw [← modSpot_fitted i (Spot.bondAt false), hf, Bool.true_and] at hh
      exact hh
    · rfl
  · exact if_pos rfl

/-- The bond switch's change moves its filter and sets a fitted spot's flag. -/
theorem bond_alone {i : SpotNo} {l : Bool} {s : State} (h : (s.spot i).bond.active = !l)
    (hoff : l = false → (s.fittedSpot i && (s.spot i).state.isolable) = false) :
    (bondChange i l s).frame = { s.frame with spots := s.spots.set i { s.spot i with bond := { active := l, count := 0 } } } ∧
      (s.fittedSpot i = true → (bondChange i l s).changes.spots.getLsbD i = true) ∧
      (s.fittedSpot i = false → s.inletsFollow → (bondChange i l s).changes = s.changes) := by
  have hg : bondEffect i l (clearScratch s) = (clearScratch s).modSpot i (Spot.bondAt l) := bondEffect_alone hoff
  rw [bondChange_eq (by rw [h]; cases l <;> decide)]
  refine ⟨event_oneSpot hg, fun hf => event_oneSpot_flag hg SpotView.bond ?_, fun hf hin => event_oneSpot_quiet hg ?_ rfl rfl hin⟩
  · show (s.fittedSpot i && (s.spot i).bond.active) ≠ (s.fittedSpot i && ((s.modSpot i (Spot.bondAt l)).spot i).bond.active)
    rw [modSpot_spot_same, hf, h]
    cases l <;> exact nofun
  · unfold State.spotView
    dsimp only
    rw [modSpot_spot_same, modSpot_fitted, hf]
    rfl

/-- BOND_LOST isolates a fitted spot. -/
theorem bondLost_isolates {i : SpotNo} {s : State} (h : (s.spot i).bond.active = true)
    (hi : (s.fittedSpot i && (s.spot i).state.isolable) = true) :
    ∃ t, exec (.bondLost i) s = .next t ∧ (t.spot i).Leaving s.fe (some .bond) ((s.spot i).bondAt false) ∧
      t.changes.spots.getLsbD i = true ∧ s.sameStore t ∧ (s.waitsNowhereBut i → s.onlyAt t i) := by
  obtain ⟨hf, hiso⟩ := (Bool.and_eq_true _ _).mp hi
  have hsp : ((clearScratch s).modSpot i (Spot.bondAt false)).spot i = (s.spot i).bondAt false := modSpot_spot_same _ _ _
  obtain ⟨w, hw, hwork⟩ := bondTrip_work (i := i) (s := (clearScratch s).modSpot i (Spot.bondAt false)) (by rw [hsp]; exact hiso)
  have heff : bondEffect i false (clearScratch s) = settle w := hw ▸ if_pos (c := s.fittedSpot i = true) hf
  have hframe : (bondChange i false s).frame = (closeEvent (clearScratch s) (settle w)).frame := by
    rw [bondChange_eq (by rw [h]; decide), event_eq, heff]
  have hch : (bondChange i false s).changes = (closeEvent (clearScratch s) (settle w)).changes := by
    rw [bondChange_eq (by rw [h]; decide), event_eq, heff]
  obtain ⟨hl, -, hflag, hstore, honly⟩ := hwork.event (.mod (by intro; rfl) (by intro; rfl) _) (clearScratch_frame s) rfl hframe hch
  rw [hsp] at hl
  exact ⟨_, exec_bondLost i s, hl, hflag, hstore, honly⟩

/-! ## Hose pressure -/

/-- The hose-pressure switch's filter moved to a level. -/
def Spot.hoseAt (level : Bool) (sp : Spot) : Spot := { sp with hose := .at level }

theorem exec_hosePressureActive (i : SpotNo) (s : State) : exec (.hosePressureActive i) s = .next (hoseChange i true s) := rfl
theorem exec_hosePressureInactive (i : SpotNo) (s : State) : exec (.hosePressureInactive i) s = .next (hoseChange i false s) := rfl

theorem hoseChange_same {i : SpotNo} {l : Bool} {s : State} (h : (s.spot i).hose.active = l) : hoseChange i l s = s := if_pos h

/-- The effects of the hose-pressure switch's change. -/
def hoseEffect (i : SpotNo) (l : Bool) (s : State) : State :=
  if l then ifFitted i pressureMade (s.modSpot i (Spot.hoseAt l)) else ifFitted i pressureLost (s.modSpot i (Spot.hoseAt l))

theorem hoseChange_eq {i : SpotNo} {l : Bool} {s : State} (h : (s.spot i).hose.active = !l) : hoseChange i l s = event (hoseEffect i l) s :=
  if_neg (by rw [h]; cases l <;> decide)

theorem hoseEffect_unfitted {i : SpotNo} {l : Bool} {s : State} (h : s.fittedSpot i = false) :
    hoseEffect i l s = s.modSpot i (Spot.hoseAt l) := by
  have hno : ¬ (s.modSpot i (Spot.hoseAt l)).fittedSpot i = true := by
    rw [modSpot_fitted, h]
    exact Bool.false_ne_true
  unfold hoseEffect
  split
  · exact if_neg hno
  · exact if_neg hno

theorem hoseEffect_made {i : SpotNo} {s : State} (h : s.fittedSpot i = true) :
    hoseEffect i true s = pressureMade i (s.modSpot i (Spot.hoseAt true)) := if_pos (c := s.fittedSpot i = true) h
theorem hoseEffect_lost {i : SpotNo} {s : State} (h : s.fittedSpot i = true) :
    hoseEffect i false s = pressureLost i (s.modSpot i (Spot.hoseAt false)) := if_pos (c := s.fittedSpot i = true) h

theorem pressureMade_at {i : SpotNo} {s : State} (h1 : (s.spot i).state = .proving) (h2 : (s.spot i).step = some .pressureWait) :
    pressureMade i s = s.modSpot i fun sp => { sp with step := some .pressureHold, timer := .seconds (s.site (·.provingTime)) } := by
  unfold pressureMade
  rw [h1, h2]

theorem pressureLost_at {i : SpotNo} {s : State} (h1 : (s.spot i).state = .proving) (h2 : (s.spot i).step = some .pressureHold) :
    pressureLost i s = settle (advanceSpot i (enterIsolating .stopped .stopped (some .leak) i s)) := by
  unfold pressureLost
  rw [h1, h2]
  rfl

theorem pressureMade_off {i : SpotNo} {s : State}
    (h : ¬ (((s.spot i).state = .proving ∧ (s.spot i).step = some .pressureWait) ∨ (s.spot i).state = .stroking)) :
    pressureMade i s = s := by
  unfold pressureMade
  split
  next h1 h2 => exact absurd (.inl ⟨h1, h2⟩) h
  next h1 => exact absurd (.inr h1) h
  next => rfl

theorem pressureLost_off {i : SpotNo} {s : State} (h : ¬ ((s.spot i).state = .proving ∧ (s.spot i).step = some .pressureHold)) :
    pressureLost i s = s := by
  unfold pressureLost
  split
  next h1 h2 => exact absurd ⟨h1, h2⟩ h
  next => rfl

/-- A change of the hose-pressure switch that acts on its spot alone: the filter moves, and more by `f`. -/
theorem hose_oneSpot {i : SpotNo} {l : Bool} {f : Spot → Spot} {s : State} (h : (s.spot i).hose.active = !l)
    (heff : hoseEffect i l (clearScratch s) = (clearScratch s).modSpot i f) (hf : (f (s.spot i)).hose.active = l) :
    (hoseChange i l s).frame = { s.frame with spots := s.spots.set i (f (s.spot i)) } ∧
      (s.fittedSpot i = true → (hoseChange i l s).changes.spots.getLsbD i = true) := by
  rw [hoseChange_eq h]
  refine ⟨event_oneSpot heff, fun hfit => event_oneSpot_flag heff SpotView.hose ?_⟩
  show (s.fittedSpot i && (s.spot i).hose.active) ≠ (s.fittedSpot i && ((s.modSpot i f).spot i).hose.active)
  rw [modSpot_spot_same, hfit, h, hf]
  cases l <;> exact nofun

theorem hose_unfitted {i : SpotNo} {l : Bool} {s : State} (h : (s.spot i).hose.active = !l) (hf : s.fittedSpot i = false)
    (hin : s.inletsFollow) : (hoseChange i l s).changes = s.changes := by
  have heff : hoseEffect i l (clearScratch s) = (clearScratch s).modSpot i (Spot.hoseAt l) := hoseEffect_unfitted hf
  rw [hoseChange_eq h]
  refine event_oneSpot_quiet heff ?_ rfl rfl hin
  unfold State.spotView
  dsimp only
  rw [modSpot_spot_same, modSpot_fitted, hf]
  rfl

/-- HOSE_PRESSURE_INACTIVE in PRESSURE_HOLD isolates the spot. -/
theorem pressureLost_isolates {i : SpotNo} {s : State} (h : (s.spot i).hose.active = true) (hf : s.fittedSpot i = true)
    (h1 : (s.spot i).state = .proving) (h2 : (s.spot i).step = some .pressureHold) :
    ∃ t, exec (.hosePressureInactive i) s = .next t ∧ (t.spot i).Leaving s.fe (some .leak) ((s.spot i).hoseAt false) ∧
      t.changes.spots.getLsbD i = true ∧ s.sameStore t ∧ (s.waitsNowhereBut i → s.onlyAt t i) := by
  obtain ⟨u, hu⟩ : ∃ u, u = (clearScratch s).modSpot i (Spot.hoseAt false) := ⟨_, rfl⟩
  have hsp : u.spot i = (s.spot i).hoseAt false := by rw [hu]; exact modSpot_spot_same _ _ _
  have hfe : u.fe = s.fe := by rw [hu]; rfl
  have hwork := isolationWork .stopped .stopped (some .leak) i u
  have heff : hoseEffect i false (clearScratch s) = settle (advanceSpot i (enterIsolating .stopped .stopped (some .leak) i u)) := by
    rw [hoseEffect_lost (s := clearScratch s) hf, ← hu]
    exact pressureLost_at (by rw [hsp]; exact h1) (by rw [hsp]; exact h2)
  have hclose : hoseChange i false s = closeEvent (clearScratch s) (settle (advanceSpot i
      (enterIsolating .stopped .stopped (some .leak) i u))) := by rw [hoseChange_eq h, event_eq, heff]
  rw [hfe] at hwork
  obtain ⟨hl, -, hflag, hstore, honly⟩ := hwork.event (v := clearScratch s) (by rw [hu]; exact .mod (by intro; rfl) (by intro; rfl) _)
    (clearScratch_frame s) rfl (congrArg State.frame hclose) (congrArg State.changes hclose)
  rw [hsp] at hl
  exact ⟨_, exec_hosePressureInactive i s, hl, hflag, hstore, honly⟩

/-! ## A failing test -/

/-- A spot whose test fails (R151), with its stroke timers stopped. -/
def Spot.testFailed (stroke : ValveName → Timer) (f : SpotFault) (sp : Spot) : Spot :=
  ((Spot.shutValves stroke { sp with state := .faulted, step := none, fault := some f }).mapValves Valve.failTest).mapValves
    Valve.stopTimer

theorem failStroke_eq (f : SpotFault) (i : SpotNo) (s : State) :
    failStroke false f i s = endSpotTest i ((s.touchSpot i).modSpot i (Spot.testFailed s.strokeOf f)) := by
  unfold failStroke
  dsimp only
  rw [shutAll_eq, modSpot_modSpot, modSpot_modSpot, if_neg Bool.false_ne_true, modSpot_modSpot]
  rfl

theorem Spot.testFailed_valve (stroke : ValveName → Timer) (f : SpotFault) (sp : Spot) (n : ValveName) :
    ((sp.testFailed stroke f).valve n).command = .toShut ∧ ((sp.testFailed stroke f).valve n).timer = .stopped := by
  have hv : (sp.testFailed stroke f).valve n = (((sp.valve n).toldShut (stroke n)).failTest).stopTimer := by cases n <;> rfl
  rw [hv]
  refine ⟨?_, rfl⟩
  show (((sp.valve n).toldShut (stroke n)).failTest).command = .toShut
  unfold Valve.failTest
  split
  · exact Valve.toldShut_command _ _
  · exact Valve.toldShut_command _ _

theorem failStroke_spot (f : SpotFault) (i : SpotNo) (s : State) : (failStroke false f i s).spot i = (s.spot i).testFailed s.strokeOf f := by
  rw [failStroke_eq, endSpotTest_spot, modSpot_spot_same]
  rfl

theorem failStroke_tests (f : SpotFault) (i : SpotNo) (s : State) : i ∉ (failStroke false f i s).tests.spots := by
  have h := congrArg Frame.tests (endSpotTest_frame i ((s.touchSpot i).modSpot i (Spot.testFailed s.strokeOf f)))
  have hs : (endSpotTest i ((s.touchSpot i).modSpot i (Spot.testFailed s.strokeOf f))).tests.spots = s.tests.spots.filter (· ≠ i) :=
    congrArg PendingTests.spots h
  rw [failStroke_eq, hs]
  simp

/-- Hose pressure in a stroke test fails it. -/
theorem pressureMade_fails {i : SpotNo} {s : State} (h : (s.spot i).hose.active = false) (hf : s.fittedSpot i = true)
    (h1 : (s.spot i).state = .stroking) :
    ∃ t, exec (.hosePressureActive i) s = .next t ∧ (t.spot i).state = .faulted ∧ (t.spot i).fault = some .pressure ∧
      (t.spot i).step = none ∧ (∀ n, ((t.spot i).valve n).command = .toShut ∧ ((t.spot i).valve n).timer = .stopped) ∧
      i ∉ t.tests.spots ∧ t.changes.spots.getLsbD i = true := by
  obtain ⟨u, hu⟩ : ∃ u, u = (clearScratch s).modSpot i (Spot.hoseAt true) := ⟨_, rfl⟩
  have hst : (u.spot i).state = .stroking := by
    rw [hu, modSpot_spot_same]
    exact h1
  have heff : hoseEffect i true (clearScratch s) = failStroke false .pressure i u := by
    rw [hoseEffect_made (s := clearScratch s) hf, ← hu]
    unfold pressureMade
    rw [hst]
  have hclose : hoseChange i true s = closeEvent (clearScratch s) (failStroke false .pressure i u) := by
    rw [hoseChange_eq h, event_eq, heff]
  have hsp : (closeEvent (clearScratch s) (failStroke false .pressure i u)).spot i = (u.spot i).testFailed u.strokeOf .pressure :=
    (closeEvent_spot _ _ i).trans (failStroke_spot _ _ _)
  refine ⟨_, (exec_hosePressureActive i s).trans (congrArg Host.Outcome.next hclose), ?_, ?_, ?_, fun n => ?_, ?_, ?_⟩
  · rw [hsp]
    rfl
  · rw [hsp]
    rfl
  · rw [hsp]
    rfl
  · rw [hsp]
    exact Spot.testFailed_valve _ _ _ n
  · rw [closeEvent_tests]
    exact failStroke_tests _ _ _
  · refine spotFlag_of_ne (.inl ?_)
    rw [failStroke_spot]
    show (s.spot i).state ≠ .faulted
    rw [h1]
    exact nofun

/-- Settles O49: each change of the two switches, at a fitted spot by its state, and at an unfitted one without a flag. -/
theorem bondAndHosePressureAct : Obligations.BondAndHosePressureAct := by
  intro s i
  refine ⟨fun h => congrArg Host.Outcome.next (bondChange_same h), fun h => congrArg Host.Outcome.next (bondChange_same h),
    fun h => congrArg Host.Outcome.next (hoseChange_same h), fun h => congrArg Host.Outcome.next (hoseChange_same h),
    fun h => ?_, fun h => ⟨fun hoff => ?_, fun hon => ?_⟩, fun h => ⟨fun hf h1 h2 => ?_, fun hf h1 => ?_, fun hoff => ?_⟩,
    fun h => ⟨fun hf h1 h2 => ?_, fun hoff => ?_⟩, fun hf hin c hc => ?_⟩
  · obtain ⟨hframe, hflag, -⟩ := bond_alone (l := true) h nofun
    exact ⟨_, exec_bondActive i s, hframe, hflag⟩
  · obtain ⟨hframe, hflag, -⟩ := bond_alone (l := false) h fun _ => hoff
    exact ⟨_, exec_bondLost i s, hframe, hflag⟩
  · obtain ⟨t, ht, hl, hflag, hstore, honly⟩ := bondLost_isolates h hon
    have hbond : (t.spot i).inputs.head? = some (Filter.at false) := congrArg List.head? hl.inputs
    exact ⟨t, ht, hl.state, hl.fault, hl.standing, hl.holds, hl.seat, Option.some.inj hbond, hl.orders, hflag, hstore, honly⟩
  · obtain ⟨hframe, hflag⟩ := hose_oneSpot (l := true) (i := i) (s := s)
      (f := fun sp => { sp.hoseAt true with step := some .pressureHold, timer := .seconds (s.site (·.provingTime)) }) h (by
        rw [hoseEffect_made (s := clearScratch s) hf, pressureMade_at (by rw [modSpot_spot_same]; exact h1)
          (by rw [modSpot_spot_same]; exact h2)]
        exact modSpot_modSpot i _ _ _) rfl
    exact ⟨_, exec_hosePressureActive i s, hframe, hflag hf⟩
  · exact pressureMade_fails h hf h1
  · obtain ⟨hframe, hflag⟩ := hose_oneSpot (l := true) (f := Spot.hoseAt true) h (by
      cases hf : s.fittedSpot i
      · exact hoseEffect_unfitted hf
      · rw [hoseEffect_made (s := clearScratch s) hf, pressureMade_off]
        rw [modSpot_spot_same]
        exact fun e => hoff ⟨hf, e⟩) rfl
    exact ⟨_, exec_hosePressureActive i s, hframe, hflag⟩
  · obtain ⟨t, ht, hl, hflag, hstore, honly⟩ := pressureLost_isolates h hf h1 h2
    have hhose : (t.spot i).inputs.tail.head? = some (Filter.at false) := congrArg (fun l => l.tail.head?) hl.inputs
    exact ⟨t, ht, hl.state, hl.fault, Option.some.inj hhose, hflag, hstore, honly⟩
  · obtain ⟨hframe, hflag⟩ := hose_oneSpot (l := false) (f := Spot.hoseAt false) h (by
      cases hf : s.fittedSpot i
      · exact hoseEffect_unfitted hf
      · rw [hoseEffect_lost (s := clearScratch s) hf, pressureLost_off]
        rw [modSpot_spot_same]
        exact fun e => hoff ⟨hf, e⟩) rfl
    exact ⟨_, exec_hosePressureInactive i s, hframe, hflag⟩
  · have bond (l : Bool) : (bondChange i l s).changes = s.changes := by
      by_cases e : (s.spot i).bond.active = l
      · rw [bondChange_same e]
      · exact (bond_alone (by cases l <;> simpa using e) fun _ => by rw [hf]; rfl).2.2 hf hin
    have hose (l : Bool) : (hoseChange i l s).changes = s.changes := by
      by_cases e : (s.spot i).hose.active = l
      · rw [hoseChange_same e]
      · exact hose_unfitted (by cases l <;> simpa using e) hf hin
    rcases hc with rfl | rfl | rfl | rfl
    · exact ⟨_, exec_bondActive i s, bond true⟩
    · exact ⟨_, exec_bondLost i s, bond false⟩
    · exact ⟨_, exec_hosePressureActive i s, hose true⟩
    · exact ⟨_, exec_hosePressureInactive i s, hose false⟩

end Sys2Proof.Machine
end

section
/-! PROOFS. A spot that enters HELD (R35, R36), one that stays there, and RESUME (R39, R40). -/

namespace Sys2Proof.Machine

/-- A writing request whose reply is read from the records as the request found them. -/
theorem answers_eventOf {c : Instr} {s : State} {st : Status} {b : State → List Byte} {f : State → State}
    (ht : s.canTake (route c) = true) (hw : writingCode (code c) = true)
    (ha : ∀ v, v.frame = s.frame → answer c v = (f v, { status := st, body := b v })) :
    ∃ v t, Found s v (route c) ∧ s.answers c st (b v) t ∧ t.frame = (closeEvent v (f v)).frame ∧
      t.changes = (closeEvent v (f v)).changes ∧ t.flashes = (closeEvent v (f v)).flashes := by
  obtain ⟨u, hu, hx⟩ := exec_writing c s (exec_request (known_of_writing hw) s) ht hw
  rw [ha (clearScratch u) hu.frame] at hx
  rw [← closeEvent_clearScratch] at hx
  refine ⟨clearScratch u, _, ⟨hu.frame, rfl, ?_, ?_⟩, ⟨hx, placeReply_replied _ _⟩, placeReply_frame _ _, placeReply_changes _ _,
    placeReply_flashes _ _⟩
  · show u.changes = _
    rw [hu.records]
  · show u.flashes = _
    rw [hu.records]

/-! ## One spot's work at the end of its event -/

/-- The work of a spot that leaves it flagged, off the grant queue and not waiting. -/
structure SpotDone (i : SpotNo) (v w : State) : Prop where
  work : SpotWork i v w
  unwaiting : ¬ (w.spot i).waits
  ungranted : ∀ g ∈ w.grants, g.spot ≠ i
  flag : w.scratch.spots.getLsbD i = true

theorem SpotDone.settled {i : SpotNo} {v w : State} (h : SpotDone i v w) : (settle w).spot i = w.spot i :=
  settle_quiet w i h.unwaiting h.ungranted

theorem SpotDone.event {i : SpotNo} {s v w t : State} (h : SpotDone i v w) (hv : v.frame = s.frame) (hx : v.scratch = .empty)
    (ht : t.frame = (closeEvent v (settle w)).frame) (hch : t.changes = (closeEvent v (settle w)).changes) :
    t.spot i = w.spot i ∧ t.changes.spots.getLsbD i = true ∧ s.sameStore t ∧ (s.waitsNowhereBut i → s.onlyAt t i) := by
  refine ⟨?_, ?_, (h.work.kept.trans (kept_settle w)).sameStore hv ht, fun hw => ?_⟩
  · rw [spot_of_frame ht, ← h.settled]
    exact closeEvent_spot v _ i
  · rw [hch]
    exact spotFlag_of_touched ((kept_settle w).spots i h.flag)
  · rw [h.work.settles (waitsNowhereBut_of_frame hv hw) h.unwaiting h.ungranted] at ht
    exact h.work.onlyAt hv hx ht

/-! ## Entry to HELD -/

/-- A spot that enters HELD for a reason (R36, R37). -/
def Spot.held (stroke : ValveName → Timer) (r : HoldReason) (sp : Spot) : Spot :=
  { (sp.modHead Order.suspend).stopMeter with
    state := .held, holds := sp.holds.put r true, recoveryTimer := .stopped, seat := none
    liquid := sp.liquid.toldShut (stroke .liquid), vapour := sp.vapour.toldShut (stroke .vapour)
    shutoff := if r = .esd then sp.shutoff.toldShut (stroke .shutoff) else sp.shutoff }

theorem addHold_has {i : SpotNo} {r : HoldReason} {s : State} (h : (s.spot i).holds.has r = true) : addHold i r s = s := if_pos h

theorem addHold_enters {i : SpotNo} {r : HoldReason} {s : State} (hr : (s.spot i).holds.has r = false)
    (hst : (s.spot i).state.holdable) :
    ∃ u, addHold i r s = leaveCompressors i u ∧ u.scratch.spots.getLsbD i = true ∧ SpotWork i s u ∧
      { u.spot i with seat := none } = (s.spot i).held s.strokeOf r := by
  obtain ⟨a, ha⟩ : ∃ a, a = (s.touchSpot i).modSpot i fun sp =>
      { (sp.modHead Order.suspend).stopMeter with state := .held, holds := sp.holds.put r true, recoveryTimer := .stopped } :=
    ⟨_, rfl⟩
  have hadd : addHold i r s = leaveCompressors i (if r = .esd then commandSpot i .shutoff .toShut
      (commandSpot i .vapour .toShut (commandSpot i .liquid .toShut a)) else
        commandSpot i .vapour .toShut (commandSpot i .liquid .toShut a)) := by
    unfold addHold
    dsimp only
    rw [if_neg (by simp [hr]), ← ha]
    rcases hst with h | h | h | h <;> rw [h]
  have hwork : SpotWork i s a := by
    rw [ha]
    refine (SpotWork.touchSpot i i s).trans (.mod (fun sp => ?_) (fun sp => ?_) _)
    · exact Spot.modHead_car _ sp
    · exact sp.modHead_seat _
  have hai : a.spot i = { ((s.spot i).modHead Order.suspend).stopMeter with
      state := .held, holds := (s.spot i).holds.put r true, recoveryTimer := .stopped } := by
    rw [ha, modSpot_spot_same]
    rfl
  have hflag : a.scratch.spots.getLsbD i = true := by
    rw [ha]
    exact touchSpot_flag i s
  have hstroke : a.strokeOf = s.strokeOf := strokeOf_of_fixed hwork.kept.fixed
  have hvalves : (((s.spot i).modHead Order.suspend).shutoff = (s.spot i).shutoff ∧
      ((s.spot i).modHead Order.suspend).liquid = (s.spot i).liquid) ∧
      ((s.spot i).modHead Order.suspend).vapour = (s.spot i).vapour := by
    rw [Spot.modHead_eq]
    exact ⟨⟨rfl, rfl⟩, rfl⟩
  have hlines := (spotWork_commandSpot i a .liquid .toShut).trans (spotWork_commandSpot i _ .vapour .toShut)
  have hli : (commandSpot i .vapour .toShut (commandSpot i .liquid .toShut a)).spot i = { a.spot i with
      liquid := (a.spot i).liquid.toldShut (s.strokeOf .liquid), vapour := (a.spot i).vapour.toldShut (s.strokeOf .vapour) } := by
    rw [commandSpot_toShut, commandSpot_toShut, modSpot_spot_same, modSpot_spot_same, ← hstroke]
    rfl
  have hls : (commandSpot i .vapour .toShut (commandSpot i .liquid .toShut a)).strokeOf = s.strokeOf :=
    (strokeOf_of_fixed hlines.kept.fixed).trans hstroke
  refine ⟨_, hadd, ?_⟩
  by_cases e : r = .esd
  · rw [if_pos e]
    have hall := hlines.trans (spotWork_commandSpot i _ .shutoff .toShut)
    refine ⟨hall.kept.spots i hflag, hwork.trans hall, ?_⟩
    rw [commandSpot_toShut, modSpot_spot_same, hls, hli, hai]
    unfold Spot.held
    rw [if_pos e]
    obtain ⟨⟨h1, h2⟩, h3⟩ := hvalves
    show ({ Spot.setValve .shutoff _ _ with seat := none } : Spot) = _
    simp only [Spot.setValve, Spot.valve, Spot.stopMeter, h1, h2, h3]
  · rw [if_neg e]
    refine ⟨hlines.kept.spots i hflag, hwork.trans hlines, ?_⟩
    rw [hli, hai]
    unfold Spot.held
    rw [if_neg e]
    obtain ⟨⟨h1, h2⟩, h3⟩ := hvalves
    simp only [Spot.stopMeter, h1, h2, h3]

theorem addHold_spot {i : SpotNo} {r : HoldReason} {s : State} (hr : (s.spot i).holds.has r = false)
    (hst : (s.spot i).state.holdable) : (addHold i r s).spot i = (s.spot i).held s.strokeOf r := by
  obtain ⟨u, hu, -, -, he⟩ := addHold_enters hr hst
  rw [hu, leaveCompressors_unseats, he]

theorem addHold_done {i : SpotNo} {r : HoldReason} {s : State} (hr : (s.spot i).holds.has r = false)
    (hst : (s.spot i).state.holdable) : SpotDone i s (addHold i r s) := by
  obtain ⟨u, hu, hflag, hwork, he⟩ := addHold_enters hr hst
  have hleave := spotWork_leaveCompressors i u
  refine ⟨spotWork_addHold i s r, Spot.not_waits ?_, ?_, ?_⟩
  · rw [addHold_spot hr hst]
    exact nofun
  · rw [hu]
    exact leaveCompressors_ungrants i u
  · rw [hu]
    exact hleave.kept.spots i hflag

/-- A reason that joins the hold set of a HELD spot. -/
theorem addHold_held {i : SpotNo} {r : HoldReason} {s : State} (hr : (s.spot i).holds.has r = false) (hst : (s.spot i).state = .held)
    (he : r ≠ .esd) : addHold i r s = s.modSpot i fun sp => { sp with holds := sp.holds.put r true } := by
  unfold addHold
  dsimp only
  rw [if_neg (by simp [hr]), hst]
  exact if_neg he

/-! ## HELD and its arrivals -/

theorem advanceSpot_held {i : SpotNo} {s : State} (hst : (s.spot i).state = .held)
    (hd : ¬ ((s.spot i).headIs .draining = true ∧ (s.spot i).liquid.isShut = true)) : advanceSpot i s = s := by
  refine advanceSpot_head ?_ (by rw [hst]; exact nofun) (by rw [hst]; exact nofun) (by rw [hst]; exact nofun)
  rw [onShutoffOpen_off (by rw [hst]; exact nofun), onLiquidOpen_off (by rw [hst]; exact nofun), onDrained_off hd]

theorem Valve.toldShut_isShut {stroke : Timer} {v : Valve} (h : (v.toldShut stroke).isShut = true) :
    v.isShut = true ∨ v.state = some .movingOpen := by
  unfold Valve.toldShut Valve.pursue at h
  split at h
  · split at h
    next _ e => cases e
    next e _ => exact .inr e
    next => exact absurd h (by simp [Valve.isShut])
    next _ e => cases e
    next => exact .inl h
  · exact .inl h

theorem Order.suspend_draining (o : Order) : (o.suspend.state == .draining) = (o.state == .draining) := by
  unfold Order.suspend
  cases h : o.state <;> simp [h]

theorem Spot.held_orders (stroke : ValveName → Timer) (r : HoldReason) (sp : Spot) :
    (sp.held stroke r).orders = sp.orders.modifyHead Order.suspend := by
  unfold Spot.held
  rw [Spot.modHead_eq]
  rfl

theorem Spot.held_headIs (stroke : ValveName → Timer) (r : HoldReason) (sp : Spot) :
    (sp.held stroke r).headIs .draining = sp.headIs .draining := by
  unfold Spot.headIs Spot.head
  rw [held_orders]
  cases h : sp.orders with
  | nil => rfl
  | cons o l => exact o.suspend_draining

/-- The liquid valve is not SHUT and will not be at once when it is told to shut. -/
def Spot.stillDrains (sp : Spot) : Prop :=
  sp.headIs .draining = true → sp.liquid.isShut = false ∧ sp.liquid.state ≠ some .movingOpen

theorem Spot.held_drains {stroke : ValveName → Timer} {r : HoldReason} {sp : Spot} (h : sp.stillDrains) :
    ¬ ((sp.held stroke r).headIs .draining = true ∧ (sp.held stroke r).liquid.isShut = true) := by
  rintro ⟨h1, h2⟩
  obtain ⟨h3, h4⟩ := h (by rwa [held_headIs] at h1)
  rcases Valve.toldShut_isShut h2 with e | e
  · rw [h3] at e
    cases e
  · exact h4 e

/-- A spot brought to HELD while its DRAINING head, if it has one, still drains. -/
theorem holdSpot_enters {i : SpotNo} {r : HoldReason} {s : State} (hr : (s.spot i).holds.has r = false)
    (hst : (s.spot i).state.holdable) (hd : (s.spot i).stillDrains) : holdSpot i r s = addHold i r s := by
  have e := addHold_spot hr hst
  refine advanceSpot_held ?_ ?_ <;> rw [e]
  · rfl
  · exact Spot.held_drains hd

/-- What a hold makes of the head of a queue. -/
theorem Spot.held_head (stroke : ValveName → Timer) (r : HoldReason) {sp : Spot} {h : Order} (hh : sp.head = some h) :
    (h.state = .waiting ∨ h.state = .running ∨ h.state = .suspended →
      (sp.held stroke r).head = some { h with state := .suspended }) ∧
    (h.state = .suspended ∨ h.state = .draining → (sp.held stroke r).head = some h) := by
  have hs : (sp.held stroke r).head = some h.suspend := by
    unfold Spot.head at hh ⊢
    rw [held_orders, List.head?_modifyHead, hh]
    rfl
  rw [hs]
  obtain ⟨tag, liquid, closeAfter, state, reason⟩ := h
  refine ⟨fun e => ?_, fun e => ?_⟩
  · rcases e with e | e | e <;> cases e <;> rfl
  · rcases e with e | e <;> cases e <;> rfl

theorem Spot.held_rest (stroke : ValveName → Timer) (r : HoldReason) (sp : Spot) :
    (sp.held stroke r).orders.tail = sp.orders.tail ∧
      (sp.held stroke r).orders.map (·.tag) = sp.orders.map (·.tag) := by
  rw [held_orders]
  cases sp.orders with
  | nil => exact ⟨rfl, rfl⟩
  | cons o l => exact ⟨rfl, by rw [List.modifyHead_cons, List.map_cons, List.map_cons, o.suspend_tag]⟩

/-! ## The end of a hold -/

/-- A HELD spot that resumes, before its valves' arrivals (R39, R40). -/
def Spot.resumes (stroke : Timer) (fe : Bool) (sp : Spot) : Spot :=
  if sp.orders.isEmpty then { sp with state := .connected, pulses := 0, shutoff := sp.shutoff.told stroke fe .toOpen }
  else { sp with state := .staged, shutoff := sp.shutoff.told stroke fe .toOpen }

theorem resumeSpot_eq (i : SpotNo) (s : State) :
    resumeSpot i s = settle (advanceSpot i (s.modSpot i (Spot.resumes (s.strokeOf .shutoff) s.fe))) := by
  have h : commandSpot i .shutoff .toOpen (s.modSpot i fun sp =>
      if sp.orders.isEmpty then { sp with state := .connected, pulses := 0 } else { sp with state := .staged }) =
      s.modSpot i (Spot.resumes (s.strokeOf .shutoff) s.fe) := by
    rw [commandSpot_eq, modSpot_modSpot]
    refine modSpot_congr ?_
    unfold Spot.resumes
    have hlive (st : SpotState) (hst : st ≠ .faulted) : ((s.modSpot i fun sp =>
        if sp.orders.isEmpty then { sp with state := .connected, pulses := 0 } else { sp with state := .staged }).fe &&
          (st != .faulted)) = s.fe := by
      rw [bne_iff_ne.mpr hst]
      exact Bool.and_true _
    split
    · show Spot.setValve .shutoff (Valve.told _ _ _ _) _ = _
      rw [hlive .connected nofun]
      rfl
    · show Spot.setValve .shutoff (Valve.told _ _ _ _) _ = _
      rw [hlive .staged nofun]
      rfl
  unfold resumeSpot
  dsimp only
  rw [h]

section Resume

variable {i : SpotNo} {s : State}

theorem resumed_connected (ho : (s.spot i).orders = []) :
    resumeSpot i s = settle (s.modSpot i (Spot.resumes (s.strokeOf .shutoff) s.fe)) ∧
      (s.spot i).resumes (s.strokeOf .shutoff) s.fe =
        { s.spot i with state := .connected, pulses := 0, shutoff := (s.spot i).shutoff.told (s.strokeOf .shutoff) s.fe .toOpen } := by
  have hsp : (s.spot i).resumes (s.strokeOf .shutoff) s.fe =
      { s.spot i with state := .connected, pulses := 0, shutoff := (s.spot i).shutoff.told (s.strokeOf .shutoff) s.fe .toOpen } :=
    if_pos (by rw [ho]; rfl)
  refine ⟨?_, hsp⟩
  have hu := modSpot_spot_same s i (Spot.resumes (s.strokeOf .shutoff) s.fe)
  rw [hsp] at hu
  have hst : ((s.modSpot i (Spot.resumes (s.strokeOf .shutoff) s.fe)).spot i).state = .connected := by rw [hu]
  rw [resumeSpot_eq, advanceSpot_head ?_ (by rw [hst]; exact nofun) (by rw [hst]; exact nofun) (by rw [hst]; exact nofun)]
  rw [onShutoffOpen_off (by rw [hst]; exact nofun), onLiquidOpen_off (by rw [hst]; exact nofun),
    onDrained_empty (by rw [hu]; exact ho)]

theorem Spot.resumes_staged (stroke : Timer) (fe : Bool) {sp : Spot} (h : sp.orders ≠ []) :
    sp.resumes stroke fe = { sp with state := .staged, shutoff := sp.shutoff.told stroke fe .toOpen } :=
  if_neg (by simp [h])

theorem Spot.headIs_orders {sp : Spot} {st : OrderState} (h : sp.headIs st = true) : sp.orders ≠ [] := by
  intro e
  rw [headIs_nil e] at h
  cases h

theorem Spot.headIs_one {sp : Spot} {a b : OrderState} (h : sp.headIs a = true) (hb : a ≠ b) : sp.headIs b = false := by
  unfold headIs at h ⊢
  cases hh : sp.head with
  | none => rfl
  | some o =>
    rw [hh] at h
    dsimp only at h ⊢
    rw [beq_iff_eq] at h
    rw [h]
    exact beq_false_of_ne hb

theorem Valve.told_isOpen_shut {stroke : Timer} {live : Bool} {c : Command} {v : Valve} (h : v.isShut = true) :
    (v.told stroke live c).isOpen = false := by
  have hst : v.state = some .shut := by simpa [Valve.isShut] using h
  unfold Valve.told Valve.pursue
  split
  · rw [hst]
    split
    next e => simp [Valve.isOpen]
    next e _ => cases e
    next e _ => cases e
    next e _ => cases e
    next => simp [Valve.isOpen]
  · simp [Valve.isOpen, hst]

variable (hs : (s.spot i).headIs .suspended = true)

include hs

/-- A spot with a SUSPENDED head that has just become STAGED owes its arrivals the resumption alone. -/
theorem resumed_arrivals : ∃ u, u = s.modSpot i (Spot.resumes (s.strokeOf .shutoff) s.fe) ∧
    u.spot i = { s.spot i with state := .staged, shutoff := (s.spot i).shutoff.told (s.strokeOf .shutoff) s.fe .toOpen } ∧
    advanceSpot i u = onResumed i u := by
  refine ⟨_, rfl, ?_, ?_⟩
  · rw [modSpot_spot_same, Spot.resumes_staged _ _ (Spot.headIs_orders hs)]
  · obtain ⟨u, hu⟩ : ∃ u, u = s.modSpot i (Spot.resumes (s.strokeOf .shutoff) s.fe) := ⟨_, rfl⟩
    have hui : u.spot i = { s.spot i with
        state := .staged, shutoff := (s.spot i).shutoff.told (s.strokeOf .shutoff) s.fe .toOpen } := by
      rw [hu, modSpot_spot_same, Spot.resumes_staged _ _ (Spot.headIs_orders hs)]
    have hst : (u.spot i).state = .staged := by rw [hui]
    have hdrain : (u.spot i).headIs .draining = false := by
      rw [hui]
      exact Spot.headIs_one hs nofun
    have hafter : ((onResumed i u).spot i).state = .staged := by
      rcases onResumed_cases i u with ⟨e, -⟩ | ⟨-, -, e⟩
      · rw [e, hst]
      · exact (Spot.state_of_line e).trans hst
    rw [← hu]
    unfold advanceSpot
    rw [onShutoffOpen_off (by rw [hst]; exact nofun), onLiquidOpen_off (by rw [hst]; exact nofun),
      onDrained_off (fun e => Bool.false_ne_true (hdrain.symm.trans e.1)), onLinesShut_off (by rw [hafter]; exact nofun),
      onVentOpen_off (by rw [hafter]; exact nofun), onVentShut_off (by rw [hafter]; exact nofun),
      onStrokeOpen_off (by rw [hafter]; exact nofun), onStrokeShut_off (by rw [hafter]; exact nofun),
      onStrokeTurn_off (by rw [hafter]; exact nofun)]

/-- With its shutoff valve SHUT the spot is STAGED and its head stays SUSPENDED. -/
theorem resumed_waits (hv : (s.spot i).shutoff.isShut = true) :
    ∃ u, resumeSpot i s = settle u ∧ u = s.modSpot i (Spot.resumes (s.strokeOf .shutoff) s.fe) ∧
      u.spot i = { s.spot i with state := .staged, shutoff := (s.spot i).shutoff.told (s.strokeOf .shutoff) s.fe .toOpen } ∧
      ¬ (u.spot i).waits := by
  obtain ⟨u, hu, hui, hadv⟩ := resumed_arrivals hs
  refine ⟨u, ?_, hu, hui, fun hw => ?_⟩
  · rw [resumeSpot_eq, ← hu, hadv, onResumed]
    refine congrArg settle (if_neg fun e => ?_)
    rw [hui] at e
    exact Bool.false_ne_true ((Valve.told_isOpen_shut hv).symm.trans e.2.2.1)
  · have hwait := hw.2
    rw [hui] at hwait
    have hno : (s.spot i).headIs .waiting = false := Spot.headIs_one hs nofun
    exact Bool.false_ne_true (hno.symm.trans hwait)

/-- With its shutoff valve OPEN and the other two SHUT the head waits again at the same event. -/
theorem resumed_at_once (h1 : (s.spot i).shutoff.isOpen = true) (h2 : (s.spot i).liquid.isShut = true)
    (h3 : (s.spot i).vapour.isShut = true) (hfe : s.fe = true) :
    ∃ u, resumeSpot i s = settle u ∧ SpotWork i s u ∧
      u = (s.touchSpot i).modSpot i fun sp => { sp with
        state := .staged, shutoff := { sp.shutoff with command := .toOpen } }.modHead fun o => { o with state := .waiting } := by
  obtain ⟨u, hu, hui, hadv⟩ := resumed_arrivals hs
  have hf : (s.spot i).shutoff.isFault = false := by
    have hst : (s.spot i).shutoff.state = some .opened := by simpa [Valve.isOpen] using h1
    simp [Valve.isFault, hst]
  have htold : (s.spot i).shutoff.told (s.strokeOf .shutoff) s.fe .toOpen = { (s.spot i).shutoff with command := .toOpen } := by
    have he : (Command.toOpen == Command.toOpen && s.fe && !(s.spot i).shutoff.isFault) = true := by rw [hfe, hf]; rfl
    unfold Valve.told
    rw [he]
    exact Valve.pursue_idle (.inr (.inl ⟨rfl, .inl h1⟩))
  have hres : onResumed i u = (u.touchSpot i).modSpot i (Spot.modHead fun o => { o with state := .waiting }) := by
    refine if_pos ?_
    rw [hui, htold]
    exact ⟨rfl, hs, h1, h2, h3⟩
  have hall : onResumed i u = (s.touchSpot i).modSpot i fun sp => { sp with
      state := .staged, shutoff := { sp.shutoff with command := .toOpen } }.modHead fun o => { o with state := .waiting } := by
    rw [hres, hu]
    refine (modSpot_modSpot i _ _ (s.touchSpot i)).trans (modSpot_congr ?_)
    refine congrArg (Spot.modHead _) ?_
    exact (Spot.resumes_staged _ _ (Spot.headIs_orders hs)).trans (by rw [htold]; rfl)
  refine ⟨_, by rw [resumeSpot_eq, ← hu, hadv, hall], ?_, rfl⟩
  refine (SpotWork.touchSpot i i s).trans (.mod (fun sp => ?_) (fun sp => ?_) _)
  · exact Spot.modHead_car _ _
  · exact Spot.modHead_seat _ _

end Resume

/-! ## RESUME -/

theorem HoldSet.isEmpty_iff (h : HoldSet) : h.isEmpty = true ↔ h = .empty := by
  obtain ⟨a, b, c, d⟩ := h
  cases a <;> cases b <;> cases c <;> cases d <;> decide

section Answers

variable {place : Byte} {s : State} {i : SpotNo} (hn : s.namedSpot place = .ok i)

include hn

theorem answerResume_state (h : (s.spot i).state ≠ .held) : answerResume place s = (s, .bare .state) := by
  unfold answerResume
  rw [withSpot_ok _ hn]
  exact if_pos h

variable (h1 : (s.spot i).state = .held)

include h1

theorem answerResume_held : answerResume place s =
    if !(s.spot i).holds.isEmpty then (s, { status := .holdsRemain, body := [Layout.holdSet (s.spot i).holds] })
    else if (s.spot i).headIs .draining then (s, .bare .state)
    else (resumeSpot i s, .ok [Layout.spotState ((resumeSpot i s).spot i).state]) := by
  unfold answerResume
  rw [withSpot_ok _ hn]
  exact if_neg (by simp [h1])

theorem answerResume_holdsRemain (h : (s.spot i).holds ≠ .empty) :
    answerResume place s = (s, { status := .holdsRemain, body := [Layout.holdSet (s.spot i).holds] }) := by
  rw [answerResume_held hn h1]
  refine if_pos ?_
  cases e : (s.spot i).holds.isEmpty
  · rfl
  · exact absurd ((HoldSet.isEmpty_iff _).mp e) h

variable (h2 : (s.spot i).holds = .empty)

include h2

theorem answerResume_draining (h : (s.spot i).headIs .draining = true) : answerResume place s = (s, .bare .state) := by
  rw [answerResume_held hn h1, if_neg (by rw [h2]; decide), if_pos h]

theorem answerResume_done (h : (s.spot i).headIs .draining = false) : answerResume place s =
    (resumeSpot i s, .ok [Layout.spotState ((resumeSpot i s).spot i).state]) := by
  rw [answerResume_held hn h1, if_neg (by rw [h2]; decide), if_neg (by simp [h])]

end Answers

theorem comps_of_frame {s u : State} (h : u.frame = s.frame) : u.comps = s.comps := congrArg Frame.comps h
theorem grants_of_frame {s u : State} (h : u.frame = s.frame) : u.grants = s.grants := congrArg Frame.grants h

theorem settled_state {w : State} {i : SpotNo} (h : ¬ (w.spot i).waits) : ((settle w).spot i).state = (w.spot i).state := by
  obtain ⟨x, e⟩ := settle_spot w i h
  rw [e]

/-- RESUME accepted at an empty queue. -/
theorem resume_connects {s : State} {via : Via} {place : Byte} {i : SpotNo} (ht : s.canTake via = true)
    (hn : s.namedSpot place = .ok i) (h1 : (s.spot i).state = .held) (h2 : (s.spot i).holds = .empty) (ho : (s.spot i).orders = []) :
    ∃ t, s.answers (.resume via place) .done [3] t ∧
      (t.spot i).state = .connected ∧ (t.spot i).pulses = 0 ∧ (t.spot i).shutoff.command = .toOpen ∧
      (t.spot i).holds = .empty ∧ t.changes.spots.getLsbD i = true ∧ s.sameStore t ∧
      (s.waitsNowhereBut i → (s.spot i).seat = none → s.grants = [] → s.onlyAt t i) := by
  have after {v : State} (hv : v.frame = s.frame) :
      ∃ w, w = v.modSpot i (Spot.resumes (v.strokeOf .shutoff) v.fe) ∧ resumeSpot i v = settle w ∧ w.spot i = { s.spot i with
        state := .connected, pulses := 0, shutoff := (s.spot i).shutoff.told (v.strokeOf .shutoff) v.fe .toOpen } := by
    obtain ⟨hr, hsp⟩ := resumed_connected (i := i) (s := v) (by rw [spot_of_frame hv]; exact ho)
    refine ⟨_, rfl, hr, ?_⟩
    rw [modSpot_spot_same, hsp, spot_of_frame hv]
  obtain ⟨v, t, hv, ha, hframe, hch, -⟩ := answers_event (c := .resume via place) (s := s) (st := .done) (b := [3]) (f := resumeSpot i)
    ht rfl fun v hv => by
      obtain ⟨w, -, hr, hwi⟩ := after hv
      have hstate : ((resumeSpot i v).spot i).state = .connected := by
        rw [hr, settled_state (Spot.not_waits (by rw [hwi]; exact nofun)), hwi]
      have hdone := answerResume_done (s := v) ((namedSpot_of_frame hv _).trans hn) (by rw [spot_of_frame hv]; exact h1)
        (by rw [spot_of_frame hv]; exact h2) (by rw [spot_of_frame hv]; exact Spot.headIs_nil ho _)
      rw [hstate] at hdone
      exact hdone
  obtain ⟨w, hw, hr, hwi⟩ := after hv.frame
  rw [hr] at hframe hch
  obtain ⟨x, hx⟩ := settle_spot w i (Spot.not_waits (by rw [hwi]; exact nofun))
  have hti : t.spot i = { w.spot i with seat := x } := by
    rw [spot_of_frame hframe, ← hx]
    exact closeEvent_spot v _ i
  have hwork : SpotWork i v w := by
    rw [hw]
    refine .mod (fun sp => ?_) (fun sp => ?_) v
    · unfold Spot.resumes
      split <;> rfl
    · unfold Spot.resumes
      split <;> rfl
  refine ⟨t, ha, ?_, ?_, ?_, ?_, ?_, (hwork.kept.trans (kept_settle w)).sameStore hv.frame hframe, fun hq hseat hg => ?_⟩
  · rw [hti, hwi]
  · rw [hti, hwi]
  · rw [hti, hwi]
    exact Valve.told_command _ _ _ _
  · rw [hti, hwi]
    exact h2
  · rw [hch]
    refine spotFlag_of_ne (.inl ?_)
    rw [hx, hwi, spot_of_frame hv.frame, h1]
    exact nofun
  · have hwg : w.grants = [] := by
      have hvg : v.grants = s.grants := congrArg Frame.grants hv.frame
      rw [hw]
      exact hvg.trans hg
    rw [hwork.settles (waitsNowhereBut_of_frame hv.frame hq) (Spot.not_waits (by rw [hwi]; exact nofun)) (by rw [hwg]; exact nofun)]
      at hframe
    exact hwork.onlyAt hv.frame hv.scratch hframe

/-- RESUME accepted with a SUSPENDED head and the shutoff valve SHUT. -/
theorem resume_stages {s : State} {via : Via} {place : Byte} {i : SpotNo} (ht : s.canTake via = true)
    (hn : s.namedSpot place = .ok i) (h1 : (s.spot i).state = .held) (h2 : (s.spot i).holds = .empty)
    (hs : (s.spot i).headIs .suspended = true) (hsup : (s.spot i).shutoff.supervised = true)
    (hshut : (s.spot i).shutoff.isShut = true) (hfe : s.fe = true) :
    ∃ t, s.answers (.resume via place) .done [4] t ∧
      (t.spot i).state = .staged ∧ (t.spot i).orders = (s.spot i).orders ∧
      (t.spot i).shutoff = { (s.spot i).shutoff with
        command := .toOpen, state := some .movingOpen, timer := s.strokeOf .shutoff } ∧
      t.changes.spots.getLsbD i = true ∧ s.sameStore t := by
  have after {v : State} (hv : v.frame = s.frame) :
      ∃ w, resumeSpot i v = settle w ∧ Kept v w ∧ ¬ (w.spot i).waits ∧ w.spot i = { s.spot i with
        state := .staged, shutoff := (s.spot i).shutoff.opening (s.strokeOf .shutoff) } := by
    obtain ⟨w, hr, hw, hwi, hno⟩ := resumed_waits (i := i) (s := v) (by rw [spot_of_frame hv]; exact hs)
      (by rw [spot_of_frame hv]; exact hshut)
    refine ⟨w, hr, hw ▸ .modSpot i _ v, hno, ?_⟩
    rw [hwi, spot_of_frame hv, fe_of_frame hv, hfe, strokeOf_of_frame hv, Valve.told_opening hsup hshut]
  obtain ⟨v, t, hv, ha, hframe, hch, -⟩ := answers_event (c := .resume via place) (s := s) (st := .done) (b := [4]) (f := resumeSpot i)
    ht rfl fun v hv => by
      obtain ⟨w, hr, -, hno, hwi⟩ := after hv
      have hstate : ((resumeSpot i v).spot i).state = .staged := by rw [hr, settled_state hno, hwi]
      have hdone := answerResume_done (s := v) ((namedSpot_of_frame hv _).trans hn) (by rw [spot_of_frame hv]; exact h1)
        (by rw [spot_of_frame hv]; exact h2) (by rw [spot_of_frame hv]; exact Spot.headIs_one hs nofun)
      rw [hstate] at hdone
      exact hdone
  obtain ⟨w, hr, hkept, hno, hwi⟩ := after hv.frame
  rw [hr] at hframe hch
  obtain ⟨x, hx⟩ := settle_spot w i hno
  have hti : t.spot i = { w.spot i with seat := x } := by
    rw [spot_of_frame hframe, ← hx]
    exact closeEvent_spot v _ i
  refine ⟨t, ha, ?_, ?_, ?_, ?_, (hkept.trans (kept_settle w)).sameStore hv.frame hframe⟩
  · rw [hti, hwi]
  · rw [hti, hwi]
  · rw [hti, hwi]
    rfl
  · rw [hch]
    refine spotFlag_of_ne (.inl ?_)
    rw [hx, hwi, spot_of_frame hv.frame, h1]
    exact nofun

/-- RESUME accepted with a SUSPENDED head, the shutoff valve OPEN and the other two SHUT: the arbiter scans at the same event. -/
theorem resume_scans {s : State} {via : Via} {place : Byte} {i : SpotNo} (ht : s.canTake via = true)
    (hn : s.namedSpot place = .ok i) (h1 : (s.spot i).state = .held) (h2 : (s.spot i).holds = .empty)
    (hs : (s.spot i).headIs .suspended = true) (hopen : (s.spot i).shutoff.isOpen = true)
    (hl : (s.spot i).liquid.isShut = true) (hv : (s.spot i).vapour.isShut = true) (hfe : s.fe = true) :
    ∃ t u, s.answers (.resume via place) .done [Layout.spotState (t.spot i).state] t ∧
      u.frame = { s.frame with
        spots := s.spots.set i ({ s.spot i with
          state := .staged, shutoff := { (s.spot i).shutoff with command := .toOpen } }.modHead
            fun o => { o with state := .waiting }) } ∧
      (t.spot i) = (settle u).spot i ∧ t.comps = (settle u).comps ∧ t.grants = (settle u).grants ∧ s.sameStore t := by
  obtain ⟨v, t, hf, ha, hframe, -, -⟩ := answers_eventOf (c := .resume via place) (s := s) (st := .done)
    (b := fun v => [Layout.spotState ((resumeSpot i v).spot i).state]) (f := resumeSpot i) ht rfl fun v hf =>
      answerResume_done ((namedSpot_of_frame hf _).trans hn) (by rw [spot_of_frame hf]; exact h1) (by rw [spot_of_frame hf]; exact h2)
        (by rw [spot_of_frame hf]; exact Spot.headIs_one hs nofun)
  have hvi := spot_of_frame hf.frame i
  obtain ⟨u, hr, hwork, hu⟩ := resumed_at_once (i := i) (s := v) (by rwa [hvi]) (by rwa [hvi]) (by rwa [hvi]) (by rwa [hvi])
    ((fe_of_frame hf.frame).trans hfe)
  rw [hr] at hframe
  have hti : t.spot i = (settle u).spot i := by rw [spot_of_frame hframe, closeEvent_spot]
  have hcomps := comps_of_frame hframe
  have hgrants := grants_of_frame hframe
  rw [closeEvent_comps] at hcomps
  rw [closeEvent_grants] at hgrants
  have huf : u.frame = { s.frame with
      spots := s.spots.set i ({ s.spot i with
        state := .staged, shutoff := { (s.spot i).shutoff with command := .toOpen } }.modHead fun o => { o with state := .waiting }) } := by
    have hvs : v.spots = s.spots := congrArg Frame.spots hf.frame
    have hframe' : u.frame = { v.frame with
        spots := v.spots.set i ({ v.spot i with
          state := .staged, shutoff := { (v.spot i).shutoff with command := .toOpen } }.modHead
            fun o => { o with state := .waiting }) } := by
      rw [hu]
      rfl
    rw [hframe', hf.frame, hvs, hvi]
  have hreply : (t.spot i).state = ((resumeSpot i v).spot i).state := by rw [hti, hr]
  refine ⟨t, u, ?_, huf, hti, hcomps, hgrants, (hwork.kept.trans (kept_settle u)).sameStore hf.frame hframe⟩
  rw [hreply]
  exact ha

/-- Settles O30: the checks in order; then the three ways in which a HELD spot resumes. -/
theorem resumeOpensTheShutoff : Obligations.ResumeOpensTheShutoff := by
  intro s via place i ht hn
  have hname {u : State} (hu : u.frame = s.frame) : u.namedSpot place = .ok i := (namedSpot_of_frame hu _).trans hn
  refine ⟨fun h => ?_, fun h1 h => ?_, fun h1 h2 h => ?_, fun h1 h2 ho => resume_connects ht hn h1 h2 ho, fun h1 h2 hs =>
    ⟨fun hsup hshut hfe => resume_stages ht hn h1 h2 hs hsup hshut hfe, fun ho hl hv hfe => resume_scans ht hn h1 h2 hs ho hl hv hfe⟩⟩
  · exact refuses_of (c := .resume via place) ht rfl fun u hu => answerResume_state (hname hu) (by rwa [spot_of_frame hu])
  · refine refuses_of (c := .resume via place) ht rfl fun u hu => ?_
    have hno := answerResume_holdsRemain (hname hu) (by rwa [spot_of_frame hu]) (by rwa [spot_of_frame hu])
    rwa [spot_of_frame hu] at hno
  · exact refuses_of (c := .resume via place) ht rfl fun u hu =>
      answerResume_draining (hname hu) (by rwa [spot_of_frame hu]) (by rwa [spot_of_frame hu]) (by rwa [spot_of_frame hu])

end Sys2Proof.Machine
end

section
/-! PROOFS. The pendant's buttons (R8, R50). -/

namespace Sys2Proof.Machine

theorem exec_pendantConnected (i : SpotNo) (s : State) : exec (.pendantConnected i) s = .next (connectedPressed i s) := rfl
theorem exec_pendantStop (i : SpotNo) (s : State) : exec (.pendantStop i) s = .next (stopPressed i s) := rfl
theorem exec_pendantClear (i : SpotNo) (s : State) : exec (.pendantClear i) s = .next (clearPressed i s) := rfl

theorem ifFitted_on {i : SpotNo} {f : SpotNo → State → State} {s : State} (h : s.fittedSpot i = true) : ifFitted i f s = f i s := if_pos h
theorem ifFitted_off {i : SpotNo} {f : SpotNo → State → State} {s : State} (h : s.fittedSpot i = false) : ifFitted i f s = s :=
  if_neg (by simp [h])

/-- A press at which the button's work changes nothing moves the button's filter alone. -/
theorem press_alone {i : SpotNo} {b : Spot → Spot} {p : SpotNo → State → State} {s : State}
    (hp : s.fittedSpot i = true → p i ((clearScratch s).modSpot i b) = (clearScratch s).modSpot i b)
    (hview : (s.modSpot i b).spotView i = s.spotView i) (ho : (b (s.spot i)).orders = (s.spot i).orders)
    (hl : (b (s.spot i)).liquid.state = (s.spot i).liquid.state) :
    (event (fun s => ifFitted i p (s.modSpot i b)) s).frame = { s.frame with spots := s.spots.set i (b (s.spot i)) } ∧
      (event (fun s => ifFitted i p (s.modSpot i b)) s).changes.cars = s.changes.cars ∧
      (s.inletsFollow → (event (fun s => ifFitted i p (s.modSpot i b)) s).changes = s.changes) := by
  have hg : ifFitted i p ((clearScratch s).modSpot i b) = (clearScratch s).modSpot i b := by
    cases hf : s.fittedSpot i
    · exact ifFitted_off (s := (clearScratch s).modSpot i b) hf
    · exact (ifFitted_on (s := (clearScratch s).modSpot i b) hf).trans (hp hf)
  refine ⟨event_oneSpot hg, ?_, event_oneSpot_quiet hg hview ho hl⟩
  rw [event_eq, hg, closeEvent_carFlags rfl]
  exact BitVec.or_zero

/-! ## The buttons' filters -/

/-- The CONNECTED button pressed. -/
def Spot.connectedDown (sp : Spot) : Spot := { sp with connectedButton := .at true }
/-- The STOP button pressed. -/
def Spot.stopDown (sp : Spot) : Spot := { sp with stopButton := .at true }
/-- The CLEAR button pressed. -/
def Spot.clearDown (sp : Spot) : Spot := { sp with clearButton := .at true }

theorem connectedDown_view (i : SpotNo) (s : State) : (s.modSpot i Spot.connectedDown).spotView i = s.spotView i := by
  unfold State.spotView
  rw [modSpot_spot_same]
  rfl
theorem stopDown_view (i : SpotNo) (s : State) : (s.modSpot i Spot.stopDown).spotView i = s.spotView i := by
  unfold State.spotView
  rw [modSpot_spot_same]
  rfl
theorem clearDown_view (i : SpotNo) (s : State) : (s.modSpot i Spot.clearDown).spotView i = s.spotView i := by
  unfold State.spotView
  rw [modSpot_spot_same]
  rfl

/-! ## CONNECTED -/

theorem pressConnected_off {i : SpotNo} {s : State} (h : (s.spot i).state ≠ .spotted ∨ ∀ c, s.boundCar i = some c → c.hoses = true) :
    pressConnected i s = s := by
  unfold pressConnected
  split
  next c h1 h2 =>
    rcases h with h | h
    · exact absurd h1 h
    · exact if_pos (h c h2)
  next => rfl

theorem pressConnected_confirms {i : SpotNo} {s : State} {hd : Handle} {c : Car} (h1 : (s.spot i).state = .spotted)
    (h2 : (s.spot i).car = some hd) (h3 : s.car hd.slot = some c) (h4 : c.hoses = false) :
    pressConnected i s = s.modCar hd.slot fun c => { c with hoses := true } := by
  have hb : s.boundCar i = some c := by
    unfold State.boundCar
    rw [h2]
    exact h3
  unfold pressConnected
  rw [h1, hb]
  dsimp only
  rw [if_neg (by simp [h4])]
  unfold State.modCarAt
  rw [h2]

theorem connected_confirms {s : State} {i : SpotNo} {hd : Handle} {car : Car} (hf : s.fittedSpot i = true)
    (h1 : (s.spot i).state = .spotted) (h2 : (s.spot i).car = some hd) (h3 : s.car hd.slot = some car) (h4 : car.hoses = false) :
    ∃ t, exec (.pendantConnected i) s = .next t ∧
      t.frame = { s.frame with
        spots := s.spots.set i { s.spot i with connectedButton := { active := true, count := 0 } }
        cars := s.cars.set hd.slot
          { issue := (s.carSlot hd.slot).issue
            car := some { car with hoses := true, revision := car.revision + 1 } } } ∧
      t.changes.cars = s.changes.cars ||| BitVec.twoPow 24 hd.slot := by
  have hsp := modSpot_spot_same (clearScratch s) i Spot.connectedDown
  have heff : ifFitted i pressConnected ((clearScratch s).modSpot i Spot.connectedDown) =
      ((clearScratch s).modSpot i Spot.connectedDown).modCar hd.slot fun c => { c with hoses := true } := by
    rw [ifFitted_on (s := (clearScratch s).modSpot i Spot.connectedDown) hf]
    exact pressConnected_confirms (c := car) (by rw [hsp]; exact h1) (by rw [hsp]; exact h2) h3 h4
  obtain ⟨e1, e2⟩ := spotAndCar_event (clearScratch_frame s) rfl rfl h3 heff
  have hclose : connectedPressed i s = closeEvent (clearScratch s) (ifFitted i pressConnected
      ((clearScratch s).modSpot i Spot.connectedDown)) := event_eq _ s
  exact ⟨_, (exec_pendantConnected i s).trans (congrArg Host.Outcome.next hclose), e1, e2⟩

/-! ## STOP -/

theorem pressStop_proving {i : SpotNo} {s : State} (h : (s.spot i).state = .proving) :
    pressStop i s = settle (advanceSpot i (enterIsolating .stopped .stopped (some .stopped) i s)) := by
  unfold pressStop
  rw [h]
  rfl

theorem pressStop_holds {i : SpotNo} {s : State} (h : (s.spot i).state.holdable ∨ (s.spot i).state = .held) :
    pressStop i s = settle (holdSpot i .crewStop s) := by
  unfold pressStop
  rcases h with (h | h | h | h) | h <;> rw [h]

theorem pressStop_off {i : SpotNo} {s : State} (h : (s.spot i).state.isolable = false) : pressStop i s = s := by
  unfold pressStop
  cases hs : (s.spot i).state <;> rw [hs] at h
  case proving => cases h
  case connected => cases h
  case staged => cases h
  case transfer => cases h
  case recovery => cases h
  case held => cases h

theorem stopPressed_eq {i : SpotNo} {s : State} (hf : s.fittedSpot i = true) :
    ∃ u, u = (clearScratch s).modSpot i Spot.stopDown ∧ u.spot i = (s.spot i).stopDown ∧
      stopPressed i s = closeEvent (clearScratch s) (pressStop i u) ∧ SpotWork i (clearScratch s) u := by
  refine ⟨_, rfl, modSpot_spot_same _ _ _, ?_, .mod (by intro; rfl) (by intro; rfl) _⟩
  have h : ifFitted i pressStop ((clearScratch s).modSpot i Spot.stopDown) = pressStop i ((clearScratch s).modSpot i Spot.stopDown) :=
    ifFitted_on hf
  exact (event_eq _ s).trans (congrArg (closeEvent (clearScratch s)) h)

theorem stop_isolates {s : State} {i : SpotNo} (hf : s.fittedSpot i = true) (h1 : (s.spot i).state = .proving) :
    ∃ t, exec (.pendantStop i) s = .next t ∧ (t.spot i).state = .isolating ∧ (t.spot i).fault = some .stopped ∧
      t.changes.spots.getLsbD i = true ∧ s.sameStore t ∧ (s.waitsNowhereBut i → s.onlyAt t i) := by
  obtain ⟨u, -, hui, hclose, hwork⟩ := stopPressed_eq hf
  have hiso := isolationWork .stopped .stopped (some .stopped) i u
  rw [pressStop_proving (by rw [hui]; exact h1)] at hclose
  obtain ⟨hl, -, hflag, hstore, honly⟩ := hiso.event hwork (clearScratch_frame s) rfl (congrArg State.frame hclose)
    (congrArg State.changes hclose)
  exact ⟨_, exec_pendantStop i s, hl.state, hl.fault, hflag, hstore, honly⟩

theorem stop_holds {s : State} {i : SpotNo} (hf : s.fittedSpot i = true) (h1 : (s.spot i).state.holdable)
    (h2 : (s.spot i).holds = .empty) (hd : (s.spot i).stillDrains) :
    ∃ t stroke, exec (.pendantStop i) s = .next t ∧ t.spot i = (s.spot i).stopDown.held stroke .crewStop ∧
      t.changes.spots.getLsbD i = true ∧ s.sameStore t ∧ (s.waitsNowhereBut i → s.onlyAt t i) := by
  obtain ⟨u, -, hui, hclose, hwork⟩ := stopPressed_eq hf
  have hr : (u.spot i).holds.has .crewStop = false := by
    rw [hui]
    show (s.spot i).holds.crewStop = false
    rw [h2]
    rfl
  have hst : (u.spot i).state.holdable := by
    rw [hui]
    exact h1
  rw [pressStop_holds (.inl hst), holdSpot_enters hr hst (by rw [hui]; exact hd)] at hclose
  obtain ⟨hdone, hno, hun, hflag⟩ := addHold_done hr hst
  obtain ⟨hti, hflag, hstore, honly⟩ := SpotDone.event ⟨hwork.trans hdone, hno, hun, hflag⟩ (clearScratch_frame s) rfl
    (congrArg State.frame hclose) (congrArg State.changes hclose)
  rw [addHold_spot hr hst, hui] at hti
  exact ⟨_, _, exec_pendantStop i s, hti, hflag, hstore, honly⟩

/-- The STOP button's reason in the hold set of a HELD spot. -/
def Spot.stopHeld (sp : Spot) : Spot := { sp.stopDown with holds := { sp.holds with crewStop := true } }

theorem stop_held {s : State} {i : SpotNo} (hf : s.fittedSpot i = true) (h1 : (s.spot i).state = .held) (hsteady : (s.spot i).steady)
    (hdue : s.due = none) :
    (stopPressed i s).frame = { s.frame with spots := s.spots.set i (s.spot i).stopHeld } ∧
      ((s.spot i).holds.crewStop = false → (stopPressed i s).changes.spots.getLsbD i = true) := by
  obtain ⟨u, hu, hui, hclose, -⟩ := stopPressed_eq hf
  have hust : (u.spot i).state = .held := by rw [hui]; exact h1
  obtain ⟨w, hw⟩ : ∃ w, w = (clearScratch s).modSpot i Spot.stopHeld := ⟨_, rfl⟩
  have hwi : w.spot i = (s.spot i).stopHeld := by
    rw [hw]
    exact modSpot_spot_same _ _ _
  have hadd : addHold i .crewStop u = w := by
    cases hr : (u.spot i).holds.has .crewStop
    · rw [addHold_held hr hust nofun, hu, hw]
      exact modSpot_modSpot i _ _ _
    · rw [addHold_has hr, hu, hw]
      refine modSpot_congr ?_
      have hc : (s.spot i).holds.crewStop = true := by
        rw [hui] at hr
        exact hr
      have hh : (s.spot i).holds = { (s.spot i).holds with crewStop := true } := by rw [← hc]
      exact congrArg (fun h => { (s.spot i).stopDown with holds := h }) hh
  have hhold : holdSpot i .crewStop u = w := by
    unfold holdSpot
    rw [hadd]
    refine advanceSpot_held ?_ ?_ <;> rw [hwi]
    · exact h1
    · exact hsteady.2.2.1
  have hsettle : settle w = w := by
    refine settle_unstaged (s := s) hdue (by rw [h1]; exact nofun) (by rw [hwi]; show (s.spot i).state ≠ _; rw [h1]; exact nofun)
      (fun j hj => ?_) ?_ ?_ ?_ ?_
    · rw [hw]
      exact modSpot_spot_other _ i j _ hj
    all_goals rw [hw]; rfl
  have hg : pressStop i u = (clearScratch s).modSpot i Spot.stopHeld := by rw [pressStop_holds (.inr hust), hhold, hsettle, hw]
  rw [hg] at hclose
  rw [hclose]
  refine ⟨oneSpot_event (clearScratch_frame s) rfl (.inl rfl), fun hc => spotFlag_of_view (fun x => x.holds.crewStop) ?_⟩
  show (s.spot i).holds.crewStop ≠ (((clearScratch s).modSpot i Spot.stopHeld).spot i).holds.crewStop
  rw [modSpot_spot_same, hc]
  exact nofun

/-! ## CLEAR -/

/-- The CLEAR button's work on a HELD spot before it resumes. -/
def Spot.clearHeld (sp : Spot) : Spot := { sp.clearDown with holds := { sp.holds with crewStop := false } }

theorem pressClear_off {i : SpotNo} {s : State} (h : (s.spot i).state ≠ .held) : pressClear i s = s := if_neg h

theorem pressClear_held {i : SpotNo} {s : State} (hf : s.fittedSpot i = true) (h : (s.spot i).state = .held) :
    ∃ u, u = (clearScratch s).modSpot i Spot.clearHeld ∧ u.spot i = (s.spot i).clearHeld ∧
      clearPressed i s = closeEvent (clearScratch s)
        (if (u.spot i).holds.isEmpty && !(u.spot i).headIs .draining then resumeSpot i u else u) := by
  obtain ⟨a, ha⟩ : ∃ a, a = (clearScratch s).modSpot i Spot.clearDown := ⟨_, rfl⟩
  have hst : (a.spot i).state = .held := by
    rw [ha, modSpot_spot_same]
    exact h
  have hrem : removeHold i .crewStop a = (clearScratch s).modSpot i Spot.clearHeld := by
    rw [ha]
    exact modSpot_modSpot i _ _ _
  have hpress : ifFitted i pressClear a = pressClear i a := ifFitted_on (by rw [ha]; exact hf)
  refine ⟨_, rfl, modSpot_spot_same _ _ _, ?_⟩
  have hclose : clearPressed i s = closeEvent (clearScratch s) (ifFitted i pressClear a) := ha ▸ event_eq _ s
  rw [hclose, hpress]
  unfold pressClear
  dsimp only
  rw [if_pos hst, hrem]

theorem clear_stays {s : State} {i : SpotNo} (hf : s.fittedSpot i = true) (h1 : (s.spot i).state = .held)
    (h2 : { (s.spot i).holds with crewStop := false } ≠ HoldSet.empty ∨ (s.spot i).headIs .draining = true) :
    (clearPressed i s).frame = { s.frame with spots := s.spots.set i (s.spot i).clearHeld } ∧
      ((s.spot i).holds.crewStop = true → (clearPressed i s).changes.spots.getLsbD i = true) := by
  obtain ⟨u, hu, hui, hclose⟩ := pressClear_held hf h1
  have hno : ¬ ((u.spot i).holds.isEmpty && !(u.spot i).headIs .draining) = true := by
    intro e
    obtain ⟨e1, e2⟩ := (Bool.and_eq_true _ _).mp e
    rw [hui] at e1 e2
    rcases h2 with h2 | h2
    · exact h2 ((HoldSet.isEmpty_iff _).mp e1)
    · rw [show (s.spot i).clearHeld.headIs .draining = (s.spot i).headIs .draining from rfl, h2] at e2
      cases e2
  rw [if_neg hno, hu] at hclose
  rw [hclose]
  refine ⟨oneSpot_event (clearScratch_frame s) rfl (.inl rfl), fun hc => spotFlag_of_view (fun x => x.holds.crewStop) ?_⟩
  show (s.spot i).holds.crewStop ≠ (((clearScratch s).modSpot i Spot.clearHeld).spot i).holds.crewStop
  rw [modSpot_spot_same, hc]
  exact nofun

/-- The CLEAR button that empties the hold set: the spot resumes. -/
theorem clear_resumes {s : State} {i : SpotNo} (hf : s.fittedSpot i = true) (h1 : (s.spot i).state = .held)
    (h2 : { (s.spot i).holds with crewStop := false } = HoldSet.empty) (hd : (s.spot i).headIs .draining = false) :
    ∃ u, u.spot i = (s.spot i).clearHeld ∧ (u.spot i).holds = .empty ∧ SpotWork i (clearScratch s) u ∧
      clearPressed i s = closeEvent (clearScratch s) (resumeSpot i u) := by
  obtain ⟨u, hu, hui, hclose⟩ := pressClear_held hf h1
  have hholds : (u.spot i).holds = .empty := by
    rw [hui]
    exact h2
  have hdrain : (u.spot i).headIs .draining = false := by
    rw [hui]
    exact hd
  rw [if_pos (by rw [hholds, hdrain]; rfl)] at hclose
  exact ⟨u, hui, hholds, by rw [hu]; exact .mod (by intro; rfl) (by intro; rfl) _, hclose⟩

theorem clear_connects {s : State} {i : SpotNo} (hf : s.fittedSpot i = true) (h1 : (s.spot i).state = .held)
    (h2 : { (s.spot i).holds with crewStop := false } = HoldSet.empty) (ho : (s.spot i).orders = []) :
    ∃ t, exec (.pendantClear i) s = .next t ∧ (t.spot i).state = .connected ∧ (t.spot i).pulses = 0 ∧
      (t.spot i).holds = .empty ∧ (t.spot i).shutoff.command = .toOpen ∧ t.changes.spots.getLsbD i = true ∧ s.sameStore t := by
  obtain ⟨u, hui, hholds, hwork, hclose⟩ := clear_resumes hf h1 h2 (Spot.headIs_nil ho _)
  obtain ⟨hr, hsp⟩ := resumed_connected (i := i) (s := u) (by rw [hui]; exact ho)
  obtain ⟨w, hw⟩ : ∃ w, w = u.modSpot i (Spot.resumes (u.strokeOf .shutoff) u.fe) := ⟨_, rfl⟩
  have hwi : w.spot i = { u.spot i with
      state := .connected, pulses := 0, shutoff := (u.spot i).shutoff.told (u.strokeOf .shutoff) u.fe .toOpen } := by
    rw [hw, modSpot_spot_same, hsp]
  have hkept : Kept u w := hw ▸ .modSpot i _ u
  rw [hr, ← hw] at hclose
  obtain ⟨x, hx⟩ := settle_spot w i (Spot.not_waits (by rw [hwi]; exact nofun))
  have hti : (clearPressed i s).spot i = { w.spot i with seat := x } := by rw [hclose, closeEvent_spot, hx]
  refine ⟨_, exec_pendantClear i s, ?_, ?_, ?_, ?_, ?_,
    ((hwork.kept.trans hkept).trans (kept_settle w)).sameStore (clearScratch_frame s) (congrArg State.frame hclose)⟩
  · rw [hti, hwi]
  · rw [hti, hwi]
  · rw [hti, hwi]
    exact hholds
  · rw [hti, hwi]
    exact Valve.told_command _ _ _ _
  · rw [hclose]
    refine spotFlag_of_ne (.inl ?_)
    rw [hx, hwi]
    show (s.spot i).state ≠ _
    rw [h1]
    exact nofun

theorem clear_stages {s : State} {i : SpotNo} (hf : s.fittedSpot i = true) (h1 : (s.spot i).state = .held)
    (h2 : { (s.spot i).holds with crewStop := false } = HoldSet.empty) (hs : (s.spot i).headIs .suspended = true)
    (hshut : (s.spot i).shutoff.isShut = true) :
    ∃ t, exec (.pendantClear i) s = .next t ∧ (t.spot i).state = .staged ∧ (t.spot i).holds = .empty ∧
      (t.spot i).orders = (s.spot i).orders ∧ (t.spot i).shutoff.command = .toOpen ∧
      t.changes.spots.getLsbD i = true ∧ s.sameStore t := by
  obtain ⟨u, hui, hholds, hwork, hclose⟩ := clear_resumes hf h1 h2 (Spot.headIs_one hs nofun)
  obtain ⟨w, hr, hw, hwi, hno⟩ := resumed_waits (i := i) (s := u) (by rw [hui]; exact hs) (by rw [hui]; exact hshut)
  have hkept : Kept u w := hw ▸ .modSpot i _ u
  rw [hr] at hclose
  obtain ⟨x, hx⟩ := settle_spot w i hno
  have hti : (clearPressed i s).spot i = { w.spot i with seat := x } := by rw [hclose, closeEvent_spot, hx]
  refine ⟨_, exec_pendantClear i s, ?_, ?_, ?_, ?_, ?_,
    ((hwork.kept.trans hkept).trans (kept_settle w)).sameStore (clearScratch_frame s) (congrArg State.frame hclose)⟩
  · rw [hti, hwi]
  · rw [hti, hwi]
    exact hholds
  · rw [hti, hwi, hui]
    rfl
  · rw [hti, hwi]
    exact Valve.told_command _ _ _ _
  · rw [hclose]
    refine spotFlag_of_ne (.inl ?_)
    rw [hx, hwi]
    show (s.spot i).state ≠ _
    rw [h1]
    exact nofun

/-- Settles O51: the three buttons by the spot's state, and the presses that move their filter alone. -/
theorem pendantPressesAct : Obligations.PendantPressesAct := by
  intro s i
  refine ⟨fun hd car hf h1 h2 h3 h4 => connected_confirms hf h1 h2 h3 h4, fun h => ?_, fun hf h1 => stop_isolates hf h1,
    fun hf h1 h2 hd => ?_, fun hf h1 hsteady hdue => ⟨_, exec_pendantStop i s, stop_held hf h1 hsteady hdue⟩, fun h => ?_, fun h => ?_,
    fun hf h1 => ⟨fun h2 => ⟨_, exec_pendantClear i s, clear_stays hf h1 h2⟩, fun h2 => ⟨fun ho => clear_connects hf h1 h2 ho,
      fun hs hshut => clear_stages hf h1 h2 hs hshut⟩⟩⟩
  · have hoff : s.fittedSpot i = true → pressConnected i ((clearScratch s).modSpot i Spot.connectedDown) =
        (clearScratch s).modSpot i Spot.connectedDown := fun hf => by
      have hsp := modSpot_spot_same (clearScratch s) i Spot.connectedDown
      refine pressConnected_off ?_
      rcases h with h | h | h
      · rw [hf] at h
        cases h
      · exact .inl (by rw [hsp]; exact h)
      · refine .inr fun c hc => h c ?_
        unfold State.boundCar at hc ⊢
        rw [hsp] at hc
        exact hc
    exact ⟨_, exec_pendantConnected i s, press_alone hoff (connectedDown_view i s) rfl rfl⟩
  · obtain ⟨t, stroke, ht, hti, hflag, hstore, honly⟩ := stop_holds hf h1 h2 hd
    obtain ⟨htail, htags⟩ := Spot.held_rest stroke .crewStop (s.spot i).stopDown
    refine ⟨t, ht, ?_⟩
    rw [hti]
    refine ⟨rfl, ?_, htail, htags, fun h hh => ?_, rfl, Valve.toldShut_command _ _, Valve.toldShut_command _ _, ?_, ?_, ?_, hflag,
      hstore, honly⟩
    · show (s.spot i).holds.put .crewStop true = _
      rw [h2]
      rfl
    · obtain ⟨e1, e2⟩ := Spot.held_head stroke .crewStop (sp := (s.spot i).stopDown) hh
      exact ⟨fun e => e1 (e.imp_right .inl), e2⟩
    all_goals rfl
  · obtain ⟨hframe, -, hch⟩ := press_alone (i := i) (b := Spot.stopDown) (p := pressStop) (s := s) (fun hf => by
      refine pressStop_off ?_
      rw [modSpot_spot_same]
      rw [hf] at h
      exact h) (stopDown_view i s) rfl rfl
    exact ⟨_, exec_pendantStop i s, hframe, hch⟩
  · obtain ⟨hframe, -, hch⟩ := press_alone (i := i) (b := Spot.clearDown) (p := pressClear) (s := s) (fun hf => by
      refine pressClear_off ?_
      rw [modSpot_spot_same]
      rcases h with h | h
      · rw [hf] at h
        cases h
      · exact h) (clearDown_view i s) rfl rfl
    exact ⟨_, exec_pendantClear i s, hframe, hch⟩

end Sys2Proof.Machine
end

section
/-! PROOFS. Ends of orders (R9, R67 to R72): the last end of an order that leaves alone, a head that ends by itself in RECOVERY, one
that drains, and a spot that faults. -/

namespace Sys2Proof.Machine

/-! ## The ledger of an event -/

/-- What the close of an event goes by for the car records: the records, those changed, and the orders that have left. -/
structure Ledger where
  cars : Vector CarSlot 24
  touched : BitVec 24
  departed : List Departed

def State.ledger (s : State) : Ledger := { cars := s.cars, touched := s.scratch.touched, departed := s.scratch.departed }

theorem ledger_commandSpot (i : SpotNo) (n : ValveName) (c : Command) (s : State) : (commandSpot i n c s).ledger = s.ledger := rfl

theorem CompWork.ledger {c : CompNo} {s t : State} (h : CompWork c s t) : t.ledger = s.ledger := by
  unfold State.ledger
  rw [h.cars, h.touched, h.departed]

theorem ledger_releaseSeat (i : SpotNo) (s : State) : (releaseSeat i s).ledger = s.ledger := by
  cases h : (s.spot i).seat with
  | none => rw [releaseSeat_unseated h]
  | some c =>
    rw [releaseSeat_seated h]
    exact (compWork_compOnEmpty c (unseat i c s)).ledger

theorem ledger_dropGrant (i : SpotNo) (s : State) : (dropGrant i s).ledger = s.ledger := by
  have turn : ∀ (u : State) (c : CompNo), (clearTurning i c u).ledger = u.ledger := fun u c => by
    unfold clearTurning
    split <;> rfl
  unfold dropGrant
  dsimp only
  refine (foldl_keeps State.ledger _ turn _ _).trans ?_
  split <;> rfl

theorem ledger_leaveCompressors (i : SpotNo) (s : State) : (leaveCompressors i s).ledger = s.ledger :=
  (ledger_dropGrant i _).trans (ledger_releaseSeat i s)

theorem ledger_depart (i : SpotNo) (o : Order) (s : State) :
    (depart i o s).ledger = { s.ledger with departed := s.scratch.departed ++ [{ spot := i, order := o }] } := by
  unfold depart
  dsimp only
  split <;> rfl

/-! ## The last end of one order -/

/-- An order that leaves alone writes its last end into the record of the bound car, whose revision rises once (R5, R9). -/
theorem closeEvent_lastEnd {b w : State} {i : SpotNo} {o : Order} {hd : Handle} {c : Car}
    (hw : w.ledger = { cars := b.cars, touched := 0, departed := [{ spot := i, order := o }] })
    (hc : (w.spot i).car = some hd) (hcar : b.car hd.slot = some c) :
    (closeEvent b w).car hd.slot = some { c with
      lastEnd := some o.lastEnd, recovered := c.recovered || o.reason == some .residual, revision := c.revision + 1 } := by
  have hcars : w.cars = b.cars := congrArg Ledger.cars hw
  have htouched : w.scratch.touched = 0 := congrArg Ledger.touched hw
  have hdep : w.scratch.departed = [{ spot := i, order := o }] := congrArg Ledger.departed hw
  have hwcar : w.car hd.slot = some c := by
    unfold State.car State.carSlot at hcar ⊢
    rw [hcars]
    exact hcar
  have hwrite : writeLastEnd b i w = w.modCar hd.slot fun c =>
      { c with lastEnd := some o.lastEnd, recovered := c.recovered || o.reason == some .residual } := by
    unfold writeLastEnd State.modCarAt
    rw [hdep, hc]
    simp [tailMost]
  have hone := closeEvent_carSlot_one b w i hd.slot (by rw [hdep]; simp)
  have hbit : (w.modCar hd.slot fun c =>
      { c with lastEnd := some o.lastEnd, recovered := c.recovered || o.reason == some .residual }).scratch.touched.getLsbD hd.slot =
        true := by
    simp [State.modCar, State.modSlot]
  rw [hwrite, if_pos hbit] at hone
  have hrec := congrArg CarSlot.car hone
  rw [modCar_car, if_pos rfl, hwcar] at hrec
  exact hrec

/-! ## A RECOVERY head that ends by itself -/

/-- A spot whose only order, a RUNNING RECOVERY head, has ended (R67, R72). -/
def Spot.recovered (stroke : Timer) (sp : Spot) : Spot :=
  { sp.stopMeter with
    state := .connected, orders := [], seat := none, recoveryTimer := .stopped, pulses := 0, vapour := sp.vapour.toldShut stroke }

theorem advanceSpot_connected {i : SpotNo} {s : State} (hst : (s.spot i).state = .connected) (ho : (s.spot i).orders = []) :
    advanceSpot i s = s := by
  refine advanceSpot_head ?_ (by rw [hst]; exact nofun) (by rw [hst]; exact nofun) (by rw [hst]; exact nofun)
  rw [onShutoffOpen_off (by rw [hst]; exact nofun), onLiquidOpen_off (by rw [hst]; exact nofun), onDrained_empty ho]

section Recovery

variable {i : SpotNo} {s : State} {h : Order} (r : EndReason) (hst : (s.spot i).state = .recovery) (ho : (s.spot i).orders = [h])
  (hl : h.liquid = none) (hr : h.state = .running) (hc : h.closeAfter = false)

include hst ho hl hr hc

theorem endHead_recovery : SpotDone i s (advanceSpot i (endHead i r s)) ∧
    (advanceSpot i (endHead i r s)).spot i = (s.spot i).recovered (s.strokeOf .vapour) ∧
    (advanceSpot i (endHead i r s)).ledger = { s.ledger with
      departed := s.scratch.departed ++ [{ spot := i, order := { h with reason := some r } }] } := by
  have hh : (s.spot i).head = some h := by simp [Spot.head, ho]
  have hdrains : (s.spot i).headDrains = false := by simp [Spot.headDrains, hh, hl]
  obtain ⟨a, ha⟩ : ∃ a, a = commandSpot i .vapour .toShut (s.modSpot i fun sp => { sp with recoveryTimer := .stopped }) := ⟨_, rfl⟩
  obtain ⟨d, hd⟩ : ∃ d, d = depart i { h with reason := some r } (leaveCompressors i a) := ⟨_, rfl⟩
  have hai : a.spot i = { s.spot i with recoveryTimer := .stopped, vapour := (s.spot i).vapour.toldShut (s.strokeOf .vapour) } := by
    rw [ha, commandSpot_toShut, modSpot_spot_same, modSpot_spot_same]
    rfl
  have hdi : d.spot i = { s.spot i with
      recoveryTimer := .stopped, vapour := (s.spot i).vapour.toldShut (s.strokeOf .vapour), seat := none, orders := [] } := by
    rw [hd, depart_spot, leaveCompressors_unseats, hai, ho]
    simp
  have hend : endHead i r s = headGone i (h.closeAfter && r.natural) d := by
    unfold endHead
    rw [hh]
    dsimp only
    rw [if_neg (by simp [hdrains])]
    unfold headLeaves
    dsimp only
    rw [if_pos (by simp [hl, hr]), ← ha, ← hd]
  have hnext : endHead i r s = (d.modSpot i Spot.stopMeter).modSpot i fun sp => { sp with state := .connected, pulses := 0 } := by
    rw [hend, hc]
    unfold headGone nextHead
    rw [Bool.false_and, Bool.false_and, if_neg Bool.false_ne_true, hdi]
    dsimp only
    rw [hst]
    exact if_pos rfl
  have hspot : (endHead i r s).spot i = (s.spot i).recovered (s.strokeOf .vapour) := by
    rw [hnext, modSpot_modSpot, modSpot_spot_same, hdi]
    rfl
  have hadv : advanceSpot i (endHead i r s) = endHead i r s := advanceSpot_connected (by rw [hspot]; rfl) (by rw [hspot]; rfl)
  have hledger : (endHead i r s).ledger = d.ledger := by
    rw [hnext]
    rfl
  have hleave : (leaveCompressors i a).ledger = s.ledger := by
    rw [ledger_leaveCompressors, ha]
    rfl
  rw [hadv]
  refine ⟨⟨spotWork_endHead i s r, Spot.not_waits (by rw [hspot]; exact nofun), ?_, ?_⟩, hspot, ?_⟩
  · have hwork := spotWork_depart i (leaveCompressors i a) { h with reason := some r }
    have hg : (endHead i r s).grants = d.grants := by
      rw [hnext]
      rfl
    rw [hg, hd]
    exact fun g hm => leaveCompressors_ungrants i a g (hwork.grants g hm)
  · have hx : (endHead i r s).scratch = d.scratch := by
      rw [hnext]
      rfl
    rw [hx, hd]
    unfold depart
    dsimp only
    split
    · exact ((Kept.modSpot i _ _).trans ((Kept.touchVessel _ _).trans (.modVessel _ _ _))).spots i (touchSpot_flag i _)
    · exact touchSpot_flag i _
  · have hdep : (leaveCompressors i a).scratch.departed = s.scratch.departed := congrArg Ledger.departed hleave
    rw [hledger, hd, ledger_depart, hleave, hdep]

end Recovery

/-! ## A spot that faults -/

/-- A spot that enters FAULTED (R46). -/
def Spot.faults (stroke : ValveName → Timer) (f : SpotFault) (sp : Spot) : Spot :=
  Spot.shutValves stroke { sp.stopMeter with
    state := .faulted, holds := .empty, step := none, standing := false, timer := .stopped, recoveryTimer := .stopped
    fault := some f, orders := [], seat := none }

theorem serveUnloading_keeps (i : SpotNo) (s : State) : (serveUnloading i s).spots = s.spots ∧ (serveUnloading i s).grants = s.grants := by
  unfold serveUnloading
  repeat' split
  all_goals exact ⟨rfl, rfl⟩

theorem faultSpot_done (f : SpotFault) (i : SpotNo) (s : State) :
    SpotDone i s (faultSpot f i s) ∧ (faultSpot f i s).spot i = (s.spot i).faults s.strokeOf f := by
  obtain ⟨a, ha⟩ : ∃ a, a = leaveCompressors i ((s.spot i).orders.foldl (fun s o => depart i { o with reason := some .fault } s) s) :=
    ⟨_, rfl⟩
  obtain ⟨b, hb⟩ : ∃ b, b = shutAll i ((a.touchSpot i).modSpot i fun sp =>
      { sp.stopMeter with
        state := .faulted, holds := .empty, step := none, standing := false, timer := .stopped
        recoveryTimer := .stopped, fault := some f }) := ⟨_, rfl⟩
  have hfault : faultSpot f i s = serveUnloading i b := by rw [hb, ha]; rfl
  have hwork : SpotWork i s a := by
    rw [ha]
    exact (spotWork_departs i s (fun o => { o with reason := some .fault }) _).trans (spotWork_leaveCompressors i _)
  have hai : a.spot i = { s.spot i with orders := [], seat := none } := by
    rw [ha, leaveCompressors_unseats, departs_spot i (fun o => { o with reason := some .fault }) fun _ => rfl,
      filter_self_tags _ _ fun o hm => ⟨o, hm, rfl⟩]
  have hbi : b.spot i = (s.spot i).faults s.strokeOf f := by
    rw [hb, shutAll_eq, modSpot_spot_same, modSpot_spot_same, touchSpot_spot, hai]
    exact congrArg (fun stroke => Spot.shutValves stroke _) (strokeOf_of_fixed hwork.kept.fixed)
  have hspot : (faultSpot f i s).spot i = (s.spot i).faults s.strokeOf f := by
    rw [hfault, spot_of_spots (serveUnloading_keeps i b).1, hbi]
  refine ⟨⟨spotWork_faultSpot i s f, Spot.not_waits (by rw [hspot]; exact nofun), ?_, ?_⟩, hspot⟩
  · rw [hfault, (serveUnloading_keeps i b).2, hb]
    have hag : ∀ g ∈ a.grants, g.spot ≠ i := by
      rw [ha]
      exact leaveCompressors_ungrants i _
    exact hag
  · rw [hfault]
    refine (spotWork_serveUnloading i b).kept.spots i ?_
    rw [hb]
    exact ((Kept.modSpot i _ _).trans (spotWork_shutAll i _).kept).spots i (touchSpot_flag i a)

theorem advanceSpot_faulted {i : SpotNo} {s : State} (hst : (s.spot i).state = .faulted) (ho : (s.spot i).orders = []) :
    advanceSpot i s = s := by
  refine advanceSpot_head ?_ (by rw [hst]; exact nofun) (by rw [hst]; exact nofun) (by rw [hst]; exact nofun)
  rw [onShutoffOpen_off (by rw [hst]; exact nofun), onLiquidOpen_off (by rw [hst]; exact nofun), onDrained_empty ho]

/-! ## A head that drains -/

/-- A spot whose head drains (R69). -/
def Spot.drains (stroke : Timer) (r : EndReason) (sp : Spot) : Spot :=
  { sp.modHead (fun o => { o with state := .draining, reason := some r }) with
    stall := .stopped, seat := none, liquid := sp.liquid.toldShut stroke }

theorem drainHead_done (r : EndReason) {i : SpotNo} {s : State} (hst : (s.spot i).state ≠ .staged) :
    SpotDone i s (drainHead i r s) ∧ (drainHead i r s).spot i = (s.spot i).drains (s.strokeOf .liquid) r := by
  obtain ⟨u, hu⟩ : ∃ u, u = (s.touchSpot i).modSpot i fun sp =>
      { sp.modHead (fun o => { o with state := .draining, reason := some r }) with stall := .stopped } := ⟨_, rfl⟩
  obtain ⟨a, ha⟩ : ∃ a, a = leaveCompressors i u := ⟨_, rfl⟩
  have hui : u.spot i = { (s.spot i).modHead (fun o => { o with state := .draining, reason := some r }) with stall := .stopped } := by
    rw [hu, modSpot_spot_same]
    rfl
  have hkept : Kept s u := by
    rw [hu]
    exact (Kept.touchSpot i s).trans (.modSpot i _ _)
  have hleave := ha ▸ spotWork_leaveCompressors i u
  have hstroke : a.strokeOf = s.strokeOf := strokeOf_of_fixed (hkept.trans hleave.kept).fixed
  have hdrain : drainHead i r s = commandSpot i .liquid .toShut a := by rw [ha, hu]; rfl
  have hspot : (drainHead i r s).spot i = (s.spot i).drains (s.strokeOf .liquid) r := by
    rw [hdrain, commandSpot_toShut, modSpot_spot_same, hstroke, ha, leaveCompressors_unseats, hui]
    unfold Spot.drains
    rw [Spot.modHead_eq]
    rfl
  have hstate : ((drainHead i r s).spot i).state ≠ .staged := by
    rw [hspot]
    unfold Spot.drains
    rw [Spot.modHead_eq]
    exact hst
  refine ⟨⟨spotWork_drainHead i s r, Spot.not_waits hstate, ?_, ?_⟩, hspot⟩
  · rw [hdrain]
    show ∀ g ∈ a.grants, g.spot ≠ i
    rw [ha]
    exact leaveCompressors_ungrants i u
  · rw [hdrain]
    refine (hleave.kept.trans (spotWork_commandSpot i a .liquid .toShut).kept).spots i ?_
    rw [hu]
    exact touchSpot_flag i s

end Sys2Proof.Machine
end

section
/-! PROOFS. The residual switch and the spot timers (R30, R31, R32, R44, R51, R67, R114, R115). -/

namespace Sys2Proof.Machine

theorem Spot.headIs_of_head {sp : Spot} {h : Order} {st : OrderState} (hh : sp.head = some h) (hs : h.state = st) :
    sp.headIs st = true := by
  unfold headIs
  rw [hh]
  exact beq_iff_eq.mpr hs

theorem exec_residualActive (i : SpotNo) (s : State) : exec (.residualActive i) s = .next (residualChange i true s) := rfl
theorem exec_residualInactive (i : SpotNo) (s : State) : exec (.residualInactive i) s = .next (residualChange i false s) := rfl
theorem exec_recoveryTimerExpiry (i : SpotNo) (s : State) : exec (.recoveryTimerExpiry i) s = .next (recoveryExpires i s) := rfl
theorem exec_pressureWaitExpiry (i : SpotNo) (s : State) : exec (.pressureWaitExpiry i) s = .next (pressureWaitExpires i s) := rfl
theorem exec_pressureHoldExpiry (i : SpotNo) (s : State) : exec (.pressureHoldExpiry i) s = .next (pressureHoldExpires i s) := rfl
theorem exec_bleedExpiry (i : SpotNo) (s : State) : exec (.bleedExpiry i) s = .next (bleedExpires i s) := rfl
theorem exec_stallExpiry (i : SpotNo) (s : State) : exec (.stallExpiry i) s = .next (stallExpires i s) := rfl
theorem exec_rateWindowExpiry (i : SpotNo) (s : State) : exec (.rateWindowExpiry i) s = .next (windowExpires i s) := rfl
theorem exec_lampFlashPhase (i : SpotNo) (s : State) : exec (.lampFlashPhase i) s = .next (flashToggles i s) := rfl

/-! ## The end of a recovery -/

/-- The event at which the only order of a RECOVERY spot ends by itself, in the state `u` of the spot's inputs. -/
theorem recovery_ends {s u t : State} {i : SpotNo} {h : Order} {r : EndReason} (hu : SpotWork i (clearScratch s) u)
    (hsame : (u.spot i).car = (s.spot i).car) (hledger : u.ledger = (clearScratch s).ledger)
    (hst : (u.spot i).state = .recovery) (ho : (u.spot i).orders = [h]) (hl : h.liquid = none) (hr : h.state = .running)
    (hc : h.closeAfter = false) (ht : t = closeEvent (clearScratch s) (settle (advanceSpot i (endHead i r u)))) :
    (t.spot i).state = .connected ∧ (t.spot i).orders = [] ∧ (t.spot i).seat = none ∧
      (t.spot i).pulses = 0 ∧ (t.spot i).vapour.command = .toShut ∧ (t.spot i).recoveryTimer = .stopped ∧
      t.changes.spots.getLsbD i = true ∧ s.sameStore t ∧
      (s.waitsNowhereBut i → s.onlyAt t i ∧ ∀ hd car, (s.spot i).car = some hd → s.car hd.slot = some car →
        t.car hd.slot = some { car with
          lastEnd := some { tag := h.tag, kind := .recovery, reason := r, delivered := 0 }
          recovered := car.recovered || r == .residual, revision := car.revision + 1 }) := by
  obtain ⟨⟨hwork, hno, hun, hflag⟩, hspot, hled⟩ := endHead_recovery r hst ho hl hr hc
  have hdone : SpotDone i (clearScratch s) (advanceSpot i (endHead i r u)) := ⟨hu.trans hwork, hno, hun, hflag⟩
  obtain ⟨hti, hflag', hstore, honly⟩ := hdone.event (clearScratch_frame s) rfl (congrArg State.frame ht) (congrArg State.changes ht)
  have hdep : u.scratch.departed = [] := congrArg Ledger.departed hledger
  rw [hspot] at hti
  refine ⟨by rw [hti]; rfl, by rw [hti]; rfl, by rw [hti]; rfl, by rw [hti]; rfl, ?_, by rw [hti]; rfl, hflag', hstore, fun hq =>
    ⟨honly hq, fun hd car hcar hrec => ?_⟩⟩
  · rw [hti]
    exact Valve.toldShut_command _ _
  · rw [hdep, hledger] at hled
    rw [ht, hdone.work.settles (waitsNowhereBut_of_frame (clearScratch_frame s) hq) hno hun,
      closeEvent_lastEnd (b := clearScratch s) (i := i) (o := { h with reason := some r }) (c := car) hled
        (by rw [hspot]; exact hsame.trans hcar) hrec]
    have hend : ({ h with reason := some r } : Order).lastEnd = { tag := h.tag, kind := .recovery, reason := r, delivered := 0 } := by
      simp [Order.lastEnd, Order.kind, hl]
    rw [hend]
    rfl

/-! ## The residual switch -/

/-- The residual switch's filter moved to a level. -/
def Spot.residualAt (level : Bool) (sp : Spot) : Spot := { sp with residual := .at level }

theorem residualChange_same {i : SpotNo} {l : Bool} {s : State} (h : (s.spot i).residual.active = l) : residualChange i l s = s := if_pos h

/-- The effects of the residual switch's change. -/
def residualEffect (i : SpotNo) (l : Bool) (s : State) : State :=
  if l then ifFitted i residualMade (s.modSpot i (Spot.residualAt l)) else s.modSpot i (Spot.residualAt l)

theorem residualChange_eq {i : SpotNo} {l : Bool} {s : State} (h : (s.spot i).residual.active = !l) :
    residualChange i l s = event (residualEffect i l) s :=
  if_neg (by rw [h]; cases l <;> decide)

theorem residualEffect_alone {i : SpotNo} {l : Bool} {s : State}
    (h : l = true → s.fittedSpot i = false ∨ (s.spot i).state ≠ .recovery) :
    residualEffect i l s = s.modSpot i (Spot.residualAt l) := by
  cases l
  · exact if_neg Bool.false_ne_true
  · refine (if_pos rfl).trans ?_
    rcases h rfl with hf | hst
    · exact ifFitted_off (s := s.modSpot i (Spot.residualAt true)) hf
    · unfold ifFitted
      split
      · refine if_neg fun e => hst ?_
        rw [modSpot_spot_same] at e
        exact e.1
      · rfl

theorem residual_alone {i : SpotNo} {l : Bool} {s : State} (h : (s.spot i).residual.active = !l)
    (hoff : l = true → s.fittedSpot i = false ∨ (s.spot i).state ≠ .recovery) :
    (residualChange i l s).frame =
        { s.frame with spots := s.spots.set i { s.spot i with residual := { active := l, count := 0 } } } ∧
      (s.fittedSpot i = true → (residualChange i l s).changes.spots.getLsbD i = true) ∧
      (s.fittedSpot i = false → s.inletsFollow → (residualChange i l s).changes = s.changes) := by
  have hg : residualEffect i l (clearScratch s) = (clearScratch s).modSpot i (Spot.residualAt l) := residualEffect_alone hoff
  rw [residualChange_eq h]
  refine ⟨event_oneSpot hg, fun hf => event_oneSpot_flag hg SpotView.residual ?_, fun hf hin => event_oneSpot_quiet hg ?_ rfl rfl hin⟩
  · show (s.fittedSpot i && (s.spot i).residual.active) ≠
      (s.fittedSpot i && ((s.modSpot i (Spot.residualAt l)).spot i).residual.active)
    rw [modSpot_spot_same, hf, h]
    cases l <;> exact nofun
  · unfold State.spotView
    dsimp only
    rw [modSpot_spot_same, modSpot_fitted, hf]
    rfl

theorem residual_ends {s : State} {i : SpotNo} (hf : s.fittedSpot i = true) (hres : (s.spot i).residual.active = false)
    (hst : (s.spot i).state = .recovery) (hh : (s.spot i).headIs .running = true) :
    ∃ u, u = (clearScratch s).modSpot i (Spot.residualAt true) ∧
      residualChange i true s = closeEvent (clearScratch s) (settle (advanceSpot i (endHead i .residual u))) := by
  obtain ⟨u, hu⟩ : ∃ u, u = (clearScratch s).modSpot i (Spot.residualAt true) := ⟨_, rfl⟩
  have hui : u.spot i = (s.spot i).residualAt true := by
    rw [hu]
    exact modSpot_spot_same _ _ _
  have hfit : u.fittedSpot i = true := by
    rw [hu]
    exact hf
  have hon : (u.spot i).state = .recovery ∧ (u.spot i).headIs .running = true := by
    rw [hui]
    exact ⟨hst, hh⟩
  have heff : residualEffect i true (clearScratch s) = settle (advanceSpot i (endHead i .residual u)) := by
    unfold residualEffect
    rw [if_pos rfl, ← hu, ifFitted_on hfit]
    exact if_pos hon
  exact ⟨u, hu, by rw [residualChange_eq hres, event_eq, heff]⟩

theorem recoveryExpires_ends {s : State} {i : SpotNo} (hst : (s.spot i).state = .recovery) (hh : (s.spot i).headIs .running = true)
    (ht : (s.spot i).recoveryTimer = .running 0) :
    recoveryExpires i s = closeEvent (clearScratch s) (settle (advanceSpot i (endHead i .recoveryTimeout (clearScratch s)))) :=
  (if_pos ⟨hst, hh, (Timer.isDue_iff _).mpr ht⟩).trans (event_eq _ s)

/-! ## Proving -/

theorem pressureWait_isolates {s : State} {i : SpotNo} (h1 : (s.spot i).state = .proving) (h2 : (s.spot i).step = some .pressureWait)
    (h3 : (s.spot i).timer = .running 0) :
    ∃ t, exec (.pressureWaitExpiry i) s = .next t ∧ (t.spot i).state = .isolating ∧ (t.spot i).fault = some .leak ∧
      ((t.spot i).step = some .linesClosing → (t.spot i).timer = .stopped) ∧ t.changes.spots.getLsbD i = true ∧ s.sameStore t ∧
      (s.waitsNowhereBut i → s.onlyAt t i) := by
  have hwork := isolationWork .stopped .stopped (some .leak) i (clearScratch s)
  have hclose : pressureWaitExpires i s = closeEvent (clearScratch s) (settle (advanceSpot i
      (enterIsolating .stopped .stopped (some .leak) i (clearScratch s)))) :=
    (if_pos ⟨h1, h2, (Timer.isDue_iff _).mpr h3⟩).trans (event_eq _ s)
  obtain ⟨hl, hs, hflag, hstore, honly⟩ := hwork.event (.refl i _) (clearScratch_frame s) rfl (congrArg State.frame hclose)
    (congrArg State.changes hclose)
  exact ⟨_, exec_pressureWaitExpiry i s, hl.state, hl.fault, fun e => hs.elim (fun h => h.2.2) fun h => absurd e h.1, hflag, hstore, honly⟩

/-- A spot whose proving has passed (R31, R63). -/
def Spot.proved (s : State) (sp : Spot) : Spot :=
  { (sp.takeStaged s) with state := .connected, step := none, timer := .stopped, creep := 0, pulses := 0 }

theorem Spot.proved_eq (s : State) (sp : Spot) : sp.proved s = { sp with
    state := .connected, step := none, timer := .stopped, creep := 0, pulses := 0
    active := if s.stagedVersion ≠ sp.activeVersion ∧ s.setpointHold = false then s.staged else sp.active
    activeVersion := if s.stagedVersion ≠ sp.activeVersion ∧ s.setpointHold = false then s.stagedVersion else sp.activeVersion } := by
  unfold proved takeStaged
  split <;> rfl

theorem pressureHold_passes {s : State} {i : SpotNo} {hd : Handle} {car : Car} (h1 : (s.spot i).state = .proving)
    (h2 : (s.spot i).step = some .pressureHold) (h3 : (s.spot i).timer = .running 0) (hc : (s.spot i).car = some hd)
    (hcar : s.car hd.slot = some car) :
    ∃ t, exec (.pressureHoldExpiry i) s = .next t ∧
      t.frame = { s.frame with
        spots := s.spots.set i { s.spot i with
          state := .connected, step := none, timer := .stopped, creep := 0, pulses := 0
          active := if s.stagedVersion ≠ (s.spot i).activeVersion ∧ s.setpointHold = false then s.staged
            else (s.spot i).active
          activeVersion := if s.stagedVersion ≠ (s.spot i).activeVersion ∧ s.setpointHold = false then s.stagedVersion
            else (s.spot i).activeVersion }
        cars := s.cars.set hd.slot
          { issue := (s.carSlot hd.slot).issue
            car := some { car with phase := .unloading, recovered := false, revision := car.revision + 1 } } } ∧
      t.changes.spots.getLsbD i = true ∧ t.changes.cars = s.changes.cars ||| BitVec.twoPow 24 hd.slot := by
  obtain ⟨w, hw⟩ : ∃ w, w = ((clearScratch s).modSpot i (Spot.proved (clearScratch s))).modCar hd.slot fun c =>
      { c with phase := .unloading, recovered := false } := ⟨_, rfl⟩
  have hpass : passProving i (clearScratch s) = w := by
    have hbound : (((clearScratch s).modSpot i (Spot.proved (clearScratch s))).spot i).car = some hd := by
      rw [modSpot_spot_same, Spot.proved_eq]
      exact hc
    rw [hw]
    unfold passProving State.modCarAt
    show (match (((clearScratch s).modSpot i (Spot.proved (clearScratch s))).spot i).car with
      | some h => State.modCar h.slot _ _
      | none => _) = _
    rw [hbound]
    rfl
  have hclose : pressureHoldExpires i s = closeEvent (clearScratch s) w :=
    (if_pos ⟨h1, h2, (Timer.isDue_iff _).mpr h3⟩).trans ((event_eq _ s).trans (congrArg (closeEvent (clearScratch s)) hpass))
  obtain ⟨e1, e2⟩ := spotAndCar_event (clearScratch_frame s) rfl rfl hcar hw
  refine ⟨_, (exec_pressureHoldExpiry i s).trans (congrArg Host.Outcome.next hclose), ?_, ?_, e2⟩
  · rw [e1, Spot.proved_eq]
    rfl
  · refine spotFlag_of_ne (.inl ?_)
    rw [hw, modCar_spot, modSpot_spot_same]
    show (s.spot i).state ≠ .connected
    rw [h1]
    exact nofun

/-! ## The bleed -/

section Bleed

variable {s : State} {i : SpotNo} (h1 : (s.spot i).state = .isolating) (h2 : (s.spot i).step = some .bleeding)
  (h3 : (s.spot i).standing = false) (h4 : (s.spot i).timer = .running 0)

include h1 h2 h3 h4

theorem bleedExpires_judged : bleedExpires i s = closeEvent (clearScratch s) (judgeBleed i (clearScratch s)) :=
  (if_pos ⟨h1, h2, h3, (Timer.isDue_iff _).mpr h4⟩).trans (event_eq _ s)

theorem bleed_closes (hh : (s.spot i).hose.active = false) (hsup : (s.spot i).vent.supervised = true)
    (hopen : (s.spot i).vent.isOpen = true) (hq : (s.spot i).queueLegal) (hdue : s.due = none) :
    ∃ t, exec (.bleedExpiry i) s = .next t ∧
      t.frame = { s.frame with
        spots := s.spots.set i { s.spot i with
          step := some .ventClosing, timer := .stopped
          vent := { (s.spot i).vent with
            command := .toShut, state := some .movingShut, timer := s.strokeOf .vent } } } ∧
      t.changes.spots.getLsbD i = true := by
  obtain ⟨w, hw⟩ : ∃ w, w = (clearScratch s).modSpot i fun sp => { sp with
      step := some .ventClosing, timer := .stopped, vent := sp.vent.shutting (s.strokeOf .vent) } := ⟨_, rfl⟩
  have hwi : w.spot i = { s.spot i with
      step := some .ventClosing, timer := .stopped, vent := (s.spot i).vent.shutting (s.strokeOf .vent) } := by
    rw [hw]
    exact modSpot_spot_same _ _ _
  have ho : (s.spot i).orders = [] := by
    obtain ⟨-, hp⟩ := (queueLegal_iff _).mp hq
    unfold Line.placed at hp
    rw [show (s.spot i).line.state = .isolating from h1] at hp
    exact hp.1 (by rw [show (s.spot i).line.step = _ from h2]; exact nofun)
  have hcmd : commandSpot i .vent .toShut ((clearScratch s).modSpot i fun sp => { sp with step := some .ventClosing, timer := .stopped })
      = w := by
    rw [commandSpot_eq, modSpot_modSpot, hw]
    refine modSpot_congr ?_
    exact congrArg (Spot.setValve .vent · { s.spot i with step := some .ventClosing, timer := .stopped })
      (Valve.told_shutting hsup hopen)
  have hst : (w.spot i).state = .isolating := by
    rw [hwi]
    exact h1
  have hadv : advanceSpot i w = w := by
    rw [advanceSpot_isolating hst (by rw [hwi]; exact ho), onLinesShut_step (by rw [hwi]; exact nofun),
      onVentOpen_step (by rw [hwi]; exact nofun), show onVentShut i w = w from if_neg fun e => ?_,
      onStrokeOpen_off (by rw [hst]; exact nofun), onStrokeShut_off (by rw [hst]; exact nofun), onStrokeTurn_off (by rw [hst]; exact nofun)]
    have hv := e.2.2.2
    rw [hwi] at hv
    cases hv
  have hsettle : settle w = w := by
    refine settle_unstaged (s := s) (i := i) hdue (by rw [h1]; exact nofun) (by rw [hst]; exact nofun) (fun j hj => ?_) ?_ ?_ ?_ ?_
    · rw [hw]
      exact modSpot_spot_other _ i j _ hj
    all_goals rw [hw]; rfl
  have hjudge : judgeBleed i (clearScratch s) = w := by
    unfold judgeBleed
    rw [if_neg (by show ¬ (s.spot i).hose.active = true; simp [hh]), hcmd, hadv, hsettle]
  have hclose : bleedExpires i s = closeEvent (clearScratch s) w := by rw [bleedExpires_judged h1 h2 h3 h4, hjudge]
  refine ⟨_, (exec_bleedExpiry i s).trans (congrArg Host.Outcome.next hclose), oneSpot_event (clearScratch_frame s) rfl (.inl hw), ?_⟩
  refine spotFlag_of_step ?_
  rw [hwi]
  show (s.spot i).step ≠ _
  rw [h2]
  exact nofun

theorem bleed_faults (hh : (s.spot i).hose.active = true) :
    ∃ t, exec (.bleedExpiry i) s = .next t ∧ (t.spot i).state = .faulted ∧
      (t.spot i).fault = some .bleed ∧ (t.spot i).orders = [] ∧ t.changes.spots.getLsbD i = true ∧ s.sameStore t ∧
      (s.waitsNowhereBut i → s.onlyAt t i) := by
  obtain ⟨hdone, hspot⟩ := faultSpot_done .bleed i (clearScratch s)
  have hclose : bleedExpires i s = closeEvent (clearScratch s) (settle (faultSpot .bleed i (clearScratch s))) := by
    rw [bleedExpires_judged h1 h2 h3 h4]
    exact congrArg (closeEvent (clearScratch s)) (if_pos (show ((clearScratch s).spot i).hose.active = true from hh))
  obtain ⟨hti, hflag, hstore, honly⟩ := hdone.event (clearScratch_frame s) rfl (congrArg State.frame hclose)
    (congrArg State.changes hclose)
  rw [hspot] at hti
  exact ⟨_, exec_bleedExpiry i s, by rw [hti]; rfl, by rw [hti]; rfl, by rw [hti]; rfl, hflag, hstore, honly⟩

end Bleed

/-! ## The stall timer -/

theorem onLiquidOpen_headed {i : SpotNo} {s : State} (h : (s.spot i).headIs .running = false) : onLiquidOpen i s = s :=
  if_neg fun e => Bool.false_ne_true (h.symm.trans e.2.1)

/-- A head that drains over an OPEN liquid valve in TRANSFER waits for the valve. -/
theorem advanceSpot_draining {i : SpotNo} {s : State} (hst : (s.spot i).state = .transfer) (hh : (s.spot i).headIs .draining = true)
    (hl : (s.spot i).liquid.isShut = false) : advanceSpot i s = s := by
  refine advanceSpot_head ?_ (by rw [hst]; exact nofun) (by rw [hst]; exact nofun) (by rw [hst]; exact nofun)
  rw [onShutoffOpen_off (by rw [hst]; exact nofun), onLiquidOpen_headed (Spot.headIs_one hh nofun),
    onDrained_off fun e => Bool.false_ne_true (hl.symm.trans e.2)]

theorem Valve.toldShut_open {stroke : Timer} {v : Valve} (hs : v.supervised = true) (h : v.isOpen = true) :
    v.toldShut stroke = v.shutting stroke := Valve.told_shutting (live := true) hs h

theorem Spot.drains_head (stroke : Timer) (r : EndReason) {sp : Spot} {h : Order} (hh : sp.head = some h) :
    (sp.drains stroke r).head = some { h with state := .draining, reason := some r } := by
  unfold Spot.drains Spot.head at *
  rw [modHead_eq]
  show (sp.orders.modifyHead _).head? = _
  rw [List.head?_modifyHead, hh]
  rfl

/-- A RUNNING LIQUID head in TRANSFER over an OPEN liquid valve ends by itself: it drains, and the event goes no further. -/
theorem endHead_drains {i : SpotNo} {s : State} {h : Order} (r : EndReason) (hst : (s.spot i).state = .transfer)
    (hh : (s.spot i).head = some h) (hr : h.state = .running) (hl : h.liquid ≠ none) (hsup : (s.spot i).liquid.supervised = true)
    (hopen : (s.spot i).liquid.isOpen = true) :
    advanceSpot i (endHead i r s) = drainHead i r s ∧ SpotDone i s (drainHead i r s) ∧
      (drainHead i r s).spot i = (s.spot i).drains (s.strokeOf .liquid) r := by
  obtain ⟨hdone, hspot⟩ := drainHead_done r (i := i) (s := s) (by rw [hst]; exact nofun)
  have hopened : (s.spot i).liquid.state = some .opened := by simpa [Valve.isOpen] using hopen
  have hdrains : (s.spot i).headDrains = true := by
    unfold Spot.headDrains
    rw [hh]
    simp [hr, Option.isSome_iff_ne_none.mpr hl, Valve.isShut, hopened]
  have hend : endHead i r s = drainHead i r s := by
    unfold endHead
    rw [hh]
    exact if_pos hdrains
  have hhead := Spot.drains_head (s.strokeOf .liquid) r hh
  refine ⟨?_, hdone, hspot⟩
  rw [hend]
  refine advanceSpot_draining ?_ ?_ ?_ <;> rw [hspot]
  · unfold Spot.drains
    rw [Spot.modHead_eq]
    exact hst
  · exact Spot.headIs_of_head hhead rfl
  · show ((s.spot i).liquid.toldShut _).isShut = false
    rw [Valve.toldShut_open hsup hopen]
    rfl

theorem stall_drains {s : State} {i : SpotNo} {h : Order} (hst : (s.spot i).state = .transfer) (hh : (s.spot i).head = some h)
    (hr : h.state = .running) (hl : h.liquid ≠ none) (ht : (s.spot i).stall = .running 0)
    (hsup : (s.spot i).liquid.supervised = true) (hopen : (s.spot i).liquid.isOpen = true) :
    ∃ t, exec (.stallExpiry i) s = .next t ∧
      (t.spot i).head = some { h with state := .draining, reason := some .exhausted } ∧ (t.spot i).seat = none ∧
      (t.spot i).stall = .stopped ∧ (t.spot i).liquid.command = .toShut ∧ t.changes.spots.getLsbD i = true ∧
      s.sameStore t ∧ (s.waitsNowhereBut i → s.onlyAt t i) := by
  obtain ⟨hadv, hdone, hspot⟩ := endHead_drains (s := clearScratch s) .exhausted hst hh hr hl hsup hopen
  have hhr : (s.spot i).headIs .running = true := Spot.headIs_of_head hh hr
  have hclose : stallExpires i s = closeEvent (clearScratch s) (settle (drainHead i .exhausted (clearScratch s))) := by
    rw [← hadv]
    exact (if_pos ⟨hst, hhr, (Timer.isDue_iff _).mpr ht⟩).trans (event_eq _ s)
  obtain ⟨hti, hflag, hstore, honly⟩ := hdone.event (clearScratch_frame s) rfl (congrArg State.frame hclose)
    (congrArg State.changes hclose)
  rw [hspot] at hti
  refine ⟨_, exec_stallExpiry i s, ?_, by rw [hti]; rfl, by rw [hti]; rfl, ?_, hflag, hstore, honly⟩
  · rw [hti]
    exact Spot.drains_head _ _ hh
  · rw [hti]
    exact Valve.toldShut_command _ _

/-! ## Expiries that do nothing -/

section Idle

variable {s : State} {i : SpotNo}

theorem recoveryExpires_off (h : (s.spot i).state ≠ .recovery ∨ (s.spot i).recoveryTimer ≠ .running 0) : recoveryExpires i s = s :=
  if_neg fun ⟨e1, _, e2⟩ => h.elim (absurd e1) (absurd ((Timer.isDue_iff _).mp e2))
theorem pressureWaitExpires_off (h : (s.spot i).state ≠ .proving ∨ (s.spot i).step ≠ some .pressureWait ∨ (s.spot i).timer ≠ .running 0) :
    pressureWaitExpires i s = s :=
  if_neg fun ⟨e1, e2, e3⟩ => h.elim (absurd e1) fun h => h.elim (absurd e2) (absurd ((Timer.isDue_iff _).mp e3))
theorem pressureHoldExpires_off (h : (s.spot i).state ≠ .proving ∨ (s.spot i).step ≠ some .pressureHold ∨ (s.spot i).timer ≠ .running 0) :
    pressureHoldExpires i s = s :=
  if_neg fun ⟨e1, e2, e3⟩ => h.elim (absurd e1) fun h => h.elim (absurd e2) (absurd ((Timer.isDue_iff _).mp e3))
theorem bleedExpires_off (h : (s.spot i).state ≠ .isolating ∨ (s.spot i).step ≠ some .bleeding ∨ (s.spot i).standing = true ∨
    (s.spot i).timer ≠ .running 0) : bleedExpires i s = s :=
  if_neg fun ⟨e1, e2, e3, e4⟩ => h.elim (absurd e1) fun h => h.elim (absurd e2) fun h =>
    h.elim (fun h => Bool.false_ne_true (e3.symm.trans h)) (absurd ((Timer.isDue_iff _).mp e4))
theorem stallExpires_off (h : (s.spot i).state ≠ .transfer ∨ (s.spot i).stall ≠ .running 0) : stallExpires i s = s :=
  if_neg fun ⟨e1, _, e2⟩ => h.elim (absurd e1) (absurd ((Timer.isDue_iff _).mp e2))
theorem windowExpires_off (h : (s.spot i).window ≠ .running 0) : windowExpires i s = s :=
  if_neg fun e => h ((Timer.isDue_iff _).mp e)
theorem flashToggles_off (h : (s.flash i).phase ≠ .running 0) : flashToggles i s = s :=
  if_neg fun e => h ((Timer.isDue_iff _).mp e)
theorem windowExpires_on (h : (s.spot i).window = .running 0) : windowExpires i s = { s with
    spots := s.spots.set i { s.spot i with windowCount := 0, window := .seconds (s.spot i).active.window } } :=
  if_pos ((Timer.isDue_iff _).mpr h)
theorem flashToggles_on (h : (s.flash i).phase = .running 0) : flashToggles i s = { s with
    flashes := s.flashes.set i { lit := !(s.flash i).lit, phase := .running 50 } } :=
  if_pos ((Timer.isDue_iff _).mpr h)

end Idle

theorem recovery_done {s : State} {i : SpotNo} {c : Instr} {r : EndReason} (hf : s.fittedSpot i = true)
    (hc : (c = .residualActive i ∧ r = .residual ∧ (s.spot i).residual.active = false) ∨
      (c = .recoveryTimerExpiry i ∧ r = .recoveryTimeout ∧ (s.spot i).recoveryTimer = .running 0))
    {h : Order} (hst : (s.spot i).state = .recovery) (ho : (s.spot i).orders = [h]) (hl : h.liquid = none) (hr : h.state = .running)
    (hca : h.closeAfter = false) :
    ∃ t, exec c s = .next t ∧ (t.spot i).state = .connected ∧ (t.spot i).orders = [] ∧ (t.spot i).seat = none ∧
      (t.spot i).pulses = 0 ∧ (t.spot i).vapour.command = .toShut ∧ (t.spot i).recoveryTimer = .stopped ∧
      t.changes.spots.getLsbD i = true ∧ s.sameStore t ∧
      (s.waitsNowhereBut i → s.onlyAt t i ∧ ∀ hd car, (s.spot i).car = some hd → s.car hd.slot = some car →
        t.car hd.slot = some { car with
          lastEnd := some { tag := h.tag, kind := .recovery, reason := r, delivered := 0 }
          recovered := car.recovered || r == .residual, revision := car.revision + 1 }) := by
  have hh : (s.spot i).headIs .running = true := Spot.headIs_of_head (by simp [Spot.head, ho]) hr
  rcases hc with ⟨rfl, rfl, hres⟩ | ⟨rfl, rfl, ht⟩
  · obtain ⟨u, hu, hclose⟩ := residual_ends hf hres hst hh
    have hui : u.spot i = (s.spot i).residualAt true := by
      rw [hu]
      exact modSpot_spot_same _ _ _
    refine ⟨_, exec_residualActive i s, recovery_ends (u := u) ?_ (by rw [hui]; rfl) (by rw [hu]; rfl) (by rw [hui]; exact hst)
      (by rw [hui]; exact ho) hl hr hca hclose⟩
    rw [hu]
    exact .mod (by intro; rfl) (by intro; rfl) _
  · exact ⟨_, exec_recoveryTimerExpiry i s, recovery_ends (u := clearScratch s) (.refl i _) rfl rfl hst ho hl hr hca
      (recoveryExpires_ends hst hh ht)⟩

/-- Settles O50: each timer that has run out in its state, each that has not, and the residual switch. -/
theorem recoveryAndTimersEnd : Obligations.RecoveryAndTimersEnd := by
  intro s i
  refine ⟨fun c r hf hc h hst ho hl hr hca => recovery_done hf hc hst ho hl hr hca,
    fun h => congrArg Host.Outcome.next (residualChange_same h), fun h => congrArg Host.Outcome.next (residualChange_same h),
    fun h hoff => ?_, fun h => ?_, fun h => congrArg Host.Outcome.next (recoveryExpires_off h), fun h1 h2 h3 => pressureWait_isolates h1 h2 h3,
    fun h => congrArg Host.Outcome.next (pressureWaitExpires_off h), fun hd car h1 h2 h3 hc hcar => pressureHold_passes h1 h2 h3 hc hcar,
    fun h => congrArg Host.Outcome.next (pressureHoldExpires_off h),
    fun h1 h2 h3 h4 => ⟨fun hh hs ho hq hd => bleed_closes h1 h2 h3 h4 hh hs ho hq hd, bleed_faults h1 h2 h3 h4⟩,
    fun h => congrArg Host.Outcome.next (bleedExpires_off h), fun h hst hh hr hl ht hs ho => stall_drains hst hh hr hl ht hs ho,
    fun h => congrArg Host.Outcome.next (stallExpires_off h), fun h => congrArg Host.Outcome.next (windowExpires_on h),
    fun h => congrArg Host.Outcome.next (windowExpires_off h), fun h => congrArg Host.Outcome.next (flashToggles_on h),
    fun h => congrArg Host.Outcome.next (flashToggles_off h), fun hf hin c hc => ?_⟩
  · obtain ⟨hframe, hflag, -⟩ := residual_alone (l := true) h fun _ => hoff
    exact ⟨_, exec_residualActive i s, hframe, hflag⟩
  · obtain ⟨hframe, hflag, -⟩ := residual_alone (l := false) h nofun
    exact ⟨_, exec_residualInactive i s, hframe, hflag⟩
  · have quiet (l : Bool) : (residualChange i l s).changes = s.changes := by
      by_cases e : (s.spot i).residual.active = l
      · rw [residualChange_same e]
      · exact (residual_alone (by cases l <;> simpa using e) fun _ => .inl hf).2.2 hf hin
    rcases hc with rfl | rfl
    · exact ⟨_, exec_residualActive i s, quiet true⟩
    · exact ⟨_, exec_residualInactive i s, quiet false⟩

end Sys2Proof.Machine
end

section
/-! PROOFS. Work done at every spot in turn (R8, R100), and a vessel's trip (R99, R100). -/

namespace Sys2Proof.Machine

/-! ## Each spot in turn -/

/-- Work that passes spot `i` by: it leaves that spot, the fixed fields and the vessels' stores, and adds no grant-queue entry. -/
structure Passed (i : SpotNo) (s u : State) : Prop where
  spot : u.spot i = s.spot i
  kept : Kept s u
  grants : GrantsShrink s u
  stores : ∀ v, (u.vessel v).store = (s.vessel v).store

theorem Passed.refl (i : SpotNo) (s : State) : Passed i s s := ⟨rfl, .refl s, .refl s, fun _ => rfl⟩

theorem Passed.trans {i : SpotNo} {s u w : State} (h : Passed i s u) (k : Passed i u w) : Passed i s w :=
  ⟨k.spot.trans h.spot, h.kept.trans k.kept, h.grants.trans k.grants, fun v => (k.stores v).trans (h.stores v)⟩

theorem SpotWork.passes {i j : SpotNo} {s u : State} (h : SpotWork j s u) (hj : i ≠ j) : Passed i s u :=
  ⟨h.others i hj, h.kept, h.grants, h.stores⟩

section Each

variable {f : SpotNo → State → State} (hf : ∀ i s, SpotWork i s (f i s))

include hf

theorem foldl_passes {i : SpotNo} : ∀ (l : List SpotNo) (s : State), i ∉ l → Passed i s (l.foldl (fun s j => f j s) s)
  | [], s, _ => .refl i s
  | j :: l, s, h => by
    obtain ⟨hj, hl⟩ := not_or.mp fun e => h (List.mem_cons.mpr e)
    rw [List.foldl_cons]
    exact ((hf j s).passes hj).trans (foldl_passes l _ hl)

/-- Spot `i` has its turn once, on a state that has so far passed it by, and is passed by afterwards. -/
theorem eachSpot_turn (i : SpotNo) (s : State) : ∃ u, Passed i s u ∧ Passed i (f i u) (eachSpot f s) := by
  obtain ⟨l, r, e⟩ := List.append_of_mem (List.mem_finRange i)
  have hnd : (l ++ i :: r).Nodup := e ▸ List.nodup_finRange 8
  have hl : i ∉ l := fun h => List.nodup_append.mp hnd |>.2.2 i h i List.mem_cons_self rfl
  have hr : i ∉ r := (List.nodup_cons.mp (List.nodup_append.mp hnd).2.1).1
  have hall : allSpots = l ++ i :: r := e
  refine ⟨_, foldl_passes hf l s hl, ?_⟩
  unfold eachSpot
  rw [hall, List.foldl_append, List.foldl_cons]
  exact foldl_passes hf r _ hr

theorem spotWork_ifFitted (i : SpotNo) (s : State) : SpotWork i s (if s.fittedSpot i then f i s else s) :=
  .ite (fun _ => hf i s) fun _ => .refl i s

theorem eachFittedSpot_turn {i : SpotNo} {s : State} (hi : s.fittedSpot i = true) :
    ∃ u, Passed i s u ∧ Passed i (f i u) (eachFittedSpot f s) := by
  obtain ⟨u, h1, h2⟩ := eachSpot_turn (spotWork_ifFitted hf) i s
  have hfit : u.fittedSpot i = true := (fittedSpot_of_profile (congrArg Fixed.profile h1.kept.fixed) i).trans hi
  rw [if_pos hfit] at h2
  exact ⟨u, h1, h2⟩

/-- A spot at which the work does nothing is passed by. -/
theorem eachFittedSpot_passes {i : SpotNo} {s : State} (h : ∀ u : State, u.spot i = s.spot i → f i u = u) :
    Passed i s (eachFittedSpot f s) := by
  obtain ⟨u, h1, h2⟩ := eachSpot_turn (spotWork_ifFitted hf) i s
  rw [h u h1.spot, ite_self] at h2
  exact h1.trans h2

end Each

theorem SpotDone.after {i : SpotNo} {u v w : State} (h : SpotDone i u v) (h2 : Passed i v w) :
    w.spot i = v.spot i ∧ (settle w).spot i = v.spot i ∧ w.scratch.spots.getLsbD i = true := by
  refine ⟨h2.spot, ?_, h2.kept.spots i h.flag⟩
  rw [settle_quiet w i (by rw [h2.spot]; exact h.unwaiting) fun g hg => h.ungranted g (h2.grants g hg), h2.spot]

/-! ## The spots alone -/

/-- A fold of changes of spots changes the spots alone. -/
theorem eachSpot_spots {f : SpotNo → State → State} (h : ∀ i s, ∃ x, f i s = { s with spots := x }) (s : State) :
    ∃ x, eachSpot f s = { s with spots := x } := by
  have hfold : ∀ (l : List SpotNo) (s : State), ∃ x, l.foldl (fun s i => f i s) s = { s with spots := x } := by
    intro l
    induction l with
    | nil => exact fun s => ⟨s.spots, rfl⟩
    | cons j l ih =>
      intro s
      obtain ⟨x, hx⟩ := h j s
      obtain ⟨y, hy⟩ := ih (f j s)
      exact ⟨y, by rw [List.foldl_cons, hy, hx]⟩
  exact hfold _ s

/-- A change of every spot by itself. -/
theorem eachSpot_modSpot (f : SpotNo → Spot → Spot) (s : State) :
    eachSpot (fun i s => s.modSpot i (f i)) s = { s with spots := Vector.ofFn fun i => f i (s.spot i) } := by
  obtain ⟨x, hx⟩ := eachSpot_spots (f := fun i s => s.modSpot i (f i)) (fun i s => ⟨_, rfl⟩) s
  rw [hx]
  refine congrArg (fun y => ({ s with spots := y } : State)) (Vector.ext fun n hn => ?_)
  obtain ⟨u, h1, h2⟩ := eachSpot_spot (g := fun i s => s.modSpot i (f i)) (fun i j s h => modSpot_spot_other s i j _ h) s ⟨n, hn⟩
  rw [hx, modSpot_spot_same, h1] at h2
  exact h2.trans (Vector.getElem_ofFn (f := fun i => f i (s.spot i)) hn).symm

theorem eachSpot_congr {f g : SpotNo → State → State} {p : State → Prop} (hp : ∀ i s, p s → p (g i s)) (h : ∀ i s, p s → f i s = g i s)
    {s : State} (hs : p s) : eachSpot f s = eachSpot g s := by
  have hfold : ∀ (l : List SpotNo) (s : State), p s → l.foldl (fun s i => f i s) s = l.foldl (fun s i => g i s) s := by
    intro l
    induction l with
    | nil => exact fun _ _ => rfl
    | cons j l ih =>
      intro s hs
      rw [List.foldl_cons, List.foldl_cons, h j s hs]
      exact ih _ (hp j s hs)
  exact hfold _ s hs

/-! ## A trip's filter -/

theorem exec_vesselTripActive (v : VesselNo) (s : State) : exec (.vesselTripActive v) s = .next (tripChange v true s) := rfl
theorem exec_vesselTripInactive (v : VesselNo) (s : State) : exec (.vesselTripInactive v) s = .next (tripChange v false s) := rfl

theorem tripChange_same {v : VesselNo} {l : Bool} {s : State} (h : (s.vessel v).trip.active = l) : tripChange v l s = s := if_pos h

/-- The trip input's filter moved to a level. -/
def Vessel.tripAt (level : Bool) (r : Vessel) : Vessel := { r with trip := .at level }

/-- The effects of a trip input's change. -/
def tripEffect (v : VesselNo) (l : Bool) (s : State) : State :=
  if (s.modVessel v (Vessel.tripAt l)).fittedVessel v then
    if l then vesselTrips v (s.modVessel v (Vessel.tripAt l)) else vesselClears v (s.modVessel v (Vessel.tripAt l))
  else s.modVessel v (Vessel.tripAt l)

theorem tripChange_eq {v : VesselNo} {l : Bool} {s : State} (h : (s.vessel v).trip.active ≠ l) :
    tripChange v l s = event (tripEffect v l) s := if_neg h

theorem tripEffect_unfitted {v : VesselNo} {l : Bool} {s : State} (h : s.fittedVessel v = false) :
    tripEffect v l s = s.modVessel v (Vessel.tripAt l) := if_neg (by
  rw [show (s.modVessel v (Vessel.tripAt l)).fittedVessel v = false from h]
  exact Bool.false_ne_true)

theorem tripEffect_fitted {v : VesselNo} {l : Bool} {s : State} (h : s.fittedVessel v = true) :
    tripEffect v l s = if l then vesselTrips v (s.modVessel v (Vessel.tripAt l)) else vesselClears v (s.modVessel v (Vessel.tripAt l)) :=
  if_pos h

/-- A vessel of which READ VESSEL reports something else at the end of an event has its flag set. -/
theorem vesselFlag_of_view {α : Type} {b w : State} {v : VesselNo} (p : VesselView → α)
    (h : p (b.vesselView v) ≠ p (w.refreshInlets.vesselView v)) : (closeEvent b w).changes.vessels.getLsbD v = true := by
  have hv : b.vesselView v ≠ w.refreshInlets.vesselView v := fun e => h (congrArg p e)
  rw [closeEvent_vesselFlag]
  simp [hv]

theorem vesselFlag_of_trip {b w : State} {v : VesselNo} (h : (b.vessel v).trip.active ≠ (w.vessel v).trip.active) :
    (closeEvent b w).changes.vessels.getLsbD v = true := vesselFlag_of_view VesselView.tripped h

/-- A change of a vessel's trip, whose event has closed with the vessels as the filter left them. -/
theorem tripChange_flag {v : VesselNo} {l : Bool} {s w : State} (h : (s.vessel v).trip.active ≠ l)
    (hw : tripEffect v l (clearScratch s) = w) (hv : (w.vessel v).trip = .at l) :
    (tripChange v l s).changes.vessels.getLsbD v = true := by
  rw [tripChange_eq h, event_eq, hw]
  refine vesselFlag_of_trip ?_
  rw [hv]
  exact h

theorem tripChange_unfitted {v : VesselNo} {l : Bool} {s : State} (h : (s.vessel v).trip.active ≠ l) (hf : s.fittedVessel v = false) :
    (tripChange v l s).frame = { s.frame with vessels := s.vessels.set v { s.vessel v with trip := { active := l, count := 0 } } } ∧
      (tripChange v l s).changes.vessels.getLsbD v = true := by
  have hw := tripEffect_unfitted (l := l) (s := clearScratch s) hf
  refine ⟨?_, tripChange_flag h hw ?_⟩
  · rw [tripChange_eq h, event_eq, hw, closeEvent_frame_quiet _ _ rfl rfl]
    rfl
  · rw [modVessel_vessel_same]
    rfl

/-! ## A trip -/

/-- The work of a vessel's trip at one spot. -/
def tripSpot (v : VesselNo) (i : SpotNo) (s : State) : State := if (s.spot i).feeds v then holdSpot i .vesselTrip s else s

theorem spotWork_tripSpot (v : VesselNo) (i : SpotNo) (s : State) : SpotWork i s (tripSpot v i s) :=
  .ite (fun _ => spotWork_holdSpot i s .vesselTrip) fun _ => .refl i s

/-- The plant when a fitted vessel has tripped, before the arbiter's work. -/
def State.tripped (s : State) (v : VesselNo) : State := eachFittedSpot (tripSpot v) ((clearScratch s).modVessel v (Vessel.tripAt true))

theorem tripChange_trips {v : VesselNo} {s : State} (h : (s.vessel v).trip.active = false) (hf : s.fittedVessel v = true) :
    tripChange v true s = closeEvent (clearScratch s) (settle (s.tripped v)) := by
  rw [tripChange_eq (by rw [h]; exact Bool.false_ne_true), event_eq, tripEffect_fitted (s := clearScratch s) hf]
  rfl

section Trip

variable {s : State} {v : VesselNo} {i : SpotNo}

theorem Passed.after_trip {s u : State} {v : VesselNo} {i : SpotNo}
    (h : Passed i ((clearScratch s).modVessel v (Vessel.tripAt true)) u) : u.spot i = s.spot i := h.spot

theorem tripped_kept (s : State) (v : VesselNo) : Kept (clearScratch s) (settle (s.tripped v)) :=
  ((Kept.modVessel v _ _).trans (.eachFittedSpot (fun i s => (spotWork_tripSpot v i s).kept) _)).trans (kept_settle _)

theorem tripped_trip (s : State) (v : VesselNo) : ((settle (s.tripped v)).vessel v).trip = .at true := by
  have hg : (settle (s.tripped v)).ground = ((clearScratch s).modVessel v (Vessel.tripAt true)).ground := by
    rw [ground_settle]
    refine ground_eachFittedSpot _ (fun i s => ?_) _
    unfold tripSpot
    split
    · exact ground_holdSpot _ _ _
    · rfl
  have hv : ((settle (s.tripped v)).vessel v).store = (((clearScratch s).modVessel v (Vessel.tripAt true)).vessel v).store :=
    congrFun (congrArg Ground.stores hg) v
  have ht := congrArg Vessel.trip hv
  rw [modVessel_vessel_same] at ht
  have hstore : ∀ r : Vessel, r.store.trip = r.trip := fun _ => rfl
  rw [hstore, hstore] at ht
  exact ht

/-- A spot that does not feed the tripped vessel stands. -/
theorem tripped_off (h : (s.spot i).feeds v = false) (hw : ¬ (s.spot i).waits) (hg : ∀ g ∈ s.grants, g.spot ≠ i) :
    (settle (s.tripped v)).spot i = s.spot i := by
  have hoff : ∀ u : State, u.spot i = s.spot i → tripSpot v i u = u := fun u hu => if_neg (by
    rw [hu, h]
    exact Bool.false_ne_true)
  have hp : Passed i ((clearScratch s).modVessel v (Vessel.tripAt true)) (s.tripped v) := by
    unfold State.tripped
    exact eachFittedSpot_passes (spotWork_tripSpot v) hoff
  have hi : (s.tripped v).spot i = s.spot i := hp.after_trip
  have hshrink : GrantsShrink s (s.tripped v) := hp.grants
  rw [settle_quiet (s.tripped v) i (by rwa [hi]) fun g hm => hg g (hshrink g hm), hi]

variable (hfit : s.fittedSpot i = true) (hfeeds : (s.spot i).feeds v = true)

include hfit hfeeds

/-- The turn of a spot that feeds the tripped vessel. -/
theorem tripped_turn : ∃ u, u.spot i = s.spot i ∧ u.strokeOf = s.strokeOf ∧
    Passed i ((clearScratch s).modVessel v (Vessel.tripAt true)) u ∧ Passed i (holdSpot i .vesselTrip u) (s.tripped v) := by
  obtain ⟨u, h1, h2⟩ := eachFittedSpot_turn (spotWork_tripSpot v) (s := (clearScratch s).modVessel v (Vessel.tripAt true)) hfit
  have hu : u.spot i = s.spot i := h1.after_trip
  have hturn : tripSpot v i u = holdSpot i .vesselTrip u := if_pos (by rw [hu]; exact hfeeds)
  rw [hturn] at h2
  exact ⟨u, hu, strokeOf_of_fixed h1.kept.fixed, h1, h2⟩

theorem tripped_enters (hst : (s.spot i).state.holdable) (hh : (s.spot i).holds.vesselTrip = false) (hd : (s.spot i).stillDrains) :
    (settle (s.tripped v)).spot i = (s.spot i).held s.strokeOf .vesselTrip ∧
      (settle (s.tripped v)).scratch.spots.getLsbD i = true := by
  obtain ⟨u, hu, hstroke, -, h2⟩ := tripped_turn hfit hfeeds
  have hh : (u.spot i).holds.has .vesselTrip = false := by
    rw [hu]
    exact hh
  rw [← hu] at hst hd
  have hdone : SpotDone i u (addHold i .vesselTrip u) := addHold_done hh hst
  rw [holdSpot_enters hh hst hd] at h2
  obtain ⟨-, h3, h4⟩ := hdone.after h2
  refine ⟨?_, (kept_settle _).spots i h4⟩
  rw [h3, addHold_spot hh hst, hu, hstroke]

theorem tripped_held (hst : (s.spot i).state = .held) (hd : (s.spot i).stillDrains) : ∃ x,
    (settle (s.tripped v)).spot i = { s.spot i with holds := { (s.spot i).holds with vesselTrip := true }, seat := x } := by
  obtain ⟨u, hu, -, -, h2⟩ := tripped_turn hfit hfeeds
  have hspot : (holdSpot i .vesselTrip u).spot i = { s.spot i with holds := { (s.spot i).holds with vesselTrip := true } } := by
    have hadd : (addHold i .vesselTrip u).spot i = { s.spot i with holds := { (s.spot i).holds with vesselTrip := true } } := by
      have hr : HoldReason.vesselTrip ≠ .esd := nofun
      cases hh : (s.spot i).holds.vesselTrip
      · rw [addHold_held (by rw [hu]; exact hh) (by rw [hu]; exact hst) hr, modSpot_spot_same, hu]
        rfl
      · rw [addHold_has (by rw [hu]; exact hh), hu, ← hh]
    unfold holdSpot
    rw [advanceSpot_held (by rw [hadd]; exact hst), hadd]
    rw [hadd]
    rintro ⟨e1, e2⟩
    exact Bool.false_ne_true ((hd e1).1.symm.trans e2)
  have hw : ((s.tripped v).spot i) = { s.spot i with holds := { (s.spot i).holds with vesselTrip := true } } := h2.spot.trans hspot
  obtain ⟨x, hx⟩ := settle_spot (s.tripped v) i (Spot.not_waits (by rw [hw, hst]; exact nofun))
  exact ⟨x, by rw [hx, hw]⟩

end Trip

/-! ## A trip's clearing -/

/-- The work of a trip's clearing on one spot (R100). -/
def Spot.tripClears (fitted : Bool) (v : VesselNo) (sp : Spot) : Spot :=
  if (fitted && sp.feeds v) = true then { sp with holds := { sp.holds with vesselTrip := false } } else sp

theorem vesselClears_eq (v : VesselNo) (s : State) :
    vesselClears v s = { s with spots := Vector.ofFn fun i => (s.spot i).tripClears (s.fittedSpot i) v } := by
  have hstep : ∀ i (u : State), u.fittedSpot = s.fittedSpot →
      (if u.fittedSpot i then (if (u.spot i).feeds v then removeHold i .vesselTrip u else u) else u) =
        u.modSpot i (Spot.tripClears (s.fittedSpot i) v) := by
    intro i u hu
    rw [hu]
    cases h1 : s.fittedSpot i
    · exact (modSpot_self rfl).symm
    · have hclears : (u.spot i).tripClears true v = if (u.spot i).feeds v then
          { u.spot i with holds := { (u.spot i).holds with vesselTrip := false } } else u.spot i := rfl
      rw [if_pos rfl]
      cases h2 : (u.spot i).feeds v <;> rw [h2] at hclears
      · exact (modSpot_self hclears).symm
      · exact modSpot_congr hclears.symm
  rw [← eachSpot_modSpot (fun i => Spot.tripClears (s.fittedSpot i) v) s]
  exact eachSpot_congr (p := fun u => u.fittedSpot = s.fittedSpot) (g := fun i u => u.modSpot i (Spot.tripClears (s.fittedSpot i) v)) (fun i u hu => hu) hstep rfl

theorem tripChange_clears {v : VesselNo} {s : State} (h : (s.vessel v).trip.active = true) (hf : s.fittedVessel v = true) :
    (tripChange v false s).frame = { s.frame with
        vessels := s.vessels.set v { s.vessel v with trip := { active := false, count := 0 } }
        spots := Vector.ofFn fun i => (s.spot i).tripClears (s.fittedSpot i) v } ∧
      (tripChange v false s).changes.vessels.getLsbD v = true := by
  have hne : (s.vessel v).trip.active ≠ false := by simp [h]
  have hw := (tripEffect_fitted (l := false) (s := clearScratch s) hf).trans (vesselClears_eq v _)
  refine ⟨?_, tripChange_flag hne hw ?_⟩
  · rw [tripChange_eq hne, event_eq, hw, closeEvent_frame_quiet _ _ rfl rfl]
    rfl
  · have hv := modVessel_vessel_same (clearScratch s) v (Vessel.tripAt false)
    exact congrArg Vessel.trip hv

/-- Settles O52: the filter's level, the spots in turn at a trip, the spots alone at its clearing. -/
theorem vesselTripsHoldTheirHeads : Obligations.VesselTripsHoldTheirHeads := by
  refine fun s v => ⟨fun h => ?_, fun h => ?_, fun h hf => ?_, fun h hf => ?_, fun h hf => ?_, fun h hf => ?_⟩
  · rw [exec_vesselTripActive, tripChange_same h]
  · rw [exec_vesselTripInactive, tripChange_same h]
  · exact ⟨_, exec_vesselTripActive v s, tripChange_unfitted (by simp [h]) hf⟩
  · exact ⟨_, exec_vesselTripInactive v s, tripChange_unfitted (by simp [h]) hf⟩
  · have ht := tripChange_trips h hf
    obtain ⟨t, htt⟩ : ∃ t, t = tripChange v true s := ⟨_, rfl⟩
    have hx := exec_vesselTripActive v s
    rw [← htt] at ht hx
    have hspot : ∀ i, t.spot i = (settle (s.tripped v)).spot i := fun i => by rw [ht, closeEvent_spot]
    refine ⟨t, hx, ?_, ?_, ?_, fun i hfit hfeeds hd => ⟨fun hst hh => ?_, fun hst => ?_⟩, fun i h1 h2 h3 => ?_⟩
    · rw [ht, closeEvent_vessel, tripped_trip]
      rfl
    · rw [ht]
      refine vesselFlag_of_trip ?_
      rw [tripped_trip]
      exact fun e => Bool.false_ne_true (h.symm.trans e)
    · exact (tripped_kept s v).sameStore (clearScratch_frame s) (by rw [ht])
    · have hhold : (s.spot i).state.holdable := by
        rcases hst with e | e | e
        · exact .inr (.inl e)
        · exact .inr (.inr (.inl e))
        · exact .inr (.inr (.inr e))
      obtain ⟨hi, hflag⟩ := tripped_enters hfit hfeeds hhold (by rw [hh]; rfl) hd
      rw [hspot, hi]
      refine ⟨rfl, rfl, rfl, Valve.toldShut_command _ _, Valve.toldShut_command _ _, ?_, fun o ho => ?_, ?_⟩
      · unfold Spot.held
        rw [Spot.modHead_eq]
        rfl
      · obtain ⟨h1, h2⟩ := Spot.held_head s.strokeOf .vesselTrip ho
        exact ⟨h1, fun e => h2 (.inr e)⟩
      · rw [ht]
        exact spotFlag_of_touched hflag
    · obtain ⟨x, hi⟩ := tripped_held hfit hfeeds hst hd
      rw [hspot, hi]
      exact ⟨hst, rfl, rfl⟩
    · rw [hspot, tripped_off h1 h2 h3]
  · obtain ⟨h1, h2⟩ := tripChange_clears h hf
    exact ⟨_, exec_vesselTripInactive v s, h1, h2⟩

end Sys2Proof.Machine
end

section
/-! PROOFS. TRIM and CANCEL ORDER (R77, R78): an order behind the head, whose change moves nothing, and a head that drains. -/

namespace Sys2Proof.Machine

/-! ## Changes of a queue that leave the head as it is -/

/-- What the arbiter and the arrivals go by in an order at the head: its state and its direction (R64, R65). -/
def Order.pace (o : Order) : OrderState × Direction := (o.state, o.direction)

theorem headIs_of_pace {sp : Spot} {q : List Order} (h : q.head?.map Order.pace = sp.orders.head?.map Order.pace) (st : OrderState) :
    ({ sp with orders := q } : Spot).headIs st = sp.headIs st := by
  unfold Spot.headIs Spot.head
  cases hq : q.head? with
  | none =>
    rw [hq] at h
    cases hp : sp.orders.head? with
    | none => rfl
    | some p =>
      rw [hp] at h
      cases h
  | some o =>
    rw [hq] at h
    cases hp : sp.orders.head? with
    | none =>
      rw [hp] at h
      cases h
    | some p =>
      rw [hp] at h
      have hst : o.state = p.state := congrArg Prod.fst (Option.some.inj h)
      simp only [hst]

theorem steady_of_pace {sp : Spot} {q : List Order} (h : q.head?.map Order.pace = sp.orders.head?.map Order.pace)
    (hs : sp.steady) : ({ sp with orders := q } : Spot).steady := by
  unfold Spot.steady at hs ⊢
  rw [headIs_of_pace h, headIs_of_pace h, headIs_of_pace h]
  exact hs

section Requeued

variable {s w : State} {i : SpotNo} {q : List Order} (hw : w.spot i = { s.spot i with orders := q })
  (hq : q.head?.map Order.pace = (s.spot i).orders.head?.map Order.pace)

include hw hq

theorem headReady_of_pace (hc : w.comps = s.comps) : w.headReady i = s.headReady i := by
  by_cases e : (s.spot i).state = .staged
  · unfold State.headReady State.comp Spot.head
    rw [hw, hc]
    dsimp only
    rw [e]
    cases hq' : q.head? <;> rw [hq'] at hq <;> cases hp : (s.spot i).orders.head? <;> rw [hp] at hq
    case none.some => cases hq
    case some.none => cases hq
    case some.some o p =>
      have hst : o.state = p.state := congrArg Prod.fst (Option.some.inj hq)
      have hdir : o.direction = p.direction := congrArg Prod.snd (Option.some.inj hq)
      cases (s.spot i).seat with
      | none => rfl
      | some c =>
        dsimp only
        rw [hst, hdir]
  · rw [headReady_of_unstaged e, headReady_of_unstaged (by rw [hw]; exact e)]

theorem mustJoin_of_pace (hg : w.grants = s.grants) : w.mustJoin i = s.mustJoin i := by
  have hstate : (w.spot i).state = (s.spot i).state := by rw [hw]
  have hseat : (w.spot i).seat = (s.spot i).seat := by rw [hw]
  have hwait : (w.spot i).headIs .waiting = (s.spot i).headIs .waiting := by
    rw [hw]
    exact headIs_of_pace hq .waiting
  unfold State.mustJoin
  dsimp only
  rw [hstate, hseat, hwait, hg]

/-- Where a queue changes and its head's pace stands, nothing that was not due before is due after, and the spot owes nothing. -/
theorem requeued_stands (hs : (s.spot i).steady) (hns : (s.spot i).state ≠ .stroking) (hd : s.due = none)
    (ho : ∀ j, j ≠ i → w.spot j = s.spot j) (hg : w.grants = s.grants) (hc : w.comps = s.comps) (hf : w.fe = s.fe)
    (hp : w.profile = s.profile) : advanceSpot i w = w ∧ settle w = w := by
  refine ⟨advanceSpot_steady i w (by rw [hw]; exact steady_of_pace hq hs) (by rw [hw]; exact hns),
    settle_none w ((due_congr ?_ ?_ hg hc hf hp).trans hd)⟩
  · funext j
    by_cases e : j = i
    · rw [e]
      exact headReady_of_pace hw hq hc
    · exact headReady_congr (ho j e) hc
  · funext j
    by_cases e : j = i
    · rw [e]
      exact mustJoin_of_pace hw hq hg
    · exact mustJoin_congr (ho j e) hg

end Requeued

/-! ## An order by its tag -/

theorem Spot.order_tag {sp : Spot} {tag : Word16} {o : Order} (h : sp.order tag = some o) : o.tag = tag := by
  have := List.find?_some h
  exact beq_iff_eq.mp this

theorem Spot.order_mem {sp : Spot} {tag : Word16} {o : Order} (h : sp.order tag = some o) : o ∈ sp.orders :=
  List.mem_of_find?_eq_some h

theorem Spot.order_of_head {sp : Spot} {h : Order} (hh : sp.head = some h) : sp.order h.tag = some h := by
  unfold Spot.head at hh
  unfold Spot.order
  cases ho : sp.orders with
  | nil =>
    rw [ho] at hh
    cases hh
  | cons o l =>
    rw [ho] at hh
    cases hh
    exact List.find?_cons_of_pos (beq_self_eq_true _)

theorem not_stroking_of_order {sp : Spot} {o : Order} (hq : sp.queueLegal) (ho : o ∈ sp.orders) : sp.state ≠ .stroking := by
  intro e
  obtain ⟨-, -, -, hp⟩ := hq
  rw [e] at hp
  rw [show sp.orders = [] from hp] at ho
  cases ho

/-! ## TRIM -/

section Trim

variable {place : Byte} {s : State} {i : SpotNo} {tag : Word16} {target : Word32} (hn : s.namedSpot place = .ok i)

include hn

theorem answerTrim_noRecord (h : (s.spot i).order tag = none) : answerTrim place tag target s = (s, .bare .noRecord) := by
  unfold answerTrim
  rw [withSpot_ok _ hn, h]

theorem answerTrim_state {o : Order} (h : (s.spot i).order tag = some o) (ho : o.liquid = none ∨ o.state = .draining) :
    answerTrim place tag target s = (s, .bare .state) := by
  unfold answerTrim
  rw [withSpot_ok _ hn, h]
  dsimp only
  cases hl : o.liquid with
  | none => rfl
  | some l => exact if_pos (ho.resolve_left (by rw [hl]; exact nofun))

variable {o : Order} {l : Liquid} (ho : (s.spot i).order tag = some o) (hl : o.liquid = some l) (hd : o.state ≠ .draining)

include ho hl hd

theorem answerTrim_range (h : target.toNat = 0 ∨ l.target ≤ target.toNat) : answerTrim place tag target s = (s, .bare .range) := by
  unfold answerTrim
  rw [withSpot_ok _ hn, ho]
  dsimp only
  rw [hl]
  dsimp only
  rw [if_neg hd, if_pos (h.imp_left fun e => by omega)]

theorem answerTrim_done (h1 : 1 ≤ target.toNat) (h2 : target.toNat < l.target) :
    answerTrim place tag target s =
      (settle (advanceSpot i (if target.toNat ≤ l.delivered.toNat then endOrder i tag .trimmed (applyTrim i tag l target.toNat s)
          else applyTrim i tag l target.toNat s)),
        .ok (nat32 l.target ++ chars32 target
          ++ nat32 ((((applyTrim i tag l target.toNat s).vessel l.vessel).remainder i tag).getD Config.absentLitres)
          ++ Layout.optional (fun p : Order => [Layout.orderState p.state])
            (((settle (advanceSpot i (if target.toNat ≤ l.delivered.toNat then
              endOrder i tag .trimmed (applyTrim i tag l target.toNat s)
              else applyTrim i tag l target.toNat s))).spot i).order tag))) := by
  unfold answerTrim
  rw [withSpot_ok _ hn, ho]
  dsimp only
  rw [hl]
  dsimp only
  rw [if_neg hd, if_neg (by omega)]

end Trim

/-- An order with its target lowered. -/
def Order.trimmed (l : Liquid) (target : Nat) (o : Order) : Order := { o with liquid := some { l with target } }

/-- A queue with one order trimmed. -/
def trimmedQueue (tag : Word16) (l : Liquid) (target : Nat) (q : List Order) : List Order :=
  q.map fun o => if o.tag = tag then o.trimmed l target else o

section Applied

variable (i : SpotNo) (tag : Word16) (l : Liquid) (target : Nat) (s : State)

theorem applyTrim_spot : (applyTrim i tag l target s).spot i =
    { s.spot i with orders := trimmedQueue tag l target (s.spot i).orders } := by
  unfold applyTrim
  rw [modVessel_spot, modSpot_spot_same]
  rfl

theorem applyTrim_vessel : (applyTrim i tag l target s).vessel l.vessel = (s.vessel l.vessel).lower i tag (l.target - target) := by
  unfold applyTrim
  rw [modVessel_vessel_same]
  rfl

theorem applyTrim_frame : (applyTrim i tag l target s).frame = { s.frame with
    spots := s.spots.set i { s.spot i with orders := trimmedQueue tag l target (s.spot i).orders }
    vessels := s.vessels.set l.vessel ((s.vessel l.vessel).lower i tag (l.target - target)) } := rfl

theorem spotWork_applyTrim : SpotWork i s (applyTrim i tag l target s) := by
  unfold applyTrim
  exact (((SpotWork.touchSpot i i s).trans (.touchVessel i l.vessel _)).trans (.mod (by intro; rfl) (by intro; rfl) _)).trans
    (.lower i tag (l.target - target) l.vessel _)

theorem applyTrim_flag : (applyTrim i tag l target s).scratch.spots.getLsbD i = true := touchSpot_flag i s

theorem Vessel.lower_remainder (r : Vessel) {rem : Nat} (n : Nat) (h : r.remainder i tag = some rem) :
    (r.lower i tag n).remainder i tag = some (rem - n) := by
  unfold Vessel.remainder Vessel.lower at *
  dsimp only
  rw [List.find?_map]
  have hname : ((fun e : Entry => e.names i tag) ∘ fun e : Entry => if e.names i tag then { e with remainder := e.remainder - n } else e) =
      fun e => e.names i tag := by
    funext e
    show (if e.names i tag then _ else e : Entry).names i tag = e.names i tag
    cases he : e.names i tag
    · rw [if_neg Bool.false_ne_true, he]
    · rw [if_pos rfl]
      exact he
  rw [hname]
  obtain ⟨e, he, hr⟩ := Option.map_eq_some_iff.mp h
  have hon := List.find?_some he
  rw [he, Option.map_some, Option.map_some, if_pos hon, ← hr]

end Applied

theorem trimmedQueue_order {sp : Spot} {tag : Word16} {l : Liquid} {target : Nat} {o : Order} (h : sp.order tag = some o) :
    ({ sp with orders := trimmedQueue tag l target sp.orders } : Spot).order tag = some (o.trimmed l target) := by
  unfold Spot.order trimmedQueue at *
  dsimp only
  rw [List.find?_map]
  have hname : ((fun o : Order => o.tag == tag) ∘ fun o => if o.tag = tag then o.trimmed l target else o) = fun o => o.tag == tag := by
    funext o
    show ((if o.tag = tag then o.trimmed l target else o).tag == tag) = (o.tag == tag)
    split
    · rfl
    · rfl
  have htag : o.tag = tag := beq_iff_eq.mp (List.find?_some (p := fun o : Order => o.tag == tag) h)
  rw [hname, h, Option.map_some, if_pos htag]

/-- Trimming a LIQUID order keeps the head's pace. -/
theorem trimmedQueue_pace {sp : Spot} {tag : Word16} {l : Liquid} {target : Nat} {o : Order} (h : sp.order tag = some o)
    (hl : o.liquid = some l) : (trimmedQueue tag l target sp.orders).head?.map Order.pace = sp.orders.head?.map Order.pace := by
  unfold trimmedQueue
  cases hq : sp.orders with
  | nil => rfl
  | cons p q =>
    unfold Spot.order at h
    rw [hq] at h
    rw [List.map_cons]
    show some (Order.pace _) = some (Order.pace p)
    split
    next e =>
      rw [List.find?_cons_of_pos (p := fun o : Order => o.tag == tag) (beq_iff_eq.mpr e)] at h
      cases h
      unfold Order.pace Order.direction Order.trimmed
      rw [hl]
      rfl
    next => rfl

/-- The entries of a vessel with one order's remainder lowered. -/
theorem Vessel.lower_entries (i : SpotNo) (tag : Word16) (n : Nat) (r : Vessel) : r.lower i tag n = { r with
    entries := r.entries.map fun e => if e.spot = i ∧ e.tag = tag then { e with remainder := e.remainder - n } else e } := by
  unfold Vessel.lower
  refine congrArg (fun x => ({ r with entries := x } : Vessel)) (congrArg (r.entries.map ·) (funext fun e => ?_))
  unfold Entry.names
  simp only [Bool.and_eq_true, beq_iff_eq]

section Trims

variable {s : State} {via : Via} {place : Byte} {i : SpotNo} {tag : Word16} {target : Word32} {o : Order} {l : Liquid} {rem : Nat}
  (ht : s.canTake via = true) (hn : s.namedSpot place = .ok i) (ho : (s.spot i).order tag = some o) (hl : o.liquid = some l)
  (hd : o.state ≠ .draining) (hbelow : target.toNat < l.target) (hrem : (s.vessel l.vessel).remainder i tag = some rem)

include ht hn ho hl hd hbelow hrem

theorem trim_lowers (habove : l.delivered.toNat < target.toNat) (hq : (s.spot i).queueLegal) (hs : (s.spot i).steady)
    (hdue : s.due = none) :
    ∃ t, s.answers (.trim via place tag target) .done
        (nat32 l.target ++ chars32 target ++ nat32 (rem - (l.target - target.toNat)) ++ [1, Layout.orderState o.state]) t ∧
      t.frame = { s.frame with
        spots := s.spots.set i { s.spot i with orders := trimmedQueue tag l target.toNat (s.spot i).orders }
        vessels := s.vessels.set l.vessel ((s.vessel l.vessel).lower i tag (l.target - target.toNat)) } ∧
      t.changes.spots.getLsbD i = true := by
  have hstands : ∀ v : State, v.frame = s.frame →
      settle (advanceSpot i (applyTrim i tag l target.toNat v)) = applyTrim i tag l target.toNat v := fun v hv => by
    have hwork := spotWork_applyTrim i tag l target.toNat v
    have hspot : (applyTrim i tag l target.toNat v).spot i =
        { s.spot i with orders := trimmedQueue tag l target.toNat (s.spot i).orders } := by
      rw [applyTrim_spot, spot_of_frame hv]
    obtain ⟨h1, h2⟩ := requeued_stands hspot (trimmedQueue_pace ho hl) hs (not_stroking_of_order hq (Spot.order_mem ho)) hdue
      (fun j hj => (hwork.others j hj).trans (spot_of_frame hv j)) (congrArg Frame.grants hv) (congrArg Frame.comps hv)
      (congrArg Frame.fe hv) (congrArg Frame.profile hv)
    rw [h1, h2]
  obtain ⟨v, t, hv, ha, hframe, hch, -⟩ := answers_event (c := .trim via place tag target) (s := s)
      (f := applyTrim i tag l target.toNat) ht rfl fun v hv => by
    rw [show answer (.trim via place tag target) v = answerTrim place tag target v from rfl,
      answerTrim_done ((namedSpot_of_frame hv _).trans hn) (by rwa [spot_of_frame hv]) hl hd (by omega) hbelow,
      if_neg (by omega), hstands v hv, applyTrim_vessel, applyTrim_spot, vessel_of_frame hv, spot_of_frame hv,
      Vessel.lower_remainder i tag _ _ hrem, trimmedQueue_order ho]
  refine ⟨t, ha, ?_, ?_⟩
  · have hdep : (applyTrim i tag l target.toNat v).scratch.departed = [] := congrArg Scratch.departed hv.scratch
    have htouch : (applyTrim i tag l target.toNat v).scratch.touched = 0 := congrArg Scratch.touched hv.scratch
    rw [hframe, closeEvent_frame_quiet v _ hdep htouch, applyTrim_frame, hv.frame, spot_of_frame hv.frame, vessel_of_frame hv.frame]
    have h1 : v.spots = s.spots := congrArg Frame.spots hv.frame
    have h2 : v.vessels = s.vessels := congrArg Frame.vessels hv.frame
    rw [h1, h2]
  · rw [hch]
    exact spotFlag_of_touched (applyTrim_flag i tag l target.toNat v)

theorem trim_drains (hone : 1 ≤ target.toNat) (habove : target.toNat ≤ l.delivered.toNat) (hst : (s.spot i).state = .transfer)
    (hh : (s.spot i).head = some o) (hr : o.state = .running) (hsup : (s.spot i).liquid.supervised = true)
    (hopen : (s.spot i).liquid.isOpen = true) :
    ∃ t, s.answers (.trim via place tag target) .done
        (nat32 l.target ++ chars32 target ++ nat32 (rem - (l.target - target.toNat)) ++ [1, 4]) t ∧
      t.spot i = ({ s.spot i with orders := trimmedQueue tag l target.toNat (s.spot i).orders } : Spot).drains (s.strokeOf .liquid)
        .trimmed ∧
      ({ s.spot i with orders := trimmedQueue tag l target.toNat (s.spot i).orders } : Spot).head = some (o.trimmed l target.toNat) ∧
      t.changes.spots.getLsbD i = true ∧ s.sameStore t ∧ (s.waitsNowhereBut i → s.onlyAt t i) := by
  obtain ⟨sp, hsp⟩ : ∃ sp, sp = ({ s.spot i with orders := trimmedQueue tag l target.toNat (s.spot i).orders } : Spot) := ⟨_, rfl⟩
  have hhead : sp.head = some (o.trimmed l target.toNat) := by
    have hcons := hh
    unfold Spot.head at hcons
    rw [hsp]
    unfold Spot.head trimmedQueue
    rw [List.head?_map, hcons, Option.map_some, if_pos (Spot.order_tag ho)]
  have hdone : ∀ v : State, v.frame = s.frame → ∃ w, w = settle (advanceSpot i (endOrder i tag .trimmed (applyTrim i tag l target.toNat v))) ∧
      ∃ x, w = settle x ∧ SpotDone i v x ∧ x.spot i = sp.drains (s.strokeOf .liquid) .trimmed := fun v hv => by
    have hspot : (applyTrim i tag l target.toNat v).spot i = sp := by
      rw [applyTrim_spot, spot_of_frame hv, hsp]
    have hend : endOrder i tag .trimmed (applyTrim i tag l target.toNat v) = endHead i .trimmed (applyTrim i tag l target.toNat v) := by
      unfold endOrder
      rw [hspot, hhead]
      exact if_pos (Spot.order_tag ho)
    have hliquid : (o.trimmed l target.toNat).liquid ≠ none := Option.some_ne_none _
    obtain ⟨hadv, ⟨hwork, h1, h2, h3⟩, hx⟩ := endHead_drains (i := i) (s := applyTrim i tag l target.toNat v)
      (h := o.trimmed l target.toNat) .trimmed
      (by rw [hspot, hsp]; exact hst) (by rw [hspot]; exact hhead) hr hliquid (by rw [hspot, hsp]; exact hsup)
      (by rw [hspot, hsp]; exact hopen)
    have hstroke : (applyTrim i tag l target.toNat v).strokeOf .liquid = s.strokeOf .liquid := strokeOf_of_frame hv .liquid
    rw [hspot, hstroke] at hx
    exact ⟨_, rfl, _, by rw [hend, hadv], ⟨(spotWork_applyTrim i tag l target.toNat v).trans hwork, h1, h2, h3⟩, hx⟩
  rw [← hsp]
  obtain ⟨v, t, hv, ha, hframe, hch, -⟩ := answers_event (c := .trim via place tag target) (s := s) ht rfl fun v hv => by
    rw [show answer (.trim via place tag target) v = answerTrim place tag target v from rfl,
      answerTrim_done ((namedSpot_of_frame hv _).trans hn) (by rwa [spot_of_frame hv]) hl hd hone hbelow,
      if_pos habove]
    obtain ⟨w, hw, x, hwx, hx, hxs⟩ := hdone v hv
    have horder : (w.spot i).order tag = some { o.trimmed l target.toNat with state := .draining, reason := some .trimmed } := by
      have h := Spot.order_of_head (Spot.drains_head (s.strokeOf .liquid) .trimmed hhead)
      rw [hwx, hx.settled, hxs, ← h]
      exact congrArg _ (Spot.order_tag ho).symm
    rw [← hw, horder, applyTrim_vessel, vessel_of_frame hv, Vessel.lower_remainder i tag _ _ hrem, hw]
  obtain ⟨w, hw, x, hwx, hx, hxs⟩ := hdone v hv.frame
  rw [← hw, hwx] at hframe hch
  obtain ⟨hti, hflag, hstore, honly⟩ := hx.event hv.frame hv.scratch hframe hch
  exact ⟨t, ha, hti.trans hxs, hhead, hflag, hstore, honly⟩

end Trims

/-- Settles O36: the checks; then the order trimmed in place, or the head drained. -/
theorem trimLowersTheTarget : Obligations.TrimLowersTheTarget := by
  refine fun s via place i tag target ht hn => ⟨fun h => ?_, fun o ho => ⟨fun h => ?_, fun l hl hd => ⟨fun h => ?_,
    fun rem h1 h2 hq hs hdue hrem => ?_, fun rem h1 h2 h3 hst hh hr hsup hopen hrem => ?_⟩⟩⟩
  · exact refuses_of (c := .trim via place tag target) ht rfl fun u hu =>
      answerTrim_noRecord ((namedSpot_of_frame hu _).trans hn) (by rwa [spot_of_frame hu])
  · exact refuses_of (c := .trim via place tag target) ht rfl fun u hu =>
      answerTrim_state ((namedSpot_of_frame hu _).trans hn) (by rwa [spot_of_frame hu]) h
  · exact refuses_of (c := .trim via place tag target) ht rfl fun u hu =>
      answerTrim_range ((namedSpot_of_frame hu _).trans hn) (by rwa [spot_of_frame hu]) hl hd h
  · obtain ⟨t, ha, hframe, hflag⟩ := trim_lowers ht hn ho hl hd h2 hrem h1 hq hs hdue
    rw [Vessel.lower_entries] at hframe
    exact ⟨t, ha, hframe, hflag⟩
  · obtain ⟨t, ha, hti, hhead, hflag, hstore, honly⟩ := trim_drains ht hn ho hl hd h3 hrem h1 h2 hst hh hr hsup hopen
    refine ⟨t, ha, ?_, ?_, ?_, ?_, ?_, hflag, hstore, honly⟩
    · rw [hti, Spot.drains_head _ _ hhead]
      rfl
    · rw [hti]
      unfold Spot.drains
      rw [Spot.modHead_eq]
      exact hst
    · rw [hti]
      rfl
    · rw [hti]
      rfl
    · rw [hti]
      exact Valve.toldShut_open hsup hopen

end Sys2Proof.Machine
end

section
/-! PROOFS. CANCEL ORDER (R9, R71, R78). -/

namespace Sys2Proof.Machine

/-! ## An order that leaves alone -/

/-- The record of a bound car after one of its spot's orders has left alone (R5, R9). -/
def Car.ended (o : Order) (c : Car) : Car :=
  { c with lastEnd := some o.lastEnd, recovered := c.recovered || o.reason == some .residual, revision := c.revision + 1 }

theorem cars_of_frame_eq {u : State} {x : Frame} (h : u.frame = x) : u.cars = x.cars := congrArg Frame.cars h

section LastEnd

variable {b w : State} {i : SpotNo} {o : Order} {hd : Handle} {c : Car}
  (hw : w.ledger = { cars := b.cars, touched := 0, departed := [{ spot := i, order := o }] })
  (hc : (w.spot i).car = some hd) (hcar : b.car hd.slot = some c)

include hw

theorem writeLastEnd_alone (hc : (w.spot i).car = some hd) : writeLastEnd b i w = w.modCar hd.slot fun c =>
    { c with lastEnd := some o.lastEnd, recovered := c.recovered || o.reason == some .residual } := by
  have hdep : w.scratch.departed = [{ spot := i, order := o }] := congrArg Ledger.departed hw
  unfold writeLastEnd State.modCarAt
  rw [hdep, hc]
  simp [tailMost]

include hc

/-- An event at which one order has left closes, for the car table, as one that changes the bound car alone. -/
theorem closeEvent_departed : (closeEvent b w).cars = (closeEvent b (({ w with scratch := .empty } : State).modCar hd.slot fun c : Car =>
      { c with lastEnd := some o.lastEnd, recovered := c.recovered || o.reason == some .residual })).cars ∧
    (closeEvent b w).changes.cars = (closeEvent b (({ w with scratch := .empty } : State).modCar hd.slot fun c : Car =>
      { c with lastEnd := some o.lastEnd, recovered := c.recovered || o.reason == some .residual })).changes.cars := by
  have htouched : w.scratch.touched = 0 := congrArg Ledger.touched hw
  have hdep : w.scratch.departed = [{ spot := i, order := o }] := congrArg Ledger.departed hw
  obtain ⟨f, hf⟩ : ∃ f, f = fun c : Car =>
      { c with lastEnd := some o.lastEnd, recovered := c.recovered || o.reason == some EndReason.residual } := ⟨_, rfl⟩
  rw [← hf]
  obtain ⟨x, hx⟩ : ∃ x, x = w.refreshInlets.modCar hd.slot f := ⟨_, rfl⟩
  obtain ⟨y, hy⟩ : ∃ y, y = (({ w with scratch := .empty } : State).modCar hd.slot f).refreshInlets := ⟨_, rfl⟩
  have hclose : closeEvent b w = clearScratch (raiseFlags b (followLamps b (bumpRevisions x))) := by
    have hone : ∀ d ∈ w.refreshInlets.scratch.departed, d.spot = i := by
      show ∀ d ∈ w.scratch.departed, d.spot = i
      rw [hdep]
      simp
    unfold closeEvent
    rw [eachLastEnd_one b _ i hone, writeLastEnd_alone (w := w.refreshInlets) hw hc, hx, hf]
  have hquiet : closeEvent b (({ w with scratch := .empty } : State).modCar hd.slot f) =
      clearScratch (raiseFlags b (followLamps b (bumpRevisions y))) := by
    unfold closeEvent
    rw [← hy, eachLastEnd_none b y (by rw [hy]; rfl)]
  have hxt : x.scratch.touched = BitVec.twoPow 24 hd.slot := by
    rw [hx]
    show w.scratch.touched ||| _ = _
    rw [htouched]
    exact BitVec.zero_or
  have hyt : y.scratch.touched = BitVec.twoPow 24 hd.slot := by
    rw [hy]
    exact BitVec.zero_or
  have hcars : x.cars = y.cars := by rw [hx, hy]; rfl
  have hflags : x.changes.cars = y.changes.cars := by rw [hx, hy]; rfl
  have hbump : ∀ z : State, z.scratch.touched = BitVec.twoPow 24 hd.slot → bumpRevisions z = { z with
      cars := Vector.ofFn fun k => if (BitVec.twoPow 24 hd.slot).getLsbD k then
        { z.cars[k] with car := z.cars[k].car.map fun c => { c with revision := c.revision + 1 } } else z.cars[k]
      changes := { z.changes with cars := z.changes.cars ||| BitVec.twoPow 24 hd.slot } } := fun z hz => by
    unfold bumpRevisions
    rw [hz, if_neg fun e => ?_]
    have h24 := congrArg (fun x : BitVec 24 => x.getLsbD hd.slot) e
    simp at h24
  rw [hclose, hquiet]
  constructor
  · show (bumpRevisions x).cars = (bumpRevisions y).cars
    rw [hbump x hxt, hbump y hyt, hcars]
  · show (bumpRevisions x).changes.cars = (bumpRevisions y).changes.cars
    rw [hbump x hxt, hbump y hyt, hflags]

include hcar

/-- The car table after an event at which one order has left, and the flags of its slots. -/
theorem closeEvent_cars_ended : (closeEvent b w).cars =
      b.cars.set hd.slot { issue := (b.carSlot hd.slot).issue, car := some (c.ended o) } ∧
    (closeEvent b w).changes.cars = w.changes.cars ||| BitVec.twoPow 24 hd.slot := by
  have hcars : w.cars = b.cars := congrArg Ledger.cars hw
  have hslot : w.carSlot hd.slot = b.carSlot hd.slot := by
    unfold State.carSlot
    rw [hcars]
  obtain ⟨e1, e2⟩ := closeEvent_departed hw hc
  have hframe := closeEvent_modCar_frame (b := b) (w := ({ w with scratch := .empty } : State)) (k := hd.slot) (f := fun c =>
    { c with lastEnd := some o.lastEnd, recovered := c.recovered || o.reason == some .residual }) rfl
    (show w.car hd.slot = some c from (congrArg CarSlot.car hslot).trans hcar)
  refine ⟨?_, by rw [e2, closeEvent_modCar_flags rfl]⟩
  rw [e1, cars_of_frame_eq hframe]
  show w.cars.set hd.slot _ = _
  rw [hcars]
  rfl

end LastEnd

/-! ## CANCEL ORDER -/

theorem Spot.order_filtered (sp : Spot) (tag : Word16) :
    ({ sp with orders := sp.orders.filter fun p => p.tag ≠ tag } : Spot).order tag = none :=
  List.find?_eq_none.mpr fun o ho => by
    have h := List.of_mem_filter ho
    simpa using h

/-- The head's pace stands when an order of another tag leaves. -/
theorem filtered_pace {sp : Spot} {h : Order} {tag : Word16} (hh : sp.head = some h) (ht : h.tag ≠ tag) :
    (sp.orders.filter fun p => p.tag ≠ tag).head?.map Order.pace = sp.orders.head?.map Order.pace := by
  unfold Spot.head at hh
  cases hq : sp.orders with
  | nil => rfl
  | cons o q =>
    rw [hq] at hh
    cases hh
    rw [List.filter_cons_of_pos (by simpa using ht)]
    rfl

section Cancel

variable {place : Byte} {s : State} {i : SpotNo} {tag : Word16} (hn : s.namedSpot place = .ok i)

include hn

theorem answerCancelOrder_noRecord (h : (s.spot i).order tag = none) : answerCancelOrder place tag s = (s, .bare .noRecord) := by
  unfold answerCancelOrder
  rw [withSpot_ok _ hn, h]

theorem answerCancelOrder_state {o : Order} (h : (s.spot i).order tag = some o) (hd : o.state = .draining) :
    answerCancelOrder place tag s = (s, .bare .state) := by
  unfold answerCancelOrder
  rw [withSpot_ok _ hn, h]
  exact if_pos hd

theorem answerCancelOrder_done {o : Order} (h : (s.spot i).order tag = some o) (hd : o.state ≠ .draining) :
    answerCancelOrder place tag s = (settle (advanceSpot i (endOrder i tag .cancelled s)),
      .ok (Layout.optional (fun p : Order => [Layout.orderState p.state])
        (((settle (advanceSpot i (endOrder i tag .cancelled s))).spot i).order tag))) := by
  unfold answerCancelOrder
  rw [withSpot_ok _ hn, h]
  exact if_neg hd

end Cancel

theorem depart_frame (i : SpotNo) (o : Order) (s : State) : (depart i o s).frame = { s.frame with
    spots := s.spots.set i { s.spot i with orders := (s.spot i).orders.filter fun p => p.tag ≠ o.tag }
    vessels := match o.liquid with
      | some l => s.vessels.set l.vessel ((s.vessel l.vessel).unreserve i o.tag)
      | none => s.vessels } := by
  unfold depart
  dsimp only
  cases o.liquid <;> rfl

theorem depart_flag (i : SpotNo) (o : Order) (s : State) : (depart i o s).scratch.spots.getLsbD i = true := by
  unfold depart
  dsimp only
  split <;> exact touchSpot_flag i s

theorem endOrder_behind {i : SpotNo} {tag : Word16} {r : EndReason} {s : State} {h o : Order} (hh : (s.spot i).head = some h)
    (ht : h.tag ≠ tag) (ho : (s.spot i).order tag = some o) : endOrder i tag r s = depart i { o with reason := some r } s := by
  unfold endOrder
  rw [hh]
  dsimp only
  rw [if_neg ht, ho]

theorem endOrder_head {i : SpotNo} {tag : Word16} {r : EndReason} {s : State} {h : Order} (hh : (s.spot i).head = some h)
    (ht : h.tag = tag) : endOrder i tag r s = endHead i r s := by
  unfold endOrder
  rw [hh]
  exact if_pos ht

theorem Vessel.unreserve_entries (i : SpotNo) (tag : Word16) (r : Vessel) : r.unreserve i tag = { r with
    entries := r.entries.filter fun e => ¬ (e.spot = i ∧ e.tag = tag) } := by
  unfold Vessel.unreserve
  refine congrArg (fun x => ({ r with entries := x } : Vessel)) (List.filter_congr fun e _ => ?_)
  unfold Entry.names
  simp only [decide_not, Bool.decide_and]
  rfl

section Cancels

variable {s : State} {via : Via} {place : Byte} {i : SpotNo} {tag : Word16} {o : Order}
  (ht : s.canTake via = true) (hn : s.namedSpot place = .ok i) (ho : (s.spot i).order tag = some o)

include ht hn ho

theorem cancel_behind {h : Order} {hd : Handle} {c : Car} (hnd : o.state ≠ .draining) (hh : (s.spot i).head = some h)
    (htag : h.tag ≠ tag) (hq : (s.spot i).queueLegal) (hs : (s.spot i).steady) (hdue : s.due = none)
    (hcar : (s.spot i).car = some hd) (hrec : s.car hd.slot = some c) :
    ∃ t, s.answers (.cancelOrder via place tag) .done [0] t ∧
      t.frame = { s.frame with
        spots := s.spots.set i { s.spot i with orders := (s.spot i).orders.filter fun p => p.tag ≠ tag }
        vessels := match o.liquid with
          | some l => s.vessels.set l.vessel ((s.vessel l.vessel).unreserve i tag)
          | none => s.vessels
        cars := s.cars.set hd.slot { issue := (s.carSlot hd.slot).issue
                                     car := some (c.ended { o with reason := some .cancelled }) } } ∧
      t.changes.spots.getLsbD i = true ∧ t.changes.cars = s.changes.cars ||| BitVec.twoPow 24 hd.slot := by
  have hotag : o.tag = tag := Spot.order_tag ho
  have hleft : ∀ v : State, v.frame = s.frame → (depart i { o with reason := some .cancelled } v).spot i =
      { s.spot i with orders := (s.spot i).orders.filter fun p => p.tag ≠ tag } := fun v hv => by
    rw [depart_spot, spot_of_frame hv, hotag]
  have hstands : ∀ v : State, v.frame = s.frame → settle (advanceSpot i (endOrder i tag .cancelled v)) =
      depart i { o with reason := some .cancelled } v := fun v hv => by
    have hwork := spotWork_depart i v { o with reason := some .cancelled }
    have hframe := depart_frame i { o with reason := some .cancelled } v
    obtain ⟨h1, h2⟩ := requeued_stands (hleft v hv) (filtered_pace hh htag) hs (not_stroking_of_order hq (Spot.order_mem ho)) hdue
      (fun j hj => (hwork.others j hj).trans (spot_of_frame hv j))
      ((congrArg Frame.grants hframe).trans (congrArg Frame.grants hv)) ((congrArg Frame.comps hframe).trans (congrArg Frame.comps hv))
      ((congrArg Frame.fe hframe).trans (congrArg Frame.fe hv)) ((congrArg Frame.profile hframe).trans (congrArg Frame.profile hv))
    have hend : endOrder i tag .cancelled v = depart i { o with reason := some .cancelled } v :=
      endOrder_behind (h := h) (by rw [spot_of_frame hv]; exact hh) htag (by rw [spot_of_frame hv]; exact ho)
    rw [hend, h1, h2]
  obtain ⟨v, t, hv, ha, hframe, hch, -⟩ := answers_event (c := .cancelOrder via place tag) (s := s)
      (f := depart i { o with reason := some .cancelled }) ht rfl fun v hv => by
    rw [show answer (.cancelOrder via place tag) v = answerCancelOrder place tag v from rfl,
      answerCancelOrder_done ((namedSpot_of_frame hv _).trans hn) (by rwa [spot_of_frame hv]) hnd, hstands v hv, hleft v hv,
      Spot.order_filtered]
  have hledger : (depart i { o with reason := some .cancelled } v).ledger =
      { cars := v.cars, touched := 0, departed := [{ spot := i, order := { o with reason := some .cancelled } }] } := by
    rw [ledger_depart]
    unfold State.ledger
    rw [hv.scratch]
    rfl
  obtain ⟨e1, e2⟩ := closeEvent_cars_ended (b := v) (c := c) hledger (by rw [hleft v hv.frame]; exact hcar)
    ((car_of_frame hv.frame hd.slot).trans hrec)
  have hcars : v.cars = s.cars := congrArg Frame.cars hv.frame
  have hspots : v.spots = s.spots := congrArg Frame.spots hv.frame
  have hvessels : v.vessels = s.vessels := congrArg Frame.vessels hv.frame
  refine ⟨t, ha, ?_, ?_, ?_⟩
  · rw [hframe, closeEvent_frame, e1, depart_frame, hv.frame, hcars, hspots, hvessels, spot_of_frame hv.frame,
      carSlot_of_frame hv.frame, hotag]
    cases o.liquid with
    | none => rfl
    | some l =>
      dsimp only
      rw [vessel_of_frame hv.frame]
  · rw [hch]
    exact spotFlag_of_touched (depart_flag i _ v)
  · rw [hch, e2]
    have hdepart : (depart i { o with reason := some .cancelled } v).changes = v.changes :=
      congrArg Fixed.changes (spotWork_depart i v _).kept.fixed
    rw [hdepart, found_cars hv]

theorem cancel_drains {l : Liquid} (hl : o.liquid = some l) (hr : o.state = .running) (hh : (s.spot i).head = some o)
    (hst : (s.spot i).state = .transfer) (hsup : (s.spot i).liquid.supervised = true) (hopen : (s.spot i).liquid.isOpen = true) :
    ∃ t, s.answers (.cancelOrder via place tag) .done [1, 4] t ∧ t.spot i = (s.spot i).drains (s.strokeOf .liquid) .cancelled ∧
      t.changes.spots.getLsbD i = true ∧ s.sameStore t ∧ (s.waitsNowhereBut i → s.onlyAt t i) := by
  have hdone : ∀ v : State, v.frame = s.frame → ∃ x, advanceSpot i (endOrder i tag .cancelled v) = x ∧ SpotDone i v x ∧
      x.spot i = (s.spot i).drains (s.strokeOf .liquid) .cancelled := fun v hv => by
    have hsp := spot_of_frame hv i
    obtain ⟨hadv, hx, hxi⟩ := endHead_drains (i := i) (s := v) (h := o) .cancelled (by rwa [hsp]) (by rwa [hsp]) hr
      (by rw [hl]; exact nofun) (by rwa [hsp]) (by rwa [hsp])
    rw [hsp, strokeOf_of_frame hv] at hxi
    have hend : endOrder i tag .cancelled v = endHead i .cancelled v :=
      endOrder_head (h := o) (by rw [hsp]; exact hh) (Spot.order_tag ho)
    exact ⟨_, by rw [hend, hadv], hx, hxi⟩
  obtain ⟨v, t, hv, ha, hframe, hch, -⟩ := answers_event (c := .cancelOrder via place tag) (s := s) ht rfl fun v hv => by
    rw [show answer (.cancelOrder via place tag) v = answerCancelOrder place tag v from rfl,
      answerCancelOrder_done ((namedSpot_of_frame hv _).trans hn) (by rwa [spot_of_frame hv]) (by rw [hr]; exact nofun)]
    obtain ⟨x, hx, hd, hxi⟩ := hdone v hv
    have horder : ((settle x).spot i).order tag = some { o with state := .draining, reason := some .cancelled } := by
      have h := Spot.order_of_head (Spot.drains_head (s.strokeOf .liquid) .cancelled hh)
      rw [hd.settled, hxi, ← h]
      exact congrArg _ (Spot.order_tag ho).symm
    rw [hx, horder, ← hx]
  obtain ⟨x, hx, hd, hxi⟩ := hdone v hv.frame
  rw [hx] at hframe hch
  obtain ⟨hti, hflag, hstore, honly⟩ := hd.event hv.frame hv.scratch hframe hch
  exact ⟨t, ha, hti.trans hxi, hflag, hstore, honly⟩

end Cancels

/-- Settles O37: the checks; then the order behind the head gone, or the head draining. -/
theorem cancelWithdrawsAnOrder : Obligations.CancelWithdrawsAnOrder := by
  refine fun s via place i tag ht hn => ⟨fun h => ?_, fun o ho => ⟨fun h => ?_,
    fun h hd c hnd hh htag hq hs hdue hcar hrec => ?_, fun l hl hr hh hst hsup hopen => ?_⟩⟩
  · exact refuses_of (c := .cancelOrder via place tag) ht rfl fun u hu =>
      answerCancelOrder_noRecord ((namedSpot_of_frame hu _).trans hn) (by rwa [spot_of_frame hu])
  · exact refuses_of (c := .cancelOrder via place tag) ht rfl fun u hu =>
      answerCancelOrder_state ((namedSpot_of_frame hu _).trans hn) (by rwa [spot_of_frame hu]) h
  · obtain ⟨t, ha, hframe, hflag, hflags⟩ := cancel_behind ht hn ho hnd hh htag hq hs hdue hcar hrec
    refine ⟨t, ha, ?_, hflag, hflags⟩
    rw [hframe, ← Spot.order_tag ho]
    unfold Car.ended Order.lastEnd Order.kind
    rw [show ((some EndReason.cancelled : Option EndReason) == some .residual) = false from rfl, Bool.or_false]
    cases o.liquid with
    | none => rfl
    | some l =>
      dsimp only
      rw [Vessel.unreserve_entries]
      rfl
  · obtain ⟨t, ha, hti, hflag, hstore, honly⟩ := cancel_drains ht hn ho hl hr hh hst hsup hopen
    refine ⟨t, ha, by rw [hti]; exact Spot.drains_head _ _ hh, ?_, by rw [hti]; rfl, by rw [hti]; rfl, ?_, hflag, hstore, honly⟩
    · rw [hti]
      unfold Spot.drains
      rw [Spot.modHead_eq]
      exact hst
    · rw [hti]
      exact Valve.toldShut_open hsup hopen

end Sys2Proof.Machine
end

section
/-! PROOFS. A compressor's valves commanded SHUT (R143), and a compressor that faults (R132, R133). -/

namespace Sys2Proof.Machine

/-! ## Direction valves put back with their marks -/

theorem Comp.putValve_valve (d e : Direction) (v : Valve) (k : Comp) : (k.putValve d v).valve e = if e = d then v else k.valve e := by
  unfold Comp.putValve
  dsimp only
  cases d <;> cases e <;> dsimp only <;> repeat' split
  all_goals first | rfl | contradiction

theorem Comp.putValve_same (d : Direction) (v : Valve) (k : Comp) : (k.putValve d v).valve d = v := by
  rw [putValve_valve, if_pos rfl]

theorem Comp.state_of_bare {k l : Comp} (h : k.bare = l.bare) : k.state = l.state := by
  have hs := congrArg Comp.state h
  exact hs

/-- Both valves changed by one function keep everything but valves and marks. -/
theorem Comp.mapValves_bare (f : Valve → Valve) (k : Comp) : (k.mapValves f).bare = k.bare :=
  (putValve_bare _ _ _).trans (putValve_bare _ _ _)

theorem Comp.mapValves_valve (f : Valve → Valve) (k : Comp) (e : Direction) : (k.mapValves f).valve e = f (k.valve e) := by
  have hdraw : (k.putValve .push (f k.push)).draw = k.draw := putValve_valve .push .draw (f k.push) k
  unfold Comp.mapValves
  rw [hdraw, putValve_valve, putValve_valve]
  cases e <;> rfl

/-- A compressor with a command given to one of its valves (R143, R144). -/
def Comp.commanded (stroke : Timer) (fe : Bool) (d : Direction) (x : Command) (k : Comp) : Comp :=
  let k1 := k.putValve d { k.valve d with command := x }
  k1.putValve d ((k1.valve d).pursue stroke (k1.effective fe d))

theorem commandDir_eq (c : CompNo) (d : Direction) (x : Command) (s : State) :
    commandDir c d x s = s.modComp c (Comp.commanded s.strokeOfDirection s.fe d x) := by
  unfold commandDir pursueDir
  rw [modComp_modComp]
  rfl

theorem Comp.commanded_bare (stroke : Timer) (fe : Bool) (d : Direction) (x : Command) (k : Comp) :
    (k.commanded stroke fe d x).bare = k.bare := (putValve_bare _ _ _).trans (putValve_bare _ _ _)

theorem Comp.commanded_valve (stroke : Timer) (fe : Bool) (d : Direction) (x : Command) (k : Comp) (e : Direction) :
    (k.commanded stroke fe d x).valve e =
      if e = d then (k.valve d).told stroke (fe && k.state != .faulted) x else k.valve e := by
  have hstate : (k.putValve d { k.valve d with command := x }).state = k.state := state_of_bare (putValve_bare _ _ _)
  unfold Comp.commanded
  dsimp only
  rw [putValve_valve]
  split
  · unfold Comp.effective Valve.told
    rw [putValve_same, hstate]
    simp only [Bool.and_assoc]
    rfl
  next h => rw [putValve_valve, if_neg h]

/-- A compressor with both valves commanded SHUT. -/
def Comp.shutBoth (stroke : Timer) (fe : Bool) (k : Comp) : Comp :=
  (k.commanded stroke fe .push .toShut).commanded stroke fe .draw .toShut

theorem shutDirs_eq (c : CompNo) (s : State) : shutDirs c s = s.modComp c (Comp.shutBoth s.strokeOfDirection s.fe) := by
  unfold shutDirs
  rw [commandDir_eq, commandDir_eq, modComp_modComp]
  rfl

theorem Comp.shutBoth_bare (stroke : Timer) (fe : Bool) (k : Comp) : (k.shutBoth stroke fe).bare = k.bare :=
  (commanded_bare _ _ _ _ _).trans (commanded_bare _ _ _ _ _)

theorem Comp.shutBoth_valve (stroke : Timer) (fe : Bool) (k : Comp) (e : Direction) :
    (k.shutBoth stroke fe).valve e = (k.valve e).toldShut stroke := by
  unfold Comp.shutBoth
  rw [commanded_valve, commanded_valve, commanded_valve]
  cases e <;> rfl

theorem Valve.toldShut_fault {stroke : Timer} {v : Valve} (h : v.isFault = true) : (v.toldShut stroke).isFault = true :=
  (Valve.pursue_isFault _ _ _).trans h

theorem Valve.failTest_command (v : Valve) : v.failTest.command = v.command := by
  unfold Valve.failTest
  split <;> rfl

theorem Valve.failTest_fault {v : Valve} (h : v.isFault = true) : v.failTest.isFault = true := by
  unfold Valve.failTest
  split
  · rfl
  · exact h

/-! ## A FAULTED compressor and the arbiter -/

section Settled

variable {c : CompNo}

theorem startComp_other {d : CompNo} (h : c ≠ d) (x : Direction) (s : State) : (startComp d x s).comp c = s.comp c :=
  (compWork_startComp d s x).others c h

theorem dropGrant_unturned {i : SpotNo} {s : State} (h : (s.comp c).turning = none) : (dropGrant i s).comp c = s.comp c := by
  have turn : ∀ (l : List CompNo) (u : State), (u.comp c).turning = none →
      (l.foldl (fun s d => clearTurning i d s) u).comp c = u.comp c := by
    intro l
    induction l with
    | nil => exact fun _ _ => rfl
    | cons d l ih =>
      intro u hu
      have hone : (clearTurning i d u).comp c = u.comp c := by
        unfold clearTurning
        split
        next e =>
          refine modComp_comp_other _ _ _ _ fun hcd => ?_
          rw [← hcd, hu] at e
          cases e
        next => rfl
      rw [List.foldl_cons, ih _ (by rw [hone]; exact hu), hone]
  unfold dropGrant
  dsimp only
  refine (turn _ _ ?_).trans ?_
  all_goals split
  · exact h
  · exact h
  · rfl
  · rfl

theorem seatFor_state {s : State} {d : Direction} (h : s.seatFor d = some c) : (s.comp c).state ≠ .faulted := by
  unfold State.seatFor at h
  split at h
  next x hx =>
    cases h
    have hs := List.find?_some hx
    unfold State.hasSeat at hs
    intro e
    simp [e, CompState.working] at hs
  next =>
    have hs := List.find?_some h
    unfold State.canStart at hs
    intro e
    simp [e] at hs

theorem due_seat_state {s : State} {g : Grant} (h : s.due = some (.seat g c)) : (s.comp c).state ≠ .faulted := by
  have hn : s.nextGrant = some (g, c) := by
    unfold State.due at h
    repeat' split at h
    next => cases h
    next => cases h
    next hg =>
      cases h
      exact hg
    next =>
      obtain ⟨p, -, hp⟩ := Option.map_eq_some_iff.mp h
      cases hp
    next => cases h
  unfold State.nextGrant at hn
  obtain ⟨x, -, hx⟩ := List.exists_of_findSome?_eq_some hn
  obtain ⟨d, hd, he⟩ := Option.map_eq_some_iff.mp hx
  cases he
  exact seatFor_state hd

theorem fewestSeats_mem (s : State) : ∀ l, s.fewestSeats l = some c → c ∈ l
  | [], h => by cases h
  | d :: l, h => by
    unfold State.fewestSeats at h
    split at h
    next =>
      cases h
      exact List.mem_cons_self
    next b hb =>
      split at h
      · cases h
        exact List.mem_cons_self
      · cases h
        exact List.mem_cons_of_mem _ (fewestSeats_mem s l hb)

theorem due_turn_state {s : State} {i : SpotNo} (h : s.due = some (.turn i c)) : (s.comp c).state ≠ .faulted := by
  have hn : s.nextTurn = some (i, c) := by
    unfold State.due at h
    repeat' split at h
    next => cases h
    next => cases h
    next => cases h
    next =>
      obtain ⟨p, hp, he⟩ := Option.map_eq_some_iff.mp h
      cases he
      exact hp
    next => cases h
  unfold State.nextTurn at hn
  split at hn
  next => cases hn
  next =>
    split at hn
    · cases hn
    · obtain ⟨d, hd, he⟩ := Option.map_eq_some_iff.mp hn
      cases he
      have hturn := List.of_mem_filter (fewestSeats_mem s _ hd)
      unfold State.canTurn at hturn
      intro e
      simp [e, CompState.working] at hturn

theorem grantSeat_other {d : CompNo} {g : Grant} {s : State} (hd : c ≠ d) (ht : (s.comp c).turning = none) :
    (grantSeat d g s).comp c = s.comp c := by
  have hbase : (((((s.touchSpot g.spot).touchComp d).modSpot g.spot fun sp => { sp with seat := some d }).modComp d fun k =>
      { k with seated := insertSpot g.spot k.seated }).comp c) = s.comp c := modComp_comp_other _ _ _ _ hd
  have hdrop := dropGrant_unturned (i := g.spot) (by rw [hbase]; exact ht)
  unfold grantSeat
  dsimp only
  split
  · rw [startComp_other hd, hdrop, hbase]
  · rw [modComp_comp_other _ _ _ _ hd, hdrop, hbase]
  all_goals rw [hdrop, hbase]

theorem performDue_faulted {s : State} {d : Due} (hd : s.due = some d) (hf : (s.comp c).state = .faulted)
    (ht : (s.comp c).turning = none) : (performDue d s).comp c = s.comp c := by
  cases d with
  | run i =>
    refine (spotWork_runHead i s).comps c (fun hseat => ?_) (by rw [ht]; exact nofun)
    have hr := due_run_ready hd
    unfold State.headReady at hr
    dsimp only at hr
    split at hr
    next o k _ _ hk =>
      have hck : c = k := Option.some.inj (hseat.symm.trans hk)
      rw [← hck] at hr
      simp [hf] at hr
    next => cases hr
  | join => rfl
  | seat g d => exact grantSeat_other (fun e => due_seat_state hd (e ▸ hf)) ht
  | turn i d =>
    have hne : c ≠ d := fun e => due_turn_state hd (e ▸ hf)
    exact ((compWork_compOnEmpty d _).others c hne).trans (modComp_comp_other _ _ _ _ hne)

/-- The arbiter does nothing with a FAULTED compressor. -/
theorem settle_faulted {s : State} (hf : (s.comp c).state = .faulted) (ht : (s.comp c).turning = none) :
    (settle s).comp c = s.comp c := by
  suffices h : ∀ n (s : State), (s.comp c).state = .faulted → (s.comp c).turning = none → (settleFor n s).comp c = s.comp c from h _ s hf ht
  intro n
  induction n with
  | zero => exact fun _ _ _ => rfl
  | succ n ih =>
    intro s hf ht
    unfold settleFor
    split
    · rfl
    next d hd =>
      have hone := performDue_faulted hd hf ht
      rw [ih _ (by rw [hone]; exact hf) (by rw [hone]; exact ht), hone]

end Settled

/-! ## A compressor that faults -/

/-- A compressor as its fault leaves it (R132, R133). -/
def Comp.faults (stroke : Timer) (fe : Bool) (f : CompFault) (k : Comp) : Comp :=
  let k1 := { k with
    state := .faulted, step := none, seated := [], turning := none, fault := some f, startOn := false
    startTimer := .stopped, runTimer := .stopped, stroked := false }.shutBoth stroke fe
  if k.state = .proof then (k1.mapValves Valve.failTest).mapValves Valve.stopTimer else k1

theorem Comp.faults_bare (stroke : Timer) (fe : Bool) (f : CompFault) (k : Comp) : (k.faults stroke fe f).bare = { k.bare with
    state := .faulted, step := none, seated := [], turning := none, fault := some f, startOn := false
    startTimer := .stopped, runTimer := .stopped, stroked := false } := by
  unfold Comp.faults
  dsimp only
  split
  · rw [mapValves_bare, mapValves_bare, shutBoth_bare]
    rfl
  · rw [shutBoth_bare]
    rfl

theorem Comp.faults_command (stroke : Timer) (fe : Bool) (f : CompFault) (k : Comp) (d : Direction) :
    ((k.faults stroke fe f).valve d).command = .toShut := by
  unfold Comp.faults
  dsimp only
  split
  · rw [mapValves_valve, mapValves_valve, shutBoth_valve]
    exact (Valve.failTest_command _).trans (Valve.toldShut_command _ _)
  · rw [shutBoth_valve]
    exact Valve.toldShut_command _ _

theorem Comp.faults_fault (stroke : Timer) (fe : Bool) (f : CompFault) {k : Comp} {d : Direction} (h : (k.valve d).isFault = true) :
    ((k.faults stroke fe f).valve d).isFault = true := by
  have hd : ((({ k with
      state := .faulted, step := none, seated := [], turning := none, fault := some f, startOn := false
      startTimer := .stopped, runTimer := .stopped, stroked := false } : Comp).shutBoth stroke fe).valve d).isFault = true := by
    rw [shutBoth_valve]
    exact Valve.toldShut_fault h
  unfold Comp.faults
  dsimp only
  split
  · rw [mapValves_valve, mapValves_valve]
    exact Valve.failTest_fault hd
  · exact hd

/-- A seated spot's work at its compressor's fault. -/
def unseatHeld (s : State) (i : SpotNo) : State :=
  holdSpot i .compressor ((s.touchSpot i).modSpot i fun sp => { sp with seat := none })

theorem faultComp_eq {f : CompFault} {c : CompNo} {s : State} (h : (s.comp c).state ≠ .faulted) : faultComp f c s =
    if (s.comp c).state = .proof then endCompTest c ((s.comp c).seated.foldl unseatHeld
      ((s.touchComp c).modComp c (Comp.faults s.strokeOfDirection s.fe f)))
    else (s.comp c).seated.foldl unseatHeld ((s.touchComp c).modComp c (Comp.faults s.strokeOfDirection s.fe f)) := by
  have hbase : (if (s.comp c).state = .proof then
      (shutDirs c ((s.touchComp c).modComp c fun k =>
        { k with state := .faulted, step := none, seated := [], turning := none, fault := some f, startOn := false,
                 startTimer := .stopped, runTimer := .stopped, stroked := false })).modComp c fun k =>
        (k.mapValves Valve.failTest).mapValves Valve.stopTimer
      else shutDirs c ((s.touchComp c).modComp c fun k =>
        { k with state := .faulted, step := none, seated := [], turning := none, fault := some f, startOn := false,
                 startTimer := .stopped, runTimer := .stopped, stroked := false })) =
      (s.touchComp c).modComp c (Comp.faults s.strokeOfDirection s.fe f) := by
    split
    next hp =>
      rw [shutDirs_eq, modComp_modComp, modComp_modComp]
      refine modComp_congr ?_
      exact (if_pos (c := (s.comp c).state = .proof) hp).symm
    next hp =>
      rw [shutDirs_eq, modComp_modComp]
      refine modComp_congr ?_
      exact (if_neg (c := (s.comp c).state = .proof) hp).symm
  unfold faultComp
  dsimp only
  rw [if_neg h, hbase]
  rfl

/-- A spot HELD by its compressor with no head to drain. -/
def Spot.heldFast (sp : Spot) : Prop := sp.state = .held ∧ sp.holds.compressor = true ∧ sp.headIs .draining = false

section Seated

variable {i : SpotNo} {u : State}

theorem unseatHeld_other {j : SpotNo} (h : i ≠ j) : (unseatHeld u j).spot i = u.spot i :=
  ((spotWork_holdSpot j _ .compressor).others i h).trans (modSpot_spot_other _ j i _ h)

theorem kept_unseatHeld (j : SpotNo) : Kept u (unseatHeld u j) :=
  ((Kept.touchSpot j u).trans (.modSpot j _ _)).trans (spotWork_holdSpot j _ .compressor).kept

theorem unseatHeld_comp {c : CompNo} (j : SpotNo) (h : (u.comp c).turning = none) : (unseatHeld u j).comp c = u.comp c := by
  refine (spotWork_holdSpot j _ .compressor).comps c ?_ ?_
  · rw [modSpot_spot_same]
    exact nofun
  · show (u.comp c).turning ≠ some j
    rw [h]
    exact nofun

theorem unseatHeld_heldFast (h : (u.spot i).heldFast) (j : SpotNo) : ((unseatHeld u j).spot i).heldFast := by
  by_cases e : i = j
  · obtain ⟨h1, h2, h3⟩ := h
    rw [← e]
    have hi : ((u.touchSpot i).modSpot i fun sp => { sp with seat := none }).spot i = { u.spot i with seat := none } :=
      modSpot_spot_same _ _ _
    have hhas : (((u.touchSpot i).modSpot i fun sp => { sp with seat := none }).spot i).holds.has .compressor = true := by
      rw [hi]
      exact h2
    unfold unseatHeld holdSpot
    rw [addHold_has hhas, advanceSpot_held (by rw [hi]; exact h1), hi]
    · exact ⟨h1, h2, h3⟩
    · rw [hi]
      exact fun e => Bool.false_ne_true (h3.symm.trans e.1)
  · rw [unseatHeld_other e]
    exact h

/-- The conditions at which the fault of its compressor brings a spot to HELD. -/
def Spot.fallsHeld (sp : Spot) : Prop :=
  (sp.state = .staged ∨ sp.state = .transfer ∨ sp.state = .recovery) ∧ sp.headIs .draining = false ∧ sp.holds = .empty

theorem unseatHeld_holds (h : (u.spot i).fallsHeld) : ((unseatHeld u i).spot i).heldFast := by
  obtain ⟨hst, hd, hh⟩ := h
  have hi : ((u.touchSpot i).modSpot i fun sp => { sp with seat := none }).spot i = { u.spot i with seat := none } :=
    modSpot_spot_same _ _ _
  have hhold : ({ u.spot i with seat := none } : Spot).state.holdable := by
    rcases hst with e | e | e
    · exact .inr (.inl e)
    · exact .inr (.inr (.inl e))
    · exact .inr (.inr (.inr e))
  have hhas : ({ u.spot i with seat := none } : Spot).holds.has .compressor = false := by
    show (u.spot i).holds.has .compressor = false
    rw [hh]
    rfl
  have hno : ({ u.spot i with seat := none } : Spot).stillDrains := fun e => absurd (hd.symm.trans e) Bool.false_ne_true
  rw [← hi] at hhold hhas hno
  unfold unseatHeld
  rw [holdSpot_enters hhas hhold hno, addHold_spot hhas hhold]
  refine ⟨rfl, rfl, ?_⟩
  rw [Spot.held_headIs, hi]
  exact hd

theorem seated_heldFast (l : List SpotNo) : ∀ u : State, (u.spot i).heldFast → ((l.foldl unseatHeld u).spot i).heldFast := by
  induction l with
  | nil => exact fun _ h => h
  | cons j l ih =>
    intro u h
    rw [List.foldl_cons]
    exact ih _ (unseatHeld_heldFast h j)

theorem seated_held (l : List SpotNo) (hm : i ∈ l) : ∀ u : State, (u.spot i).fallsHeld → ((l.foldl unseatHeld u).spot i).heldFast := by
  induction l with
  | nil => cases hm
  | cons j l ih =>
    intro u h
    rw [List.foldl_cons]
    by_cases e : i = j
    · rw [← e]
      exact seated_heldFast l _ (unseatHeld_holds h)
    · exact ih ((List.mem_cons.mp hm).resolve_left e) _ (by rw [unseatHeld_other e]; exact h)

theorem seated_comp {c : CompNo} (l : List SpotNo) : ∀ u : State, (u.comp c).turning = none → (l.foldl unseatHeld u).comp c = u.comp c := by
  induction l with
  | nil => exact fun _ _ => rfl
  | cons j l ih =>
    intro u h
    have hone := unseatHeld_comp j h
    rw [List.foldl_cons, ih _ (by rw [hone]; exact h), hone]

end Seated

/-- What the fault of a compressor leaves at the end of its event's work. -/
theorem faultComp_done (f : CompFault) {c : CompNo} {s : State} (h : (s.comp c).state ≠ .faulted) :
    Kept s (settle (faultComp f c s)) ∧
      (settle (faultComp f c s)).comp c = (s.comp c).faults s.strokeOfDirection s.fe f ∧
      (settle (faultComp f c s)).scratch.comps.getLsbD c = true ∧
      ∀ i ∈ (s.comp c).seated, (s.spot i).fallsHeld →
        ((settle (faultComp f c s)).spot i).state = .held ∧ ((settle (faultComp f c s)).spot i).holds.compressor = true := by
  obtain ⟨u, hu⟩ : ∃ u, u = (s.touchComp c).modComp c (Comp.faults s.strokeOfDirection s.fe f) := ⟨_, rfl⟩
  obtain ⟨w, hw⟩ : ∃ w, w = (s.comp c).seated.foldl unseatHeld u := ⟨_, rfl⟩
  obtain ⟨x, hx⟩ : ∃ x, x = faultComp f c s := ⟨_, rfl⟩
  have hxw : x = endCompTest c w ∨ x = w := by
    rw [hx, faultComp_eq h, ← hu, ← hw]
    split
    · exact .inl rfl
    · exact .inr rfl
  have hwork : CompWork c w x := by
    rcases hxw with e | e
    · rw [e]
      exact compWork_endCompTest c w
    · rw [e]
      exact .refl c w
  have huc : u.comp c = (s.comp c).faults s.strokeOfDirection s.fe f := by
    rw [hu, modComp_comp_same]
    rfl
  have hbare := Comp.faults_bare s.strokeOfDirection s.fe f (s.comp c)
  have hturn : (u.comp c).turning = none := by
    rw [huc]
    exact congrArg Comp.turning hbare
  have hfold : Kept u w := by
    rw [hw]
    exact .foldl (fun s j => kept_unseatHeld j) _ u
  have hkept : Kept (s.touchComp c) x := ((hu ▸ Kept.modComp c _ _ : Kept (s.touchComp c) u).trans hfold).trans hwork.kept
  have hwc : w.comp c = (s.comp c).faults s.strokeOfDirection s.fe f := by
    rw [hw, seated_comp _ _ hturn, huc]
  have hxc : x.comp c = (s.comp c).faults s.strokeOfDirection s.fe f := by
    rcases hxw with e | e
    · rw [e, ← hwc]
      unfold endCompTest settleTests
      split <;> rfl
    · rw [e, hwc]
  rw [← hx]
  refine ⟨((Kept.touchComp c s).trans hkept).trans (kept_settle x), ?_, (kept_settle x).comps c (hkept.comps c (touchComp_flag c s)),
    fun i hi hfall => ?_⟩
  · rw [settle_faulted, hxc]
    · rw [hxc]
      exact congrArg Comp.state hbare
    · rw [hxc]
      exact congrArg Comp.turning hbare
  · have hfall' : (u.spot i).fallsHeld := by
      rw [hu]
      exact hfall
    obtain ⟨h1, h2, -⟩ := seated_held (s.comp c).seated hi u hfall'
    rw [← hw, ← spot_of_spots hwork.spots] at h1 h2
    obtain ⟨y, hy⟩ := settle_spot x i (Spot.not_waits (by rw [h1]; exact nofun))
    rw [hy]
    exact ⟨h1, h2⟩

end Sys2Proof.Machine
end

section
/-! PROOFS. LIMIT_CHANGE and STROKE_TIME_EXCEEDED (R30, R46, R132, R145, R146). -/

namespace Sys2Proof.Machine

/-! ## A valve judged in fault -/

/-- The limit pairs at which a supervised valve faults (R145). -/
def Valve.misplaced (o sh : Bool) (v : Valve) : Prop :=
  (v.isShut = true ∧ (o = true ∨ sh = false)) ∨ (v.isOpen = true ∧ (sh = true ∨ o = false)) ∨
    (o = true ∧ sh = true ∧ ((v.state = some .movingOpen ∧ v.openLimit.active = false) ∨
      (v.state = some .movingShut ∧ v.shutLimit.active = false)))

theorem Valve.onLimits_misplaced {o sh : Bool} {v : Valve} (hs : v.supervised = true) (h : v.misplaced o sh) :
    (v.onLimits o sh).isFault = true ∧ v.isFault = false := by
  rcases h with ⟨hst, hl⟩ | ⟨hst, hl⟩ | ⟨rfl, rfl, ⟨hst, hl⟩ | ⟨hst, hl⟩⟩
  · have e : v.state = some .shut := by simpa [Valve.isShut] using hst
    have hon : (o || !sh) = true := by rcases hl with rfl | rfl <;> simp
    simp [Valve.onLimits, hs, e, hon, Valve.enterFault, Valve.isFault]
  · have e : v.state = some .opened := by simpa [Valve.isOpen] using hst
    have hon : (sh || !o) = true := by rcases hl with rfl | rfl <;> simp
    simp [Valve.onLimits, hs, e, hon, Valve.enterFault, Valve.isFault]
  · simp [Valve.onLimits, hs, hst, hl, Valve.enterFault, Valve.isFault]
  · simp [Valve.onLimits, hs, hst, hl, Valve.enterFault, Valve.isFault]

theorem modValve_valve_same (v : ValveId) (f : Valve → Valve) (s : State) : (s.modValve v f).valve v = f (s.valve v) := by
  cases v with
  | spot i n =>
    show ((s.modSpot i _).spot i).valve n = _
    rw [modSpot_spot_same, Spot.setValve_valve, if_pos rfl]
    rfl
  | direction c d =>
    show ((s.modComp c _).comp c).valve d = _
    rw [modComp_comp_same, Comp.putValve_same]
    rfl

theorem exec_strokeTimeExceeded (v : ValveId) (s : State) : exec (.strokeTimeExceeded v) s = .next (strokeExpires v s) := rfl

theorem limitChange_same {v : ValveId} {o sh : Bool} {s : State} (h1 : (s.valve v).openLimit.active = o)
    (h2 : (s.valve v).shutLimit.active = sh) : limitChange v o sh s = s := if_pos ⟨h1, h2⟩

/-- The commands at which a valve faults (R145, R146). -/
def State.faultsBy (s : State) (v : ValveId) (x : Instr) : Prop :=
  (∃ o sh, x = .limitChange v o sh ∧ (s.valve v).supervised = true ∧
    ¬ ((s.valve v).openLimit.active = o ∧ (s.valve v).shutLimit.active = sh) ∧ (s.valve v).misplaced o sh) ∨
  (x = .strokeTimeExceeded v ∧ (s.valve v).strokeDue = true)

/-- The event of a valve's fault: the valve in FAULT, and its owner's work at the report. -/
theorem exec_faults {s : State} {v : ValveId} {x : Instr} (h : s.faultsBy v x) :
    ∃ f : Valve → Valve, (f (s.valve v)).isFault = true ∧
      exec x s = .next (closeEvent (clearScratch s) (reportValve (clearScratch s) v true ((clearScratch s).modValve v f))) := by
  rcases h with ⟨o, sh, rfl, hs, hne, hm⟩ | ⟨rfl, hdue⟩
  · obtain ⟨h1, h2⟩ := Valve.onLimits_misplaced hs hm
    have hnot : ((clearScratch s).valve v).isFault = false := by
      cases v <;> exact h2
    have hlimits : limitsBecome v o sh (clearScratch s) =
        reportValve (clearScratch s) v true ((clearScratch s).modValve v (Valve.onLimits o sh)) := by
      have hfault : (((clearScratch s).modValve v (Valve.onLimits o sh)).valve v).isFault = true := by
        rw [modValve_valve_same]
        cases v <;> exact h1
      unfold limitsBecome
      dsimp only
      rw [hfault, hnot]
      rfl
    refine ⟨_, h1, ?_⟩
    rw [exec_limitChange, show limitChange v o sh s = event (limitsBecome v o sh) s from if_neg hne, event_eq, hlimits]
  · refine ⟨Valve.enterFault, rfl, ?_⟩
    rw [exec_strokeTimeExceeded, show strokeExpires v s = event (strokeExceeded v) s from if_pos hdue, event_eq]
    rfl

/-! ## A spot's valve -/

theorem Valve.stopTimer_fault {v : Valve} (h : v.isFault = true) : v.stopTimer.isFault = true := h

theorem spotValveFault_test {i : SpotNo} {n : ValveName} {s : State} (h : (s.spot i).state = .stroking) :
    spotValveFault i n s = failStroke false (.valve n) i s := by
  unfold spotValveFault
  rw [h]

theorem spotValveFault_faults {i : SpotNo} {n : ValveName} {s : State} (h : (s.spot i).state ≠ .faulted)
    (hs : (s.spot i).state ≠ .stroking) : spotValveFault i n s = faultSpot (.valve n) i s := by
  unfold spotValveFault
  cases hst : (s.spot i).state
  case faulted => exact absurd hst h
  case stroking => exact absurd hst hs
  all_goals rfl

theorem Spot.faults_valve (stroke : ValveName → Timer) (f : SpotFault) (sp : Spot) (n : ValveName) :
    (sp.faults stroke f).valve n = (sp.valve n).toldShut (stroke n) := by
  unfold Spot.faults
  rw [Spot.shutValves_valve]
  cases n <;> rfl

theorem Spot.testFailed_fault (stroke : ValveName → Timer) (f : SpotFault) {sp : Spot} {n : ValveName} (h : (sp.valve n).isFault = true) :
    ((sp.testFailed stroke f).valve n).isFault = true := by
  have hv : (sp.testFailed stroke f).valve n = (((sp.valve n).toldShut (stroke n)).failTest).stopTimer := by cases n <;> rfl
  rw [hv]
  exact Valve.stopTimer_fault (Valve.failTest_fault (Valve.toldShut_fault h))

/-! ## The car of a spot that faults -/

/-- The last ends of orders leave a record's phase. -/
theorem closeEvent_phase {b w : State} {i : SpotNo} (h : ∀ d ∈ w.scratch.departed, d.spot = i) (k : SlotNo) :
    ((closeEvent b w).car k).map (·.phase) = (w.car k).map (·.phase) := by
  have hwrite : ((writeLastEnd b i w).car k).map (·.phase) = (w.car k).map (·.phase) := by
    unfold writeLastEnd
    dsimp only
    split
    · rfl
    · unfold State.modCarAt
      split
      · rw [modCar_car]
        split
        next e =>
          rw [e, Option.map_map]
          rfl
        next => rfl
      · rfl
  have hone := congrArg CarSlot.car (closeEvent_carSlot_one b w i k h)
  rw [← hwrite]
  show Option.map _ ((closeEvent b w).carSlot k).car = _
  rw [hone]
  split
  · show Option.map _ (Option.map _ _) = _
    rw [Option.map_map]
    rfl
  · rfl

theorem departs_cars (i : SpotNo) (l : List Order) (s : State) :
    (l.foldl (fun s o => depart i { o with reason := some .fault } s) s).cars = s.cars :=
  foldl_keeps State.cars _ (fun s _ => congrArg Ledger.cars (ledger_depart i _ s)) l s

theorem faultSpot_served {f : SpotFault} {i : SpotNo} {s : State} {hd : Handle} {c : Car} (hc : (s.spot i).car = some hd)
    (hcar : s.car hd.slot = some c) (hp : c.phase = .unloading) :
    ((faultSpot f i s).car hd.slot).map (·.phase) = some .served := by
  obtain ⟨a, ha⟩ : ∃ a, a = leaveCompressors i ((s.spot i).orders.foldl (fun s o => depart i { o with reason := some .fault } s) s) :=
    ⟨_, rfl⟩
  obtain ⟨b, hb⟩ : ∃ b, b = shutAll i ((a.touchSpot i).modSpot i fun sp =>
      { sp.stopMeter with
        state := .faulted, holds := .empty, step := none, standing := false, timer := .stopped
        recoveryTimer := .stopped, fault := some f }) := ⟨_, rfl⟩
  have hfault : faultSpot f i s = serveUnloading i b := by rw [hb, ha]; rfl
  have hacars : a.cars = s.cars := by
    rw [ha]
    exact (congrArg Ledger.cars (ledger_leaveCompressors i _)).trans (departs_cars i _ s)
  have hbcars : b.cars = s.cars := by
    rw [hb, shutAll_eq]
    exact hacars
  have hwork : SpotWork i s a := by
    rw [ha]
    exact (spotWork_departs i s (fun o => { o with reason := some .fault }) _).trans (spotWork_leaveCompressors i _)
  have hbcar : (b.spot i).car = some hd := by
    rw [hb, shutAll_eq, modSpot_spot_same, modSpot_spot_same]
    show (a.spot i).car = some hd
    rw [hwork.bound, hc]
  have hrec : b.car hd.slot = some c := by
    unfold State.car State.carSlot at hcar ⊢
    rw [hbcars]
    exact hcar
  rw [hfault]
  unfold serveUnloading
  rw [hbcar]
  dsimp only
  rw [hrec]
  dsimp only
  rw [if_pos hp, modCar_car, if_pos rfl, hrec]
  rfl

section SpotValve

variable {s : State} {i : SpotNo} {n : ValveName} {x : Instr} (h : s.faultsBy (.spot i n) x)

include h

/-- The fault of a spot's valve outside a stroke test. -/
theorem spotValve_faults (hst : (s.spot i).state ≠ .faulted) (hs : (s.spot i).state ≠ .stroking) : ∃ (t : State) (sp : Spot), exec x s = .next t ∧ t.spot i = sp.faults s.strokeOf (.valve n) ∧
    (sp.valve n).isFault = true ∧ t.changes.spots.getLsbD i = true ∧ s.sameStore t ∧
    (s.waitsNowhereBut i → s.onlyAt t i ∧ ∀ hd car, (s.spot i).car = some hd → s.car hd.slot = some car → car.phase = .unloading →
      (t.car hd.slot).map (·.phase) = some .served) := by
  obtain ⟨f, hf, hexec⟩ := exec_faults h
  obtain ⟨u, hu⟩ : ∃ u, u = (clearScratch s).modSpot i fun sp => sp.setValve n (f (sp.valve n)) := ⟨_, rfl⟩
  have hui : u.spot i = (s.spot i).setValve n (f ((s.spot i).valve n)) := by
    rw [hu]
    exact modSpot_spot_same _ _ _
  have hreport : reportValve (clearScratch s) (.spot i n) true ((clearScratch s).modValve (.spot i n) f) =
      settle (faultSpot (.valve n) i u) := by
    rw [reportValve_spotFault, show (clearScratch s).modValve (.spot i n) f = u from hu.symm,
      spotValveFault_faults (by rw [hui, Spot.setValve_state]; exact hst) (by rw [hui, Spot.setValve_state]; exact hs)]
  rw [hreport] at hexec
  obtain ⟨⟨hwork, h1, h2, h3⟩, hspot⟩ := faultSpot_done (.valve n) i u
  have huwork : SpotWork i (clearScratch s) u := by
    rw [hu]
    refine .mod (fun sp => ?_) (fun sp => ?_) _
    · cases n <;> rfl
    · cases n <;> rfl
  have hdone : SpotDone i (clearScratch s) (faultSpot (.valve n) i u) := ⟨huwork.trans hwork, h1, h2, h3⟩
  obtain ⟨t, ht⟩ : ∃ t, t = closeEvent (clearScratch s) (settle (faultSpot (.valve n) i u)) := ⟨_, rfl⟩
  obtain ⟨hti, hflag, hstore, honly⟩ := hdone.event (clearScratch_frame s) rfl (congrArg State.frame ht) (congrArg State.changes ht)
  have hstroke : u.strokeOf = s.strokeOf := strokeOf_of_fixed huwork.kept.fixed
  refine ⟨t, u.spot i, hexec.trans (by rw [ht]), by rw [hti, hspot, hstroke], ?_, hflag, hstore, fun hq =>
    ⟨honly hq, fun hd car hcar hrec hp => ?_⟩⟩
  · rw [hui, Spot.setValve_valve, if_pos rfl]
    exact hf
  · have hsettle : settle (faultSpot (.valve n) i u) = faultSpot (.valve n) i u :=
      hdone.work.settles (waitsNowhereBut_of_frame (clearScratch_frame s) hq) h1 h2
    have hdep : ∀ d ∈ (faultSpot (.valve n) i u).scratch.departed, d.spot = i := fun d hd =>
      (hdone.work.departed d hd).resolve_left fun e => by cases e
    rw [ht, hsettle, closeEvent_phase hdep]
    exact faultSpot_served (by rw [huwork.bound]; exact hcar) (by rw [hu]; exact hrec) hp

/-- The fault of a spot's valve in a stroke test. -/
theorem spotValve_failsTest (hs : (s.spot i).state = .stroking) : ∃ (t : State) (sp : Spot) (y : Option CompNo), exec x s = .next t ∧
    t.spot i = { sp.testFailed s.strokeOf (.valve n) with seat := y } ∧ (sp.valve n).isFault = true ∧
    t.changes.spots.getLsbD i = true := by
  obtain ⟨f, hf, hexec⟩ := exec_faults h
  obtain ⟨u, hu⟩ : ∃ u, u = (clearScratch s).modSpot i fun sp => sp.setValve n (f (sp.valve n)) := ⟨_, rfl⟩
  have hui : u.spot i = (s.spot i).setValve n (f ((s.spot i).valve n)) := by
    rw [hu]
    exact modSpot_spot_same _ _ _
  obtain ⟨w, hw⟩ : ∃ w, w = failStroke false (.valve n) i u := ⟨_, rfl⟩
  have hreport : reportValve (clearScratch s) (.spot i n) true ((clearScratch s).modValve (.spot i n) f) = settle w := by
    rw [reportValve_spotFault, show (clearScratch s).modValve (.spot i n) f = u from hu.symm,
      spotValveFault_test (by rw [hui, Spot.setValve_state]; exact hs), hw]
  have hwi : w.spot i = (u.spot i).testFailed u.strokeOf (.valve n) := by rw [hw, failStroke_spot]
  have hstroke : u.strokeOf = s.strokeOf := by
    rw [hu]
    exact strokeOf_of_fixed rfl
  obtain ⟨y, hy⟩ := settle_spot w i (Spot.not_waits (by rw [hwi]; exact nofun))
  rw [hreport] at hexec
  refine ⟨_, u.spot i, y, hexec, ?_, ?_, ?_⟩
  · rw [closeEvent_spot, hy, hwi, hstroke]
  · rw [hui, Spot.setValve_valve, if_pos rfl]
    exact hf
  · refine spotFlag_of_ne (.inl ?_)
    rw [hy, hwi]
    show (s.spot i).state ≠ .faulted
    rw [hs]
    exact nofun

end SpotValve

/-! ## A direction valve -/

theorem dirValve_faults {s : State} {c : CompNo} {d : Direction} {x : Instr} (hst : (s.comp c).state ≠ .faulted)
    (h : s.faultsBy (.direction c d) x) : ∃ (t : State) (k : Comp), exec x s = .next t ∧
      t.comp c = k.faults s.strokeOfDirection s.fe (.valve d) ∧ (k.valve d).isFault = true ∧ t.changes.comps.getLsbD c = true ∧
      ∀ i ∈ (s.comp c).seated, (s.spot i).fallsHeld → (t.spot i).state = .held ∧ (t.spot i).holds.compressor = true := by
  obtain ⟨f, hf, hexec⟩ := exec_faults h
  obtain ⟨u, hu⟩ : ∃ u, u = (clearScratch s).modComp c fun k => k.putValve d (f (k.valve d)) := ⟨_, rfl⟩
  have huc : u.comp c = (s.comp c).putValve d (f ((s.comp c).valve d)) := by
    rw [hu]
    exact modComp_comp_same _ _ _
  have hbare : (u.comp c).bare = (s.comp c).bare := by rw [huc, Comp.putValve_bare]
  have hreport : reportValve (clearScratch s) (.direction c d) true ((clearScratch s).modValve (.direction c d) f) =
      settle (faultComp (.valve d) c u) := by
    rw [hu]
    rfl
  obtain ⟨-, hcomp, hflag, hheld⟩ := faultComp_done (.valve d) (c := c) (s := u) (by rw [Comp.state_of_bare hbare]; exact hst)
  have hseated : (u.comp c).seated = (s.comp c).seated := by
    have e := congrArg Comp.seated hbare
    exact e
  have hsite : u.strokeOfDirection = s.strokeOfDirection := by rw [hu]; rfl
  have hfe : u.fe = s.fe := by rw [hu]; rfl
  rw [hreport] at hexec
  refine ⟨_, u.comp c, hexec, ?_, ?_, compFlag_of_touched hflag, fun i hi hfall => ?_⟩
  · rw [closeEvent_comp, hcomp, hsite, hfe]
  · rw [huc, Comp.putValve_same]
    exact hf
  · rw [closeEvent_spot]
    have hsp : u.spot i = s.spot i := by rw [hu]; rfl
    exact hheld i (by rw [hseated]; exact hi) (by rw [hsp]; exact hfall)

/-! ## A valve without supervision -/

/-- A valve with its limits' filters at given levels. -/
def Valve.limitsAt (o sh : Bool) (v : Valve) : Valve := { v with openLimit := v.openLimit.take o, shutLimit := v.shutLimit.take sh }

theorem Valve.onLimits_unsupervised {o sh : Bool} {v : Valve} (h : v.supervised = false) : v.onLimits o sh = v.limitsAt o sh :=
  if_neg (by simp [h])

section Unsupervised

variable {s : State} {i : SpotNo} {n : ValveName} {o sh : Bool}

theorem Spot.steady_limitsAt {sp : Spot} (n : ValveName) (o sh : Bool) :
    (sp.setValve n ((sp.valve n).limitsAt o sh)).steady ↔ sp.steady := by
  cases n <;> exact Iff.rfl

theorem limitsAt_view (s : State) (i : SpotNo) (n : ValveName) (o sh : Bool) :
    (s.modSpot i fun sp => sp.setValve n ((sp.valve n).limitsAt o sh)).spotView i = s.spotView i := by
  unfold State.spotView
  rw [modSpot_spot_same]
  cases n <;> rfl

theorem limitsAt_headReady (s : State) (i : SpotNo) (n : ValveName) (o sh : Bool) :
    (s.modSpot i fun sp => sp.setValve n ((sp.valve n).limitsAt o sh)).headReady i = s.headReady i := by
  unfold State.headReady
  dsimp only
  rw [modSpot_spot_same]
  cases n <;> rfl

theorem limitsAt_mustJoin (s : State) (i : SpotNo) (n : ValveName) (o sh : Bool) :
    (s.modSpot i fun sp => sp.setValve n ((sp.valve n).limitsAt o sh)).mustJoin i = s.mustJoin i := by
  unfold State.mustJoin
  dsimp only
  rw [modSpot_spot_same]
  cases n <;> rfl

theorem limitsAt_stands (hs : (s.spot i).steady) (hns : (s.spot i).state ≠ .stroking) (hd : s.due = none) :
    settle (advanceSpot i ((clearScratch s).modSpot i fun sp => sp.setValve n ((sp.valve n).limitsAt o sh))) =
      (clearScratch s).modSpot i fun sp => sp.setValve n ((sp.valve n).limitsAt o sh) := by
  obtain ⟨w, hw⟩ : ∃ w, w = (clearScratch s).modSpot i fun sp => sp.setValve n ((sp.valve n).limitsAt o sh) := ⟨_, rfl⟩
  have hwi : w.spot i = (s.spot i).setValve n (((s.spot i).valve n).limitsAt o sh) := by
    rw [hw]
    exact modSpot_spot_same _ _ _
  have hother : ∀ j, j ≠ i → w.spot j = s.spot j := fun j hj => by
    rw [hw]
    exact modSpot_spot_other _ i j _ hj
  rw [← hw, advanceSpot_steady i w (by rw [hwi]; exact (Spot.steady_limitsAt n o sh).mpr hs) (by rw [hwi, Spot.setValve_state]; exact hns)]
  refine settle_none w ((due_congr ?_ ?_ (by rw [hw]; rfl) (by rw [hw]; rfl) (by rw [hw]; rfl) (by rw [hw]; rfl)).trans hd)
  · funext j
    by_cases e : j = i
    · rw [e, hw]
      exact limitsAt_headReady (clearScratch s) i n o sh
    · exact headReady_congr (hother j e) (by rw [hw]; rfl)
  · funext j
    by_cases e : j = i
    · rw [e, hw]
      exact limitsAt_mustJoin (clearScratch s) i n o sh
    · exact mustJoin_congr (hother j e) (by rw [hw]; rfl)

theorem limits_alone (hv : ((s.spot i).valve n).supervised = false)
    (hne : ¬ (((s.spot i).valve n).openLimit.active = o ∧ ((s.spot i).valve n).shutLimit.active = sh)) (hs : (s.spot i).steady)
    (hns : (s.spot i).state ≠ .stroking) (hd : s.due = none) :
    ∃ t, exec (.limitChange (.spot i n) o sh) s = .next t ∧
      t.frame = { s.frame with spots := s.spots.set i ((s.spot i).setValve n (((s.spot i).valve n).limitsAt o sh)) } ∧
      (s.inletsFollow → t.changes = s.changes) := by
  have hmod : (clearScratch s).modValve (.spot i n) (Valve.onLimits o sh) =
      (clearScratch s).modSpot i fun sp => sp.setValve n ((sp.valve n).limitsAt o sh) := by
    refine modSpot_congr ?_
    exact congrArg ((s.spot i).setValve n) (Valve.onLimits_unsupervised hv)
  have hfault : (((clearScratch s).modValve (.spot i n) (Valve.onLimits o sh)).valve (.spot i n)).isFault =
      ((clearScratch s).valve (.spot i n)).isFault := by
    rw [modValve_valve_same, Valve.onLimits_unsupervised (v := (clearScratch s).valve (.spot i n)) hv]
    rfl
  have hg : limitsBecome (.spot i n) o sh (clearScratch s) =
      (clearScratch s).modSpot i fun sp => sp.setValve n ((sp.valve n).limitsAt o sh) := by
    unfold limitsBecome
    dsimp only
    rw [hfault, Bool.and_not_self, reportValve_spot, hmod, limitsAt_stands hs hns hd]
  refine ⟨event (limitsBecome (.spot i n) o sh) s, ?_, event_oneSpot hg, fun hin => event_oneSpot_quiet hg (limitsAt_view s i n o sh)
    (Spot.setValve_orders _ _ _) ?_ hin⟩
  · rw [exec_limitChange, show limitChange (.spot i n) o sh s = event (limitsBecome (.spot i n) o sh) s from if_neg hne]
  · cases n <;> rfl

end Unsupervised

/-! ## The shutoff valve's open arrival in a proving -/

theorem shutoff_opens {s : State} {i : SpotNo} (h1 : (s.spot i).state = .proving) (h2 : (s.spot i).step = some .shutoffOpening)
    (hv : (s.spot i).shutoff.nears true) (ho : (s.spot i).orders = []) (hd : s.due = none) :
    ∃ t, exec (.limitChange (.spot i .shutoff) true false) s = .next t ∧
      t.frame = { s.frame with spots := s.spots.set i { s.spot i with
        step := some (if (s.spot i).hose.active then .pressureHold else .pressureWait)
        timer := .seconds (s.site (·.provingTime)), shutoff := (s.spot i).shutoff.arrived true } } ∧
      t.changes.spots.getLsbD i = true := by
  have hu := arrivedAt_spot s i .shutoff true
  have hadv : advanceSpot i (s.arrivedAt i .shutoff true) = (clearScratch s).modSpot i fun sp => { sp with
      step := some (if sp.hose.active then .pressureHold else .pressureWait)
      timer := .seconds (s.site (·.provingTime)), shutoff := (s.spot i).shutoff.arrived true } := by
    rw [advanceSpot_proving (by rw [hu, Spot.setValve_state]; exact h1) (by rw [hu, Spot.setValve_orders]; exact ho)]
    refine (if_pos ?_).trans (arrivedAt_modSpot s i .shutoff true _)
    rw [hu]
    exact ⟨h1, h2, rfl⟩
  obtain ⟨t, ht, hframe, hclose⟩ := arrival_alone (n := .shutoff) hv hd (by rw [h1]; exact nofun) (by rw [h1]; exact nofun) hadv
  refine ⟨t, ht, hframe, ?_⟩
  rw [hclose]
  refine spotFlag_of_step ?_
  rw [modSpot_spot_same]
  show (s.spot i).step ≠ some (if (s.spot i).hose.active then .pressureHold else .pressureWait)
  rw [h2]
  split <;> exact nofun

/-- Settles O48: the arrival in a proving, the faults by owner, and the changes that do nothing. -/
theorem valvesArriveAndFault : Obligations.ValvesArriveAndFault := by
  refine fun s => ⟨fun i h1 h2 h3 h4 h5 hq hd => ?_, fun i n x hst h => ?_, fun c d x hst h => ?_, fun v o sh h1 h2 => ?_,
    fun v h => ?_, fun i n o sh hv hne hs hns hd => ?_⟩
  · have ho : (s.spot i).orders = [] := by
      obtain ⟨-, -, -, hp⟩ := hq
      rw [h1] at hp
      exact hp
    obtain ⟨t, ht, hframe, hflag⟩ := shutoff_opens h1 h2 ⟨h3, h4, h5⟩ ho hd
    refine ⟨t, ht, ?_, hflag⟩
    have harr : (s.spot i).shutoff.arrived true = { (s.spot i).shutoff with
        state := some .opened, timer := .stopped, openLimit := { active := true, count := 0 }
        shutLimit := if (s.spot i).shutoff.shutLimit.active then { active := false, count := 0 } else (s.spot i).shutoff.shutLimit } := by
      unfold Valve.arrived Filter.take Filter.at
      rw [h5]
      cases (s.spot i).shutoff.shutLimit.active <;> rfl
    rw [hframe, harr]
  · have hby : s.faultsBy (.spot i n) x := h
    by_cases hs : (s.spot i).state = .stroking
    · obtain ⟨t, sp, y, ht, hti, hf, hflag⟩ := spotValve_failsTest hby hs
      refine ⟨t, ht, by rw [hti]; rfl, by rw [hti]; rfl, by rw [hti]; rfl, ?_, fun m => ?_, hflag, fun e => absurd hs e⟩
      · have hm := Spot.testFailed_fault s.strokeOf (.valve n) hf
        rw [hti]
        cases n <;> exact hm
      · have hm := (Spot.testFailed_valve s.strokeOf (.valve n) sp m).1
        rw [hti]
        cases m <;> exact hm
    · obtain ⟨t, sp, ht, hti, hf, hflag, hstore, honly⟩ := spotValve_faults hby hst hs
      refine ⟨t, ht, by rw [hti]; rfl, by rw [hti]; rfl, by rw [hti]; rfl, ?_, fun m => ?_, hflag, fun _ =>
        ⟨hstore, by rw [hti]; rfl, by rw [hti]; rfl, by rw [hti]; rfl, honly⟩⟩
      · rw [hti, Spot.faults_valve]
        exact Valve.toldShut_fault hf
      · rw [hti, Spot.faults_valve]
        exact Valve.toldShut_command _ _
  · obtain ⟨t, k, ht, htc, hf, hflag, hheld⟩ := dirValve_faults hst (show s.faultsBy (.direction c d) x from h)
    have hbare := Comp.faults_bare s.strokeOfDirection s.fe (.valve d) k
    have e1 := congrArg Comp.state hbare
    have e2 := congrArg Comp.fault hbare
    have e3 := congrArg Comp.seated hbare
    have e4 := congrArg Comp.startOn hbare
    rw [← htc] at e1 e2 e3 e4
    exact ⟨t, ht, e1, e2, e3, e4, by rw [htc]; exact Comp.faults_fault _ _ _ hf, hflag, fun i hi h1 h2 h3 => hheld i hi ⟨h1, h2, h3⟩⟩
  · rw [exec_limitChange, limitChange_same h1 h2]
  · rw [exec_strokeTimeExceeded, show strokeExpires v s = s from if_neg (by rw [h]; exact Bool.false_ne_true)]
  · exact limits_alone hv hne hs hns hd

end Sys2Proof.Machine
end

section
/-! PROOFS. The compressors that the arbiter changes have their flags called for (R126, R128, R129), and what it goes by in them. -/

namespace Sys2Proof.Machine

/-! ## Changed compressors are marked -/

/-- Every compressor that differs after the work has its flag called for, and no call is withdrawn. -/
structure Marked (s t : State) : Prop where
  comps : ∀ c, t.comp c = s.comp c ∨ t.scratch.comps.getLsbD c = true
  calls : ∀ c : CompNo, s.scratch.comps.getLsbD c = true → t.scratch.comps.getLsbD c = true

theorem Marked.refl (s : State) : Marked s s := ⟨fun _ => .inl rfl, fun _ => id⟩

theorem Marked.trans {s t u : State} (h : Marked s t) (k : Marked t u) : Marked s u where
  comps c := by
    rcases k.comps c with e | e
    · rw [e]
      exact (h.comps c).imp_right (k.calls c)
    · exact .inr e
  calls c hc := k.calls c (h.calls c hc)

/-- Work that leaves the compressors. -/
theorem Marked.of_comps {s t : State} (h : ∀ c, t.comp c = s.comp c) (k : Kept s t) : Marked s t := ⟨fun c => .inl (h c), k.comps⟩

/-- Work on a compressor whose flag is called for. -/
theorem CompWork.marked {c : CompNo} {s u t : State} (h : CompWork c u t) (hc : u.scratch.comps.getLsbD c = true) (hk : Kept s u)
    (ho : ∀ d, d ≠ c → u.comp d = s.comp d) : Marked s t where
  comps d := by
    by_cases e : d = c
    · rw [e]
      exact .inr (h.kept.comps c hc)
    · exact .inl ((h.others d e).trans (ho d e))
  calls d hd := h.kept.comps d (hk.comps d hd)

section Marks

variable (i : SpotNo) (s : State)

theorem marked_releaseSeat : Marked s (releaseSeat i s) := by
  cases h : (s.spot i).seat with
  | none =>
    rw [releaseSeat_unseated h]
    exact .refl s
  | some c =>
    rw [releaseSeat_seated h]
    refine (compWork_compOnEmpty c (unseat i c s)).marked (touchComp_flag c (s.touchSpot i)) ?_ ?_
    · exact kept_unseat i s c
    · exact fun d hd => modComp_comp_other _ _ _ _ hd

theorem marked_clearTurning (c : CompNo) : Marked s (clearTurning i c s) := by
  unfold clearTurning
  split
  · refine CompWork.marked (c := c) (u := s.touchComp c) (.modComp (fun k j hj => ?_) _) (touchComp_flag c s) (.touchComp c s) fun _ _ => rfl
    cases hj
  · exact .refl s

theorem marked_dropGrant : Marked s (dropGrant i s) := by
  have turn : ∀ (l : List CompNo) (u : State), Marked u (l.foldl (fun s c => clearTurning i c s) u) := by
    intro l
    induction l with
    | nil => exact fun u => .refl u
    | cons c l ih =>
      intro u
      rw [List.foldl_cons]
      exact (marked_clearTurning i u c).trans (ih _)
  unfold dropGrant
  dsimp only
  refine .trans ?_ (turn _ _)
  split
  · exact .of_comps (fun _ => rfl) (((Kept.touchSpot i s).trans (.touchQueue _)).trans (.plain rfl rfl rfl rfl))
  · exact .of_comps (fun _ => rfl) (.plain rfl rfl rfl rfl)

theorem marked_leaveCompressors : Marked s (leaveCompressors i s) := (marked_releaseSeat i s).trans (marked_dropGrant i _)

theorem clearTurning_self (c : CompNo) : ((clearTurning i c s).comp c).turning ≠ some i := by
  unfold clearTurning
  split
  · rw [modComp_comp_same]
    exact nofun
  next h => exact h

theorem clearTurning_keeps {c d : CompNo} (h : (s.comp d).turning ≠ some i) : ((clearTurning i c s).comp d).turning ≠ some i := by
  by_cases e : d = c
  · rw [e]
    exact clearTurning_self i s c
  · unfold clearTurning
    split
    · rwa [modComp_comp_other _ _ _ _ e]
    · exact h

theorem leaveCompressors_unturned (c : CompNo) : ((leaveCompressors i s).comp c).turning ≠ some i := by
  have keep : ∀ (l : List CompNo) (u : State), (u.comp c).turning ≠ some i →
      ((l.foldl (fun s c => clearTurning i c s) u).comp c).turning ≠ some i := by
    intro l
    induction l with
    | nil => exact fun _ h => h
    | cons d l ih =>
      intro u h
      rw [List.foldl_cons]
      exact ih _ (clearTurning_keeps i u h)
  have turn : ∀ (l : List CompNo) (u : State), c ∈ l → ((l.foldl (fun s c => clearTurning i c s) u).comp c).turning ≠ some i := by
    intro l
    induction l with
    | nil => exact fun _ h => nomatch h
    | cons d l ih =>
      intro u h
      rw [List.foldl_cons]
      by_cases e : c = d
      · rw [← e]
        exact keep l _ (clearTurning_self i u c)
      · exact ih _ ((List.mem_cons.mp h).resolve_left e)
  unfold leaveCompressors dropGrant
  exact turn _ _ (List.mem_finRange c)

/-- A spot's work after it has left the compressors leaves every one of them. -/
theorem marked_afterLeave {t : State} (h : SpotWork i (leaveCompressors i s) t) : Marked s t := by
  refine (marked_leaveCompressors i s).trans (.of_comps (fun c => h.comps c ?_ (leaveCompressors_unturned i s c)) h.kept)
  rw [leaveCompressors_unseats]
  exact nofun

theorem endHead_waiting {h : Order} (r : EndReason) (hh : (s.spot i).head = some h) (hl : h.liquid = none) (hw : h.state = .waiting) :
    endHead i r s = headGone i (h.closeAfter && r.natural) (depart i { h with reason := some r } (leaveCompressors i s)) := by
  have hdrains : (s.spot i).headDrains = false := by simp [Spot.headDrains, hh, hl]
  unfold endHead
  rw [hh]
  dsimp only
  rw [if_neg (by simp [hdrains])]
  unfold headLeaves
  dsimp only
  rw [if_neg (by simp [hw])]

theorem marked_runHead (h : s.headReady i = true) : Marked s (runHead i s) := by
  unfold State.headReady at h
  dsimp only at h
  split at h
  next o c _ hh _ =>
    unfold runHead
    dsimp only
    rw [hh]
    dsimp only
    have hw : o.state = .waiting := by
      simp only [Bool.and_eq_true, beq_iff_eq] at h
      exact h.1.1.1.1.1
    split
    · exact .of_comps (fun _ => rfl) (((Kept.touchSpot i s).trans (.modSpot i _ _)).trans
        ((spotWork_commandSpot i _ .liquid .toOpen).trans (spotWork_commandSpot i _ .vapour .toOpen)).kept)
    next hl =>
      split
      · have hnone : o.liquid = none := by simpa using hl
        obtain ⟨w, hw'⟩ : ∃ w, w = endHead i .residual s := ⟨_, rfl⟩
        have hend := hw'.trans (endHead_waiting i s .residual hh hnone hw)
        rw [← hw']
        refine marked_afterLeave i s (.trans ?_ (spotWork_advanceSpot i w))
        rw [hend]
        exact (spotWork_depart i _ _).trans (spotWork_headGone i _ _)
      · exact .of_comps (fun _ => rfl) (((Kept.touchSpot i s).trans (.modSpot i _ _)).trans (spotWork_commandSpot i _ .vapour .toOpen).kept)
  next => cases h

theorem marked_grantSeat (c : CompNo) (g : Grant) : Marked s (grantSeat c g s) := by
  obtain ⟨u, hu⟩ : ∃ u, u = (((s.touchSpot g.spot).touchComp c).modSpot g.spot fun sp => { sp with seat := some c }).modComp c fun k =>
      { k with seated := insertSpot g.spot k.seated } := ⟨_, rfl⟩
  have hflag : u.scratch.comps.getLsbD c = true := by
    rw [hu]
    exact touchComp_flag c _
  have hmark : Marked s u := by
    rw [hu]
    refine ⟨fun d => ?_, fun d hd => ?_⟩
    · by_cases e : d = c
      · rw [e]
        exact .inr (touchComp_flag c _)
      · exact .inl (modComp_comp_other _ _ _ _ e)
    · exact ((Kept.touchSpot g.spot s).trans (.touchComp c _)).comps d hd
  have hseat : Marked s (dropGrant g.spot u) := hmark.trans (marked_dropGrant _ _)
  have hcall : (dropGrant g.spot u).scratch.comps.getLsbD c = true := (marked_dropGrant _ _).calls c hflag
  have hmore : ∀ {t : State}, CompWork c (dropGrant g.spot u) t → Marked s t := fun hw =>
    hseat.trans (hw.marked hcall (.refl _) fun _ _ => rfl)
  unfold grantSeat
  dsimp only
  rw [← hu]
  split
  · exact hmore (compWork_startComp c _ g.dir)
  · exact hmore (.mod (by intro; rfl) _)
  all_goals exact hseat

theorem marked_markTurning (c : CompNo) : Marked s (markTurning i c s) := by
  refine CompWork.marked (compWork_compOnEmpty c ((s.touchComp c).modComp c fun k => { k with turning := some i })) (touchComp_flag c s)
    ((Kept.touchComp c s).trans (.modComp c _ _)) fun d hd => modComp_comp_other _ _ _ _ hd

end Marks

theorem marked_performDue {s : State} {d : Due} (h : s.due = some d) : Marked s (performDue d s) := by
  cases d with
  | run i => exact marked_runHead i s (due_run_ready h)
  | join => exact .of_comps (fun _ => rfl) (kept_joinGrants s)
  | seat g c => exact marked_grantSeat s c g
  | turn i c => exact marked_markTurning i s c

theorem marked_settle (s : State) : Marked s (settle s) := by
  suffices h : ∀ n s, Marked s (settleFor n s) from h _ s
  intro n
  induction n with
  | zero => exact fun s => .refl s
  | succ n ih =>
    intro s
    unfold settleFor
    split
    · exact .refl s
    next d hd => exact (marked_performDue hd).trans (ih _)

/-- A compressor whose state differs before the arbiter's work has its flag set after it. -/
theorem compFlag_of_settled {b w : State} {c : CompNo} (h : (b.comp c).state ≠ (w.comp c).state) :
    (closeEvent b (settle w)).changes.comps.getLsbD c = true := by
  rcases (marked_settle w).comps c with e | e
  · refine compFlag_of_view CompView.state ?_
    show (b.comp c).state ≠ ((settle w).comp c).state
    rwa [e]
  · exact compFlag_of_touched e

/-! ## What the arbiter goes by in a compressor -/

/-- The fields of a compressor that the arbiter reads (R65, R127, R129). -/
structure Seating where
  state : CompState
  dir : Option Direction
  turning : Option SpotNo
  seated : List SpotNo

def Comp.seating (k : Comp) : Seating := { state := k.state, dir := k.dir, turning := k.turning, seated := k.seated }

section Seatings

variable {s t : State} (hc : ∀ c, (t.comp c).seating = (s.comp c).seating)

include hc

theorem fewestSeats_seating : ∀ l, t.fewestSeats l = s.fewestSeats l
  | [] => rfl
  | c :: rest => by
    have hs : ∀ c, (t.comp c).seated = (s.comp c).seated := fun c => congrArg Seating.seated (hc c)
    unfold State.fewestSeats
    rw [fewestSeats_seating rest]
    simp only [hs]

/-- What is due depends on the compressors by their states, directions, TURNING marks and seats alone. -/
theorem due_seating (hs : t.spots = s.spots) (hg : t.grants = s.grants) (hf : t.fe = s.fe) (hp : t.profile = s.profile) :
    t.due = s.due := by
  have hstate : ∀ c, (t.comp c).state = (s.comp c).state := fun c => congrArg Seating.state (hc c)
  have hdir : ∀ c, (t.comp c).dir = (s.comp c).dir := fun c => congrArg Seating.dir (hc c)
  have hturning : ∀ c, (t.comp c).turning = (s.comp c).turning := fun c => congrArg Seating.turning (hc c)
  have hseated : ∀ c, (t.comp c).seated = (s.comp c).seated := fun c => congrArg Seating.seated (hc c)
  have hspot : ∀ i, t.spot i = s.spot i := spot_of_spots hs
  have hsite : ∀ f, t.site f = s.site f := fun f => by
    unfold State.site
    rw [hp]
  have hfit : t.fittedComp = s.fittedComp := by
    funext c
    unfold State.fittedComp
    rw [hsite]
  have hready : t.headReady = s.headReady := by
    funext i
    unfold State.headReady
    simp only [hspot, hstate, hdir]
  have hjoin : t.mustJoin = s.mustJoin := by
    funext i
    exact mustJoin_congr (hspot i) hg
  have hfor : t.seatFor = s.seatFor := by
    funext d
    unfold State.seatFor State.hasSeat State.canStart
    simp only [hstate, hdir, hturning, hseated, hfit, hsite]
  have hcan : ∀ d, t.canTurn d = s.canTurn d := fun d => by
    funext c
    unfold State.canTurn
    simp only [hstate, hdir, hfit]
  have hgrant : t.nextGrant = s.nextGrant := by
    unfold State.nextGrant
    rw [hg, hfor]
  have hnext : t.nextTurn = s.nextTurn := by
    unfold State.nextTurn
    rw [hg]
    simp only [hturning, hcan, fewestSeats_seating hc]
  unfold State.due
  rw [hready, hjoin, hf, hgrant, hnext]

end Seatings

end Sys2Proof.Machine
end

section
/-! PROOFS. A compressor's inputs, its timers and its guard (R120, R122 to R125, R132, R133, R135). -/

namespace Sys2Proof.Machine

theorem exec_runFeedbackActive (c : CompNo) (s : State) : exec (.runFeedbackActive c) s = .next (runChange c true s) := rfl
theorem exec_runFeedbackLost (c : CompNo) (s : State) : exec (.runFeedbackLost c) s = .next (runChange c false s) := rfl
theorem exec_faultInputActive (c : CompNo) (s : State) : exec (.faultInputActive c) s = .next (faultChange c true s) := rfl
theorem exec_faultInputInactive (c : CompNo) (s : State) : exec (.faultInputInactive c) s = .next (faultChange c false s) := rfl
theorem exec_startTimerExpiry (c : CompNo) (s : State) : exec (.startTimerExpiry c) s = .next (startExpires c s) := rfl
theorem exec_runOnExpiry (c : CompNo) (s : State) : exec (.runOnExpiry c) s = .next (runOnExpires c s) := rfl
theorem exec_proofRunExpiry (c : CompNo) (s : State) : exec (.proofRunExpiry c) s = .next (proofRunExpires c s) := rfl
theorem exec_guardExpiry (c : CompNo) (p : Direction) (s : State) : exec (.guardExpiry c p) s = .next (guardExpires c p s) := rfl

/-! ## The inputs' filters -/

/-- The run input's filter moved to a level. -/
def Comp.runAt (level : Bool) (k : Comp) : Comp := { k with run := .at level }
/-- The fault input's filter moved to a level. -/
def Comp.faultAt (level : Bool) (k : Comp) : Comp := { k with faultInput := .at level }

theorem runChange_same {c : CompNo} {l : Bool} {s : State} (h : (s.comp c).run.active = l) : runChange c l s = s := if_pos h
theorem faultChange_same {c : CompNo} {l : Bool} {s : State} (h : (s.comp c).faultInput.active = l) : faultChange c l s = s := if_pos h

/-- The effects of a run input's change, the filter moved. -/
def runEffect (c : CompNo) (l : Bool) (u : State) : State :=
  if u.fittedComp c then (if l then settle (compOnRun c u) else runLost c u) else u

/-- The effects of a fault input's change, the filter moved. -/
def faultEffect (c : CompNo) (l : Bool) (u : State) : State := if l && u.fittedComp c then settle (faultComp .faultInput c u) else u

section Changes

variable {c : CompNo} {l : Bool} {s : State}

theorem runChange_eq (h : (s.comp c).run.active = !l) :
    runChange c l s = closeEvent (clearScratch s) (runEffect c l ((clearScratch s).modComp c (Comp.runAt l))) :=
  (if_neg (by rw [h]; cases l <;> decide)).trans (event_eq _ s)

theorem faultChange_eq (h : (s.comp c).faultInput.active = !l) :
    faultChange c l s = closeEvent (clearScratch s) (faultEffect c l ((clearScratch s).modComp c (Comp.faultAt l))) :=
  (if_neg (by rw [h]; cases l <;> decide)).trans (event_eq _ s)

/-- An event that changes one compressor. -/
theorem compEvent_frame {f : Comp → Comp} : (closeEvent (clearScratch s) ((clearScratch s).modComp c f)).frame =
    { s.frame with comps := s.comps.set c (f (s.comp c)) } := oneComp_event (clearScratch_frame s) rfl (.inl rfl)

theorem run_alone (h : (s.comp c).run.active = !l)
    (heff : runEffect c l ((clearScratch s).modComp c (Comp.runAt l)) = (clearScratch s).modComp c (Comp.runAt l)) :
    (runChange c l s).frame = { s.frame with comps := s.comps.set c { s.comp c with run := { active := l, count := 0 } } } ∧
      (s.fittedComp c = true → (runChange c l s).changes.comps.getLsbD c = true) := by
  rw [runChange_eq h, heff]
  refine ⟨compEvent_frame, fun hf => compFlag_of_view CompView.run ?_⟩
  show (s.fittedComp c && (s.comp c).run.active) ≠
    (s.fittedComp c && (((clearScratch s).modComp c (Comp.runAt l)).comp c).run.active)
  rw [modComp_comp_same, hf, h]
  cases l <;> exact nofun

/-- READ COMPRESSOR does not report the inputs of an unfitted compressor. -/
theorem compView_unfitted {f : Comp → Comp} (hf : s.fittedComp c = false) (h : f = Comp.runAt l ∨ f = Comp.faultAt l) :
    ((clearScratch s).modComp c f).compView c = (clearScratch s).compView c := by
  have hfit : ((clearScratch s).modComp c f).fittedComp c = false := hf
  have hfit' : (clearScratch s).fittedComp c = false := hf
  unfold State.compView
  dsimp only
  rw [modComp_comp_same, hfit, hfit']
  rcases h with rfl | rfl <;> rfl

/-- The inputs of an unfitted compressor set no flag (R120). -/
theorem unfitted_quiet {f : Comp → Comp} (hf : s.fittedComp c = false) (hin : s.inletsFollow) (h : f = Comp.runAt l ∨ f = Comp.faultAt l) :
    (closeEvent (clearScratch s) ((clearScratch s).modComp c f)).changes = s.changes := by
  refine closeEvent_changes_quiet (b := clearScratch s) (w := (clearScratch s).modComp c f) rfl ?_ (fun _ => rfl) (fun _ => rfl)
    (fun d => ?_) rfl
  · exact inletsFollow_congr (s := clearScratch s) rfl rfl (fun _ => rfl) (fun _ => rfl) hin
  · by_cases e : d = c
    · rw [e]
      exact compView_unfitted hf h
    · have hother : ((clearScratch s).modComp c f).comp d = (clearScratch s).comp d := modComp_comp_other _ _ _ _ e
      unfold State.compView
      dsimp only
      rw [hother]
      rfl

theorem runEffect_unfitted {u : State} (hf : u.fittedComp c = false) : runEffect c l u = u := if_neg (by simp [hf])

theorem runEffect_active {u : State} (hf : u.fittedComp c = true) : runEffect c true u = settle (compOnRun c u) := if_pos hf
theorem runEffect_lost {u : State} (hf : u.fittedComp c = true) : runEffect c false u = runLost c u := if_pos hf

theorem compOnRun_off {u : State} (h : (u.comp c).step ≠ some .runWait ∨ (u.comp c).startOn = false) : compOnRun c u = u := by
  refine if_neg fun e => ?_
  simp only [Bool.and_eq_true, beq_iff_eq] at e
  rcases h with h | h
  · exact h e.2
  · exact Bool.false_ne_true (h.symm.trans e.1.2)

theorem runLost_off {u : State} (h1 : (u.comp c).state ≠ .running) (h2 : (u.comp c).state ≠ .runOn)
    (h3 : (u.comp c).step ≠ some .proofRun) : runLost c u = u := by
  unfold runLost
  split
  next e => exact absurd e h1
  next e => exact absurd e h2
  next e => exact absurd e h3
  next => rfl

theorem runLost_on {u : State} (h : (u.comp c).state = .running ∨ (u.comp c).state = .runOn ∨
    ((u.comp c).state = .proof ∧ (u.comp c).step = some .proofRun)) : runLost c u = settle (faultComp .runLost c u) := by
  unfold runLost
  rcases h with h | h | ⟨h, h'⟩
  · rw [h]
  · rw [h]
  · rw [h, h']

end Changes

/-! ## Stopping -/

/-- A compressor that stops (R125). -/
def Comp.stops (stroke : Timer) (fe : Bool) (k : Comp) : Comp :=
  ({ k with state := .stopped, step := none, dir := none, startOn := false, startTimer := .stopped, runTimer := .stopped,
            stroked := false } : Comp).shutBoth stroke fe

theorem stopComp_eq (c : CompNo) (s : State) : stopComp c s = s.modComp c (Comp.stops s.strokeOfDirection s.fe) := by
  unfold stopComp
  rw [shutDirs_eq, modComp_modComp]
  rfl

theorem Comp.stops_bare (stroke : Timer) (fe : Bool) (k : Comp) : (k.stops stroke fe).bare = { k.bare with
    state := .stopped, step := none, dir := none, startOn := false, startTimer := .stopped, runTimer := .stopped, stroked := false } :=
  shutBoth_bare _ _ _

theorem Comp.stops_command (stroke : Timer) (fe : Bool) (k : Comp) (d : Direction) : ((k.stops stroke fe).valve d).command = .toShut := by
  unfold Comp.stops
  rw [shutBoth_valve]
  exact Valve.toldShut_command _ _

section Stops

variable {s t : State} {c : CompNo} {stroke : Timer} {fe : Bool} {k : Comp}

/-- The facts about a compressor that an event has stopped, with the flag that its state sets. -/
theorem stopped_event {f : Comp → Comp} (ht : t = closeEvent (clearScratch s) ((clearScratch s).modComp c f))
    (hf : f (s.comp c) = k.stops stroke fe) (hne : (s.comp c).state ≠ .stopped) :
    (t.comp c).state = .stopped ∧ (t.comp c).step = none ∧ (t.comp c).dir = none ∧ (t.comp c).startOn = false ∧
      (t.comp c).startTimer = .stopped ∧ (t.comp c).runTimer = .stopped ∧ (t.comp c).push.command = .toShut ∧
      (t.comp c).draw.command = .toShut ∧ t.changes.comps.getLsbD c = true ∧
      t.frame = { s.frame with comps := s.comps.set c (t.comp c) } := by
  have hframe : t.frame = { s.frame with comps := s.comps.set c (k.stops stroke fe) } := by
    rw [ht, compEvent_frame, hf]
  have htc := comp_of_oneComp hframe
  have hbare := Comp.stops_bare stroke fe k
  have e1 := congrArg Comp.state hbare
  have e2 := congrArg Comp.step hbare
  have e3 := congrArg Comp.dir hbare
  have e4 := congrArg Comp.startOn hbare
  have e5 := congrArg Comp.startTimer hbare
  have e6 := congrArg Comp.runTimer hbare
  rw [← htc] at e1 e2 e3 e4 e5 e6 hframe
  refine ⟨e1, e2, e3, e4, e5, e6, ?_, ?_, ?_, hframe⟩
  · rw [htc]
    exact Comp.stops_command stroke fe k .push
  · rw [htc]
    exact Comp.stops_command stroke fe k .draw
  · rw [ht]
    refine compFlag_of_view CompView.state ?_
    show (s.comp c).state ≠ (((clearScratch s).modComp c f).comp c).state
    rw [modComp_comp_same, show ((clearScratch s).comp c) = s.comp c from rfl, hf]
    have hst := congrArg Comp.state (Comp.stops_bare stroke fe k)
    exact fun e => hne (e.trans hst)

end Stops

/-! ## Run feedback in RUN_WAIT -/

section RunWait

variable {s : State} {c : CompNo} (hrun : (s.comp c).run.active = false) (hfit : s.fittedComp c = true)
  (hstep : (s.comp c).step = some .runWait) (hon : (s.comp c).startOn = true)

theorem compOnRun_starting_seated {u : State} (h1 : (u.comp c).run.active = true) (h2 : (u.comp c).startOn = true)
    (h3 : (u.comp c).step = some .runWait) (hst : (u.comp c).state = .starting) (hs : (u.comp c).seated ≠ []) :
    compOnRun c u = u.modComp c fun k => { k with state := .running, step := none, startTimer := .stopped } := by
  unfold compOnRun
  dsimp only
  rw [if_pos (by rw [h1, h2, h3]; rfl), hst]
  exact if_neg (by simpa using hs)

theorem compOnRun_starting_unseated {u : State} (h1 : (u.comp c).run.active = true) (h2 : (u.comp c).startOn = true)
    (h3 : (u.comp c).step = some .runWait) (hst : (u.comp c).state = .starting) (hs : (u.comp c).seated = []) :
    compOnRun c u = enterRunOn c u := by
  unfold compOnRun
  dsimp only
  rw [if_pos (by rw [h1, h2, h3]; rfl), hst, hs]
  rfl

theorem compOnRun_proof {u : State} (h1 : (u.comp c).run.active = true) (h2 : (u.comp c).startOn = true)
    (h3 : (u.comp c).step = some .runWait) (hst : (u.comp c).state = .proof) :
    compOnRun c u = u.modComp c fun k =>
      { k with step := some .proofRun, startTimer := .stopped, runTimer := .seconds (u.site (·.proofTime)) } := by
  unfold compOnRun
  dsimp only
  rw [if_pos (by rw [h1, h2, h3]; rfl), hst]

include hrun hfit hstep hon

theorem run_seated (hst : (s.comp c).state = .starting) (hs : (s.comp c).seated ≠ []) :
    ∃ t u, exec (.runFeedbackActive c) s = .next t ∧
      u.frame = { s.frame with comps := s.comps.set c { s.comp c with
        run := { active := true, count := 0 }, state := .running, step := none, startTimer := .stopped } } ∧
      t.comps = (settle u).comps ∧ t.spots = (settle u).spots ∧ t.grants = (settle u).grants ∧
      t.changes.comps.getLsbD c = true ∧ s.sameStore t := by
  obtain ⟨u, hu⟩ : ∃ u, u = (clearScratch s).modComp c fun k =>
    { k.runAt true with state := .running, step := none, startTimer := .stopped } := ⟨_, rfl⟩
  have hsame : ((clearScratch s).modComp c (Comp.runAt true)).comp c = (s.comp c).runAt true := modComp_comp_same _ _ _
  have heff : runEffect c true ((clearScratch s).modComp c (Comp.runAt true)) = settle u := by
    rw [runEffect_active (u := (clearScratch s).modComp c (Comp.runAt true)) hfit, hu,
      compOnRun_starting_seated (by rw [hsame]; rfl) (by rw [hsame]; exact hon) (by rw [hsame]; exact hstep) (by rw [hsame]; exact hst)
        (by rw [hsame]; exact hs), modComp_modComp]
  have hclose : runChange c true s = closeEvent (clearScratch s) (settle u) := by rw [runChange_eq hrun, heff]
  have huc : u.comp c = { (s.comp c).runAt true with state := .running, step := none, startTimer := .stopped } := by
    rw [hu]
    exact modComp_comp_same _ _ _
  have hkept : Kept (clearScratch s) (settle u) := by
    refine Kept.trans ?_ (kept_settle u)
    rw [hu]
    exact .modComp c _ _
  refine ⟨_, u, (exec_runFeedbackActive c s).trans (congrArg Host.Outcome.next hclose), by rw [hu]; rfl, closeEvent_comps _ _,
    closeEvent_spots _ _, closeEvent_grants _ _, compFlag_of_settled ?_, hkept.sameStore (clearScratch_frame s) rfl⟩
  rw [huc]
  show (s.comp c).state ≠ .running
  rw [hst]
  exact nofun

omit hstep hon in
/-- Run feedback that changes its compressor alone, where no head waits. -/
theorem run_changes {f : Comp → Comp} (hq : s.waitsNowhere)
    (hw : compOnRun c ((clearScratch s).modComp c (Comp.runAt true)) = (clearScratch s).modComp c f) :
    runChange c true s = closeEvent (clearScratch s) ((clearScratch s).modComp c f) := by
  have heff : runEffect c true ((clearScratch s).modComp c (Comp.runAt true)) = (clearScratch s).modComp c f := by
    rw [runEffect_active (u := (clearScratch s).modComp c (Comp.runAt true)) hfit, hw]
    exact settle_quietly (waitsNowhere_modComp c f (waitsNowhere_of_frame (clearScratch_frame s) hq))
  rw [runChange_eq hrun, heff]

omit hrun hfit in
theorem run_unseated (hst : (s.comp c).state = .starting) (hs : (s.comp c).seated = []) :
    compOnRun c ((clearScratch s).modComp c (Comp.runAt true)) = enterRunOn c ((clearScratch s).modComp c (Comp.runAt true)) := by
  have hsame : ((clearScratch s).modComp c (Comp.runAt true)).comp c = (s.comp c).runAt true := modComp_comp_same _ _ _
  exact compOnRun_starting_unseated (by rw [hsame]; rfl) (by rw [hsame]; exact hon) (by rw [hsame]; exact hstep)
    (by rw [hsame]; exact hst) (by rw [hsame]; exact hs)

theorem run_runsOn (hst : (s.comp c).state = .starting) (hs : (s.comp c).seated = []) (hq : s.waitsNowhere)
    (htime : 0 < s.site (·.runOnTime)) :
    (runChange c true s).frame = { s.frame with comps := s.comps.set c { s.comp c with
      run := { active := true, count := 0 }, state := .runOn, step := none, startTimer := .stopped
      runTimer := .seconds (s.site (·.runOnTime)) } } := by
  have hw : compOnRun c ((clearScratch s).modComp c (Comp.runAt true)) = (clearScratch s).modComp c fun k =>
      { k.runAt true with state := .runOn, step := none, startTimer := .stopped, runTimer := .seconds (s.site (·.runOnTime)) } := by
    rw [run_unseated hstep hon hst hs]
    refine (if_neg (show ¬ s.site (·.runOnTime) = 0 from Nat.pos_iff_ne_zero.mp htime)).trans ?_
    rw [modComp_modComp]
    rfl
  rw [run_changes hrun hfit hq hw]
  exact compEvent_frame

theorem run_stops (hst : (s.comp c).state = .starting) (hs : (s.comp c).seated = []) (hq : s.waitsNowhere)
    (htime : s.site (·.runOnTime) = 0) :
    runChange c true s = closeEvent (clearScratch s) ((clearScratch s).modComp c fun k => (k.runAt true).stops s.strokeOfDirection s.fe) := by
  refine run_changes hrun hfit hq ?_
  rw [run_unseated hstep hon hst hs]
  refine (if_pos (show s.site (·.runOnTime) = 0 from htime)).trans ?_
  rw [stopComp_eq, modComp_modComp]
  rfl

theorem run_proves (hst : (s.comp c).state = .proof) (hq : s.waitsNowhere) :
    (runChange c true s).frame = { s.frame with comps := s.comps.set c { s.comp c with
      run := { active := true, count := 0 }, step := some .proofRun, startTimer := .stopped
      runTimer := .seconds (s.site (·.proofTime)) } } := by
  have hsame : ((clearScratch s).modComp c (Comp.runAt true)).comp c = (s.comp c).runAt true := modComp_comp_same _ _ _
  have hw : compOnRun c ((clearScratch s).modComp c (Comp.runAt true)) = (clearScratch s).modComp c fun k =>
      { k.runAt true with step := some .proofRun, startTimer := .stopped, runTimer := .seconds (s.site (·.proofTime)) } := by
    rw [compOnRun_proof (by rw [hsame]; rfl) (by rw [hsame]; exact hon) (by rw [hsame]; exact hstep) (by rw [hsame]; exact hst),
      modComp_modComp]
    rfl
  rw [run_changes hrun hfit hq hw]
  exact compEvent_frame

end RunWait

/-! ## Faults by an input or a timer -/

/-- The commands, but for a valve's, at which a compressor faults, with its last fault (R132). -/
def State.compFaultsBy (s : State) (c : CompNo) (x : Instr) (f : CompFault) : Prop :=
  (x = .runFeedbackLost c ∧ f = .runLost ∧ (s.comp c).run.active = true ∧
      ((s.comp c).state = .running ∨ (s.comp c).state = .runOn ∨ ((s.comp c).state = .proof ∧ (s.comp c).step = some .proofRun))) ∨
    (x = .faultInputActive c ∧ f = .faultInput ∧ (s.comp c).faultInput.active = false ∧ (s.comp c).state ≠ .faulted) ∨
    (x = .startTimerExpiry c ∧ f = .startFailed ∧ (s.comp c).startTimer = .running 0 ∧
      (s.comp c).step = some .runWait ∧ (s.comp c).run.active = false ∧ (s.comp c).state ≠ .faulted)

/-- The event of such a fault: at most an input's filter, and the fault. -/
theorem exec_compFaults {s : State} {c : CompNo} {x : Instr} {f : CompFault} (hfit : s.fittedComp c = true) (h : s.compFaultsBy c x f) :
    ∃ g : Comp → Comp, (g (s.comp c)).state ≠ .faulted ∧ (g (s.comp c)).seated = (s.comp c).seated ∧
      exec x s = .next (closeEvent (clearScratch s) (settle (faultComp f c ((clearScratch s).modComp c g)))) := by
  rcases h with ⟨rfl, rfl, hr, hst⟩ | ⟨rfl, rfl, hi, hst⟩ | ⟨rfl, rfl, htimer, hstep, hr, hst⟩
  · have hsame : ((clearScratch s).modComp c (Comp.runAt false)).comp c = (s.comp c).runAt false := modComp_comp_same _ _ _
    refine ⟨Comp.runAt false, ?_, rfl, ?_⟩
    · show (s.comp c).state ≠ .faulted
      rcases hst with e | e | ⟨e, -⟩ <;> rw [e] <;> exact nofun
    · rw [exec_runFeedbackLost, runChange_eq hr, runEffect_lost (u := (clearScratch s).modComp c (Comp.runAt false)) hfit,
        runLost_on (by rw [hsame]; exact hst)]
  · refine ⟨Comp.faultAt true, hst, rfl, ?_⟩
    rw [exec_faultInputActive, faultChange_eq hi]
    exact congrArg (fun u => Host.Outcome.next (closeEvent (clearScratch s) u)) (if_pos hfit)
  · refine ⟨id, hst, rfl, ?_⟩
    have hself : (clearScratch s).modComp c id = clearScratch s := modComp_self rfl
    rw [exec_startTimerExpiry, hself,
      show startExpires c s = event (fun s => settle (faultComp .startFailed c s)) s from
        if_pos ⟨(Timer.isDue_iff _).mpr htimer, hstep, hr⟩, event_eq]

theorem compFaults_act {s : State} {c : CompNo} {x : Instr} {f : CompFault} (hfit : s.fittedComp c = true) (h : s.compFaultsBy c x f) :
    ∃ (t : State) (k : Comp), exec x s = .next t ∧ t.comp c = k.faults s.strokeOfDirection s.fe f ∧ t.changes.comps.getLsbD c = true ∧
      s.sameStore t ∧
      ∀ i ∈ (s.comp c).seated, (s.spot i).fallsHeld → (t.spot i).state = .held ∧ (t.spot i).holds.compressor = true := by
  obtain ⟨g, hst, hseated, hexec⟩ := exec_compFaults hfit h
  obtain ⟨u, hu⟩ : ∃ u, u = (clearScratch s).modComp c g := ⟨_, rfl⟩
  have huc : u.comp c = g (s.comp c) := by
    rw [hu]
    exact modComp_comp_same _ _ _
  have huk : Kept (clearScratch s) u := by
    rw [hu]
    exact .modComp c _ _
  obtain ⟨hkept, hcomp, hflag, hheld⟩ := faultComp_done f (c := c) (s := u) (by rw [huc]; exact hst)
  have hsite : u.strokeOfDirection = s.strokeOfDirection := by rw [hu]; rfl
  have hfe : u.fe = s.fe := by rw [hu]; rfl
  rw [← hu] at hexec
  refine ⟨_, u.comp c, hexec, ?_, compFlag_of_touched hflag, (huk.trans hkept).sameStore (clearScratch_frame s) rfl, fun i hi hfall => ?_⟩
  · rw [closeEvent_comp, hcomp, hsite, hfe]
  · rw [closeEvent_spot]
    have hsp : u.spot i = s.spot i := by rw [hu]; rfl
    exact hheld i (by rw [huc, hseated]; exact hi) (by rw [hsp]; exact hfall)

/-! ## The end of a run-on and of a proof's run -/

theorem runOn_stops {s : State} {c : CompNo} (h1 : (s.comp c).state = .runOn) (h2 : (s.comp c).runTimer = .running 0)
    (hq : s.waitsNowhere) : runOnExpires c s = closeEvent (clearScratch s)
      ((clearScratch s).modComp c (Comp.stops s.strokeOfDirection s.fe)) := by
  have hstop : settle (stopComp c (clearScratch s)) = (clearScratch s).modComp c (Comp.stops s.strokeOfDirection s.fe) := by
    rw [stopComp_eq]
    exact settle_quietly (waitsNowhere_modComp c _ (waitsNowhere_of_frame (clearScratch_frame s) hq))
  exact (if_pos ⟨h1, (Timer.isDue_iff _).mpr h2⟩).trans ((event_eq _ s).trans (congrArg (closeEvent (clearScratch s)) hstop))

/-- A compressor at the end of its proof's run (R135). -/
def Comp.endsRun (stroke : Timer) (fe : Bool) (k : Comp) : Comp :=
  ({ k with step := some .stopping, startOn := false, runTimer := .stopped } : Comp).shutBoth stroke fe

theorem Comp.endsRun_bare (stroke : Timer) (fe : Bool) (k : Comp) : (k.endsRun stroke fe).bare = { k.bare with
    step := some .stopping, startOn := false, runTimer := .stopped } := shutBoth_bare _ _ _

theorem Comp.endsRun_push {stroke : Timer} {fe : Bool} {k : Comp} (hs : k.push.supervised = true) (ho : k.push.isOpen = true) :
    (k.endsRun stroke fe).push = k.push.shutting stroke := by
  have hv := shutBoth_valve stroke fe { k with step := some .stopping, startOn := false, runTimer := .stopped } .push
  exact hv.trans (Valve.toldShut_open hs ho)

/-- A proof that waits for its push valve to close goes no further. -/
theorem compAdvance_stopping {s : State} {c : CompNo} (h1 : (s.comp c).state = .proof) (h2 : (s.comp c).step = some .stopping)
    (h3 : (s.comp c).push.isShut = false) : compAdvance c s = s := by
  have hopen : compOnOpen c s = s := by
    unfold compOnOpen
    dsimp only
    rw [h1, h2]
  have hrun : compOnRun c s = s := compOnRun_off (.inl (by rw [h2]; exact nofun))
  have hshut : compOnShut c s = s := by
    unfold compOnShut
    dsimp only
    rw [h1, h2]
    exact if_neg (by rw [h3]; exact Bool.false_ne_true)
  have hguard : compOnGuard c s = s := by
    have hno : (s.comp c).awaits = none := by
      unfold Comp.awaits
      rw [h1, h2]
    unfold compOnGuard
    dsimp only
    rw [hno]
  unfold compAdvance compPassGuard compOnArrivals
  rw [hopen, hrun, hshut, hguard, hopen, hrun]

theorem proofRun_ends {s : State} {c : CompNo} (h1 : (s.comp c).state = .proof) (h2 : (s.comp c).step = some .proofRun)
    (h3 : (s.comp c).runTimer = .running 0) (hs : (s.comp c).push.supervised = true) (ho : (s.comp c).push.isOpen = true)
    (hq : s.waitsNowhere) : proofRunExpires c s = closeEvent (clearScratch s)
      ((clearScratch s).modComp c (Comp.endsRun s.strokeOfDirection s.fe)) := by
  obtain ⟨w, hw⟩ : ∃ w, w = (clearScratch s).modComp c (Comp.endsRun s.strokeOfDirection s.fe) := ⟨_, rfl⟩
  have hwc : w.comp c = (s.comp c).endsRun s.strokeOfDirection s.fe := by
    rw [hw]
    exact modComp_comp_same _ _ _
  have hbare := Comp.endsRun_bare s.strokeOfDirection s.fe (s.comp c)
  have e1 := congrArg Comp.state hbare
  have e2 := congrArg Comp.step hbare
  rw [← hwc] at e1 e2
  have hadv : compAdvance c w = w := compAdvance_stopping (e1.trans h1) e2 (by rw [hwc, Comp.endsRun_push hs ho]; rfl)
  have hend : endProofRun c (clearScratch s) = w := by
    unfold endProofRun
    rw [shutDirs_eq, modComp_modComp]
    have hsame : (clearScratch s).modComp c (fun k => Comp.shutBoth s.strokeOfDirection s.fe
        { k with step := some .stopping, startOn := false, runTimer := .stopped }) = w := hw.symm
    refine (congrArg (fun u => settle (compAdvance c u)) hsame).trans ?_
    rw [hadv, hw]
    exact settle_quietly (waitsNowhere_modComp c _ (waitsNowhere_of_frame (clearScratch_frame s) hq))
  exact (if_pos ⟨h1, h2, (Timer.isDue_iff _).mpr h3⟩).trans ((event_eq _ s).trans (congrArg (closeEvent (clearScratch s)) (hend.trans hw)))

/-! ## The guard -/

/-- The waits for a direction valve that a guard ends, with the step that follows (R122). -/
def Comp.waitsFor (k : Comp) (d : Direction) (st : CompStep) : Prop :=
  (k.state = .starting ∧ k.step = some .deadTime ∧ k.dir = some d ∧ st = .valveOpening) ∨
    (k.state = .reversing ∧ k.step = some .deadTime ∧ k.dir = some d ∧ st = .valveOpening) ∨
    (k.state = .proof ∧ (k.valve d).command = .toShut ∧ k.step = some st ∧
      ((st = .pushStroke ∧ d = .push ∧ k.stroked = false) ∨ (st = .drawStroke ∧ d = .draw ∧ k.stroked = false) ∨
        (st = .runWait ∧ d = .push ∧ k.startOn = false)))

/-- A compressor whose awaited direction valve starts to open. -/
def Comp.opens (stroke : Timer) (d : Direction) (st : CompStep) (k : Comp) : Comp :=
  { k.putValve d ((k.valve d).opening stroke) with step := some st }

section Guard

variable {k : Comp} {d : Direction} {st : CompStep} (h : k.waitsFor d st)

include h

theorem Comp.waitsFor_awaits (hs : (k.valve d).isShut = true) : k.awaits = some d := by
  unfold Comp.awaits
  rcases h with ⟨h1, h2, h3, -⟩ | ⟨h1, h2, h3, -⟩ | ⟨h1, h2, h3, ⟨rfl, rfl, h4⟩ | ⟨rfl, rfl, h4⟩ | ⟨rfl, rfl, h4⟩⟩
  · rw [h1, h2, h3]
  · rw [h1, h2, h3]
  · rw [h1, h3]
    have hc : k.push.command = .toShut := h2
    have hsh : k.push.isShut = true := hs
    simp [h4, hc, hsh]
  · rw [h1, h3]
    have hc : k.draw.command = .toShut := h2
    have hsh : k.draw.isShut = true := hs
    simp [h4, hc, hsh]
  · rw [h1, h3]
    have hc : k.push.command = .toShut := h2
    have hsh : k.push.isShut = true := hs
    simp [h4, hc, hsh]

theorem Comp.waitsFor_state : k.state ≠ .faulted := by
  rcases h with ⟨e, -⟩ | ⟨e, -⟩ | ⟨e, -⟩ <;> rw [e] <;> exact nofun

theorem Comp.waitsFor_step : (if k.step = some .deadTime then { k with step := some .valveOpening } else k) = { k with step := some st } := by
  rcases h with ⟨-, e, -, rfl⟩ | ⟨-, e, -, rfl⟩ | ⟨-, -, e, hst⟩
  · exact if_pos e
  · exact if_pos e
  · have hne : k.step ≠ some .deadTime := by
      rw [e]
      rcases hst with ⟨rfl, -⟩ | ⟨rfl, -⟩ | ⟨rfl, -⟩ <;> exact nofun
    rw [if_neg hne, ← e]

end Guard

theorem Comp.commanded_opens {stroke : Timer} {d : Direction} {k : Comp} (hst : k.state ≠ .faulted) (hsh : (k.valve d).isShut = true)
    (hs : (k.valve d).supervised = true) : k.commanded stroke true d .toOpen = k.putValve d ((k.valve d).opening stroke) := by
  have hstate : (k.valve d).state = some .shut := by simpa [Valve.isShut] using hsh
  have hold : ∀ v w : Valve, v.isShut = true → (k.putValve d v).putValve d w = k.putValve d w := fun v w hv => by
    cases d
    · have hp : k.push.isShut = true := hsh
      cases hw : w.isShut <;> simp [Comp.putValve, Comp.valve, Comp.setMark, hv, hp, hw]
    · have hp : k.draw.isShut = true := hsh
      cases hw : w.isShut <;> simp [Comp.putValve, Comp.valve, Comp.setMark, hv, hp, hw]
  have hpursue : ({ k.valve d with command := .toOpen } : Valve).pursue stroke true = (k.valve d).opening stroke := by
    unfold Valve.pursue Valve.opening
    rw [if_pos hs, hstate]
  have heff : (k.putValve d { k.valve d with command := .toOpen }).effective true d = true := by
    have hbare : (k.putValve d { k.valve d with command := .toOpen }).state = k.state := state_of_bare (putValve_bare _ _ _)
    unfold Comp.effective
    rw [putValve_same, hbare]
    simp [hst, Valve.isFault, hstate]
  unfold Comp.commanded
  dsimp only
  rw [heff, putValve_same, hpursue]
  exact hold _ _ hsh

theorem Comp.putValve_step (d : Direction) (v : Valve) (st : Option CompStep) (k : Comp) :
    ({ k with step := st } : Comp).putValve d v = { k.putValve d v with step := st } := by
  cases d
  · cases hv : v.isShut <;> cases hk : k.push.isShut <;> simp [Comp.putValve, Comp.valve, Comp.setMark, hv, hk]
  · cases hv : v.isShut <;> cases hk : k.draw.isShut <;> simp [Comp.putValve, Comp.valve, Comp.setMark, hv, hk]

theorem Comp.opens_valve (stroke : Timer) (d : Direction) (st : CompStep) (k : Comp) :
    ((k.opens stroke d st).valve d) = (k.valve d).opening stroke := by
  have hv := putValve_same d ((k.valve d).opening stroke) k
  cases d <;> exact hv

theorem Comp.opens_bare (stroke : Timer) (d : Direction) (st : CompStep) (k : Comp) :
    (k.opens stroke d st).bare = { k.bare with step := some st } :=
  congrArg (fun x : Comp => { x with step := some st }) (putValve_bare d ((k.valve d).opening stroke) k)

/-- A compressor whose awaited valve starts to open goes no further. -/
theorem opens_stands {s : State} {c : CompNo} {d : Direction} {st : CompStep} {k : Comp} {stroke : Timer} (h : k.waitsFor d st)
    (hc : s.comp c = k.opens stroke d st) : compOnRun c (compOnOpen c s) = s := by
  have hbare := Comp.opens_bare stroke d st k
  have hv := Comp.opens_valve stroke d st k
  rw [← hc] at hv hbare
  have hfields : (s.comp c).state = k.state ∧ (s.comp c).step = some st ∧ (s.comp c).dir = k.dir ∧ (s.comp c).startOn = k.startOn := by
    have e1 := congrArg Comp.state hbare
    have e2 := congrArg Comp.step hbare
    have e3 := congrArg Comp.dir hbare
    have e4 := congrArg Comp.startOn hbare
    exact ⟨e1, e2, e3, e4⟩
  obtain ⟨e1, e2, e3, e4⟩ := hfields
  have hno : ((s.comp c).valve d).isOpen = false := by
    rw [hv]
    rfl
  have hopen : compOnOpen c s = s := by
    unfold compOnOpen
    dsimp only
    rcases h with ⟨h1, -, h3, rfl⟩ | ⟨h1, -, h3, rfl⟩ | ⟨h1, -, -, ⟨rfl, rfl, -⟩ | ⟨rfl, rfl, -⟩ | ⟨rfl, rfl, -⟩⟩
    · rw [e1.trans h1, e2, e3.trans h3]
      exact if_neg (by rw [hno]; exact Bool.false_ne_true)
    · rw [e1.trans h1, e2, e3.trans h3]
      exact if_neg (by rw [hno]; exact Bool.false_ne_true)
    · rw [e1.trans h1, e2]
      exact if_neg (by rw [show (s.comp c).push.isOpen = false from hno]; exact Bool.false_ne_true)
    · rw [e1.trans h1, e2]
      exact if_neg (by rw [show (s.comp c).draw.isOpen = false from hno]; exact Bool.false_ne_true)
    · rw [e1.trans h1, e2]
      exact if_neg (by rw [show (s.comp c).push.isOpen = false from hno, Bool.and_false]; exact Bool.false_ne_true)
  rw [hopen]
  rcases h with ⟨-, -, -, rfl⟩ | ⟨-, -, -, rfl⟩ | ⟨-, -, -, ⟨rfl, -⟩ | ⟨rfl, -⟩ | ⟨-, -, h4⟩⟩
  · exact compOnRun_off (.inl (by rw [e2]; exact nofun))
  · exact compOnRun_off (.inl (by rw [e2]; exact nofun))
  · exact compOnRun_off (.inl (by rw [e2]; exact nofun))
  · exact compOnRun_off (.inl (by rw [e2]; exact nofun))
  · exact compOnRun_off (.inr (e4.trans h4))

theorem guardExpires_off {s : State} {c : CompNo} {p : Direction} (h : s.fittedComp c = false ∨ (s.comp c).awaits ≠ some p.other ∨
    (∀ age, (s.comp c).mark p = some age → age < s.protection.deadTime * 100)) : guardExpires c p s = s := by
  refine if_neg fun e => ?_
  simp only [Bool.and_eq_true, beq_iff_eq] at e
  obtain ⟨⟨hdue, hfit⟩, hwait⟩ := e
  rcases h with h | h | h
  · exact Bool.false_ne_true (h.symm.trans hfit)
  · exact h hwait
  · unfold State.guardDue at hdue
    cases hm : (s.comp c).mark p with
    | none =>
      rw [hm] at hdue
      cases hdue
    | some age =>
      rw [hm] at hdue
      have hle : s.protection.deadTime * 100 ≤ age := of_decide_eq_true hdue
      exact absurd (h age hm) (Nat.not_lt.mpr hle)

theorem Direction.other_other (d : Direction) : d.other.other = d := by cases d <;> rfl

/-- A compressor that waits to open a valve whose partner is proven shut opens it, and goes no further. -/
theorem compPassGuard_opens {u : State} {c : CompNo} {d : Direction} {st : CompStep} {age : Nat} (h : (u.comp c).waitsFor d st)
    (hfe : u.fe = true) (hpartner : ((u.comp c).valve d.other).isShut = true)
    (hmark : (u.comp c).mark d.other = some age) (hage : u.protection.deadTime * 100 ≤ age)
    (hsh : ((u.comp c).valve d).isShut = true) (hs : ((u.comp c).valve d).supervised = true) :
    compPassGuard c u = u.modComp c (Comp.opens u.strokeOfDirection d st) := by
  have hproven : (u.comp c).provenShut u.protection.deadTime d.other = true := by
    unfold Comp.provenShut
    rw [hpartner, hmark]
    exact decide_eq_true hage
  have hguard : compOnGuard c u = u.modComp c (Comp.opens u.strokeOfDirection d st) := by
    unfold compOnGuard
    dsimp only
    rw [Comp.waitsFor_awaits h hsh]
    dsimp only
    rw [if_pos hproven, commandDir_eq, modComp_modComp]
    refine modComp_congr ?_
    show Comp.commanded u.strokeOfDirection u.fe d .toOpen
      (if (u.comp c).step = some .deadTime then { u.comp c with step := some .valveOpening } else u.comp c) = _
    have hopens : Comp.commanded u.strokeOfDirection true d .toOpen { u.comp c with step := some st } =
        (u.comp c).opens u.strokeOfDirection d st := by
      rw [Comp.commanded_opens (d := d) (k := { u.comp c with step := some st }) (by have hst := Comp.waitsFor_state h; exact hst)
        (by cases d <;> exact hsh) (by cases d <;> exact hs), Comp.putValve_step]
      cases d <;> rfl
    rw [Comp.waitsFor_step h, hfe, hopens]
  unfold compPassGuard
  rw [hguard]
  exact opens_stands h (modComp_comp_same _ _ _)

theorem guard_opens {s : State} {c : CompNo} {d : Direction} {st : CompStep} {age : Nat} (h : (s.comp c).waitsFor d st)
    (hfit : s.fittedComp c = true) (hfe : s.fe = true) (hpartner : ((s.comp c).valve d.other).isShut = true)
    (hmark : (s.comp c).mark d.other = some age) (hage : s.protection.deadTime * 100 ≤ age)
    (hsh : ((s.comp c).valve d).isShut = true) (hs : ((s.comp c).valve d).supervised = true) (hq : s.waitsNowhere) :
    guardExpires c d.other s = closeEvent (clearScratch s) ((clearScratch s).modComp c (Comp.opens s.strokeOfDirection d st)) := by
  have hdue : (s.guardDue c d.other && s.fittedComp c && (s.comp c).awaits == some d.other.other) = true := by
    unfold State.guardDue
    rw [hmark, hfit, Comp.waitsFor_awaits h hsh, Direction.other_other]
    simp only [Bool.and_true, beq_self_eq_true]
    exact decide_eq_true hage
  have hpass : compPassGuard c (clearScratch s) = (clearScratch s).modComp c (Comp.opens s.strokeOfDirection d st) :=
    compPassGuard_opens (u := clearScratch s) h hfe hpartner hmark hage hsh hs
  refine (if_pos hdue).trans ((event_eq _ s).trans (congrArg (closeEvent (clearScratch s)) ?_))
  rw [hpass]
  exact settle_quietly (waitsNowhere_modComp c _ (waitsNowhere_of_frame (clearScratch_frame s) hq))

/-- An open command to a SHUT direction valve shows in READ COMPRESSOR. -/
theorem opens_flag {s : State} {c : CompNo} {stroke : Timer} {d : Direction} {st : CompStep} (hsh : ((s.comp c).valve d).isShut = true) :
    (closeEvent (clearScratch s) ((clearScratch s).modComp c (Comp.opens stroke d st))).changes.comps.getLsbD c = true := by
  have hstate : ((s.comp c).valve d).state = some .shut := by simpa [Valve.isShut] using hsh
  have hc : ((clearScratch s).modComp c (Comp.opens stroke d st)).comp c = (s.comp c).opens stroke d st := modComp_comp_same _ _ _
  have hv : ((((clearScratch s).modComp c (Comp.opens stroke d st)).comp c).valve d).state = some .movingOpen := by
    rw [hc, Comp.opens_valve]
    rfl
  have hne : ((s.comp c).valve d).state ≠ ((((clearScratch s).modComp c (Comp.opens stroke d st)).comp c).valve d).state := by
    rw [hstate, hv]
    exact nofun
  cases d
  · exact compFlag_of_view CompView.push hne
  · exact compFlag_of_view CompView.draw hne

/-- Settles O53: the changes that do nothing; run feedback by state; faults; the timers' ends; the guard. -/
theorem compressorInputsAndTimersAct : Obligations.CompressorInputsAndTimersAct := by
  refine fun s c => ⟨fun h => ?_, fun h => ?_, fun h => ?_, fun h => ?_, fun h => ?_, fun h => ?_, fun h => ?_, fun p h => ?_,
    fun hrun hfit hstep hon => ⟨fun hst hs => ?_, fun hst hs hq htime => ?_, fun hst hq => ?_⟩, fun hrun hoff hd => ?_,
    fun hrun h1 h2 h3 => ?_, fun h => ?_, fun x f hfit h => ?_, fun h1 h2 hq => ?_, fun h1 h2 h3 hs ho hq => ?_,
    fun d st age h hfit hfe hp hm hage hsh hs hq => ?_, fun hrun hfit hstep hon hst hs hq htime => ?_, fun hf hin hd x hx => ?_⟩
  · rw [exec_runFeedbackActive, runChange_same h]
  · rw [exec_runFeedbackLost, runChange_same h]
  · rw [exec_faultInputActive, faultChange_same h]
  · rw [exec_faultInputInactive, faultChange_same h]
  · rw [exec_startTimerExpiry, show startExpires c s = s from if_neg fun e => h ((Timer.isDue_iff _).mp e.1)]
  · rw [exec_runOnExpiry, show runOnExpires c s = s from
      if_neg fun e => h.elim (fun h => h e.1) fun h => h ((Timer.isDue_iff _).mp e.2)]
  · rw [exec_proofRunExpiry, show proofRunExpires c s = s from if_neg fun e =>
      h.elim (fun h => h e.1) fun h => h.elim (fun h => h e.2.1) fun h => h ((Timer.isDue_iff _).mp e.2.2)]
  · rw [exec_guardExpiry, guardExpires_off h]
  · exact run_seated hrun hfit hstep hon hst hs
  · exact ⟨_, exec_runFeedbackActive c s, run_runsOn hrun hfit hstep hon hst hs hq htime⟩
  · exact ⟨_, exec_runFeedbackActive c s, run_proves hrun hfit hstep hon hst hq⟩
  · refine ⟨_, exec_runFeedbackActive c s, run_alone hrun ?_⟩
    have hsame : ((clearScratch s).modComp c (Comp.runAt true)).comp c = (s.comp c).runAt true := modComp_comp_same _ _ _
    cases hfit : s.fittedComp c with
    | false => exact runEffect_unfitted (u := (clearScratch s).modComp c (Comp.runAt true)) hfit
    | true =>
      have hno : compOnRun c ((clearScratch s).modComp c (Comp.runAt true)) = (clearScratch s).modComp c (Comp.runAt true) :=
        compOnRun_off (by rw [hsame]; exact hoff.resolve_left (by rw [hfit]; exact nofun))
      rw [runEffect_active (u := (clearScratch s).modComp c (Comp.runAt true)) hfit, hno]
      refine settle_none _ ((due_seating (s := s) (t := (clearScratch s).modComp c (Comp.runAt true)) (fun d => ?_) rfl rfl rfl rfl).trans hd)
      by_cases e : d = c
      · rw [e, hsame]
        rfl
      · exact congrArg Comp.seating (modComp_comp_other _ _ _ _ e)
  · obtain ⟨hframe, -⟩ := run_alone (c := c) (l := false) hrun (by
      have hsame : ((clearScratch s).modComp c (Comp.runAt false)).comp c = (s.comp c).runAt false := modComp_comp_same _ _ _
      cases hfit : s.fittedComp c with
      | false => exact runEffect_unfitted (u := (clearScratch s).modComp c (Comp.runAt false)) hfit
      | true =>
        rw [runEffect_lost (u := (clearScratch s).modComp c (Comp.runAt false)) hfit]
        exact runLost_off (by rw [hsame]; exact h1) (by rw [hsame]; exact h2) (by rw [hsame]; exact h3))
    exact ⟨_, exec_runFeedbackLost c s, hframe⟩
  · refine ⟨_, exec_faultInputInactive c s, ?_⟩
    rw [faultChange_eq h]
    exact compEvent_frame
  · obtain ⟨t, k, ht, htc, hflag, hstore, hheld⟩ := compFaults_act hfit (show s.compFaultsBy c x f from h)
    have hbare := Comp.faults_bare s.strokeOfDirection s.fe f k
    have e1 := congrArg Comp.state hbare
    have e2 := congrArg Comp.fault hbare
    have e3 := congrArg Comp.startOn hbare
    have e4 := congrArg Comp.seated hbare
    have e5 := congrArg Comp.startTimer hbare
    have e6 := congrArg Comp.runTimer hbare
    rw [← htc] at e1 e2 e3 e4 e5 e6
    refine ⟨t, ht, e1, e2, e3, e4, e5, e6, ?_, ?_, hflag, hstore, fun i hi h1 h2 h3 => hheld i hi ⟨h1, h2, h3⟩⟩
    · rw [htc]
      exact Comp.faults_command _ _ _ _ .push
    · rw [htc]
      exact Comp.faults_command _ _ _ _ .draw
  · obtain ⟨e1, -, e3, e4, -, e6, e7, e8, hflag, hframe⟩ := stopped_event (runOn_stops h1 h2 hq) rfl (by rw [h1]; exact nofun)
    exact ⟨_, exec_runOnExpiry c s, e1, e3, e4, e6, e7, e8, hflag, hframe⟩
  · have ht := proofRun_ends h1 h2 h3 hs ho hq
    have hframe : (proofRunExpires c s).frame = { s.frame with
        comps := s.comps.set c ((s.comp c).endsRun s.strokeOfDirection s.fe) } := by rw [ht, compEvent_frame]
    have htc := comp_of_oneComp hframe
    have hpush := Comp.endsRun_push (stroke := s.strokeOfDirection) (fe := s.fe) hs ho
    have hbare := Comp.endsRun_bare s.strokeOfDirection s.fe (s.comp c)
    rw [← htc] at hframe hpush hbare
    have e1 := congrArg Comp.state hbare
    have e2 := congrArg Comp.step hbare
    have e3 := congrArg Comp.startOn hbare
    have e4 := congrArg Comp.runTimer hbare
    refine ⟨_, exec_proofRunExpiry c s, e1.trans h1, e2, e3, e4, by rw [hpush]; rfl, by rw [hpush]; rfl, ?_, hframe⟩
    rw [ht]
    refine compFlag_of_view CompView.step ?_
    show (s.comp c).step ≠ (((clearScratch s).modComp c (Comp.endsRun s.strokeOfDirection s.fe)).comp c).step
    have hstep := congrArg Comp.step (Comp.endsRun_bare s.strokeOfDirection s.fe (s.comp c))
    rw [modComp_comp_same, h2]
    exact fun e => CompStep.noConfusion (Option.some.inj (e.trans hstep))
  · have ht := guard_opens h hfit hfe hp hm hage hsh hs hq
    refine ⟨_, exec_guardExpiry c d.other s, ?_, ?_⟩
    · rw [ht]
      exact compEvent_frame
    · rw [ht]
      exact opens_flag hsh
  · obtain ⟨e1, e2, e3, e4, e5, -, e7, e8, hflag, hframe⟩ := stopped_event
      (run_stops hrun hfit hstep hon hst hs hq htime) rfl (by rw [hst]; exact nofun)
    exact ⟨_, exec_runFeedbackActive c s, e1, e2, e3, e4, e5, e7, e8, hflag, hframe⟩
  · have hrun : ∀ l, (runChange c l s).changes = s.changes := fun l => by
      by_cases e : (s.comp c).run.active = l
      · rw [runChange_same e]
      · rw [runChange_eq (Bool.eq_not_of_ne e), runEffect_unfitted (u := (clearScratch s).modComp c (Comp.runAt l)) hf]
        exact unfitted_quiet hf hin (.inl rfl)
    have hfault : ∀ l, (faultChange c l s).changes = s.changes := fun l => by
      by_cases e : (s.comp c).faultInput.active = l
      · rw [faultChange_same e]
      · have hno : faultEffect c l ((clearScratch s).modComp c (Comp.faultAt l)) = (clearScratch s).modComp c (Comp.faultAt l) :=
          if_neg (by rw [show ((clearScratch s).modComp c (Comp.faultAt l)).fittedComp c = false from hf, Bool.and_false]; exact Bool.false_ne_true)
        rw [faultChange_eq (Bool.eq_not_of_ne e), hno]
        exact unfitted_quiet hf hin (.inr rfl)
    rcases hx with rfl | rfl | rfl | rfl
    · exact ⟨_, exec_runFeedbackActive c s, hrun true⟩
    · exact ⟨_, exec_runFeedbackLost c s, hrun false⟩
    · exact ⟨_, exec_faultInputActive c s, hfault true⟩
    · exact ⟨_, exec_faultInputInactive c s, hfault false⟩

end Sys2Proof.Machine
end

section
/-! PROOFS. An order that becomes head of its queue (R62, R63, R72), and the entry of a WAITING head in the grant queue (R126). -/

namespace Sys2Proof.Machine

/-! ## An order that becomes head -/

/-- A LIQUID order into a tripped vessel (R36). -/
def State.tripsOrder (s : State) (o : Order) : Bool :=
  match o.liquid with
  | some l => (s.vessel l.vessel).trip.active
  | none => false

/-- A spot as an order at the head of its queue leaves it in STAGED (R62, R63). -/
def Spot.stagesHead (s : State) (o : Order) (more : List Order) (sp : Spot) : Spot :=
  { sp.takeStaged s with orders := { o with state := .waiting } :: more, state := .staged }

/-- A spot in HELD whose queue has a new head (R72, R101). -/
def Spot.suspendsHead (s : State) (o : Order) (more : List Order) (sp : Spot) : Spot :=
  { sp.takeStaged s with
    orders := { o with state := .suspended } :: more, holds := { sp.holds with vesselTrip := s.tripsOrder o } }

theorem Spot.takeStaged_eq (s : State) (sp : Spot) :
    ∃ a, sp.takeStaged s = { sp with
      active := a, activeVersion := if s.setpointHold then sp.activeVersion else s.stagedVersion } := by
  unfold Spot.takeStaged
  cases hh : s.setpointHold with
  | true => exact ⟨sp.active, if_neg fun e => nomatch e.2⟩
  | false =>
    by_cases e : s.stagedVersion = sp.activeVersion
    · refine ⟨sp.active, (if_neg fun h => h.1 e).trans ?_⟩
      simp only [e]
      rfl
    · exact ⟨s.staged, if_pos ⟨e, rfl⟩⟩

section Becomes

variable {s : State} {i : SpotNo} {o : Order} {more : List Order} (ho : (s.spot i).orders = o :: more)

include ho

theorem headTripped_of_orders : s.headTripped i = s.tripsOrder o := by
  unfold State.headTripped Spot.head
  rw [ho]
  rfl

omit ho in
theorem tripsOrder_modSpot (f : Spot → Spot) (o : Order) : (s.modSpot i f).tripsOrder o = s.tripsOrder o := rfl

theorem becomeHead_held (hst : (s.spot i).state = .held) :
    becomeHead i s = (s.touchSpot i).modSpot i (Spot.suspendsHead s o more) := by
  obtain ⟨a, ha⟩ := (s.spot i).takeStaged_eq s
  have hstart : (((s.touchSpot i).modSpot i (Spot.takeStaged s)).spot i) = (s.spot i).takeStaged s := modSpot_spot_same _ _ _
  have hmid : ((((s.touchSpot i).modSpot i (Spot.takeStaged s)).modSpot i (Spot.modHead fun o => { o with state := .suspended })).spot
      i).orders = { o with state := .suspended } :: more := by
    rw [modSpot_spot_same, hstart, Spot.modHead_eq, ha]
    dsimp only
    rw [ho]
    rfl
  unfold becomeHead
  dsimp only
  rw [if_pos (by rw [hstart, ha]; exact hst), headTripped_of_orders hmid, modSpot_modSpot, modSpot_modSpot]
  refine modSpot_congr ?_
  have hsp : (s.touchSpot i).spot i = s.spot i := rfl
  rw [hsp, Spot.modHead_eq]
  unfold Spot.suspendsHead
  rw [ha]
  dsimp only
  rw [ho]
  rfl

theorem becomeHead_staged (hst : (s.spot i).state ≠ .held) :
    becomeHead i s = if s.tripsOrder o then addHold i .vesselTrip ((s.touchSpot i).modSpot i (Spot.stagesHead s o more))
      else (s.touchSpot i).modSpot i (Spot.stagesHead s o more) := by
  obtain ⟨a, ha⟩ := (s.spot i).takeStaged_eq s
  have hstart : (((s.touchSpot i).modSpot i (Spot.takeStaged s)).spot i) = (s.spot i).takeStaged s := modSpot_spot_same _ _ _
  have hstage : ((s.touchSpot i).modSpot i (Spot.takeStaged s)).modSpot i (fun sp =>
      { sp.modHead (fun o => { o with state := .waiting }) with state := .staged }) =
      (s.touchSpot i).modSpot i (Spot.stagesHead s o more) := by
    rw [modSpot_modSpot]
    refine modSpot_congr ?_
    have hsp : (s.touchSpot i).spot i = s.spot i := rfl
    dsimp only
    rw [hsp, Spot.modHead_eq]
    unfold Spot.stagesHead
    rw [ha]
    dsimp only
    rw [ho]
    rfl
  have hmid : (((s.touchSpot i).modSpot i (Spot.stagesHead s o more)).spot i).orders = { o with state := .waiting } :: more := by
    rw [modSpot_spot_same]
    rfl
  unfold becomeHead
  dsimp only
  rw [if_neg (by rw [hstart, ha]; exact hst), hstage, headTripped_of_orders hmid]
  rfl

end Becomes

theorem spotWork_stagesHead (s : State) (i : SpotNo) (o : Order) (more : List Order) :
    SpotWork i s ((s.touchSpot i).modSpot i (Spot.stagesHead s o more)) :=
  (SpotWork.touchSpot i i s).trans (.mod (f := Spot.stagesHead s o more) (fun sp => sp.takeStaged_car s) (fun sp => sp.takeStaged_seat s) _)

/-- A new head into a tripped vessel: the spot is held at once (R36). -/
theorem becomeHead_tripped {s : State} {i : SpotNo} {o : Order} {more : List Order} (ho : (s.spot i).orders = o :: more)
    (hst : (s.spot i).state ≠ .held) (ht : s.tripsOrder o = true) (hh : (s.spot i).holds.vesselTrip = false) :
    (becomeHead i s).spot i = ((s.spot i).stagesHead s o more).held s.strokeOf .vesselTrip ∧ SpotDone i s (becomeHead i s) := by
  have hi : (((s.touchSpot i).modSpot i (Spot.stagesHead s o more)).spot i) = (s.spot i).stagesHead s o more := modSpot_spot_same _ _ _
  have hhas : ((((s.touchSpot i).modSpot i (Spot.stagesHead s o more)).spot i).holds.has .vesselTrip) = false := by
    rw [hi]
    obtain ⟨a, ha⟩ := (s.spot i).takeStaged_eq s
    unfold Spot.stagesHead
    rw [ha]
    exact hh
  have hstate : (((s.touchSpot i).modSpot i (Spot.stagesHead s o more)).spot i).state.holdable := by
    rw [hi]
    exact .inr (.inl rfl)
  have hdone := addHold_done hhas hstate
  rw [becomeHead_staged ho hst, if_pos ht]
  exact ⟨(addHold_spot hhas hstate).trans (by rw [hi]; rfl), (spotWork_stagesHead s i o more).trans hdone.work, hdone.unwaiting,
    hdone.ungranted, hdone.flag⟩

/-! ## A WAITING head joins the grant queue -/

/-- A spot in STAGED with a WAITING head owes nothing to its valves' arrivals. -/
theorem advanceSpot_waiting {i : SpotNo} {s : State} (hst : (s.spot i).state = .staged) (hh : (s.spot i).headIs .waiting = true) :
    advanceSpot i s = s := by
  refine advanceSpot_steady i s ⟨?_, ?_, ?_, ?_, ?_, ?_, ?_⟩ (by rw [hst]; exact nofun)
  all_goals simp [hst, Spot.headIs_one hh]

theorem allSpots_filter (i : SpotNo) : (allSpots.filter fun j => decide (j = i)) = [i] := by
  revert i
  decide

theorem mem_allSpots (i : SpotNo) : i ∈ allSpots := by
  revert i
  decide

/-! ## Rounds of the arbiter -/

theorem settleFor_due {s : State} {d : Due} (h : s.due = some d) (n : Nat) : settleFor (n + 1) s = settleFor n (performDue d s) := by
  rw [settleFor, h]

theorem settleFor_none {s : State} (h : s.due = none) (n : Nat) : settleFor (n + 1) s = s := by
  rw [settleFor, h]

theorem settle_once {s : State} {a : Due} (h1 : s.due = some a) (h : (performDue a s).due = none) : settle s = performDue a s := by
  unfold settle Config.settleRounds
  rw [settleFor_due h1, settleFor_none h]

theorem settle_twice {s : State} {a b : Due} (h1 : s.due = some a) (h2 : (performDue a s).due = some b)
    (h : (performDue b (performDue a s)).due = none) : settle s = performDue b (performDue a s) := by
  unfold settle Config.settleRounds
  rw [settleFor_due h1, settleFor_due h2, settleFor_none h]

theorem settle_thrice {s : State} {a b c : Due} (h1 : s.due = some a) (h2 : (performDue a s).due = some b)
    (h3 : (performDue b (performDue a s)).due = some c) (h : (performDue c (performDue b (performDue a s))).due = none) :
    settle s = performDue c (performDue b (performDue a s)) := by
  unfold settle Config.settleRounds
  rw [settleFor_due h1, settleFor_due h2, settleFor_due h3, settleFor_none h]

section Joins

variable {w : State} {i : SpotNo} (hj : ∀ j, j ≠ i → ¬ (w.spot j).waits) (hg : w.grants = []) (hi : (w.spot i).waits)
  (hs : (w.spot i).seat = none) (hc : ∀ c, (w.comp c).state = .faulted)

include hj hs in
theorem headReady_none : allSpots.find? w.headReady = none := by
  refine List.find?_eq_none.mpr fun j _ hr => ?_
  by_cases e : j = i
  · rw [e] at hr
    unfold State.headReady at hr
    dsimp only at hr
    rw [hs] at hr
    simp at hr
  · exact hj j e (headReady_waits hr)

include hj hg hi hs in
theorem mustJoin_alone : w.mustJoin = fun j => decide (j = i) := by
  funext j
  by_cases e : j = i
  · obtain ⟨h1, h2⟩ := hi
    unfold State.mustJoin
    dsimp only
    rw [e, h1, h2, hs, hg]
    simp
  · rw [decide_eq_false e]
    exact Bool.eq_false_iff.mpr fun h => hj j e (mustJoin_waits h)

include hj hg hi hs

/-- The one WAITING head enters the grant queue first. -/
theorem due_join {h : Order} (hh : (w.spot i).head = some h) :
    w.due = some .join ∧ (joinGrants w).grants = [{ spot := i, dir := h.direction }] := by
  have hmust := mustJoin_alone hj hg hi hs
  have hone : allSpots.filter w.mustJoin = [i] := by
    rw [hmust]
    exact allSpots_filter i
  refine ⟨?_, ?_⟩
  · unfold State.due
    rw [headReady_none hj hs]
    dsimp only
    rw [if_pos]
    rw [hmust]
    exact List.any_eq_true.mpr ⟨i, mem_allSpots i, by simp⟩
  · show w.grants ++ _ = _
    rw [hg, hone]
    show [({ spot := i, dir := _ } : Grant)] = _
    rw [hh]

omit hj hg hi hs
include hc

theorem seatFor_faulted (d : Direction) : w.seatFor d = none := by
  have h1 : allComps.find? (w.hasSeat d) = none := List.find?_eq_none.mpr fun c _ h => by
    unfold State.hasSeat at h
    dsimp only at h
    rw [hc c] at h
    simp [CompState.working] at h
  have h2 : allComps.find? w.canStart = none := List.find?_eq_none.mpr fun c _ h => by
    unfold State.canStart at h
    rw [hc c] at h
    simp at h
  unfold State.seatFor
  rw [h1, h2]

theorem nextTurn_faulted : w.nextTurn = none := by
  have hno : ∀ d, allComps.filter (w.canTurn d) = [] := fun d => List.filter_eq_nil_iff.mpr fun c _ h => by
    unfold State.canTurn at h
    rw [hc c] at h
    simp [CompState.working] at h
  unfold State.nextTurn
  split
  · rfl
  · split
    · rfl
    · rw [hno]
      rfl

include hj hg hi hs

/-- With both compressors FAULTED the one WAITING head enters the grant queue, and nothing else is due. -/
theorem settle_joins {h : Order} (hh : (w.spot i).head = some h) :
    settle w = joinGrants w ∧ (joinGrants w).grants = [{ spot := i, dir := h.direction }] := by
  have hready := headReady_none hj hs
  obtain ⟨hdue, hgrants⟩ := due_join hj hg hi hs hh
  have hthen : (joinGrants w).due = none := by
    have h1 : allSpots.find? (joinGrants w).headReady = none := hready
    have h2 : allSpots.any (joinGrants w).mustJoin = false := by
      refine List.any_eq_false.mpr fun j _ e => ?_
      by_cases hji : j = i
      · rw [hji] at e
        unfold State.mustJoin at e
        rw [hgrants] at e
        simp at e
      · exact hj j hji (mustJoin_waits (s := joinGrants w) e)
    have h3 : (joinGrants w).nextGrant = none := by
      refine List.findSome?_eq_none_iff.mpr fun g _ => ?_
      rw [seatFor_faulted (w := joinGrants w) hc]
      rfl
    unfold State.due
    rw [h1, h2, h3, nextTurn_faulted (w := joinGrants w) hc]
    simp
  exact ⟨settle_once hdue hthen, hgrants⟩

end Joins

end Sys2Proof.Machine
end

section
/-! PROOFS. PLACE ORDER (R61 to R63): an order behind others, one that becomes head in HELD, and one that becomes head in
CONNECTED. -/

namespace Sys2Proof.Machine

/-! ## The order appended -/

/-- The order of a request as it is appended (R61). -/
def OrderRequest.order (r : OrderRequest) (l : Option Liquid) : Order :=
  { tag := r.tag, liquid := l, closeAfter := r.closeAfter, state := .queued, reason := none }

/-- The reservation of a LIQUID order (R92). -/
def State.reserves (s : State) (i : SpotNo) (tag : Word16) : Option Liquid → State
  | some l => (s.touchVessel l.vessel).modVessel l.vessel (Vessel.reserve i tag l.target)
  | none => s

/-- The order appended to the queue, its reservation first (R61). -/
def State.queues (s : State) (i : SpotNo) (r : OrderRequest) (l : Option Liquid) : State :=
  ((s.reserves i r.tag l).touchSpot i).modSpot i fun sp => { sp with orders := sp.orders ++ [r.order l] }

theorem placeOrder_eq (i : SpotNo) (r : OrderRequest) (l : Option Liquid) (s : State) :
    placeOrder i r l s =
      settle (advanceSpot i (if (s.spot i).orders.isEmpty then becomeHead i (s.queues i r l) else s.queues i r l)) := by
  cases l <;> rfl

section Queues

variable (s : State) (i : SpotNo) (r : OrderRequest) (l : Option Liquid)

theorem reserves_spots : (s.reserves i r.tag l).spots = s.spots := by cases l <;> rfl

theorem queues_spot : (s.queues i r l).spot i = { s.spot i with orders := (s.spot i).orders ++ [r.order l] } := by
  unfold State.queues
  rw [modSpot_spot_same]
  cases l <;> rfl

theorem spotWork_queues : SpotWork i s (s.queues i r l) := by
  have hres : SpotWork i s (s.reserves i r.tag l) := by
    cases l with
    | none => exact .refl i s
    | some l => exact (SpotWork.touchVessel i l.vessel s).trans (.reserve i r.tag l.target l.vessel _)
  exact (hres.trans (.touchSpot i i _)).trans (.mod (by intro; rfl) (by intro; rfl) _)

theorem queues_flag : (s.queues i r l).scratch.spots.getLsbD i = true := touchSpot_flag i _

theorem queues_frame : (s.queues i r l).frame = { s.frame with
    spots := s.spots.set i { s.spot i with orders := (s.spot i).orders ++ [r.order l] }
    vessels := match l with
      | some x => s.vessels.set x.vessel { s.vessel x.vessel with
          entries := (s.vessel x.vessel).entries ++ [{ spot := i, tag := r.tag, remainder := x.target }] }
      | none => s.vessels } := by cases l <;> rfl

theorem queues_scratch : (s.queues i r l).scratch.departed = s.scratch.departed ∧
    (s.queues i r l).scratch.touched = s.scratch.touched := by cases l <;> exact ⟨rfl, rfl⟩

theorem queues_arbiter : (s.queues i r l).grants = s.grants ∧ (s.queues i r l).comps = s.comps ∧ (s.queues i r l).fe = s.fe ∧
    (s.queues i r l).profile = s.profile := by cases l <;> exact ⟨rfl, rfl, rfl, rfl⟩

theorem queues_remainder {x : Liquid} (h : (s.vessel x.vessel).remainder i r.tag = none) :
    (s.queues i r (some x)).remainder i (r.order (some x)) = some x.target := by
  have hnone : (s.vessel x.vessel).entries.find? (fun e => e.spot == i && e.tag == r.tag) = none := by
    unfold Vessel.remainder at h
    exact Option.map_eq_none_iff.mp h
  have hv : (s.queues i r (some x)).vessel x.vessel = (s.vessel x.vessel).reserve i r.tag x.target := modVessel_vessel_same _ _ _
  unfold State.remainder
  show Option.map _ (((s.queues i r (some x)).vessel x.vessel).entries.find? fun e => e.spot == i && e.tag == r.tag) = _
  rw [hv]
  unfold Vessel.reserve
  rw [List.find?_append, hnone]
  simp

theorem queues_tripsOrder (o : Order) : (s.queues i r l).tripsOrder o = s.tripsOrder o := by
  unfold State.tripsOrder
  cases o.liquid with
  | none => rfl
  | some x =>
    have h : ((s.queues i r l).vessel x.vessel).store = (s.vessel x.vessel).store := (spotWork_queues s i r l).stores x.vessel
    have e := congrArg (fun v : Vessel => v.trip.active) h
    exact e

end Queues

theorem Spot.order_append {sp : Spot} {o : Order} (h : sp.hasTag o.tag = false) :
    ({ sp with orders := sp.orders ++ [o] } : Spot).order o.tag = some o := by
  have hnone : sp.orders.find? (fun p => p.tag == o.tag) = none := List.find?_eq_none.mpr fun p hp e => by
    rw [Spot.hasTag, List.any_eq_false] at h
    exact h p hp e
  unfold Spot.order
  rw [List.find?_append, hnone]
  simp

theorem Spot.position_append {sp : Spot} {o : Order} (h : sp.hasTag o.tag = false) :
    (sp.orders ++ [o]).findIdx (fun p => p.tag == o.tag) = sp.orders.length := by
  rw [Spot.hasTag, List.any_eq_false] at h
  have hlen := List.findIdx_eq_length_of_false (p := fun p : Order => p.tag == o.tag) (xs := sp.orders) fun p hp => by
    simpa using h p hp
  rw [List.findIdx_append, hlen, if_neg (Nat.lt_irrefl _)]
  simp

/-! ## The answer -/

/-- PLACE ORDER after its checks (R57 to R60). -/
theorem answer_placeOrder {s v : State} {via : Via} {place : Byte} {i : SpotNo} {tag : Word16} {kind : Byte} {target : Option Word32}
    {vessel : Option Byte} {closeAfter : Byte} {r : OrderRequest} {l : Option Liquid} (hn : s.namedSpot place = .ok i)
    (h1 : s.siding = .operating) (h2 : (s.spot i).state.takesOrders = true) (h3 : (s.spot i).orders.length < 4)
    (h4 : (s.spot i).hasTag tag = false) (hr : orderRequestOf tag kind target vessel closeAfter = some r)
    (hl : match r.liquid with
      | none => l = none
      | some lr => ∃ c v, s.boundCar i = some c ∧ s.judgeLiquid c lr = .ok v ∧
          l = some { target := lr.target, vessel := v, delivered := 0 }) (hv : v.frame = s.frame) :
    answer (.placeOrder via place tag kind target vessel closeAfter) v = placedReply i r l (placeOrder i r l v) := by
  have hname := (namedSpot_of_frame hv place).trans hn
  have hsiding := (siding_of_frame hv).trans h1
  rw [← spot_of_frame hv] at h2 h3 h4
  show answerPlaceOrder place tag kind target vessel closeAfter v = _
  cases hlr : r.liquid with
  | none =>
    rw [hlr] at hl
    rw [answerPlaceOrder_recovery hname hsiding h2 h3 h4 hr hlr, show l = none from hl]
  | some lr =>
    rw [hlr] at hl
    obtain ⟨c, w, hb, hj, hl⟩ := hl
    rw [answerPlaceOrder_liquid hname hsiding h2 h3 h4 hr hlr ((boundCar_of_frame hv i).trans hb)
      ((judgeLiquid_of_frame hv c lr).trans hj), hl]

theorem placedReply_found {i : SpotNo} {r : OrderRequest} {l : Option Liquid} {t : State} {o : Order}
    (h : (t.spot i).order r.tag = some o) : placedReply i r l t = (t, .ok ([Layout.orderState o.state]
      ++ nat8 ((t.spot i).orders.findIdx (fun p => p.tag == r.tag) + 1)
      ++ Layout.optional (fun l : Liquid => [Layout.byteOf l.vessel.val]) l ++ Layout.optional nat32 (t.remainder i o))) := by
  unfold placedReply
  rw [h]

/-- The reply to an order that stands in its queue is DONE. -/
theorem placedReply_done {i : SpotNo} {r : OrderRequest} {l : Option Liquid} {t : State} {o : Order}
    (h : (t.spot i).order r.tag = some o) :
    placedReply i r l t = (t, { status := .done, body := (placedReply i r l t).2.body }) := by
  rw [placedReply_found h]
  rfl

/-- The vessel and the remainder of an order that has its whole reservation, as optional fields (R61). -/
def placedVessel : Option Liquid → List Byte
  | some x => [1, Layout.byteOf x.vessel.val, 1] ++ nat32 x.target
  | none => [0, 0]

section Placed

variable {s : State} {i : SpotNo} {c : Instr} {r : OrderRequest} {l : Option Liquid}
  (ht : s.canTake (route c) = true) (hw : writingCode (code c) = true)
  (ha : ∀ v, v.frame = s.frame → answer c v = placedReply i r l (placeOrder i r l v))

include ht hw ha

/-- An order behind others: it is appended, and nothing else moves. -/
theorem place_behind (htag : (s.spot i).hasTag r.tag = false) (hns : (s.spot i).state ≠ .stroking) (hq : (s.spot i).orders ≠ [])
    (hs : (s.spot i).steady) (hd : s.due = none) (hrem : ∀ x, l = some x → (s.vessel x.vessel).remainder i r.tag = none) :
    ∃ t, s.answers c .done
        ([0, BitVec.ofNat 8 ((s.spot i).orders.length + 1)] ++ placedVessel l) t ∧
      t.frame = (s.queues i r l).frame ∧ t.changes.spots.getLsbD i = true := by
  have hstands : ∀ v : State, v.frame = s.frame → placeOrder i r l v = v.queues i r l := fun v hv => by
    have hempty : (v.spot i).orders.isEmpty = false := by
      rw [spot_of_frame hv]
      simpa using hq
    have hwork := spotWork_queues v i r l
    obtain ⟨hg, hc, hf, hp⟩ := queues_arbiter v i r l
    obtain ⟨h1, h2⟩ := requeued_stands (s := s) (w := v.queues i r l) (i := i) (q := (s.spot i).orders ++ [r.order l])
      (by rw [queues_spot, spot_of_frame hv]) (by rw [List.head?_append_of_ne_nil _ hq]) hs hns hd
      (fun j hj => (hwork.others j hj).trans (spot_of_frame hv j)) (hg.trans (grants_of_frame hv))
      (hc.trans (comps_of_frame hv)) (hf.trans (fe_of_frame hv)) (hp.trans (congrArg Frame.profile hv))
    rw [placeOrder_eq, hempty, if_neg Bool.false_ne_true, h1, h2]
  obtain ⟨v, t, hv, hans, hframe, hch, -⟩ := answers_event (s := s) (st := .done)
      (b := [0, BitVec.ofNat 8 ((s.spot i).orders.length + 1)] ++ placedVessel l) (f := fun v => v.queues i r l) ht hw fun v hv => by
    have horder : ((v.queues i r l).spot i).order r.tag = some (r.order l) := by
      rw [queues_spot, spot_of_frame hv]
      exact Spot.order_append (o := r.order l) htag
    have hpos : ((v.queues i r l).spot i).orders.findIdx (fun p => p.tag == r.tag) = (s.spot i).orders.length := by
      rw [queues_spot, spot_of_frame hv]
      exact Spot.position_append (o := r.order l) htag
    have hbody : Layout.optional (fun l : Liquid => [Layout.byteOf l.vessel.val]) l ++
        Layout.optional nat32 ((v.queues i r l).remainder i (r.order l)) = placedVessel l := by
      cases l with
      | none => rfl
      | some x =>
        rw [queues_remainder v i r (by rw [vessel_of_frame hv]; exact hrem x rfl)]
        rfl
    rw [ha v hv, hstands v hv, placedReply_found horder, hpos, List.append_assoc, hbody]
    rfl
  refine ⟨t, hans, ?_, ?_⟩
  · obtain ⟨hdep, htouch⟩ := queues_scratch v i r l
    rw [hframe, closeEvent_frame_quiet v _ (hdep.trans (congrArg Scratch.departed hv.scratch))
      (htouch.trans (congrArg Scratch.touched hv.scratch)), queues_frame, queues_frame, hv.frame, spot_of_frame hv.frame]
    have h1 : v.spots = s.spots := congrArg Frame.spots hv.frame
    have h2 : v.vessels = s.vessels := congrArg Frame.vessels hv.frame
    simp only [vessel_of_frame hv.frame, h1, h2]
  · rw [hch]
    exact spotFlag_of_touched (queues_flag v i r l)

/-- A spot whose state and queue an order at its head has changed, whatever else the arbiter gives it. -/
theorem place_answers {o : Order} (htag : o.tag = r.tag)
    (hdone : ∀ v, v.frame = s.frame → ((placeOrder i r l v).spot i).orders = [o]) :
    ∃ v t b, Found s v (route c) ∧ s.answers c .done b t ∧ t.frame = (closeEvent v (placeOrder i r l v)).frame ∧
      t.changes = (closeEvent v (placeOrder i r l v)).changes := by
  obtain ⟨v, t, hv, hans, hframe, hch, -⟩ := answers_eventOf (s := s) (st := .done)
    (b := fun v => (placedReply i r l (placeOrder i r l v)).2.body) (f := placeOrder i r l) ht hw fun v hv => by
      rw [ha v hv]
      refine placedReply_done (o := o) ?_
      unfold Spot.order
      rw [hdone v hv]
      exact List.find?_cons_of_pos (p := fun p : Order => p.tag == r.tag) (by rw [htag]; exact beq_self_eq_true _)
  exact ⟨v, t, _, hv, hans, hframe, hch⟩

end Placed

section Heads

variable {s : State} {i : SpotNo} (r : OrderRequest) (l : Option Liquid) (hq : (s.spot i).orders = [])

include hq

theorem queues_headed {v : State} (hv : v.frame = s.frame) :
    ((v.queues i r l).spot i).orders = [r.order l] ∧ (v.queues i r l).tripsOrder (r.order l) = s.tripsOrder (r.order l) ∧
      placeOrder i r l v = settle (advanceSpot i (becomeHead i (v.queues i r l))) := by
  have hnil : (v.spot i).orders = [] := by rw [spot_of_frame hv, hq]
  refine ⟨?_, ?_, ?_⟩
  · rw [queues_spot, hnil]
    rfl
  · rw [queues_tripsOrder]
    unfold State.tripsOrder
    cases (r.order l).liquid with
    | none => rfl
    | some x =>
      dsimp only
      rw [vessel_of_frame hv]
  · rw [placeOrder_eq, hnil]
    rfl

/-- An order placed at a HELD spot without orders is its SUSPENDED head. -/
theorem place_held (hst : (s.spot i).state = .held) {v : State} (hv : v.frame = s.frame) :
    ∃ u a, placeOrder i r l v = settle u ∧ SpotWork i v u ∧ u.scratch.spots.getLsbD i = true ∧ ¬ (u.spot i).waits ∧
      u.spot i = { s.spot i with
        active := a, activeVersion := if s.setpointHold then (s.spot i).activeVersion else s.stagedVersion
        orders := [{ r.order l with state := .suspended }]
        holds := { (s.spot i).holds with vesselTrip := s.tripsOrder (r.order l) } } := by
  obtain ⟨ho, htrip, hplace⟩ := queues_headed r l hq hv
  obtain ⟨w, hwd⟩ : ∃ w, w = v.queues i r l := ⟨_, rfl⟩
  rw [← hwd] at ho htrip hplace
  have hwi : w.spot i = { s.spot i with orders := [r.order l] } := by rw [hwd, queues_spot, spot_of_frame hv, hq]; rfl
  have hwst : (w.spot i).state = .held := by rw [hwi]; exact hst
  have hfix : w.stagedVersion = s.stagedVersion ∧ w.setpointHold = s.setpointHold := by
    have hk := (spotWork_queues v i r l).kept.fixed
    rw [← hwd] at hk
    exact ⟨(congrArg Fixed.stagedVersion hk).trans (congrArg Frame.stagedVersion hv),
      (congrArg Fixed.setpointHold hk).trans (congrArg Frame.setpointHold hv)⟩
  obtain ⟨a, ha⟩ := (w.spot i).takeStaged_eq w
  have hui : ((w.touchSpot i).modSpot i (Spot.suspendsHead w (r.order l) [])).spot i = { s.spot i with
        active := a, activeVersion := if s.setpointHold then (s.spot i).activeVersion else s.stagedVersion
        orders := [{ r.order l with state := .suspended }]
        holds := { (s.spot i).holds with vesselTrip := s.tripsOrder (r.order l) } } := by
    rw [modSpot_spot_same]
    show (w.spot i).suspendsHead w (r.order l) [] = _
    unfold Spot.suspendsHead
    rw [ha, hwi, htrip, hfix.1, hfix.2]
  refine ⟨(w.touchSpot i).modSpot i (Spot.suspendsHead w (r.order l) []), a, ?_, ?_, touchSpot_flag i w, ?_, hui⟩
  · rw [hplace, becomeHead_held ho hwst, advanceSpot_held]
    · rw [hui]
      exact hst
    · rw [hui]
      rintro ⟨h, -⟩
      cases h
  · have hwork := spotWork_queues v i r l
    rw [← hwd] at hwork
    exact (hwork.trans (.touchSpot i i w)).trans
      (.mod (f := Spot.suspendsHead w (r.order l) []) (fun sp => sp.takeStaged_car w) (fun sp => sp.takeStaged_seat w) _)
  · refine Spot.not_waits ?_
    rw [hui]
    show (s.spot i).state ≠ _
    rw [hst]
    exact nofun

variable (hst : (s.spot i).state = .connected)

include hst

/-- An order for a vessel that is not tripped, placed at a CONNECTED spot without orders, is its WAITING head. -/
theorem place_staged (htrip : s.tripsOrder (r.order l) = false) {v : State} (hv : v.frame = s.frame) :
    ∃ u, placeOrder i r l v = settle u ∧ SpotWork i v u ∧ u.scratch.spots.getLsbD i = true ∧ u.grants = v.grants ∧
      u.comps = v.comps ∧ ∃ a n, u.spot i = { s.spot i with
        active := a, activeVersion := n, orders := [{ r.order l with state := .waiting }], state := .staged } := by
  obtain ⟨ho, ht, hplace⟩ := queues_headed r l hq hv
  obtain ⟨hgrants, hcomps, -, -⟩ := queues_arbiter v i r l
  have hwork := spotWork_queues v i r l
  have hwi := queues_spot v i r l
  obtain ⟨w, hwd⟩ : ∃ w, w = v.queues i r l := ⟨_, rfl⟩
  rw [← hwd] at ho ht hplace hgrants hcomps hwork hwi
  rw [spot_of_frame hv, hq] at hwi
  obtain ⟨a, ha⟩ := (w.spot i).takeStaged_eq w
  have hui : ((w.touchSpot i).modSpot i (Spot.stagesHead w (r.order l) [])).spot i = (w.spot i).stagesHead w (r.order l) [] :=
    modSpot_spot_same _ _ _
  refine ⟨(w.touchSpot i).modSpot i (Spot.stagesHead w (r.order l) []), ?_, hwork.trans (spotWork_stagesHead w i _ _),
    touchSpot_flag i w, hgrants, hcomps, a, if w.setpointHold then (w.spot i).activeVersion else w.stagedVersion, ?_⟩
  · rw [hplace, becomeHead_staged ho (by rw [hwi]; show (s.spot i).state ≠ _; rw [hst]; exact nofun), ht, htrip,
      if_neg Bool.false_ne_true, advanceSpot_waiting] <;> rw [hui] <;> rfl
  · rw [hui]
    unfold Spot.stagesHead
    rw [ha, hwi]

/-- An order for a tripped vessel, placed at a CONNECTED spot without orders and without holds, is held at once. -/
theorem place_tripped (htrip : s.tripsOrder (r.order l) = true) (hh : (s.spot i).holds = .empty) {v : State} (hv : v.frame = s.frame) :
    ∃ u, placeOrder i r l v = settle u ∧ SpotDone i v u ∧ (u.spot i).state = .held ∧
      (u.spot i).orders = [{ r.order l with state := .suspended }] ∧ (u.spot i).holds.vesselTrip = true := by
  obtain ⟨ho, ht, hplace⟩ := queues_headed r l hq hv
  have hwork := spotWork_queues v i r l
  have hwi := queues_spot v i r l
  obtain ⟨w, hwd⟩ : ∃ w, w = v.queues i r l := ⟨_, rfl⟩
  rw [← hwd] at ho ht hplace hwork hwi
  rw [spot_of_frame hv, hq] at hwi
  obtain ⟨a, ha⟩ := (w.spot i).takeStaged_eq w
  obtain ⟨hspot, hdone⟩ := becomeHead_tripped ho (by rw [hwi]; show (s.spot i).state ≠ _; rw [hst]; exact nofun)
    (ht.trans htrip) (by rw [hwi]; show (s.spot i).holds.vesselTrip = _; rw [hh]; rfl)
  have horders : ((becomeHead i w).spot i).orders = [{ r.order l with state := .suspended }] := by
    rw [hspot, Spot.held_orders]
    rfl
  refine ⟨becomeHead i w, ?_, ⟨hwork.trans hdone.work, hdone.unwaiting, hdone.ungranted, hdone.flag⟩, ?_, horders, ?_⟩
  · rw [hplace, advanceSpot_held]
    · rw [hspot]
      rfl
    · rintro ⟨h, -⟩
      unfold Spot.headIs Spot.head at h
      rw [horders] at h
      cases h
  · rw [hspot]
    rfl
  · rw [hspot]
    rfl

end Heads

/-- Settles O34: the order appended behind others; the head of a HELD spot; and the head of a CONNECTED one, which waits or is held. -/
theorem placeOrderJoinsTheQueue : Obligations.PlaceOrderJoinsTheQueue := by
  intro s via place i tag kind target vessel closeAfter r l ht hn h1 h2 h3 h4 hr hl
  have hrtag : r.tag = tag := orderRequestOf_tag hr
  have ha := fun v hv => answer_placeOrder (v := v) (via := via) hn h1 h2 h3 h4 hr hl hv
  have hreply := @place_answers s i (.placeOrder via place tag kind target vessel closeAfter) r l ht rfl ha
  subst hrtag
  refine ⟨fun hq hs hd hrem => ?_, fun hq hst => ?_, fun hq hst hh hw hseat hf => ?_⟩
  · have hns : (s.spot i).state ≠ .stroking := fun e => by
      rw [e] at h2
      cases h2
    obtain ⟨t, hans, hframe, hflag⟩ := place_behind (c := .placeOrder via place r.tag kind target vessel closeAfter) ht rfl ha h4 hns hq
      hs hd hrem
    rw [queues_frame] at hframe
    refine ⟨t, ?_, ?_, hflag⟩ <;> cases l <;> assumption
  · obtain ⟨v, t, b, hv, hans, hframe, hch⟩ := hreply (o := { r.order l with state := .suspended }) rfl fun v hv => by
      obtain ⟨u, a, hu, -, -, hno, hui⟩ := place_held r l hq hst hv
      obtain ⟨x, hx⟩ := settle_spot u i hno
      rw [hu, hx, hui]
    obtain ⟨u, a, hu, hwork, hflag, hno, hui⟩ := place_held r l hq hst hv.frame
    obtain ⟨x, hx⟩ := settle_spot u i hno
    rw [hu] at hframe hch
    have hti : t.spot i = { u.spot i with seat := x } := by
      rw [spot_of_frame hframe, ← hx]
      exact closeEvent_spot v _ i
    refine ⟨t, .done, b, hans, rfl, ?_, ?_, ?_, ?_, fun y _ => ?_, ?_, (hwork.kept.trans (kept_settle u)).sameStore hv.frame hframe⟩
    · rw [hti, hui]
      exact hst
    · rw [hti, hui]
      rfl
    · rw [hti, hui]
      cases l <;> rfl
    · rw [hti, hui]
    · have hg : ((settle u).vessel y.vessel).store = (u.vessel y.vessel).store :=
        congrFun (congrArg Ground.stores (ground_settle u)) y.vessel
      have ht : t.vessel y.vessel = (settle u).vessel y.vessel := by
        rw [vessel_of_frame hframe]
        exact closeEvent_vessel v _ _
      rw [ht, ← vessel_of_frame hv.frame]
      exact hg.trans (hwork.stores y.vessel)
    · rw [hch]
      exact spotFlag_of_touched ((kept_settle u).spots i hflag)
  · cases htrip : s.tripsOrder (r.order l) with
    | false =>
      have joined : ∀ v : State, v.frame = s.frame → ∃ u, placeOrder i r l v = joinGrants u ∧ SpotWork i v u ∧
          u.scratch.spots.getLsbD i = true ∧ (u.spot i).state = .staged ∧ (u.spot i).orders = [{ r.order l with state := .waiting }] ∧
          (joinGrants u).grants = [{ spot := i, dir := (r.order l).direction }] := fun v hv => by
        obtain ⟨u, hu, hwork, hflag, hgrants, hcomps, a, n, hui⟩ := place_staged r l hq hst htrip hv
        have hstate : (u.spot i).state = .staged := by rw [hui]
        have horders : (u.spot i).orders = [{ r.order l with state := .waiting }] := by rw [hui]
        have hseat' : (u.spot i).seat = (s.spot i).seat := by rw [hui]
        have hhead : (u.spot i).head = some { r.order l with state := .waiting } := by
          unfold Spot.head
          rw [horders]
          rfl
        obtain ⟨hjoin, hone⟩ := settle_joins (w := u) (i := i)
          (fun j hj => by rw [hwork.others j hj, spot_of_frame hv]; exact hw.1 j) (hgrants.trans ((grants_of_frame hv).trans hw.2))
          ⟨hstate, by unfold Spot.headIs; rw [hhead]; rfl⟩ (hseat'.trans hseat)
          (fun c => by unfold State.comp; rw [hcomps, comps_of_frame hv]; exact hf c) hhead
        exact ⟨u, hu.trans hjoin, hwork, hflag, hstate, horders, hone⟩
      obtain ⟨v, t, b, hv, hans, hframe, hch⟩ := hreply (o := { r.order l with state := .waiting }) rfl fun v hv => by
        obtain ⟨u, hu, -, -, -, horders, -⟩ := joined v hv
        rw [hu]
        exact horders
      obtain ⟨u, hu, hwork, hflag, hstate, horders, hone⟩ := joined v hv.frame
      rw [hu] at hframe hch
      have hti : t.spot i = u.spot i := by
        rw [spot_of_frame hframe]
        exact closeEvent_spot v _ i
      have htg : t.grants = (joinGrants u).grants := by
        rw [grants_of_frame hframe]
        exact closeEvent_grants v _
      refine ⟨t, .done, b, hans, rfl, ?_, ?_, ?_, (hwork.kept.trans (kept_joinGrants u)).sameStore hv.frame hframe⟩
      · rw [if_neg (Bool.eq_false_iff.mp (by cases l <;> exact htrip))]
        refine ⟨by rw [hti]; exact hstate, ?_, ?_⟩
        · unfold Spot.headIs Spot.head
          rw [hti, horders]
          rfl
        · rw [htg, hone]
          cases l <;> rfl
      · rw [hti, horders]
        rfl
      · rw [hch]
        exact spotFlag_of_touched ((kept_joinGrants u).spots i hflag)
    | true =>
      obtain ⟨v, t, b, hv, hans, hframe, hch⟩ := hreply (o := { r.order l with state := .suspended }) rfl fun v hv => by
        obtain ⟨u, hu, hdone, -, horders, -⟩ := place_tripped r l hq hst htrip hh hv
        rw [hu, hdone.settled]
        exact horders
      obtain ⟨u, hu, hdone, hstate, horders, hheld⟩ := place_tripped r l hq hst htrip hh hv.frame
      rw [hu] at hframe hch
      obtain ⟨hti, hflag, hstore, honly⟩ := hdone.event hv.frame hv.scratch hframe hch
      obtain ⟨-, -, -, -, -, hgr⟩ := honly ⟨fun j _ => hw.1 j, by rw [hw.2]; exact nofun⟩
      refine ⟨t, .done, b, hans, rfl, ?_, ?_, hflag, hstore⟩
      · rw [if_pos (by cases l <;> exact htrip)]
        refine ⟨by rw [hti]; exact hstate, ?_, by rw [hti]; exact hheld, ?_⟩
        · unfold Spot.headIs Spot.head
          rw [hti, horders]
          rfl
        · refine List.eq_nil_iff_forall_not_mem.mpr fun g hg => ?_
          have := hgr g hg
          rw [hw.2] at this
          cases this
      · rw [hti, horders]
        rfl

end Sys2Proof.Machine
end

section
/-! PROOFS. The arrivals of an order's valves (R40, R69, R71, R72, R113): a drained head out of its queue and what follows it, a
RUNNING head whose liquid valve has opened, and a resuming head. -/

namespace Sys2Proof.Machine

/-! ## The arrivals of one event, twice -/

/-- Once the drained head is gone, the arrivals of the event go on as from the records it has left. -/
theorem advanceSpot_again {i : SpotNo} {s u : State} (hu : onDrained i (onLiquidOpen i (onShutoffOpen i s)) = u)
    (h1 : (u.spot i).state ≠ .proving) (h2 : (u.spot i).state ≠ .transfer)
    (h3 : ¬ ((u.spot i).headIs .draining = true ∧ (u.spot i).liquid.isShut = true)) : advanceSpot i s = advanceSpot i u := by
  have hagain : onDrained i (onLiquidOpen i (onShutoffOpen i u)) = u := by
    rw [onShutoffOpen_off h1, onLiquidOpen_off h2, onDrained_off h3]
  unfold advanceSpot
  rw [hu, hagain]

/-! ## The entries of a spot whose head does not wait -/

theorem vessels_clearTurning (i : SpotNo) (c : CompNo) (s : State) : (clearTurning i c s).vessels = s.vessels := by
  unfold clearTurning
  split <;> rfl

theorem vessels_dropGrant (i : SpotNo) (s : State) : (dropGrant i s).vessels = s.vessels := by
  unfold dropGrant
  refine (foldl_keeps State.vessels _ (fun s c => vessels_clearTurning i c s) _ _).trans ?_
  dsimp only
  split <;> rfl

theorem vessels_grantSeat (c : CompNo) (g : Grant) (s : State) : (grantSeat c g s).vessels = s.vessels := by
  have hdrop := vessels_dropGrant g.spot ((((s.touchSpot g.spot).touchComp c).modSpot g.spot fun sp =>
    { sp with seat := some c }).modComp c fun k => { k with seated := insertSpot g.spot k.seated })
  unfold grantSeat
  dsimp only
  split
  · exact (compWork_startComp c _ g.dir).vessels.trans hdrop
  all_goals exact hdrop

theorem vessels_markTurning (i : SpotNo) (c : CompNo) (s : State) : (markTurning i c s).vessels = s.vessels :=
  (compWork_compOnEmpty c _).vessels

theorem vessel_of_vessels {s t : State} (h : t.vessels = s.vessels) (v : VesselNo) : t.vessel v = s.vessel v :=
  congrArg (fun x : Vector Vessel 6 => x[v]) h

theorem performDue_entries {s : State} {d : Due} (hd : s.due = some d) {i : SpotNo} (hi : ¬ (s.spot i).waits) (v : VesselNo)
    {e : Entry} (he : e ∈ ((performDue d s).vessel v).entries) (hs : e.spot = i) : e ∈ (s.vessel v).entries := by
  cases d with
  | run j =>
    have hne : i ≠ j := fun hij => hi (hij ▸ due_run hd)
    have hm : e ∈ ((runHead j s).vessel v).entries.filter (·.spot ≠ j) :=
      List.mem_filter.mpr ⟨he, decide_eq_true (by rw [hs]; exact hne)⟩
    rw [(spotWork_runHead j s).entries v] at hm
    exact List.mem_of_mem_filter hm
  | join => exact he
  | seat g c =>
    rw [← vessel_of_vessels (vessels_grantSeat c g s)]
    exact he
  | turn j c =>
    rw [← vessel_of_vessels (vessels_markTurning j c s)]
    exact he

/-- The arbiter gives a spot whose head does not wait no reservation. -/
theorem settle_entries {s : State} {i : SpotNo} (hi : ¬ (s.spot i).waits) (v : VesselNo) {e : Entry}
    (he : e ∈ ((settle s).vessel v).entries) (hs : e.spot = i) : e ∈ (s.vessel v).entries := by
  suffices h : ∀ n (s : State), ¬ (s.spot i).waits → e ∈ ((settleFor n s).vessel v).entries → e ∈ (s.vessel v).entries from h _ s hi he
  intro n
  induction n with
  | zero => exact fun _ _ he => he
  | succ n ih =>
    intro s hi he
    unfold settleFor at he
    split at he
    · exact he
    next d hd =>
      obtain ⟨x, hx⟩ := performDue_spot hd i hi
      exact performDue_entries hd hi v (ih _ (by rw [hx]; exact hi) he) hs

theorem Vessel.remainder_none {r : Vessel} {i : SpotNo} {tag : Word16} :
    r.remainder i tag = none ↔ ∀ e ∈ r.entries, e.names i tag = false := by
  unfold Vessel.remainder
  rw [Option.map_eq_none_iff, List.find?_eq_none]
  simp only [Bool.not_eq_true]

theorem settle_remainder {s : State} {i : SpotNo} (hi : ¬ (s.spot i).waits) {v : VesselNo} {tag : Word16}
    (h : (s.vessel v).remainder i tag = none) : ((settle s).vessel v).remainder i tag = none := by
  refine Vessel.remainder_none.mpr fun e he => ?_
  by_cases hs : e.spot = i
  · exact Vessel.remainder_none.mp h e (settle_entries hi v he hs)
  · exact Bool.eq_false_iff.mpr fun hn => hs (Entry.names_spot hn)

/-! ## A FAULTED compressor stays FAULTED while a spot leaves it -/

theorem compOnEmpty_faulted {c : CompNo} {s : State} (h : (s.comp c).state = .faulted) : compOnEmpty c s = s := by
  unfold compOnEmpty
  dsimp only
  rw [h]
  split
  · split <;> rfl
  · rfl

theorem leaveCompressors_faulted {c : CompNo} {s : State} (i : SpotNo) (h : (s.comp c).state = .faulted) :
    ((leaveCompressors i s).comp c).state = .faulted := by
  have hrelease : ((releaseSeat i s).comp c).state = .faulted := by
    cases hs : (s.spot i).seat with
    | none => rwa [releaseSeat_unseated hs]
    | some d =>
      have hun : ((unseat i d s).comp c).state = .faulted := by
        rw [unseat_comp]
        split <;> exact h
      rw [releaseSeat_seated hs]
      by_cases e : c = d
      · rw [← e] at hun ⊢
        rwa [compOnEmpty_faulted hun]
      · rwa [(compWork_compOnEmpty d _).others c e]
  have hclear : ∀ (u : State) (d : CompNo), ((clearTurning i d u).comp c).state = (u.comp c).state := fun u d => by
    unfold clearTurning
    split
    · rw [modComp_comp]
      split <;> rfl
    · rfl
  unfold leaveCompressors dropGrant
  refine (foldl_keeps (fun u : State => (u.comp c).state) _ hclear _ _).trans ?_
  split <;> exact hrelease

/-! ## A drained head -/

/-- A spot that has lost its drained head (R69, R71). -/
def Spot.losesHead (stroke : Timer) (rest : List Order) (sp : Spot) : Spot :=
  { sp with vapour := sp.vapour.toldShut stroke, seat := none, orders := rest }

/-- What the departure of the drained head `h` leaves: its spot off the compressors, its reservation gone, its record kept for the
car. -/
structure HeadLost (i : SpotNo) (h : Order) (rest : List Order) (v d : State) : Prop where
  work : SpotWork i v d
  spot : d.spot i = (v.spot i).losesHead (v.strokeOf .vapour) rest
  ungranted : ∀ g ∈ d.grants, g.spot ≠ i
  flag : d.scratch.spots.getLsbD i = true
  ledger : d.ledger = { v.ledger with departed := v.ledger.departed ++ [{ spot := i, order := h }] }
  faulted : ∀ c, (v.comp c).state = .faulted → (d.comp c).state = .faulted
  entry : ∀ l, h.liquid = some l → (d.vessel l.vessel).remainder i h.tag = none ∧ d.scratch.vessels.getLsbD l.vessel = true

theorem Vessel.unreserve_remainder (i : SpotNo) (tag : Word16) (r : Vessel) : (r.unreserve i tag).remainder i tag = none := by
  refine Vessel.remainder_none.mpr fun e he => ?_
  have h := List.of_mem_filter he
  simpa using h

theorem depart_entry {i : SpotNo} {o : Order} {l : Liquid} (hl : o.liquid = some l) (s : State) :
    ((depart i o s).vessel l.vessel).remainder i o.tag = none ∧ (depart i o s).scratch.vessels.getLsbD l.vessel = true := by
  unfold depart
  dsimp only
  rw [hl]
  refine ⟨?_, touchVessel_flag l.vessel _⟩
  show (State.vessel (State.modVessel l.vessel _ _) l.vessel).remainder i o.tag = none
  rw [modVessel_vessel_same]
  exact Vessel.unreserve_remainder i o.tag _

theorem filter_tail {h : Order} {rest : List Order} (hq : ((h :: rest).map Order.tag).Nodup) :
    ((h :: rest).filter fun p => p.tag ≠ h.tag) = rest := by
  obtain ⟨hnot, -⟩ := List.nodup_cons.mp (by rwa [List.map_cons] at hq)
  rw [List.filter_cons_of_neg (by simp), List.filter_eq_self]
  exact fun p hp => decide_eq_true fun e => hnot (e ▸ List.mem_map_of_mem hp)

section Drained

variable {i : SpotNo} {v : State} {h : Order} {rest : List Order} {r : EndReason} (ho : (v.spot i).orders = h :: rest)
  (hq : ((v.spot i).orders.map Order.tag).Nodup) (hd : h.state = .draining) (hr : h.reason = some r)
  (hshut : (v.spot i).liquid.isShut = true)

include ho hq

theorem headLost : HeadLost i h rest v (depart i h (leaveCompressors i (commandSpot i .vapour .toShut v))) := by
  have hleave := spotWork_leaveCompressors i (commandSpot i .vapour .toShut v)
  have hcommand := spotWork_commandSpot i v .vapour .toShut
  have hdepart := spotWork_depart i (leaveCompressors i (commandSpot i .vapour .toShut v)) h
  refine ⟨(hcommand.trans hleave).trans hdepart, ?_, fun g hg => ?_, depart_flag i h _, ?_, fun c hc => ?_,
    fun l hl => depart_entry hl _⟩
  · rw [depart_spot, leaveCompressors_unseats, commandSpot_toShut, modSpot_spot_same]
    unfold Spot.losesHead
    dsimp only
    rw [Spot.setValve_orders, ho, filter_tail (ho ▸ hq)]
    rfl
  · exact leaveCompressors_ungrants i _ g (hdepart.grants g hg)
  · have hl : (leaveCompressors i (commandSpot i .vapour .toShut v)).ledger = v.ledger := by
      rw [ledger_leaveCompressors, ledger_commandSpot]
    have hdep := congrArg Ledger.departed hl
    rw [ledger_depart, hl, ← hdep]
    rfl
  · have hcomps : (depart i h (leaveCompressors i (commandSpot i .vapour .toShut v))).comps =
        (leaveCompressors i (commandSpot i .vapour .toShut v)).comps := congrArg Frame.comps (depart_frame i h _)
    unfold State.comp at hc ⊢
    rw [hcomps]
    exact leaveCompressors_faulted (s := commandSpot i .vapour .toShut v) i hc

omit hq in
include hd hr hshut in
theorem onDrained_gone (h1 : (v.spot i).state ≠ .proving) :
    onDrained i (onLiquidOpen i (onShutoffOpen i v)) =
      headGone i (h.closeAfter && r.natural) (depart i h (leaveCompressors i (commandSpot i .vapour .toShut v))) := by
  have hhead : (v.spot i).head = some h := by
    unfold Spot.head
    rw [ho]
    rfl
  rw [onShutoffOpen_off h1, onLiquidOpen_headed (Spot.headIs_one (Spot.headIs_of_head hhead hd) nofun)]
  unfold onDrained
  rw [hhead]
  dsimp only
  rw [if_pos ⟨hd, hshut⟩, hr]
  rfl

end Drained

end Sys2Proof.Machine
end

section
/-! PROOFS. The arrivals of an order's valves as events (R40, R69 to R72, R113). -/

namespace Sys2Proof.Machine

/-! ## The table of R72 -/

section Next

variable {i : SpotNo} {d : State}

theorem nextHead_transfer_nil (hst : (d.spot i).state = .transfer) (ho : (d.spot i).orders = []) :
    nextHead i d = d.modSpot i fun sp => { sp.stopMeter with state := .connected, pulses := 0 } := by
  unfold nextHead
  dsimp only
  rw [hst]
  dsimp only
  rw [ho, List.isEmpty_nil, if_pos rfl, modSpot_modSpot]

theorem nextHead_transfer_cons (hst : (d.spot i).state = .transfer) {o : Order} {more : List Order}
    (ho : (d.spot i).orders = o :: more) : nextHead i d = becomeHead i (d.modSpot i Spot.stopMeter) := by
  unfold nextHead
  dsimp only
  rw [hst]
  dsimp only
  rw [ho, List.isEmpty_cons, if_neg Bool.false_ne_true]

theorem nextHead_held_nil (hst : (d.spot i).state = .held) (ho : (d.spot i).orders = []) :
    nextHead i d = removeHold i .vesselTrip d := by
  unfold nextHead
  dsimp only
  rw [hst]
  dsimp only
  rw [ho, List.isEmpty_nil, if_pos rfl]

theorem nextHead_held_cons (hst : (d.spot i).state = .held) {o : Order} {more : List Order}
    (ho : (d.spot i).orders = o :: more) : nextHead i d = becomeHead i d := by
  unfold nextHead
  dsimp only
  rw [hst]
  dsimp only
  rw [ho, List.isEmpty_cons, if_neg Bool.false_ne_true]

theorem nextHead_isolating (hst : (d.spot i).state = .isolating) : nextHead i d = d := by
  unfold nextHead
  dsimp only
  rw [hst]

theorem headGone_stays {closes : Bool} (h : closes = false) : headGone i closes d = nextHead i d := by
  unfold headGone
  rw [h]
  rfl

theorem headGone_closes (h : (d.spot i).state ≠ .isolating) : headGone i true d = enterIsolating .stopped .stopped none i d := by
  unfold headGone
  rw [if_pos]
  simpa using h

theorem headGone_isolating {closes : Bool} (h : (d.spot i).state = .isolating) : headGone i closes d = d := by
  unfold headGone
  rw [if_neg (by simp [h]), nextHead_isolating h]

end Next

/-! ## ISOLATING without orders -/

/-- A spot whose isolation still closes its lines stays in ISOLATING through one event's arrivals. -/
theorem advanceSpot_closing {i : SpotNo} {s : State} (hst : (s.spot i).state = .isolating) (ho : (s.spot i).orders = [])
    (hp : (s.spot i).step ≠ some .ventClosing) :
    ((advanceSpot i s).spot i).state = .isolating ∧ ((advanceSpot i s).spot i).orders = [] := by
  rw [advanceSpot_isolating hst ho]
  have lines : ((onLinesShut i s).spot i).state = .isolating ∧ ((onLinesShut i s).spot i).orders = [] ∧
      ((onLinesShut i s).spot i).step ≠ some .ventClosing := by
    rcases onLinesShut_cases i s with ⟨e, -⟩ | ⟨-, -, v, e⟩ <;> rw [e]
    · exact ⟨hst, ho, hp⟩
    · exact ⟨hst, ho, nofun⟩
  obtain ⟨w, ew⟩ : ∃ w, w = onLinesShut i s := ⟨_, rfl⟩
  rw [← ew] at lines ⊢
  obtain ⟨hst, ho, hp⟩ := lines
  have opens : ((onVentOpen i w).spot i).state = .isolating ∧ ((onVentOpen i w).spot i).orders = [] ∧
      ((onVentOpen i w).spot i).step ≠ some .ventClosing := by
    rcases onVentOpen_cases i w with ⟨e, -⟩ | ⟨-, -, t, e⟩ <;> rw [e]
    · exact ⟨hst, ho, hp⟩
    · exact ⟨hst, ho, nofun⟩
  obtain ⟨hst, ho, hp⟩ := opens
  rw [onVentShut_step hp, onStrokeOpen_off (by rw [hst]; exact nofun), onStrokeShut_off (by rw [hst]; exact nofun),
    onStrokeTurn_off (by rw [hst]; exact nofun)]
  exact ⟨hst, ho⟩

/-! ## The event of a drained head -/

/-- A spot whose liquid valve has come to SHUT under its drained head, with that head gone. -/
def Spot.drainedOf (stroke : Timer) (rest : List Order) (sp : Spot) : Spot :=
  ({ sp with liquid := sp.liquid.arrived false } : Spot).losesHead stroke rest

section Drained

variable {s : State} {i : SpotNo} {h : Order} {rest : List Order} {r : EndReason}

theorem spotWork_arrivedAt (s : State) (i : SpotNo) (n : ValveName) (o : Bool) : SpotWork i (clearScratch s) (s.arrivedAt i n o) :=
  .mod (fun sp => by cases n <;> rfl) (fun sp => by cases n <;> rfl) _

variable (hql : (s.spot i).queueLegal) (ho : (s.spot i).orders = h :: rest) (hd : h.state = .draining) (hr : h.reason = some r)
  (hn : (s.spot i).liquid.nears false)

include hql ho hd hr hn

/-- The head is gone, and the arrivals of the event go on from what follows. -/
theorem drained_event : ∃ d, HeadLost i h rest (s.arrivedAt i .liquid false) d ∧
    d.spot i = (s.spot i).drainedOf (s.strokeOf .vapour) rest ∧
    ∀ u, headGone i (h.closeAfter && r.natural) d = u → (u.spot i).state ≠ .proving → (u.spot i).state ≠ .transfer →
      ¬ ((u.spot i).headIs .draining = true ∧ (u.spot i).liquid.isShut = true) →
      exec (.limitChange (.spot i .liquid) false true) s = .next (closeEvent (clearScratch s) (settle (advanceSpot i u))) := by
  have hi : (s.arrivedAt i .liquid false).spot i = { s.spot i with liquid := (s.spot i).liquid.arrived false } :=
    arrivedAt_spot s i .liquid false
  have hproving : (s.spot i).state ≠ .proving := fun e => by
    obtain ⟨-, -, -, hp⟩ := hql
    rw [e] at hp
    rw [show (s.spot i).orders = [] from hp] at ho
    cases ho
  have ho' : ((s.arrivedAt i .liquid false).spot i).orders = h :: rest := by
    rw [hi]
    exact ho
  have hlost := headLost (v := s.arrivedAt i .liquid false) ho' (by rw [hi]; exact hql.1)
  refine ⟨_, hlost, by rw [hlost.spot, hi]; rfl, fun u hu h1 h2 h3 => ?_⟩
  have hgone := onDrained_gone (v := s.arrivedAt i .liquid false) ho' hd hr (by rw [hi]; rfl) (by rw [hi]; exact hproving)
  rw [← advanceSpot_again (hgone.trans hu) h1 h2 h3]
  exact exec_spotArrival (n := .liquid) (o := false) hn

omit hql ho hd hr hn in
/-- The work of a spot after its drained head has gone, as the event of the arrival. -/
theorem HeadLost.done {u d : State} (hlost : HeadLost i h rest (s.arrivedAt i .liquid false) d) (hwork : SpotWork i d u)
    (hno : ¬ (u.spot i).waits) : SpotDone i (clearScratch s) u :=
  ⟨((spotWork_arrivedAt s i .liquid false).trans hlost.work).trans hwork, hno, fun g hg => hlost.ungranted g (hwork.grants g hg),
    hwork.kept.spots i hlost.flag⟩

omit hql ho hd hn in
theorem Car.ended_eq (c : Car) : c.ended h = { c with
    lastEnd := some
      { tag := h.tag, kind := h.kind, reason := r
        delivered := match h.liquid with
          | some l => l.delivered
          | none => 0 }
    recovered := c.recovered || r == .residual, revision := c.revision + 1 } := by
  unfold Car.ended Order.lastEnd
  rw [hr]
  rfl

/-- The last head of a TRANSFER spot has drained: the spot is CONNECTED. -/
theorem drained_connects (hst : (s.spot i).state = .transfer) (hrest : rest = []) (hc : (h.closeAfter && r.natural) = false) :
    ∃ t, exec (.limitChange (.spot i .liquid) false true) s = .next t ∧
      t.spot i = { ((s.spot i).drainedOf (s.strokeOf .vapour) []).stopMeter with state := .connected, pulses := 0 } ∧
      (∀ l, h.liquid = some l → (t.vessel l.vessel).remainder i h.tag = none) ∧
      t.changes.spots.getLsbD i = true ∧ (∀ l, h.liquid = some l → t.changes.vessels.getLsbD l.vessel = true) ∧
      s.sameStore t ∧
      (s.waitsNowhereBut i → s.onlyAt t i ∧ ∀ hd car, (s.spot i).car = some hd → s.car hd.slot = some car →
        t.car hd.slot = some (car.ended h)) := by
  obtain ⟨d, hlost, hdi, hev⟩ := drained_event hql ho hd hr hn
  rw [hrest] at hdi
  obtain ⟨u, hu⟩ : ∃ u, u = d.modSpot i fun sp => { sp.stopMeter with state := .connected, pulses := 0 } := ⟨_, rfl⟩
  have hui : u.spot i = { ((s.spot i).drainedOf (s.strokeOf .vapour) []).stopMeter with state := .connected, pulses := 0 } := by
    rw [hu, modSpot_spot_same, hdi]
  have hnext : headGone i (h.closeAfter && r.natural) d = u := by
    rw [headGone_stays hc, nextHead_transfer_nil (by rw [hdi]; exact hst) (by rw [hdi]; rfl), hu]
  have hwork : SpotWork i d u := hu ▸ .mod (by intro; rfl) (by intro; rfl) d
  have hno : ¬ (u.spot i).waits := Spot.not_waits (by rw [hui]; exact nofun)
  have hdone := hlost.done hwork hno
  have hexec := hev u hnext (by rw [hui]; exact nofun) (by rw [hui]; exact nofun) (by
    rintro ⟨e, -⟩
    rw [Spot.headIs_nil (by rw [hui]; rfl)] at e
    cases e)
  rw [advanceSpot_connected (by rw [hui]) (by rw [hui]; rfl)] at hexec
  obtain ⟨hti, hflag, hstore, honly⟩ := hdone.event (clearScratch_frame s) rfl rfl rfl
  refine ⟨_, hexec, hti.trans hui, fun l hl => ?_, hflag, fun l hl => ?_, hstore, fun hw => ⟨honly hw, fun k car hk hcar => ?_⟩⟩
  · rw [closeEvent_vessel]
    refine settle_remainder hno ?_
    rw [hu]
    exact (hlost.entry l hl).1
  · refine vesselFlag_of_touched ((kept_settle u).vessels l.vessel ?_)
    rw [hu]
    exact (hlost.entry l hl).2
  · rw [hdone.work.settles (waitsNowhereBut_of_frame (clearScratch_frame s) hw) hdone.unwaiting hdone.ungranted]
    have hledger : u.ledger = { cars := (clearScratch s).cars, touched := 0, departed := [{ spot := i, order := h }] } := by
      rw [hu]
      exact hlost.ledger
    have hcars := (closeEvent_cars_ended (b := clearScratch s) (c := car) hledger (by rw [hui]; exact hk) hcar).1
    unfold State.car State.carSlot
    rw [hcars]
    exact congrArg CarSlot.car (Vector.getElem_set_self _)

/-- The last head of a HELD spot has drained. -/
theorem drained_held_nil (hst : (s.spot i).state = .held) (hrest : rest = []) (hc : (h.closeAfter && r.natural) = false) :
    ∃ t, exec (.limitChange (.spot i .liquid) false true) s = .next t ∧ (t.spot i).state = .held ∧ (t.spot i).orders = [] ∧
      (t.spot i).holds = { (s.spot i).holds with vesselTrip := false } ∧ t.changes.spots.getLsbD i = true ∧ s.sameStore t := by
  obtain ⟨d, hlost, hdi, hev⟩ := drained_event hql ho hd hr hn
  rw [hrest] at hdi
  have hui : (removeHold i .vesselTrip d).spot i = { (s.spot i).drainedOf (s.strokeOf .vapour) [] with
      holds := { (s.spot i).holds with vesselTrip := false } } := by
    unfold removeHold
    rw [modSpot_spot_same, hdi]
    rfl
  have hwork := spotWork_removeHold i d .vesselTrip
  obtain ⟨u, hu⟩ : ∃ u, u = removeHold i .vesselTrip d := ⟨_, rfl⟩
  have hnext : headGone i (h.closeAfter && r.natural) d = u := by
    rw [headGone_stays hc, nextHead_held_nil (by rw [hdi]; exact hst) (by rw [hdi]; rfl), hu]
  rw [← hu] at hui hwork
  have hstate : (u.spot i).state = .held := by rw [hui]; exact hst
  have hnil : ¬ ((u.spot i).headIs .draining = true ∧ (u.spot i).liquid.isShut = true) := by
    rintro ⟨e, -⟩
    rw [Spot.headIs_nil (by rw [hui]; rfl)] at e
    cases e
  have hdone := hlost.done hwork (Spot.not_waits (by rw [hstate]; exact nofun))
  have hexec := hev u hnext (by rw [hstate]; exact nofun) (by rw [hstate]; exact nofun) hnil
  rw [advanceSpot_held hstate hnil] at hexec
  obtain ⟨hti, hflag, hstore, -⟩ := hdone.event (clearScratch_frame s) rfl rfl rfl
  exact ⟨_, hexec, by rw [hti]; exact hstate, by rw [hti, hui]; rfl, by rw [hti, hui], hflag, hstore⟩

/-- The head of an ISOLATING spot has drained. -/
theorem drained_isolating (hst : (s.spot i).state = .isolating) :
    ∃ t, exec (.limitChange (.spot i .liquid) false true) s = .next t ∧ (t.spot i).state = .isolating ∧ (t.spot i).orders = [] ∧
      t.changes.spots.getLsbD i = true ∧ s.sameStore t ∧ (s.waitsNowhereBut i → s.onlyAt t i) := by
  obtain ⟨d, hlost, hdi, hev⟩ := drained_event hql ho hd hr hn
  obtain ⟨-, -, -, hplaced⟩ := hql
  rw [hst, ho] at hplaced
  obtain ⟨hlines, hone⟩ := hplaced
  have hrest : rest = [] := by
    rcases hone with e | ⟨o, e, -⟩
    · cases e
    · cases e
      rfl
  have hstep : (s.spot i).step = some .linesClosing := Classical.not_not.mp fun e => nomatch hlines e
  rw [hrest] at hdi
  have hdst : (d.spot i).state = .isolating := by rw [hdi]; exact hst
  have hdo : (d.spot i).orders = [] := by rw [hdi]; rfl
  obtain ⟨h1, h2⟩ := advanceSpot_closing hdst hdo (by rw [hdi]; show (s.spot i).step ≠ _; rw [hstep]; exact nofun)
  have hdone := hlost.done (spotWork_advanceSpot i d) (Spot.not_waits (by rw [h1]; exact nofun))
  have hexec := hev d (headGone_isolating hdst) (by rw [hdst]; exact nofun) (by rw [hdst]; exact nofun) (by
    rintro ⟨e, -⟩
    rw [Spot.headIs_nil hdo] at e
    cases e)
  obtain ⟨hti, hflag, hstore, honly⟩ := hdone.event (clearScratch_frame s) rfl rfl rfl
  exact ⟨_, hexec, by rw [hti]; exact h1, by rw [hti]; exact h2, hflag, hstore, honly⟩

/-- A drained head whose close-after acts: the spot isolates (R72). -/
theorem drained_closes (hst : (s.spot i).state = .transfer ∨ (s.spot i).state = .held) (hc : h.closeAfter = true)
    (hnat : r.natural = true) :
    ∃ t, exec (.limitChange (.spot i .liquid) false true) s = .next t ∧ (t.spot i).Leaving s.fe none (s.spot i) ∧
      (t.spot i).leavesFrom ∧ (t.spot i).orders = [] ∧ t.changes.spots.getLsbD i = true ∧ s.sameStore t ∧
      (s.waitsNowhereBut i → s.onlyAt t i) := by
  obtain ⟨d, hlost, hdi, hev⟩ := drained_event hql ho hd hr hn
  obtain ⟨-, -, hqueued, -⟩ := hql
  have hdst : (d.spot i).state = .transfer ∨ (d.spot i).state = .held := by rw [hdi]; exact hst
  have hdo : (d.spot i).orders = rest := by rw [hdi]; rfl
  obtain ⟨q, hq, hspot⟩ := enterIsolating_spot .stopped .stopped none i d
  have hnil : q = [] := by
    rcases hq with e | ⟨o, o', ho', -, -, hor⟩
    · exact e
    · have hos : o.state = .queued := by
        refine hqueued o ?_
        rw [ho, List.tail_cons, ← hdo]
        exact List.mem_of_head? ho'
      rcases hor with e | e
      · rw [hos] at e
        cases e
      · unfold Spot.headDrains at e
        rw [ho'] at e
        simp [hos] at e
  rw [hnil] at hspot
  have hiso := isolationWork .stopped .stopped none i d
  have hstate : ((enterIsolating .stopped .stopped none i d).spot i).state = .isolating := by rw [hspot]; rfl
  have horders : ((enterIsolating .stopped .stopped none i d).spot i).orders = [] := by rw [hspot]; rfl
  have hgone : headGone i (h.closeAfter && r.natural) d = enterIsolating .stopped .stopped none i d := by
    rw [hc, hnat]
    exact headGone_closes (by rcases hdst with e | e <;> rw [e] <;> exact nofun)
  have hexec := hev _ hgone (by rw [hstate]; exact nofun) (by rw [hstate]; exact nofun) (by
    rintro ⟨e, -⟩
    rw [Spot.headIs_nil horders] at e
    cases e)
  obtain ⟨-, hclosed⟩ := advanceSpot_closing hstate horders (by rw [hspot]; exact nofun)
  have hfe : d.fe = s.fe := congrArg Fixed.fe ((spotWork_arrivedAt s i .liquid false).trans hlost.work).kept.fixed
  rw [hfe] at hiso
  obtain ⟨hl, hs, hflag, hstore, honly⟩ := hiso.event ((spotWork_arrivedAt s i .liquid false).trans hlost.work) (clearScratch_frame s)
    rfl rfl rfl
  refine ⟨_, hexec, ?_, hs, ?_, hflag, hstore, honly⟩
  · rw [hdi] at hl
    exact ⟨hl.state, hl.standing, hl.holds, hl.seat, hl.recoveryTimer, hl.stall, hl.window, hl.car, hl.inputs, hl.shutoff, hl.liquid,
      hl.vapour, hl.orders, hl.fault⟩
  · rw [closeEvent_spot, hiso.settled]
    exact hclosed

end Drained

end Sys2Proof.Machine
end

section
/-! PROOFS. The next order after a drained head (R72), and the arrivals that begin or resume an order (R40, R113). -/

namespace Sys2Proof.Machine

theorem SpotWork.tripsOrder {i : SpotNo} {v w : State} (h : SpotWork i v w) (o : Order) : w.tripsOrder o = v.tripsOrder o := by
  unfold State.tripsOrder
  cases o.liquid with
  | none => rfl
  | some x =>
    have e := congrArg (fun r : Vessel => r.trip.active) (h.stores x.vessel)
    exact e

section Next

variable {s : State} {i : SpotNo} {h o : Order} {more : List Order} {r : EndReason} (hql : (s.spot i).queueLegal)
  (ho : (s.spot i).orders = h :: o :: more) (hd : h.state = .draining) (hr : h.reason = some r)
  (hn : (s.spot i).liquid.nears false) (hc : (h.closeAfter && r.natural) = false)

include hql ho hd hr hn hc

/-- The next order of a HELD spot is its SUSPENDED head. -/
theorem drained_held_cons (hst : (s.spot i).state = .held) :
    ∃ t, exec (.limitChange (.spot i .liquid) false true) s = .next t ∧ (t.spot i).state = .held ∧
      (t.spot i).orders = { o with state := .suspended } :: more ∧
      (t.spot i).holds = { (s.spot i).holds with vesselTrip := s.tripsOrder o } ∧
      t.changes.spots.getLsbD i = true ∧ s.sameStore t := by
  obtain ⟨d, hlost, hdi, hev⟩ := drained_event hql ho hd hr hn
  obtain ⟨a, ha⟩ := (d.spot i).takeStaged_eq d
  have htrip : d.tripsOrder o = s.tripsOrder o := ((spotWork_arrivedAt s i .liquid false).trans hlost.work).tripsOrder o
  obtain ⟨u, hu⟩ : ∃ u, u = (d.touchSpot i).modSpot i (Spot.suspendsHead d o more) := ⟨_, rfl⟩
  have hui : u.spot i = (d.spot i).suspendsHead d o more := by
    rw [hu]
    exact modSpot_spot_same _ _ _
  have hstate : (u.spot i).state = .held := by
    rw [hui]
    unfold Spot.suspendsHead
    rw [ha, hdi]
    exact hst
  have hwork : SpotWork i d u := by
    rw [hu]
    exact (SpotWork.touchSpot i i d).trans
      (.mod (f := Spot.suspendsHead d o more) (fun sp => sp.takeStaged_car d) (fun sp => sp.takeStaged_seat d) _)
  have hnext : headGone i (h.closeAfter && r.natural) d = u := by
    have hdo : (d.spot i).orders = o :: more := by rw [hdi]; rfl
    have hdst : (d.spot i).state = .held := by rw [hdi]; exact hst
    rw [headGone_stays hc, nextHead_held_cons hdst hdo, becomeHead_held hdo hdst, hu]
  have hdrains : ¬ ((u.spot i).headIs .draining = true ∧ (u.spot i).liquid.isShut = true) := by
    rintro ⟨e, -⟩
    rw [hui] at e
    cases e
  have hdone := hlost.done hwork (Spot.not_waits (by rw [hstate]; exact nofun))
  have hexec := hev u hnext (by rw [hstate]; exact nofun) (by rw [hstate]; exact nofun) hdrains
  rw [advanceSpot_held hstate hdrains] at hexec
  obtain ⟨hti, hflag, hstore, -⟩ := hdone.event (clearScratch_frame s) rfl rfl rfl
  refine ⟨_, hexec, by rw [hti]; exact hstate, by rw [hti, hui]; rfl, ?_, hflag, hstore⟩
  rw [hti, hui]
  unfold Spot.suspendsHead
  rw [ha, hdi, htrip]
  rfl

variable (hst : (s.spot i).state = .transfer)

include hst

/-- What the next order of a TRANSFER spot begins on. -/
theorem drained_next : ∃ d, SpotWork i (clearScratch s) d ∧ d.scratch.spots.getLsbD i = true ∧ (∀ g ∈ d.grants, g.spot ≠ i) ∧
    d.spot i = ((s.spot i).drainedOf (s.strokeOf .vapour) (o :: more)).stopMeter ∧
    (∀ c, (s.comp c).state = .faulted → (d.comp c).state = .faulted) ∧
    ∀ u, becomeHead i d = u → (u.spot i).state ≠ .proving → (u.spot i).state ≠ .transfer →
      (u.spot i).headIs .draining = false →
      exec (.limitChange (.spot i .liquid) false true) s = .next (closeEvent (clearScratch s) (settle (advanceSpot i u))) := by
  obtain ⟨d, hlost, hdi, hev⟩ := drained_event hql ho hd hr hn
  have hnext : headGone i (h.closeAfter && r.natural) d = becomeHead i (d.modSpot i Spot.stopMeter) := by
    rw [headGone_stays hc, nextHead_transfer_cons (by rw [hdi]; exact hst) (by rw [hdi]; rfl)]
  refine ⟨d.modSpot i Spot.stopMeter, ((spotWork_arrivedAt s i .liquid false).trans hlost.work).trans (.mod (by intro; rfl) (by intro; rfl) d),
    hlost.flag, hlost.ungranted, by rw [modSpot_spot_same, hdi], hlost.faulted, fun u hu h1 h2 h3 => ?_⟩
  exact hev u (hnext.trans hu) h1 h2 fun e => Bool.false_ne_true (h3.symm.trans e.1)

/-- The next order of a TRANSFER spot into a tripped vessel: the spot is held. -/
theorem drained_next_tripped (hh : (s.spot i).holds = .empty) (htrip : s.tripsOrder o = true) :
    ∃ t, exec (.limitChange (.spot i .liquid) false true) s = .next t ∧ (t.spot i).state = .held ∧
      (t.spot i).holds.vesselTrip = true ∧ (t.spot i).orders = { o with state := .suspended } :: more ∧
      (t.spot i).seat = none ∧ (t.spot i).stall = .stopped ∧ (t.spot i).window = .stopped ∧
      t.changes.spots.getLsbD i = true ∧ s.sameStore t ∧ (s.waitsNowhereBut i → s.onlyAt t i) := by
  obtain ⟨d, hwork, -, -, hdi, -, hev⟩ := drained_next hql ho hd hr hn hc hst
  obtain ⟨a, ha⟩ := (d.spot i).takeStaged_eq d
  obtain ⟨hspot, hdone⟩ := becomeHead_tripped (s := d) (i := i) (o := o) (more := more) (by rw [hdi]; rfl)
    (by rw [hdi]; show (s.spot i).state ≠ _; rw [hst]; exact nofun) ((hwork.tripsOrder o).trans htrip)
    (by rw [hdi]; show (s.spot i).holds.vesselTrip = _; rw [hh]; rfl)
  have horders : ((becomeHead i d).spot i).orders = { o with state := .suspended } :: more := by
    rw [hspot, Spot.held_orders]
    rfl
  have hstate : ((becomeHead i d).spot i).state = .held := by rw [hspot]; rfl
  have hdrains : ((becomeHead i d).spot i).headIs .draining = false := by
    unfold Spot.headIs Spot.head
    rw [horders]
    rfl
  have hexec := hev _ rfl (by rw [hstate]; exact nofun) (by rw [hstate]; exact nofun) hdrains
  rw [advanceSpot_held hstate fun e => Bool.false_ne_true (hdrains.symm.trans e.1)] at hexec
  obtain ⟨hti, hflag, hstore, honly⟩ := SpotDone.event (v := clearScratch s)
    ⟨hwork.trans hdone.work, hdone.unwaiting, hdone.ungranted, hdone.flag⟩ (clearScratch_frame s) rfl rfl rfl
  refine ⟨_, hexec, by rw [hti]; exact hstate, ?_, by rw [hti]; exact horders, ?_, ?_, ?_, hflag, hstore, honly⟩ <;> rw [hti, hspot]
  · rfl
  · rfl
  · rfl
  · rfl

/-- The next order of a TRANSFER spot waits for a seat. -/
theorem drained_next_waits (hw : s.waitsNowhere) (hf : ∀ c, (s.comp c).state = .faulted) (htrip : s.tripsOrder o = false) :
    ∃ t, exec (.limitChange (.spot i .liquid) false true) s = .next t ∧ (t.spot i).state = .staged ∧
      (t.spot i).orders = { o with state := .waiting } :: more ∧
      t.grants = [{ spot := i, dir := o.direction }] ∧
      (t.spot i).seat = none ∧ (t.spot i).stall = .stopped ∧ (t.spot i).window = .stopped ∧
      t.changes.spots.getLsbD i = true ∧ s.sameStore t := by
  obtain ⟨d, hwork, hflag, hgrants, hdi, hfaulted, hev⟩ := drained_next hql ho hd hr hn hc hst
  obtain ⟨a, ha⟩ := (d.spot i).takeStaged_eq d
  obtain ⟨u, hu⟩ : ∃ u, u = (d.touchSpot i).modSpot i (Spot.stagesHead d o more) := ⟨_, rfl⟩
  have hui : u.spot i = (d.spot i).stagesHead d o more := by
    rw [hu]
    exact modSpot_spot_same _ _ _
  have hstage := spotWork_stagesHead d i o more
  have hbecome : becomeHead i d = u := by
    rw [becomeHead_staged (o := o) (more := more) (by rw [hdi]; rfl)
      (by rw [hdi]; show (s.spot i).state ≠ _; rw [hst]; exact nofun), hwork.tripsOrder o,
      show (clearScratch s).tripsOrder o = s.tripsOrder o from rfl, htrip, if_neg Bool.false_ne_true, hu]
  rw [← hu] at hstage
  have hstate : (u.spot i).state = .staged := by rw [hui]; rfl
  have hhead : (u.spot i).head = some { o with state := .waiting } := by rw [hui]; rfl
  have hwaits : (u.spot i).headIs .waiting = true := Spot.headIs_of_head hhead rfl
  have hseat : (u.spot i).seat = none := by
    rw [hui]
    unfold Spot.stagesHead
    rw [ha, hdi]
    rfl
  have hnone : u.grants = [] := by
    refine List.eq_nil_iff_forall_not_mem.mpr fun g hg => ?_
    have := (hwork.trans hstage).grants g hg
    rw [show (clearScratch s).grants = s.grants from rfl, hw.2] at this
    cases this
  obtain ⟨hjoin, hone⟩ := settle_joins (w := u) (i := i) (fun j hj => by rw [(hwork.trans hstage).others j hj]; exact hw.1 j) hnone
    ⟨hstate, hwaits⟩ hseat (fun c => by rw [hu]; exact hfaulted c (hf c)) hhead
  have hexec := hev u hbecome (by rw [hstate]; exact nofun) (by rw [hstate]; exact nofun) (Spot.headIs_one hwaits nofun)
  rw [advanceSpot_waiting hstate hwaits, hjoin] at hexec
  have hkept := (hwork.trans hstage).kept.trans (kept_joinGrants u)
  refine ⟨_, hexec, ?_, ?_, ?_, ?_, ?_, ?_, spotFlag_of_touched ((hstage.kept.trans (kept_joinGrants u)).spots i hflag),
    hkept.sameStore (clearScratch_frame s) rfl⟩
  · rw [closeEvent_spot]
    exact hstate
  · rw [closeEvent_spot]
    show (u.spot i).orders = _
    rw [hui]
    rfl
  · rw [closeEvent_grants]
    exact hone
  · rw [closeEvent_spot]
    exact hseat
  all_goals
    rw [closeEvent_spot, show (joinGrants u).spot i = u.spot i from rfl, hui]
    unfold Spot.stagesHead
    rw [ha, hdi]
    rfl

end Next

/-! ## A RUNNING head begins to flow, a SUSPENDED one resumes -/

/-- The liquid valve opens under a RUNNING head: the stall timer starts (R113). -/
theorem liquid_opens {s : State} {i : SpotNo} (hst : (s.spot i).state = .transfer) (hh : (s.spot i).headIs .running = true)
    (hn : (s.spot i).liquid.nears true) (hs : (s.spot i).stall = .stopped) (hd : s.due = none) :
    ∃ t, exec (.limitChange (.spot i .liquid) true false) s = .next t ∧
      t.frame = { s.frame with
        spots := s.spots.set i { s.spot i with
          liquid := (s.spot i).liquid.arrived true, stall := .seconds (s.spot i).active.stall } } ∧
      t.changes.spots.getLsbD i = true := by
  have hi : (s.arrivedAt i .liquid true).spot i = { s.spot i with liquid := (s.spot i).liquid.arrived true } :=
    arrivedAt_spot s i .liquid true
  have hadv : advanceSpot i (s.arrivedAt i .liquid true) = (clearScratch s).modSpot i fun sp =>
      { sp with liquid := (s.spot i).liquid.arrived true, stall := .seconds sp.active.stall } := by
    have hopen : onLiquidOpen i (s.arrivedAt i .liquid true) =
        (clearScratch s).modSpot i fun sp => { sp with liquid := (s.spot i).liquid.arrived true, stall := .seconds sp.active.stall } := by
      refine (if_pos ?_).trans (arrivedAt_modSpot s i .liquid true _)
      rw [hi]
      exact ⟨hst, hh, rfl, by show (s.spot i).stall.isRunning = false; rw [hs]; rfl⟩
    obtain ⟨u, hu⟩ : ∃ u, u = (clearScratch s).modSpot i fun sp =>
      { sp with liquid := (s.spot i).liquid.arrived true, stall := .seconds sp.active.stall } := ⟨_, rfl⟩
    rw [← hu] at hopen ⊢
    have hui : (u.spot i).state = .transfer ∧ (u.spot i).headIs .running = true := by
      rw [hu, modSpot_spot_same]
      exact ⟨hst, hh⟩
    have hno : (u.spot i).headIs .draining = false := Spot.headIs_one hui.2 nofun
    refine advanceSpot_head ?_ (by rw [hui.1]; exact nofun) (by rw [hui.1]; exact nofun) (by rw [hui.1]; exact nofun)
    rw [onShutoffOpen_off (by rw [hi]; show (s.spot i).state ≠ _; rw [hst]; exact nofun), hopen,
      onDrained_off fun e => Bool.false_ne_true (hno.symm.trans e.1)]
  obtain ⟨t, hexec, hframe, hclose⟩ := arrival_alone (n := .liquid) (o := true) hn hd (by rw [hst]; exact nofun)
    (by show (s.spot i).state ≠ _; rw [hst]; exact nofun) hadv
  refine ⟨t, hexec, hframe, ?_⟩
  rw [hclose]
  refine spotFlag_of_valve .liquid ?_
  rw [modSpot_spot_same]
  obtain ⟨-, hm, -⟩ := hn
  show (s.spot i).liquid.state ≠ some .opened
  rw [hm]
  exact nofun

/-- The shutoff valve opens under a resuming head: the head waits for its seat (R40). -/
theorem shutoff_resumes {s : State} {i : SpotNo} (hst : (s.spot i).state = .staged) (hh : (s.spot i).headIs .suspended = true)
    (hn : (s.spot i).shutoff.nears true) (h1 : (s.spot i).liquid.isShut = true) (h2 : (s.spot i).vapour.isShut = true) :
    ∃ u, exec (.limitChange (.spot i .shutoff) true false) s = .next (closeEvent (clearScratch s) (settle u)) ∧
      u.frame = { s.frame with
        spots := s.spots.set i ({ s.spot i with shutoff := (s.spot i).shutoff.arrived true }.modHead
          fun o => { o with state := .waiting }) } ∧
      Kept (clearScratch s) u ∧ u.scratch.spots.getLsbD i = true := by
  obtain ⟨v, hv⟩ : ∃ v, v = s.arrivedAt i .shutoff true := ⟨_, rfl⟩
  have hi : v.spot i = { s.spot i with shutoff := (s.spot i).shutoff.arrived true } := by
    rw [hv]
    exact arrivedAt_spot s i .shutoff true
  have hres : onResumed i v = (v.touchSpot i).modSpot i (Spot.modHead fun o => { o with state := .waiting }) :=
    if_pos (by rw [hi]; exact ⟨hst, hh, rfl, h1, h2⟩)
  obtain ⟨u, hu⟩ : ∃ u, u = (v.touchSpot i).modSpot i (Spot.modHead fun o => { o with state := .waiting }) := ⟨_, rfl⟩
  have hui : u.spot i = ({ s.spot i with shutoff := (s.spot i).shutoff.arrived true } : Spot).modHead
      fun o => { o with state := .waiting } := by
    rw [hu, modSpot_spot_same, touchSpot_spot, hi]
  have hstate : (u.spot i).state = .staged := by
    rw [hui, Spot.modHead_eq]
    exact hst
  have hvst : (v.spot i).state = .staged := by rw [hi]; exact hst
  have hno : (v.spot i).headIs .draining = false := Spot.headIs_one (a := .suspended) (by rw [hi]; exact hh) nofun
  have hadv : advanceSpot i v = u := by
    unfold advanceSpot
    rw [onShutoffOpen_off (by rw [hvst]; exact nofun), onLiquidOpen_off (by rw [hvst]; exact nofun),
      onDrained_off fun e => Bool.false_ne_true (hno.symm.trans e.1),
      hres, ← hu, onLinesShut_off (by rw [hstate]; exact nofun), onVentOpen_off (by rw [hstate]; exact nofun),
      onVentShut_off (by rw [hstate]; exact nofun), onStrokeOpen_off (by rw [hstate]; exact nofun),
      onStrokeShut_off (by rw [hstate]; exact nofun), onStrokeTurn_off (by rw [hstate]; exact nofun)]
  have hexec := exec_spotArrival (s := s) (i := i) (n := .shutoff) (o := true) hn
  rw [← hv, hadv] at hexec
  refine ⟨u, hexec, ?_, ?_, ?_⟩
  · have hwhole : u = ((clearScratch s).touchSpot i).modSpot i fun sp =>
        ({ s.spot i with shutoff := (s.spot i).shutoff.arrived true } : Spot).modHead fun o => { o with state := .waiting } := by
      rw [hu, hv]
      refine (modSpot_modSpot i _ _ ((clearScratch s).touchSpot i)).trans (modSpot_congr ?_)
      rfl
    rw [hwhole]
    rfl
  · rw [hu, hv]
    exact ((spotWork_arrivedAt s i .shutoff true).kept.trans (.touchSpot i _)).trans (.modSpot i _ _)
  · rw [hu]
    exact touchSpot_flag i v

/-- Settles O55: the arrival under a RUNNING head, under a DRAINING one and what follows it in each state, and under a resuming one. -/
theorem orderArrivalsMoveTheQueue : Obligations.OrderArrivalsMoveTheQueue := by
  refine fun s i hql => ⟨fun hst hh hn hs hd => liquid_opens hst hh hn hs hd, fun h rest r ho hd hr hn => ⟨fun hst hrest hc => ?_,
    fun o more hrest hc => ⟨fun hst hw hf hh => ?_, fun hst => ?_⟩, fun hst hrest hc => drained_held_nil hql ho hd hr hn hst hrest hc,
    fun hst hc hnat => ?_, fun hst => drained_isolating hql ho hd hr hn hst⟩, fun hst hh hn h1 h2 => ?_⟩
  · obtain ⟨t, hexec, hti, hrem, hflag, hvessels, hstore, honly⟩ := drained_connects hql ho hd hr hn hst hrest hc
    refine ⟨t, hexec, ?_, ?_, ?_, ?_, ?_, ?_, ?_, ?_, ?_, hrem, hflag, hvessels, hstore, fun hw => ⟨(honly hw).1, fun k car hk hcar => ?_⟩⟩
    case refine_10 => exact ((honly hw).2 k car hk hcar).trans (congrArg some (Car.ended_eq hr car))
    all_goals rw [hti]
    case refine_8 => exact Valve.toldShut_command _ _
    all_goals rfl
  · subst hrest
    cases htrip : s.tripsOrder o with
    | true =>
      obtain ⟨t, hexec, hstate, hheld, horders, h1, h2, h3, hflag, hstore, honly⟩ :=
        drained_next_tripped hql ho hd hr hn hc hst hh htrip
      obtain ⟨-, -, -, -, -, hgr⟩ := honly ⟨fun j _ => hw.1 j, by rw [hw.2]; exact nofun⟩
      refine ⟨t, hexec, ?_, h1, h2, h3, hflag, hstore⟩
      refine (if_pos htrip).mpr ⟨hstate, hheld, horders, List.eq_nil_iff_forall_not_mem.mpr fun g hg => ?_⟩
      have := hgr g hg
      rw [hw.2] at this
      cases this
    | false =>
      obtain ⟨t, hexec, hstate, horders, hgr, h1, h2, h3, hflag, hstore⟩ := drained_next_waits hql ho hd hr hn hc hst hw hf htrip
      refine ⟨t, hexec, ?_, h1, h2, h3, hflag, hstore⟩
      refine (if_neg (Bool.eq_false_iff.mp htrip)).mpr ⟨hstate, horders, hgr.trans ?_⟩
      unfold Order.direction
      rfl
  · subst hrest
    exact drained_held_cons hql ho hd hr hn hc hst
  · obtain ⟨t, hexec, hl, hs, horders, hflag, hstore, honly⟩ := drained_closes hql ho hd hr hn hst hc hnat
    exact ⟨t, hexec, hl.state, horders, hl.holds, hl.seat, hl.standing, hl.fault, hs.imp And.left And.right, hl.shutoff, hl.vapour,
      hflag, hstore, honly⟩
  · obtain ⟨u, hexec, hframe, hkept, hflag⟩ := shutoff_resumes hst hh hn h1 h2
    refine ⟨_, u, hexec, hframe, closeEvent_spot _ _ i, ?_, closeEvent_grants _ _, spotFlag_of_touched ((kept_settle u).spots i hflag),
      (hkept.trans (kept_settle u)).sameStore (clearScratch_frame s) rfl⟩
    exact closeEvent_comps _ _

end Sys2Proof.Machine
end

section
/-! PROOFS. O46 fails: its flow-high clause asks nothing of the tags in the queue, and a queue whose second order bears its head's
tag loses the head with it. Every queue that a command leaves has tags of its own (O20), so the state is none that a run reaches; the
statement, which speaks of every state, does not hold there. -/

namespace Sys2Proof.Machine

/-- A supervised valve at rest. -/
def Valve.resting (st : ValveState) : Valve := { Valve.reset with supervised := true, state := some st }

/-- A LIQUID order of ten litres into vessel 0. -/
def twinOrder (st : OrderState) : Order :=
  { tag := 1, liquid := some { target := 10, vessel := 0, delivered := 0 }, closeAfter := false, state := st, reason := none }

/-- Spot 0 in TRANSFER at its flow-high limit, with two orders of one tag. -/
def twinTags : State :=
  { State.reset with
    profile := { State.reset.profile with
      site := some
        { spots := 1, vessels := 1, compressors := 0, seats := 1, overAllowance := 0, startTime := 1, runOnTime := 1, proofTime := 1
          bleedTime := 1, provingTime := 1 }
      spots := some
        { divisors := Vector.replicate 8 1, strokes := { shutoff := 1, liquid := 1, vapour := 1, vent := 1, direction := 1 } } }
    spots := State.reset.spots.set 0 { Spot.reset with
      state := .transfer, orders := [twinOrder .running, twinOrder .queued], liquid := .resting .opened
      stall := .running 100, window := .running 100, windowCount := Spot.reset.active.flowHigh }
    vessels := State.reset.vessels.set 0 { Vessel.reset with entries := [{ spot := 0, tag := 1, remainder := 10 }] } }

theorem twinTags_due : twinTags.due = none := by decide +kernel

theorem twinTags_steady : (twinTags.spot 0).steady := by
  refine ⟨?_, ?_, ?_, ?_, ?_, ?_, ?_⟩ <;> decide +kernel

/-- The litre takes the spot to ISOLATING, and the head with the order behind it. -/
theorem twinTags_litre : ((event (takeLitre 0) twinTags).spot 0).orders = [] := by decide +kernel

/-- Refutes O46: at a queue of two orders with one tag, the flow-high trip leaves no order. -/
theorem not_meterPulsesAndLitres : ¬ Obligations.MeterPulsesAndLitres := by
  intro holds
  obtain ⟨-, clauses⟩ := holds twinTags 0 (.litreEmitted 0) (.inr rfl)
  obtain ⟨-, litre⟩ := clauses 1 (by decide +kernel) (by decide +kernel)
  obtain ⟨-, -, flowHigh, -⟩ := litre (.inl rfl) twinTags_steady (by decide +kernel) twinTags_due
  obtain ⟨t, ht, -, -, -, -, -, horders, -⟩ := flowHigh (twinOrder .running) [twinOrder .queued]
    { target := 10, vessel := 0, delivered := 0 } 9 (by decide +kernel) rfl rfl (by decide +kernel) (by decide +kernel)
    (by decide +kernel) (by decide) (by decide) (by decide +kernel) (by decide +kernel) (by decide +kernel)
  have hev : exec (.litreEmitted 0) twinTags = .next (event (takeLitre 0) twinTags) := rfl
  rw [← Host.Outcome.next.inj (hev.symm.trans ht), twinTags_litre] at horders
  cases horders

end Sys2Proof.Machine
end

section
/-! PROOFS. A compressor at the arrivals of its direction valves: which stage of its work acts, and the compressor that goes no further
(R122 to R124, R131, R135). -/

namespace Sys2Proof.Machine

/-! ## Valves and marks -/

theorem Comp.putValve_mark_shut {d : Direction} {v : Valve} {k : Comp} (hv : v.isShut = true) (hk : (k.valve d).isShut = false) :
    (k.putValve d v).mark d = some 0 := by
  unfold Comp.putValve
  dsimp only
  rw [if_pos (by rw [hv, hk]; rfl)]
  cases d <;> rfl

theorem Comp.putValve_mark_other {d e : Direction} (h : e ≠ d) (v : Valve) (k : Comp) : (k.putValve d v).mark e = k.mark e := by
  unfold Comp.putValve
  dsimp only
  cases d <;> cases e <;> dsimp only <;> repeat' split
  all_goals first | rfl | contradiction

theorem Direction.other_ne (d : Direction) : d.other ≠ d := by cases d <;> exact nofun

/-- A direction valve after its arrival, put back. -/
def Comp.arrives (d : Direction) (o : Bool) (k : Comp) : Comp := k.putValve d ((k.valve d).arrived o)

section Arrives

variable (d : Direction) (o : Bool) (k : Comp)

theorem Comp.arrives_bare : (k.arrives d o).bare = k.bare := putValve_bare _ _ _
theorem Comp.arrives_valve : (k.arrives d o).valve d = (k.valve d).arrived o := putValve_same _ _ _
theorem Comp.arrives_other : (k.arrives d o).valve d.other = k.valve d.other := by
  unfold Comp.arrives
  rw [putValve_valve, if_neg (Direction.other_ne d)]

theorem Comp.arrives_mark {k : Comp} (h : (k.valve d).nears false) : (k.arrives d false).mark d = some 0 := by
  obtain ⟨-, hm, -⟩ := h
  exact putValve_mark_shut (Valve.arrived_isShut false _) (by simp [Valve.isShut, hm])

/-- What an arrival leaves of the compressor's own fields. -/
theorem Comp.arrives_fields : (k.arrives d o).state = k.state ∧ (k.arrives d o).step = k.step ∧ (k.arrives d o).dir = k.dir ∧
    (k.arrives d o).startOn = k.startOn ∧ (k.arrives d o).stroked = k.stroked ∧ (k.arrives d o).run = k.run ∧
    (k.arrives d o).seated = k.seated := by
  have h := Comp.arrives_bare d o k
  have e1 := congrArg Comp.state h
  have e2 := congrArg Comp.step h
  have e3 := congrArg Comp.dir h
  have e4 := congrArg Comp.startOn h
  have e5 := congrArg Comp.stroked h
  have e6 := congrArg Comp.run h
  have e7 := congrArg Comp.seated h
  exact ⟨e1, e2, e3, e4, e5, e6, e7⟩

end Arrives

/-! ## Which stage acts -/

/-- The open arrivals that lead a compressor on (R123, R131, R135). -/
def Comp.opened (k : Comp) : Prop :=
  ((k.state = .starting ∨ k.state = .reversing) ∧ k.step = some .valveOpening) ∨
    (k.state = .proof ∧ k.step = some .pushStroke ∧ k.push.isOpen = true) ∨
    (k.state = .proof ∧ k.step = some .drawStroke ∧ k.draw.isOpen = true) ∨
    (k.state = .proof ∧ k.step = some .runWait ∧ k.startOn = false ∧ k.push.isOpen = true)

/-- The shut arrivals that lead a compressor on (R131, R135). -/
def Comp.closed (k : Comp) : Prop :=
  (k.state = .reversing ∧ k.step = some .valvesShutting) ∨ (k.state = .proof ∧ k.step = some .settling) ∨
    (k.state = .proof ∧ k.step = some .pushStroke ∧ k.stroked = true ∧ k.push.isShut = true) ∨
    (k.state = .proof ∧ k.step = some .drawStroke ∧ k.stroked = true ∧ k.draw.isShut = true) ∨
    (k.state = .proof ∧ k.step = some .stopping)

section Stages

variable {c : CompNo} {s : State}

theorem compOnOpen_off (h : ¬ (s.comp c).opened) : compOnOpen c s = s := by
  unfold compOnOpen
  dsimp only
  split
  next h1 h2 => exact absurd (.inl ⟨.inl h1, h2⟩) h
  next h1 h2 => exact absurd (.inl ⟨.inr h1, h2⟩) h
  next h1 h2 => exact if_neg fun e => h (.inr (.inl ⟨h1, h2, e⟩))
  next h1 h2 => exact if_neg fun e => h (.inr (.inr (.inl ⟨h1, h2, e⟩)))
  next h1 h2 =>
    refine if_neg fun e => h (.inr (.inr (.inr ⟨h1, h2, ?_⟩)))
    simpa using e
  next => rfl

theorem compOnShut_off (h : ¬ (s.comp c).closed) : compOnShut c s = s := by
  unfold compOnShut
  dsimp only
  split
  next h1 h2 => exact absurd (.inl ⟨h1, h2⟩) h
  next h1 h2 => exact absurd (.inr (.inl ⟨h1, h2⟩)) h
  next h1 h2 =>
    refine if_neg fun e => h (.inr (.inr (.inl ⟨h1, h2, ?_⟩)))
    simpa using e
  next h1 h2 =>
    refine if_neg fun e => h (.inr (.inr (.inr (.inl ⟨h1, h2, ?_⟩))))
    simpa using e
  next h1 h2 => exact absurd (.inr (.inr (.inr (.inr ⟨h1, h2⟩)))) h
  next => rfl

theorem compOnRun_inactive (h : (s.comp c).run.active = false) : compOnRun c s = s := if_neg (by simp [h])

/-- No awaited valve may open yet (R122). -/
def Comp.unproven (deadTime : Nat) (k : Comp) : Prop := ∀ d, k.awaits = some d → k.provenShut deadTime d.other = false

theorem compOnGuard_off (h : (s.comp c).unproven s.protection.deadTime) : compOnGuard c s = s := by
  unfold compOnGuard
  dsimp only
  split
  next d hd => exact if_neg (by rw [h d hd]; exact Bool.false_ne_true)
  next => rfl

theorem Comp.provenShut_fresh {n : Nat} {d : Direction} {k : Comp} (hn : 0 < n) (hm : k.mark d = some 0) : k.provenShut n d = false := by
  unfold Comp.provenShut
  rw [hm]
  have h : ¬ n * Config.ticksPerSecond ≤ 0 := by
    unfold Config.ticksPerSecond
    omega
  simp [h]

/-- A compressor at which neither a guard, nor an open arrival, nor run feedback acts. -/
structure Comp.Rests (deadTime : Nat) (k : Comp) : Prop where
  unproven : k.unproven deadTime
  unopened : ¬ k.opened
  unrun : k.run.active = false ∨ k.step ≠ some .runWait ∨ k.startOn = false

theorem compOnRun_rests (h : (s.comp c).run.active = false ∨ (s.comp c).step ≠ some .runWait ∨ (s.comp c).startOn = false) :
    compOnRun c s = s := h.elim compOnRun_inactive compOnRun_off

theorem compPassGuard_rests (h : (s.comp c).Rests s.protection.deadTime) : compPassGuard c s = s := by
  unfold compPassGuard
  rw [compOnGuard_off h.unproven, compOnOpen_off h.unopened, compOnRun_rests h.unrun]

/-- The stages of a compressor's work at an event, one by one. -/
theorem compAdvance_stages {w x y z : State} (hopen : compOnOpen c s = w) (hrun : compOnRun c w = x) (hshut : compOnShut c x = y)
    (hguard : compPassGuard c y = z) : compAdvance c s = z := by
  unfold compAdvance compOnArrivals
  rw [hopen, hrun, hshut, hguard]

end Stages

/-! ## A direction valve's arrival as an event -/

/-- The records as the arrival of a direction valve leaves them, before the compressor goes on. -/
def State.arrivedDir (s : State) (c : CompNo) (d : Direction) (o : Bool) : State := (clearScratch s).modComp c (Comp.arrives d o)

theorem arrivedDir_comp (s : State) (c : CompNo) (d : Direction) (o : Bool) : (s.arrivedDir c d o).comp c = (s.comp c).arrives d o :=
  modComp_comp_same _ _ _

theorem arrivedDir_modComp (s : State) (c : CompNo) (d : Direction) (o : Bool) (f : Comp → Comp) :
    (s.arrivedDir c d o).modComp c f = (clearScratch s).modComp c fun k => f (k.arrives d o) := modComp_modComp _ _ _ _

theorem reportValve_direction (b : State) (c : CompNo) (d : Direction) (s : State) :
    reportValve b (.direction c d) false s = settle (compReported b c s) := by
  simp only [reportValve, Bool.false_eq_true, if_false]

/-- A compressor that awaits nothing is carried on by the arrival of a valve of its own as far as it goes. -/
theorem exec_dirArrival {s : State} {c : CompNo} {d : Direction} {o : Bool} (h : ((s.comp c).valve d).nears o)
    (hw : (s.comp c).awaits = none) :
    exec (.limitChange (.direction c d) o (!o)) s = .next (closeEvent (clearScratch s) (settle (compAdvance c (s.arrivedDir c d o)))) := by
  have hmod : (clearScratch s).modValve (.direction c d) (Valve.onLimits o (!o)) = s.arrivedDir c d o := by
    refine modComp_congr ?_
    exact congrArg ((s.comp c).putValve d) (Valve.onLimits_nears h)
  have hsame : (s.arrivedDir c d o).valve (.direction c d) = ((s.comp c).valve d).arrived o := by
    show (State.comp _ c).valve d = _
    rw [arrivedDir_comp, Comp.arrives_valve]
  have hunmet : (clearScratch s).guardMet c = false := by
    unfold State.guardMet
    rw [show (clearScratch s).comp c = s.comp c from rfl, hw]
  have hchange : limitChange (.direction c d) o (!o) s = event (limitsBecome (.direction c d) o (!o)) s := if_neg (Valve.nears_changes h)
  have hlimits : limitsBecome (.direction c d) o (!o) (clearScratch s) = settle (compAdvance c (s.arrivedDir c d o)) := by
    unfold limitsBecome
    dsimp only
    rw [hmod, hsame, Valve.arrived_isFault, Bool.false_and, reportValve_direction, compReported_of_unmet _ _ _ hunmet]
  rw [exec_limitChange, hchange, event_eq, hlimits]

/-- A compressor of which a valve stands elsewhere at the end of an event has its flag set. -/
theorem compFlag_of_valve {b w : State} {c : CompNo} (d : Direction) (h : ((b.comp c).valve d).state ≠ ((w.comp c).valve d).state) :
    (closeEvent b w).changes.comps.getLsbD c = true := by
  cases d
  · exact compFlag_of_view CompView.push h
  · exact compFlag_of_view CompView.draw h

/-- An arrival that changes its compressor alone: the event is that change. -/
theorem dirArrival_alone {s : State} {c : CompNo} {d : Direction} {o : Bool} {f : Comp → Comp} (h : ((s.comp c).valve d).nears o)
    (hw : (s.comp c).awaits = none) (hq : s.waitsNowhere)
    (hadv : compAdvance c (s.arrivedDir c d o) = (clearScratch s).modComp c f)
    (hv : ((f (s.comp c)).valve d).state ≠ ((s.comp c).valve d).state) :
    ∃ t, exec (.limitChange (.direction c d) o (!o)) s = .next t ∧ t.frame = { s.frame with comps := s.comps.set c (f (s.comp c)) } ∧
      t.comp c = f (s.comp c) ∧ t.changes.comps.getLsbD c = true := by
  have hsettle : settle ((clearScratch s).modComp c f) = (clearScratch s).modComp c f :=
    settle_quietly (waitsNowhere_modComp c f (waitsNowhere_of_frame (clearScratch_frame s) hq))
  have hframe := compEvent_frame (s := s) (c := c) (f := f)
  refine ⟨_, exec_dirArrival h hw, ?_, ?_, ?_⟩
  · rw [hadv, hsettle]
    exact hframe
  · rw [hadv, hsettle]
    exact comp_of_oneComp hframe
  · rw [hadv, hsettle]
    refine compFlag_of_valve d fun e => hv ?_
    rw [modComp_comp_same] at e
    exact e.symm

end Sys2Proof.Machine
end

section
/-! PROOFS. What each arrival of a direction valve makes of its compressor (R123, R124, R131, R135). -/

namespace Sys2Proof.Machine

section Arrivals

variable {s : State} {c : CompNo} {d : Direction}

/-! ## The valve toward the direction opens -/

/-- The start output turned on (R123). -/
def Comp.starts (time : Timer) (k : Comp) : Comp :=
  { k with state := .starting, step := some .runWait, startOn := true, startTimer := time }

theorem compOnOpen_starts {u : State} (hst : (u.comp c).state = .starting ∨ (u.comp c).state = .reversing)
    (hstep : (u.comp c).step = some .valveOpening) (hdir : (u.comp c).dir = some d) (ho : ((u.comp c).valve d).isOpen = true) :
    compOnOpen c u = u.modComp c (Comp.starts (.seconds (u.site (·.startTime)))) := by
  unfold compOnOpen
  dsimp only
  rcases hst with e | e <;> rw [e, hstep, hdir] <;> exact if_pos ho

/-- A compressor whose direction valve has opened, its start output on. -/
def State.startedDir (s : State) (c : CompNo) (d : Direction) : State :=
  (clearScratch s).modComp c fun k => (k.arrives d true).starts (.seconds (s.site (·.startTime)))

theorem startedDir_comp (s : State) (c : CompNo) (d : Direction) :
    (s.startedDir c d).comp c = ((s.comp c).arrives d true).starts (.seconds (s.site (·.startTime))) := modComp_comp_same _ _ _

section Opening

variable (hst : (s.comp c).state = .starting ∨ (s.comp c).state = .reversing) (hstep : (s.comp c).step = some .valveOpening)
  (hdir : (s.comp c).dir = some d) (hn : ((s.comp c).valve d).nears true)

include hstep in
theorem Comp.awaits_valveOpening : (s.comp c).awaits = none := by
  unfold Comp.awaits
  rw [hstep]
  split <;> first | rfl | contradiction

include hst hstep hdir

theorem arrivedDir_starts : compOnOpen c (s.arrivedDir c d true) = s.startedDir c d := by
  obtain ⟨e1, e2, e3, -⟩ := Comp.arrives_fields d true (s.comp c)
  have hu := arrivedDir_comp s c d true
  rw [compOnOpen_starts (d := d) (by rw [hu, e1]; exact hst) (by rw [hu, e2]; exact hstep) (by rw [hu, e3]; exact hdir)
    (by rw [hu, Comp.arrives_valve]; rfl), arrivedDir_modComp]
  rfl

include hn

theorem opening_starts (hr : (s.comp c).run.active = false) (hq : s.waitsNowhere) :
    ∃ t, exec (.limitChange (.direction c d) true false) s = .next t ∧
      t.frame = { s.frame with
        comps := s.comps.set c (((s.comp c).arrives d true).starts (.seconds (s.site (·.startTime)))) } ∧
      t.changes.comps.getLsbD c = true := by
  obtain ⟨-, -, -, -, -, e6, -⟩ := Comp.arrives_fields d true (s.comp c)
  have hw := startedDir_comp s c d
  have hrun : ((s.startedDir c d).comp c).run.active = false := by
    rw [hw]
    exact (congrArg Filter.active e6).trans hr
  have hrests : ((s.startedDir c d).comp c).Rests (s.startedDir c d).protection.deadTime := by
    refine ⟨?_, ?_, .inl hrun⟩ <;> rw [hw]
    · exact nofun
    · simp [Comp.opened, Comp.starts]
  have hadv := compAdvance_stages (arrivedDir_starts hst hstep hdir) (compOnRun_inactive hrun)
    (compOnShut_off (by rw [hw]; simp [Comp.closed, Comp.starts])) (compPassGuard_rests hrests)
  obtain ⟨t, hexec, hframe, -, hflag⟩ := dirArrival_alone hn (Comp.awaits_valveOpening hstep) hq hadv (by
    obtain ⟨-, hm, -⟩ := hn
    have hv := Comp.arrives_valve d true (s.comp c)
    have hsame : (((s.comp c).arrives d true).starts (.seconds (s.site (·.startTime)))).valve d = ((s.comp c).arrives d true).valve d := by
      cases d <;> rfl
    rw [hsame, hv, hm]
    exact nofun)
  exact ⟨t, hexec, hframe, hflag⟩

end Opening

end Arrivals

end Sys2Proof.Machine
end

section
/-! PROOFS. The shut arrivals of a direction valve that carry a reversal or a proof on (R131, R135). -/

namespace Sys2Proof.Machine

/-! ## What the work at a shut arrival makes of the compressor -/

section Work

variable {u : State} {c : CompNo}

theorem compOnShut_reversing (hst : (u.comp c).state = .reversing) (hstep : (u.comp c).step = some .valvesShutting)
    (h : ∀ d, ((u.comp c).valve d).isShut = true) : compOnShut c u = u.modComp c fun k => { k with step := some .deadTime } := by
  have hp : (u.comp c).push.isShut = true := h .push
  have hd : (u.comp c).draw.isShut = true := h .draw
  unfold compOnShut
  dsimp only
  rw [hst, hstep, hp, hd]
  rfl

theorem compOnShut_settling (hst : (u.comp c).state = .proof) (hstep : (u.comp c).step = some .settling)
    (h : ∀ d, ((u.comp c).valve d).isShut = true) :
    compOnShut c u = u.modComp c fun k => { k with step := some .pushStroke, stroked := false } := by
  have hp : (u.comp c).push.isShut = true := h .push
  have hd : (u.comp c).draw.isShut = true := h .draw
  unfold compOnShut
  dsimp only
  rw [hst, hstep, hp, hd]
  rfl

/-- The stroke of a proof that moves a direction valve (R135). -/
def CompStep.strokes (st : CompStep) (d : Direction) : Prop := (st = .pushStroke ∧ d = .push) ∨ (st = .drawStroke ∧ d = .draw)

/-- The step after a valve's stroke. -/
def Direction.afterStroke (d : Direction) : CompStep := if d = .push then .drawStroke else .runWait

theorem compOnShut_stroked {st : CompStep} {d : Direction} (hsd : st.strokes d) (hst : (u.comp c).state = .proof)
    (hstep : (u.comp c).step = some st) (hs : (u.comp c).stroked = true) (h : ((u.comp c).valve d).isShut = true) :
    compOnShut c u = u.modComp c fun k => { k with step := some (Direction.afterStroke d), stroked := false } := by
  unfold compOnShut
  dsimp only
  rcases hsd with ⟨rfl, rfl⟩ | ⟨rfl, rfl⟩
  · rw [hst, hstep, hs, show (u.comp c).push.isShut = true from h]
    rfl
  · rw [hst, hstep, hs, show (u.comp c).draw.isShut = true from h]
    rfl

end Work

/-! ## A shut arrival as an event -/

/-- A compressor moved on to a step at a valve's shut arrival. -/
def Comp.reaches (d : Direction) (st : CompStep) (b : Bool) (k : Comp) : Comp := { k.arrives d false with step := some st, stroked := b }

section Reaches

variable (d : Direction) (st : CompStep) (b : Bool) (k : Comp)

theorem Comp.reaches_valve (e : Direction) : (k.reaches d st b).valve e = (k.arrives d false).valve e := by cases e <;> rfl
theorem Comp.reaches_mark (e : Direction) : (k.reaches d st b).mark e = (k.arrives d false).mark e := by cases e <;> rfl

theorem Comp.reaches_fields : (k.reaches d st b).state = k.state ∧ (k.reaches d st b).dir = k.dir ∧
    (k.reaches d st b).startOn = k.startOn := by
  obtain ⟨e1, -, e3, e4, -⟩ := Comp.arrives_fields d false k
  exact ⟨e1, e3, e4⟩

end Reaches

section Shut

variable {s : State} {c : CompNo} {d : Direction} (hn : ((s.comp c).valve d).nears false)

/-- A compressor at its valve's shut arrival, before it goes on. -/
theorem arrives_shut_stage (hno : ¬ ((s.comp c).arrives d false).opened) (hstep : (s.comp c).step ≠ some .runWait) :
    compOnRun c (compOnOpen c (s.arrivedDir c d false)) = s.arrivedDir c d false := by
  obtain ⟨-, e2, -⟩ := Comp.arrives_fields d false (s.comp c)
  have hu := arrivedDir_comp s c d false
  rw [compOnOpen_off (by rw [hu]; exact hno), compOnRun_off (.inl (by rw [hu, e2]; exact hstep))]

include hn

/-- A shut arrival after which the compressor rests in a further step. -/
theorem shutArrival_alone {st : CompStep} {b : Bool} (haw : (s.comp c).awaits = none) (hq : s.waitsNowhere)
    (hno : ¬ ((s.comp c).arrives d false).opened) (hstep : (s.comp c).step ≠ some .runWait)
    (hshut : compOnShut c (s.arrivedDir c d false) = (clearScratch s).modComp c (Comp.reaches d st b))
    (hrests : ((s.comp c).reaches d st b).Rests s.protection.deadTime) :
    ∃ t, exec (.limitChange (.direction c d) false true) s = .next t ∧
      t.frame = { s.frame with comps := s.comps.set c ((s.comp c).reaches d st b) } ∧ (t.comp c).mark d = some 0 ∧
      t.changes.comps.getLsbD c = true := by
  have hm := hn.2.1
  have hpass : compPassGuard c ((clearScratch s).modComp c (Comp.reaches d st b)) = (clearScratch s).modComp c (Comp.reaches d st b) :=
    compPassGuard_rests (by rw [modComp_comp_same]; exact hrests)
  have hadv : compAdvance c (s.arrivedDir c d false) = (clearScratch s).modComp c (Comp.reaches d st b) := by
    unfold compAdvance compOnArrivals
    rw [arrives_shut_stage hno hstep, hshut, hpass]
  obtain ⟨t, hexec, hframe, htc, hflag⟩ := dirArrival_alone hn haw hq hadv (by
    rw [Comp.reaches_valve, Comp.arrives_valve, hm]
    exact nofun)
  refine ⟨t, hexec, hframe, ?_, hflag⟩
  rw [htc, Comp.reaches_mark]
  exact Comp.arrives_mark d hn

/-- After a valve's shut arrival no guard on it is proven yet. -/
theorem reaches_unproven {st : CompStep} {b : Bool} {n : Nat} (h0 : 0 < n)
    (h : ∀ e, ((s.comp c).reaches d st b).awaits = some e → e.other = d) : ((s.comp c).reaches d st b).unproven n := by
  intro e he
  refine Comp.provenShut_fresh h0 ?_
  rw [h e he, Comp.reaches_mark]
  exact Comp.arrives_mark d hn

end Shut

/-! ## The four shut arrivals that change the step -/

/-- The event of a shut arrival that leads a compressor to a step, that valve's mark at age 0. -/
def State.shutLeads (s : State) (c : CompNo) (d : Direction) (st : CompStep) (b : Bool) : Prop :=
  ∃ t, exec (.limitChange (.direction c d) false true) s = .next t ∧
    t.frame = { s.frame with comps := s.comps.set c ((s.comp c).reaches d st b) } ∧ (t.comp c).mark d = some 0 ∧
    t.changes.comps.getLsbD c = true

section Clauses

variable {s : State} {c : CompNo} {d : Direction} (h0 : 0 < s.protection.deadTime) (hq : s.waitsNowhere)

theorem Valve.shut_unopened {v : Valve} (h : v.isShut = true) : v.isOpen = false := by
  have hst : v.state = some .shut := by simpa [Valve.isShut] using h
  simp [Valve.isOpen, hst]

/-- A proof of which neither valve stands open has no open arrival to act at. -/
theorem Comp.unopened {k : Comp} (hst : k.state = .proof) (h : ∀ d, (k.valve d).isOpen = false) : ¬ k.opened := by
  have hp : k.push.isOpen = false := h .push
  have hd : k.draw.isOpen = false := h .draw
  simp [Comp.opened, hst, hp, hd]

/-- Both valves stand SHUT once the second arrives. -/
theorem arrives_bothShut (h : ((s.comp c).valve d.other).isShut = true) (e : Direction) :
    (((s.comp c).arrives d false).valve e).isShut = true := by
  have hv := Comp.arrives_valve d false (s.comp c)
  have ho := Comp.arrives_other d false (s.comp c)
  cases d <;> cases e
  · exact (congrArg Valve.isShut hv).trans (Valve.arrived_isShut _ _)
  · exact (congrArg Valve.isShut ho).trans h
  · exact (congrArg Valve.isShut ho).trans h
  · exact (congrArg Valve.isShut hv).trans (Valve.arrived_isShut _ _)

include h0 hq

theorem reversing_shut (hst : (s.comp c).state = .reversing) (hstep : (s.comp c).step = some .valvesShutting)
    (hdir : (s.comp c).dir = some d.other) (hn : ((s.comp c).valve d).nears false)
    (ho : ((s.comp c).valve d.other).isShut = true) : s.shutLeads c d .deadTime (s.comp c).stroked := by
  obtain ⟨e1, e2, -, -, e5, -⟩ := Comp.arrives_fields d false (s.comp c)
  obtain ⟨f1, f3, f4⟩ := Comp.reaches_fields d .deadTime (s.comp c).stroked (s.comp c)
  have hu := arrivedDir_comp s c d false
  have haw : (s.comp c).awaits = none := by
    unfold Comp.awaits
    rw [hst, hstep]
  refine shutArrival_alone hn haw hq ?_ (by rw [hstep]; exact nofun) ?_ ⟨reaches_unproven hn h0 ?_, ?_, .inr (.inl nofun)⟩
  · simp [Comp.opened, e1, e2, hst, hstep]
  · rw [compOnShut_reversing (by rw [hu, e1, hst]) (by rw [hu, e2, hstep]) (by rw [hu]; exact arrives_bothShut ho), arrivedDir_modComp]
    refine modComp_congr ?_
    unfold Comp.reaches
    rw [← e5]
    rfl
  · have hwait : ((s.comp c).reaches d .deadTime (s.comp c).stroked).awaits = some d.other := by
      unfold Comp.awaits
      rw [f1, hst, f3, hdir]
      rfl
    intro e he
    cases hwait.symm.trans he
    exact Direction.other_other d
  · simp [Comp.opened, f1, hst, show ((s.comp c).reaches d .deadTime (s.comp c).stroked).step = some .deadTime from rfl]

omit h0 in
/-- The second valve's shut arrival in SETTLING, where the push valve does not open at once. -/
theorem settling_shut (hst : (s.comp c).state = .proof) (hstep : (s.comp c).step = some .settling)
    (hn : ((s.comp c).valve d).nears false) (ho : ((s.comp c).valve d.other).isShut = true)
    (hun : ((s.comp c).reaches d .pushStroke false).unproven s.protection.deadTime) : s.shutLeads c d .pushStroke false := by
  obtain ⟨e1, e2, -⟩ := Comp.arrives_fields d false (s.comp c)
  obtain ⟨f1, -⟩ := Comp.reaches_fields d .pushStroke false (s.comp c)
  have hu := arrivedDir_comp s c d false
  have haw : (s.comp c).awaits = none := by
    unfold Comp.awaits
    rw [hst, hstep]
  refine shutArrival_alone hn haw hq ?_ (by rw [hstep]; exact nofun) ?_ ⟨hun, ?_, .inr (.inl nofun)⟩
  · simp [Comp.opened, e1, e2, hst, hstep]
  · rw [compOnShut_settling (by rw [hu, e1, hst]) (by rw [hu, e2, hstep]) (by rw [hu]; exact arrives_bothShut ho), arrivedDir_modComp]
    rfl
  · exact Comp.unopened (f1.trans hst) fun e => by
      rw [Comp.reaches_valve]
      exact Valve.shut_unopened (arrives_bothShut ho e)

omit h0 hq in
/-- The draw valve stays unproven: the push valve waits. -/
theorem settling_unproven (hm : ((s.comp c).reaches d .pushStroke false).provenShut s.protection.deadTime .draw = false)
    (hst : (s.comp c).state = .proof) : ((s.comp c).reaches d .pushStroke false).unproven s.protection.deadTime := by
  obtain ⟨f1, -⟩ := Comp.reaches_fields d .pushStroke false (s.comp c)
  intro e he
  unfold Comp.awaits at he
  rw [f1, hst, show ((s.comp c).reaches d .pushStroke false).step = some .pushStroke from rfl] at he
  dsimp only at he
  split at he
  · cases he
    exact hm
  · cases he

theorem settling_draw (hst : (s.comp c).state = .proof) (hstep : (s.comp c).step = some .settling)
    (hn : (s.comp c).draw.nears false) (ho : (s.comp c).push.isShut = true) : s.shutLeads c .draw .pushStroke false := by
  refine settling_shut hq hst hstep hn ho (settling_unproven (Comp.provenShut_fresh h0 ?_) hst)
  rw [Comp.reaches_mark]
  exact Comp.arrives_mark .draw hn

omit h0 in
theorem settling_push (hst : (s.comp c).state = .proof) (hstep : (s.comp c).step = some .settling)
    (hn : (s.comp c).push.nears false) (ho : (s.comp c).draw.isShut = true)
    (hm : (s.comp c).drawMark = none ∨ ∃ age, (s.comp c).drawMark = some age ∧ age < s.protection.deadTime * 100) :
    s.shutLeads c .push .pushStroke false := by
  refine settling_shut hq hst hstep hn ho (settling_unproven ?_ hst)
  have hmark : ((s.comp c).reaches .push .pushStroke false).mark .draw = (s.comp c).drawMark := by
    rw [Comp.reaches_mark]
    exact Comp.putValve_mark_other (d := .push) (e := .draw) nofun _ _
  unfold Comp.provenShut
  rw [hmark]
  rcases hm with e | ⟨age, e, hage⟩
  · rw [e, Bool.and_false]
  · rw [e]
    have hlt : ¬ s.protection.deadTime * Config.ticksPerSecond ≤ age := Nat.not_le.mpr hage
    simp [hlt]

/-- The shut arrival of a stroked valve (R135). -/
theorem stroked_shut {st : CompStep} (hsd : st.strokes d) (hst : (s.comp c).state = .proof) (hstep : (s.comp c).step = some st)
    (ho : ((s.comp c).valve d.other).isOpen = false) (hon : (s.comp c).startOn = false) (hs : (s.comp c).stroked = true)
    (hn : ((s.comp c).valve d).nears false) : s.shutLeads c d (Direction.afterStroke d) false := by
  obtain ⟨e1, e2, -, e4, e5, -⟩ := Comp.arrives_fields d false (s.comp c)
  obtain ⟨f1, f3, f4⟩ := Comp.reaches_fields d (Direction.afterStroke d) false (s.comp c)
  have hu := arrivedDir_comp s c d false
  have hv := Comp.arrives_valve d false (s.comp c)
  have hshut : ∀ e, (((s.comp c).arrives d false).valve e).isOpen = false := fun e => by
    have hself := (congrArg Valve.isOpen hv).trans (Valve.arrived_isOpen _ _)
    have hpartner := (congrArg Valve.isOpen (Comp.arrives_other d false (s.comp c))).trans ho
    by_cases hed : e = d
    · rw [hed]
      exact hself
    · rw [show e = d.other by cases e <;> cases d <;> first | rfl | contradiction]
      exact hpartner
  have haw : (s.comp c).awaits = none := by
    unfold Comp.awaits
    rcases hsd with ⟨rfl, rfl⟩ | ⟨rfl, rfl⟩ <;> rw [hst, hstep, hs] <;> rfl
  refine shutArrival_alone hn haw hq ?_ ?_ ?_ ⟨reaches_unproven hn h0 fun e he => ?_, ?_, .inr (.inr (f4.trans hon))⟩
  · exact Comp.unopened (e1.trans hst) hshut
  · rw [hstep]
    rcases hsd with ⟨rfl, -⟩ | ⟨rfl, -⟩ <;> exact nofun
  · rw [compOnShut_stroked hsd (by rw [hu, e1, hst]) (by rw [hu, e2, hstep]) (by rw [hu, e5, hs])
      (by rw [hu, hv]; exact Valve.arrived_isShut _ _), arrivedDir_modComp]
    rfl
  · unfold Comp.awaits at he
    rcases hsd with ⟨-, rfl⟩ | ⟨-, rfl⟩
    · rw [f1, hst, show ((s.comp c).reaches .push (Direction.afterStroke .push) false).step = some .drawStroke from rfl] at he
      dsimp only at he
      split at he
      · cases he
        rfl
      · cases he
    · rw [f1, hst, show ((s.comp c).reaches .draw (Direction.afterStroke .draw) false).step = some .runWait from rfl] at he
      dsimp only at he
      split at he
      · cases he
        rfl
      · cases he
  · exact Comp.unopened (f1.trans hst) fun e => by
      rw [Comp.reaches_valve]
      exact hshut e

end Clauses

end Sys2Proof.Machine
end

section
/-! PROOFS. The other arrivals of a proof: the strokes, the start output and the end (R135). -/

namespace Sys2Proof.Machine

/-- The valve put back twice, SHUT in between: it stands as the second time. -/
theorem Comp.reaches_opens {k : Comp} {d : Direction} {st : CompStep} {b : Bool} {stroke : Timer} :
    (k.reaches d st b).opens stroke d st = { (match d with
      | .push => ({ k with push := (k.push.arrived false).opening stroke, pushMark := none } : Comp)
      | .draw => { k with draw := (k.draw.arrived false).opening stroke, drawMark := none }) with step := some st, stroked := b } := by
  cases d
  · cases hk : k.push.isShut <;>
      simp [Comp.opens, Comp.reaches, Comp.arrives, Comp.putValve, Comp.valve, Comp.setMark, Valve.arrived_isShut, hk] <;>
      simp [Valve.opening, Valve.arrived, Valve.isShut]
  · cases hk : k.draw.isShut <;>
      simp [Comp.opens, Comp.reaches, Comp.arrives, Comp.putValve, Comp.valve, Comp.setMark, Valve.arrived_isShut, hk] <;>
      simp [Valve.opening, Valve.arrived, Valve.isShut]

/-- A valve put back without its mark. -/
def Comp.withValve (d : Direction) (v : Valve) (k : Comp) : Comp :=
  match d with
  | .push => { k with push := v }
  | .draw => { k with draw := v }

/-- A valve that neither was nor is SHUT has no mark to set or to clear. -/
theorem Comp.putValve_unshut {d : Direction} {v : Valve} {k : Comp} (hv : v.isShut = false) (hk : (k.valve d).isShut = false) :
    k.putValve d v = k.withValve d v := by
  unfold Comp.putValve
  dsimp only
  rw [hv, hk]
  cases d <;> rfl

theorem Comp.commanded_shuts {stroke : Timer} {fe : Bool} {d : Direction} {k : Comp} (hs : (k.valve d).supervised = true)
    (ho : (k.valve d).isOpen = true) : k.commanded stroke fe d .toShut = k.withValve d ((k.valve d).shutting stroke) := by
  have hstate : (k.valve d).state = some .opened := by simpa [Valve.isOpen] using ho
  have hsh : (k.valve d).isShut = false := by simp [Valve.isShut, hstate]
  have hcmd : k.putValve d { k.valve d with command := .toShut } = k.withValve d { k.valve d with command := .toShut } :=
    putValve_unshut hsh hsh
  have hval : (k.withValve d { k.valve d with command := .toShut }).valve d = { k.valve d with command := .toShut } := by
    cases d <;> rfl
  have heff : (k.withValve d { k.valve d with command := .toShut }).effective fe d = false := by
    unfold Comp.effective
    rw [hval]
    simp
  unfold Comp.commanded
  dsimp only
  rw [hcmd, heff, hval, show ({ k.valve d with command := .toShut } : Valve).pursue stroke false = (k.valve d).shutting stroke from
    Valve.toldShut_open hs ho, putValve_unshut rfl (by rw [hval]; exact hsh)]
  cases d <;> rfl

theorem compOnOpen_stroke {u : State} {c : CompNo} {d : Direction} {st : CompStep} (hsd : st.strokes d)
    (hst : (u.comp c).state = .proof) (hstep : (u.comp c).step = some st) (hs : ((u.comp c).valve d).supervised = true)
    (ho : ((u.comp c).valve d).isOpen = true) : compOnOpen c u = u.modComp c fun k =>
      { k with stroked := true }.withValve d ((k.valve d).shutting u.strokeOfDirection) := by
  have hcommand : commandDir c d .toShut (u.modComp c fun k => { k with stroked := true }) = u.modComp c fun k =>
      { k with stroked := true }.withValve d ((k.valve d).shutting u.strokeOfDirection) := by
    rw [commandDir_eq, modComp_modComp]
    refine modComp_congr ?_
    have h := Comp.commanded_shuts (stroke := u.strokeOfDirection) (fe := u.fe) (d := d) (k := { u.comp c with stroked := true })
      (by cases d <;> exact hs) (by cases d <;> exact ho)
    cases d <;> exact h
  unfold compOnOpen
  dsimp only
  rcases hsd with ⟨rfl, rfl⟩ | ⟨rfl, rfl⟩ <;> rw [hst, hstep] <;> exact (if_pos ho).trans hcommand

/-! ## A stroke turned round -/

/-- A compressor whose stroked valve stands open and starts to close (R135). -/
def Comp.turns (d : Direction) (stroke : Timer) (k : Comp) : Comp :=
  { k.putValve d (((k.valve d).arrived true).shutting stroke) with stroked := true }

section Turns

variable {k : Comp} {d : Direction} {stroke : Timer} {st : CompStep} (h : (k.valve d).isShut = false)

include h

theorem Comp.turns_eq : k.turns d stroke = { k.withValve d (((k.valve d).arrived true).shutting stroke) with stroked := true } :=
  congrArg (fun k : Comp => { k with stroked := true }) (putValve_unshut (d := d) rfl h)

theorem Comp.turns_valve : (k.turns d stroke).valve d = ((k.valve d).arrived true).shutting stroke := by
  rw [turns_eq h]
  cases d <;> rfl

theorem Comp.turns_fields : (k.turns d stroke).state = k.state ∧ (k.turns d stroke).step = k.step ∧
    (k.turns d stroke).stroked = true := by
  rw [turns_eq h]
  cases d <;> exact ⟨rfl, rfl, rfl⟩

variable (hsd : st.strokes d) (hst : k.state = .proof) (hstep : k.step = some st)

include hsd hst hstep

/-- Its valve closing, the compressor goes no further. -/
theorem Comp.turns_rests (n : Nat) : (k.turns d stroke).Rests n ∧ ¬ (k.turns d stroke).closed := by
  obtain ⟨g1, g2, g3⟩ := Comp.turns_fields (stroke := stroke) h
  have hv := Comp.turns_valve (stroke := stroke) h
  rw [hst] at g1
  rw [hstep] at g2
  have hno : ((k.turns d stroke).valve d).isOpen = false ∧ ((k.turns d stroke).valve d).isShut = false := by
    rw [hv]
    exact ⟨rfl, rfl⟩
  obtain ⟨hopen, hshut⟩ := hno
  have haw : (k.turns d stroke).awaits = none := by
    unfold Comp.awaits
    rcases hsd with ⟨rfl, -⟩ | ⟨rfl, -⟩ <;> rw [g1, g2, g3] <;> rfl
  refine ⟨⟨fun e he => ?_, ?_, .inr (.inl ?_)⟩, ?_⟩
  · rw [haw] at he
    cases he
  · rcases hsd with ⟨rfl, rfl⟩ | ⟨rfl, rfl⟩
    · simp [Comp.opened, g1, g2, show (k.turns .push stroke).push.isOpen = false from hopen]
    · simp [Comp.opened, g1, g2, show (k.turns .draw stroke).draw.isOpen = false from hopen]
  · rw [g2]
    rcases hsd with ⟨rfl, -⟩ | ⟨rfl, -⟩ <;> exact nofun
  · rcases hsd with ⟨rfl, rfl⟩ | ⟨rfl, rfl⟩
    · simp [Comp.closed, g1, g2, show (k.turns .push stroke).push.isShut = false from hshut]
    · simp [Comp.closed, g1, g2, show (k.turns .draw stroke).draw.isShut = false from hshut]

end Turns

/-! ## The arrivals -/

section Proof

variable {s : State} {c : CompNo} {d : Direction} (hq : s.waitsNowhere) (hst : (s.comp c).state = .proof)

include hq hst

/-- Both valves SHUT in SETTLING, the draw valve for the dead-time: the push valve opens at once (R122, R135). -/
theorem settling_opens {age : Nat} (hstep : (s.comp c).step = some .settling) (hn : (s.comp c).push.nears false)
    (ho : (s.comp c).draw.isShut = true) (hm : (s.comp c).drawMark = some age) (hage : s.protection.deadTime * 100 ≤ age)
    (hfe : s.fe = true) (hcmd : (s.comp c).push.command = .toShut) :
    ∃ t, exec (.limitChange (.direction c .push) false true) s = .next t ∧
      t.frame = { s.frame with
        comps := s.comps.set c { s.comp c with
          push := ((s.comp c).push.arrived false).opening s.strokeOfDirection, pushMark := none
          step := some .pushStroke, stroked := false } } ∧
      t.changes.comps.getLsbD c = true := by
  obtain ⟨e1, e2, -⟩ := Comp.arrives_fields .push false (s.comp c)
  obtain ⟨f1, -⟩ := Comp.reaches_fields .push .pushStroke false (s.comp c)
  have hu := arrivedDir_comp s c .push false
  have hshut := arrives_bothShut (d := .push) (s := s) (c := c) ho
  have hv : ∀ e, ((s.comp c).reaches .push .pushStroke false).valve e = ((s.comp c).arrives .push false).valve e :=
    Comp.reaches_valve _ _ _ _
  have hpush : ((s.comp c).reaches .push .pushStroke false).valve .push = (s.comp c).push.arrived false :=
    (hv .push).trans (Comp.arrives_valve _ _ _)
  have haw : (s.comp c).awaits = none := by
    unfold Comp.awaits
    rw [hst, hstep]
  have hstage := arrives_shut_stage (s := s) (c := c) (d := .push)
    (Comp.unopened (e1.trans hst) fun e => Valve.shut_unopened (hshut e)) (by rw [hstep]; exact nofun)
  obtain ⟨w, hw⟩ : ∃ w, w = (clearScratch s).modComp c (Comp.reaches .push .pushStroke false) := ⟨_, rfl⟩
  have hwc : w.comp c = (s.comp c).reaches .push .pushStroke false := by
    rw [hw]
    exact modComp_comp_same _ _ _
  have hwork : compOnShut c (s.arrivedDir c .push false) = w := by
    rw [compOnShut_settling (by rw [hu, e1, hst]) (by rw [hu, e2, hstep]) (by rw [hu]; exact hshut), arrivedDir_modComp, hw]
    rfl
  have hmark : ((s.comp c).reaches .push .pushStroke false).mark .draw = some age := by
    rw [Comp.reaches_mark]
    exact (Comp.putValve_mark_other (d := .push) (e := .draw) nofun _ _).trans hm
  have hpass : compPassGuard c w = w.modComp c (Comp.opens w.strokeOfDirection .push .pushStroke) := by
    refine compPassGuard_opens (age := age) ?_ (by rw [hw]; exact hfe) ?_ (by rw [hwc]; exact hmark) (by rw [hw]; exact hage) ?_ ?_
    · rw [hwc]
      exact .inr (.inr ⟨f1.trans hst, by rw [hpush]; exact hcmd, rfl, .inl ⟨rfl, rfl, rfl⟩⟩)
    · rw [hwc, hv]
      exact hshut .draw
    · rw [hwc, hv]
      exact hshut .push
    · rw [hwc, hpush]
      exact hn.1
  have hadv : compAdvance c (s.arrivedDir c .push false) = (clearScratch s).modComp c fun k =>
      (k.reaches .push .pushStroke false).opens s.strokeOfDirection .push .pushStroke := by
    unfold compAdvance compOnArrivals
    rw [hstage, hwork, hpass, hw, modComp_modComp]
    rfl
  obtain ⟨t, hexec, hframe, -, hflag⟩ := dirArrival_alone hn haw hq hadv (by
    have hm := hn.2.1
    rw [Comp.opens_valve]
    show some ValveState.movingOpen ≠ (s.comp c).push.state
    rw [hm]
    exact nofun)
  exact ⟨t, hexec, by rw [hframe, Comp.reaches_opens], hflag⟩

/-- The open arrival of the valve under stroke. -/
theorem stroke_opens {st : CompStep} (hsd : st.strokes d) (hstep : (s.comp c).step = some st)
    (hn : ((s.comp c).valve d).nears true) :
    ∃ t, exec (.limitChange (.direction c d) true false) s = .next t ∧
      t.frame = { s.frame with comps := s.comps.set c ((s.comp c).turns d s.strokeOfDirection) } ∧
      t.changes.comps.getLsbD c = true := by
  obtain ⟨e1, e2, -⟩ := Comp.arrives_fields d true (s.comp c)
  have hu := arrivedDir_comp s c d true
  have hv := Comp.arrives_valve d true (s.comp c)
  obtain ⟨hsup, hmoving, -⟩ := id hn
  have hunshut : ((s.comp c).valve d).isShut = false := by simp [Valve.isShut, hmoving]
  have hplain : (s.comp c).arrives d true = (s.comp c).withValve d (((s.comp c).valve d).arrived true) :=
    Comp.putValve_unshut (Valve.arrived_isShut _ _) hunshut
  obtain ⟨w, hw⟩ : ∃ w, w = (clearScratch s).modComp c (Comp.turns d s.strokeOfDirection) := ⟨_, rfl⟩
  have hwc : w.comp c = (s.comp c).turns d s.strokeOfDirection := by
    rw [hw]
    exact modComp_comp_same _ _ _
  have hturned := Comp.turns_eq (stroke := s.strokeOfDirection) hunshut
  have hopen : compOnOpen c (s.arrivedDir c d true) = w := by
    rw [compOnOpen_stroke hsd (by rw [hu, e1, hst]) (by rw [hu, e2, hstep]) (by rw [hu, hv]; exact hsup)
      (by rw [hu, hv]; exact Valve.arrived_isOpen _ _), arrivedDir_modComp, hw]
    refine modComp_congr ?_
    show Comp.withValve d ((((s.comp c).arrives d true).valve d).shutting s.strokeOfDirection)
      { (s.comp c).arrives d true with stroked := true } = (s.comp c).turns d s.strokeOfDirection
    rw [hturned, hv, hplain]
    cases d <;> rfl
  obtain ⟨hrests, hclosed⟩ := Comp.turns_rests (stroke := s.strokeOfDirection) hunshut hsd hst hstep w.protection.deadTime
  rw [← hwc] at hrests hclosed
  have haw : (s.comp c).awaits = none := by
    unfold Comp.awaits
    rcases hsd with ⟨rfl, rfl⟩ | ⟨rfl, rfl⟩
    · simp [hst, hstep, show (s.comp c).push.isShut = false from hunshut]
    · simp [hst, hstep, show (s.comp c).draw.isShut = false from hunshut]
  have hadv := compAdvance_stages hopen (compOnRun_rests hrests.unrun) (compOnShut_off hclosed) (compPassGuard_rests hrests)
  obtain ⟨t, hexec, hframe, -, hflag⟩ := dirArrival_alone hn haw hq (hadv.trans hw) (by
    rw [Comp.turns_valve hunshut, hmoving]
    exact nofun)
  exact ⟨t, hexec, hframe, hflag⟩

/-! ## The push valve open for the run -/

/-- The push valve has opened for the proof's run. -/
def State.opensToRun (s : State) (c : CompNo) : Prop :=
  (s.comp c).step = some .runWait ∧ (s.comp c).startOn = false ∧ (s.comp c).push.nears true

/-- The start output turned on in a proof (R135). -/
def Comp.provesStart (time : Timer) (k : Comp) : Comp := { k.arrives .push true with startOn := true, startTimer := time }

omit hq in
theorem arrivedDir_provesStart (h : s.opensToRun c) :
    compOnOpen c (s.arrivedDir c .push true) = (clearScratch s).modComp c (Comp.provesStart (.seconds (s.site (·.startTime)))) := by
  obtain ⟨hstep, hon, -⟩ := h
  obtain ⟨e1, e2, -, e4, -⟩ := Comp.arrives_fields .push true (s.comp c)
  have hu := arrivedDir_comp s c .push true
  have ho : ((s.comp c).arrives .push true).push.isOpen = true :=
    (congrArg Valve.isOpen (Comp.arrives_valve .push true (s.comp c))).trans (Valve.arrived_isOpen _ _)
  unfold compOnOpen
  dsimp only
  rw [hu, e1, e2, e4, hst, hstep, hon, ho]
  exact (if_pos rfl).trans (arrivedDir_modComp s c .push true _)

omit hq in
theorem opensToRun_awaits (h : s.opensToRun c) : (s.comp c).awaits = none := by
  obtain ⟨hstep, -, -, hm, -⟩ := h
  have hsh : (s.comp c).push.isShut = false := by simp [Valve.isShut, hm]
  unfold Comp.awaits
  rw [hst, hstep, hsh]
  simp

omit hq in
theorem provesStart_fields (time : Timer) : ((s.comp c).provesStart time).state = .proof ∧ ((s.comp c).provesStart time).step = (s.comp c).step ∧
    ((s.comp c).provesStart time).run = (s.comp c).run := by
  obtain ⟨e1, e2, -, -, -, e6, -⟩ := Comp.arrives_fields .push true (s.comp c)
  exact ⟨e1.trans hst, e2, e6⟩

omit hq hst in
/-- The push valve stands elsewhere once it has arrived. -/
theorem opensToRun_moves (h : s.opensToRun c) : ((s.comp c).arrives .push true).push.state ≠ (s.comp c).push.state := by
  obtain ⟨-, -, -, hm, -⟩ := h
  have hv := congrArg Valve.state (Comp.arrives_valve .push true (s.comp c))
  rw [hm, show ((s.comp c).arrives .push true).push.state = some .opened from hv]
  exact nofun

/-- The start output on, no run feedback yet. -/
theorem push_starts (h : s.opensToRun c) (hr : (s.comp c).run.active = false) :
    ∃ t, exec (.limitChange (.direction c .push) true false) s = .next t ∧
      t.frame = { s.frame with comps := s.comps.set c ((s.comp c).provesStart (.seconds (s.site (·.startTime)))) } ∧
      t.changes.comps.getLsbD c = true := by
  obtain ⟨w, hw⟩ : ∃ w, w = (clearScratch s).modComp c (Comp.provesStart (.seconds (s.site (·.startTime)))) := ⟨_, rfl⟩
  have hwc : w.comp c = (s.comp c).provesStart (.seconds (s.site (·.startTime))) := by
    rw [hw]
    exact modComp_comp_same _ _ _
  obtain ⟨g1, g2, g3⟩ := provesStart_fields hst (.seconds (s.site (·.startTime)))
  rw [← hwc] at g1 g2 g3
  have hon : (w.comp c).startOn = true := by
    rw [hwc]
    rfl
  rw [h.1] at g2
  have hrun : (w.comp c).run.active = false := by rw [g3, hr]
  have hrests : (w.comp c).Rests w.protection.deadTime := by
    refine ⟨fun e he => ?_, ?_, .inl hrun⟩
    · unfold Comp.awaits at he
      rw [g1, g2, hon] at he
      cases he
    · simp [Comp.opened, g1, g2, hon]
  have hadv := compAdvance_stages ((arrivedDir_provesStart hst h).trans hw.symm) (compOnRun_inactive hrun)
    (compOnShut_off (by simp [Comp.closed, g1, g2])) (compPassGuard_rests hrests)
  obtain ⟨t, hexec, hframe, -, hflag⟩ := dirArrival_alone h.2.2 (opensToRun_awaits hst h) hq (hadv.trans hw) (opensToRun_moves h)
  exact ⟨t, hexec, hframe, hflag⟩

/-- A proof's run begun at the push valve's arrival (R135). -/
def Comp.provesRun (time : Timer) (k : Comp) : Comp :=
  { k.arrives .push true with startOn := true, startTimer := .stopped, step := some .proofRun, runTimer := time }

/-- Run feedback stands active already: the proof runs at once. -/
theorem push_runs (h : s.opensToRun c) (hr : (s.comp c).run.active = true) :
    ∃ t, exec (.limitChange (.direction c .push) true false) s = .next t ∧
      t.frame = { s.frame with comps := s.comps.set c ((s.comp c).provesRun (.seconds (s.site (·.proofTime)))) } ∧
      t.changes.comps.getLsbD c = true := by
  obtain ⟨w, hw⟩ : ∃ w, w = (clearScratch s).modComp c (Comp.provesStart (.seconds (s.site (·.startTime)))) := ⟨_, rfl⟩
  obtain ⟨x, hx⟩ : ∃ x, x = (clearScratch s).modComp c (Comp.provesRun (.seconds (s.site (·.proofTime)))) := ⟨_, rfl⟩
  have hwc : w.comp c = (s.comp c).provesStart (.seconds (s.site (·.startTime))) := by
    rw [hw]
    exact modComp_comp_same _ _ _
  obtain ⟨g1, g2, g3⟩ := provesStart_fields hst (.seconds (s.site (·.startTime)))
  have hrun : compOnRun c w = x := by
    rw [compOnRun_proof (by rw [hwc, g3, hr]) (by rw [hwc]; rfl) (by rw [hwc, g2, h.1]) (by rw [hwc, g1]), hw, modComp_modComp, hx]
    rfl
  have hxc : x.comp c = (s.comp c).provesRun (.seconds (s.site (·.proofTime))) := by
    rw [hx]
    exact modComp_comp_same _ _ _
  have hx1 : (x.comp c).state = .proof := by
    rw [hxc]
    exact g1
  have hx2 : (x.comp c).step = some .proofRun := by
    rw [hxc]
    rfl
  have hrests : (x.comp c).Rests x.protection.deadTime := by
    refine ⟨fun e he => ?_, ?_, .inr (.inl (by rw [hx2]; exact nofun))⟩
    · unfold Comp.awaits at he
      rw [hx1, hx2] at he
      cases he
    · simp [Comp.opened, hx1, hx2]
  have hadv := compAdvance_stages ((arrivedDir_provesStart hst h).trans hw.symm) hrun
    (compOnShut_off (by simp [Comp.closed, hx1, hx2])) (compPassGuard_rests hrests)
  obtain ⟨t, hexec, hframe, -, hflag⟩ := dirArrival_alone h.2.2 (opensToRun_awaits hst h) hq (hadv.trans hx) (opensToRun_moves h)
  exact ⟨t, hexec, hframe, hflag⟩

end Proof

end Sys2Proof.Machine
end

section
/-! PROOFS. The end of a proof, and a compressor whose run feedback stands active at its direction valve's arrival (R124, R125, R135). -/

namespace Sys2Proof.Machine

/-! ## The end of a compressor's test -/

theorem endCompTest_frame (c : CompNo) (s : State) : (endCompTest c s).frame = { s.frame with
    tests := { s.tests with comps := s.tests.comps.filter (· ≠ c) }
    siding := if s.siding = .commissioning ∧ s.tests.spots = [] ∧ (∀ k ∈ s.tests.comps, k = c) then .operating else s.siding } := by
  have hiff : (s.tests.comps.filter (· ≠ c) = []) ↔ ∀ k ∈ s.tests.comps, k = c := by simp [List.filter_eq_nil_iff]
  unfold endCompTest settleTests
  simp only [hiff]
  split <;> rfl

theorem endCompTest_scratch (c : CompNo) (s : State) : (endCompTest c s).scratch = s.scratch := by
  unfold endCompTest settleTests
  split <;> rfl

theorem endCompTest_comp (c d : CompNo) (s : State) : (endCompTest c s).comp d = s.comp d := by
  unfold endCompTest settleTests
  split <;> rfl

theorem endCompTest_waitsNowhere (c : CompNo) {s : State} (h : s.waitsNowhere) : (endCompTest c s).waitsNowhere := by
  unfold endCompTest settleTests
  split <;> exact h

/-- A compressor that has passed its test at its push valve's arrival (R135). -/
def Comp.passes (k : Comp) : Comp :=
  { k with
    state := .stopped, step := none, dir := none, fault := none, stroked := false, pushMark := some 0
    push := { k.push.arrived false with retest := false }
    draw := { k.draw with retest := false } }

theorem Comp.arrives_passes {k : Comp} (h : k.push.nears false) :
    { (k.arrives .push false).mapValves Valve.passTest with state := .stopped, step := none, dir := none, fault := none, stroked := false } =
      k.passes := by
  have hsh : k.push.isShut = false := by
    obtain ⟨-, hm, -⟩ := h
    simp [Valve.isShut, hm]
  have harr : (k.push.arrived false).isShut = true := Valve.arrived_isShut _ _
  have hpass : ∀ v : Valve, v.passTest.isShut = v.isShut := fun _ => rfl
  simp [Comp.arrives, Comp.mapValves, Comp.putValve, Comp.valve, Comp.setMark, hsh, harr, hpass]
  rfl

section Passing

variable {s : State} {c : CompNo} (hq : s.waitsNowhere) (hst : (s.comp c).state = .proof) (hstep : (s.comp c).step = some .stopping)
  (hn : (s.comp c).push.nears false)

include hst hstep hn

theorem compAdvance_passes : compAdvance c (s.arrivedDir c .push false) = endCompTest c ((clearScratch s).modComp c Comp.passes) := by
  obtain ⟨e1, e2, -⟩ := Comp.arrives_fields .push false (s.comp c)
  have hu := arrivedDir_comp s c .push false
  have hsh : ((s.comp c).arrives .push false).push.isShut = true :=
    (congrArg Valve.isShut (Comp.arrives_valve .push false (s.comp c))).trans (Valve.arrived_isShut _ _)
  obtain ⟨w, hw⟩ : ∃ w, w = endCompTest c ((clearScratch s).modComp c Comp.passes) := ⟨_, rfl⟩
  have hwc : w.comp c = (s.comp c).passes := by
    rw [hw, endCompTest_comp]
    exact modComp_comp_same _ _ _
  have hwork : compOnShut c (s.arrivedDir c .push false) = w := by
    have hpass : passProof c (s.arrivedDir c .push false) = w := by
      unfold passProof
      rw [arrivedDir_modComp, hw]
      exact congrArg (endCompTest c) (modComp_congr (Comp.arrives_passes hn))
    unfold compOnShut
    dsimp only
    rw [hu, e1, e2, hst, hstep, hsh]
    exact (if_pos rfl).trans hpass
  have hstopped : (w.comp c).state = .stopped ∧ (w.comp c).step = none := by
    rw [hwc]
    exact ⟨rfl, rfl⟩
  obtain ⟨hw1, hw2⟩ := hstopped
  have hrests : (w.comp c).Rests w.protection.deadTime := by
    refine ⟨fun e he => ?_, ?_, .inr (.inl (by rw [hw2]; exact nofun))⟩
    · unfold Comp.awaits at he
      rw [hw1, hw2] at he
      cases he
    · simp [Comp.opened, hw1]
  have hstage := arrives_shut_stage (s := s) (c := c) (d := .push) (by simp [Comp.opened, e1, e2, hst, hstep])
    (by rw [hstep]; exact nofun)
  unfold compAdvance compOnArrivals
  rw [hstage, hwork, compPassGuard_rests hrests, hw]

include hq

theorem push_passes :
    ∃ t, exec (.limitChange (.direction c .push) false true) s = .next t ∧
      t.frame = { s.frame with
        comps := s.comps.set c (s.comp c).passes
        tests := { s.tests with comps := s.tests.comps.filter (· ≠ c) }
        siding := if s.siding = .commissioning ∧ s.tests.spots = [] ∧ (∀ k ∈ s.tests.comps, k = c) then .operating
          else s.siding } ∧
      t.changes.comps.getLsbD c = true := by
  have haw : (s.comp c).awaits = none := by
    unfold Comp.awaits
    rw [hst, hstep]
  have hexec := exec_dirArrival (s := s) (c := c) (d := .push) hn haw
  rw [compAdvance_passes hst hstep hn] at hexec
  obtain ⟨w, hw⟩ : ∃ w, w = (clearScratch s).modComp c Comp.passes := ⟨_, rfl⟩
  have hwf : w.frame = { s.frame with comps := s.comps.set c (s.comp c).passes } := by
    rw [hw]
    rfl
  have hwx : (endCompTest c w).scratch = .empty := by
    rw [endCompTest_scratch, hw]
    rfl
  have hsettle : settle (endCompTest c w) = endCompTest c w := by
    refine settle_quietly (endCompTest_waitsNowhere c ?_)
    rw [hw]
    exact waitsNowhere_modComp c _ (waitsNowhere_of_frame (clearScratch_frame s) hq)
  rw [← hw, hsettle] at hexec
  refine ⟨_, hexec, ?_, ?_⟩
  · rw [closeEvent_frame_quiet _ _ (by rw [hwx]; rfl) (by rw [hwx]; rfl), endCompTest_frame, hwf,
      show w.tests = s.tests from congrArg Frame.tests hwf, show w.siding = s.siding from congrArg Frame.siding hwf]
  · refine compFlag_of_view CompView.state ?_
    show (s.comp c).state ≠ ((endCompTest c w).comp c).state
    rw [endCompTest_comp, hw, modComp_comp_same, hst]
    exact nofun

end Passing

/-! ## Run feedback at the arrival of a start's direction valve -/

section Feedback

variable {s : State} {c : CompNo} {d : Direction} (hst : (s.comp c).state = .starting ∨ (s.comp c).state = .reversing)
  (hstep : (s.comp c).step = some .valveOpening) (hdir : (s.comp c).dir = some d) (hn : ((s.comp c).valve d).nears true)
  (hr : (s.comp c).run.active = true)

theorem startedDir_fields (s : State) (c : CompNo) (d : Direction) : ((s.startedDir c d).comp c).state = .starting ∧
    ((s.startedDir c d).comp c).step = some .runWait ∧ ((s.startedDir c d).comp c).startOn = true ∧
    ((s.startedDir c d).comp c).run = (s.comp c).run ∧ ((s.startedDir c d).comp c).seated = (s.comp c).seated := by
  obtain ⟨-, -, -, -, -, e6, e7⟩ := Comp.arrives_fields d true (s.comp c)
  rw [startedDir_comp]
  exact ⟨rfl, rfl, rfl, e6, e7⟩

/-- A state of a compressor in which no stage acts on it. -/
def Comp.idle (k : Comp) : Prop := k.step = none

theorem Comp.idle_rests {k : Comp} (h : k.idle) (n : Nat) : k.Rests n ∧ ¬ k.closed := by
  have hstep : k.step = none := h
  refine ⟨⟨fun e he => ?_, ?_, .inr (.inl (by rw [hstep]; exact nofun))⟩, ?_⟩
  · unfold Comp.awaits at he
    rw [hstep] at he
    split at he <;> simp_all
  · simp [Comp.opened, hstep]
  · simp [Comp.closed, hstep]

include hst hstep hdir

/-- What run feedback makes of the started compressor is the event's change of it. -/
theorem compAdvance_started {w : State} (hrun : compOnRun c (s.startedDir c d) = w) (hidle : (w.comp c).idle) :
    compAdvance c (s.arrivedDir c d true) = w := by
  obtain ⟨hrests, hclosed⟩ := Comp.idle_rests hidle w.protection.deadTime
  exact compAdvance_stages (arrivedDir_starts hst hstep hdir) hrun (compOnShut_off hclosed) (compPassGuard_rests hrests)

/-- A compressor that runs at once (R124). -/
def Comp.runsNow (d : Direction) (k : Comp) : Comp :=
  { k.arrives d true with state := .running, step := none, startOn := true, startTimer := .stopped }

/-- A compressor that enters RUN_ON at once (R125). -/
def Comp.runsOnNow (d : Direction) (time : Timer) (k : Comp) : Comp :=
  { k.arrives d true with state := .runOn, step := none, startOn := true, startTimer := .stopped, runTimer := time }

include hn hr

omit hst hstep hdir hn in
theorem runsNow_starts (hs : (s.comp c).seated ≠ []) :
    compOnRun c (s.startedDir c d) = (clearScratch s).modComp c (Comp.runsNow d) := by
  obtain ⟨g1, g2, g3, g4, g5⟩ := startedDir_fields s c d
  rw [compOnRun_starting_seated (by rw [g4]; exact hr) g3 g2 g1 (by rw [g5]; exact hs)]
  exact modComp_modComp _ _ _ _

theorem feedback_seated (hs : (s.comp c).seated ≠ []) :
    ∃ t u, exec (.limitChange (.direction c d) true false) s = .next t ∧
      u.frame = { s.frame with comps := s.comps.set c ((s.comp c).runsNow d) } ∧
      t.comps = (settle u).comps ∧ t.spots = (settle u).spots ∧ t.grants = (settle u).grants ∧
      t.changes.comps.getLsbD c = true ∧ s.sameStore t := by
  obtain ⟨u, hu⟩ : ∃ u, u = (clearScratch s).modComp c (Comp.runsNow d) := ⟨_, rfl⟩
  have huc : u.comp c = (s.comp c).runsNow d := by
    rw [hu]
    exact modComp_comp_same _ _ _
  have hexec := exec_dirArrival (s := s) (c := c) (d := d) hn (Comp.awaits_valveOpening hstep)
  rw [compAdvance_started hst hstep hdir ((runsNow_starts hr hs).trans hu.symm) (by rw [huc]; rfl)] at hexec
  have hkept : Kept (clearScratch s) (settle u) := by
    refine Kept.trans ?_ (kept_settle u)
    rw [hu]
    exact .modComp c _ _
  refine ⟨_, u, hexec, by rw [hu]; rfl, closeEvent_comps _ _, closeEvent_spots _ _, closeEvent_grants _ _, compFlag_of_settled ?_,
    hkept.sameStore (clearScratch_frame s) rfl⟩
  rw [huc]
  show (s.comp c).state ≠ .running
  rcases hst with e | e <;> rw [e] <;> exact nofun

/-- Without seats and with no head waiting, the event changes its compressor alone. -/
theorem feedback_alone {f : Comp → Comp} (hq : s.waitsNowhere) (hs : (s.comp c).seated = [])
    (hon : enterRunOn c (s.startedDir c d) = (clearScratch s).modComp c f) (hidle : (f (s.comp c)).idle)
    (hv : ((f (s.comp c)).valve d).state ≠ ((s.comp c).valve d).state) :
    ∃ t, exec (.limitChange (.direction c d) true false) s = .next t ∧ t.frame = { s.frame with comps := s.comps.set c (f (s.comp c)) } ∧
      t.comp c = f (s.comp c) ∧ t.changes.comps.getLsbD c = true := by
  obtain ⟨g1, g2, g3, g4, g5⟩ := startedDir_fields s c d
  have hrun : compOnRun c (s.startedDir c d) = (clearScratch s).modComp c f :=
    (compOnRun_starting_unseated (by rw [g4]; exact hr) g3 g2 g1 (by rw [g5]; exact hs)).trans hon
  exact dirArrival_alone hn (Comp.awaits_valveOpening hstep) hq
    (compAdvance_started hst hstep hdir hrun (by rw [modComp_comp_same]; exact hidle)) hv

theorem feedback_runsOn (hq : s.waitsNowhere) (hs : (s.comp c).seated = []) (htime : 0 < s.site (·.runOnTime)) :
    ∃ t, exec (.limitChange (.direction c d) true false) s = .next t ∧
      t.frame = { s.frame with comps := s.comps.set c ((s.comp c).runsOnNow d (.seconds (s.site (·.runOnTime)))) } ∧
      t.changes.comps.getLsbD c = true := by
  have hon : enterRunOn c (s.startedDir c d) = (clearScratch s).modComp c (Comp.runsOnNow d (.seconds (s.site (·.runOnTime)))) := by
    refine (if_neg (show ¬ s.site (·.runOnTime) = 0 from Nat.pos_iff_ne_zero.mp htime)).trans ?_
    exact modComp_modComp _ _ _ _
  obtain ⟨t, hexec, hframe, -, hflag⟩ := feedback_alone hst hstep hdir hn hr hq hs hon rfl (by
    have hsame : ((s.comp c).runsOnNow d (.seconds (s.site (·.runOnTime)))).valve d = ((s.comp c).arrives d true).valve d := by
      cases d <;> rfl
    rw [hsame, Comp.arrives_valve, hn.2.1]
    exact nofun)
  exact ⟨t, hexec, hframe, hflag⟩

/-- A compressor that stops at once (R125). -/
def Comp.stopsNow (d : Direction) (time stroke : Timer) (fe : Bool) (k : Comp) : Comp := ((k.arrives d true).starts time).stops stroke fe

omit hst hstep hdir hn hr in
theorem Comp.stops_valve (stroke : Timer) (fe : Bool) (k : Comp) (e : Direction) :
    (k.stops stroke fe).valve e = (k.valve e).toldShut stroke := by
  unfold Comp.stops
  rw [Comp.shutBoth_valve]
  cases e <;> rfl

omit hst hstep hdir hr in
theorem stopsNow_valve (time : Timer) : ((s.comp c).stopsNow d time s.strokeOfDirection s.fe).valve d =
    (((s.comp c).valve d).arrived true).shutting s.strokeOfDirection := by
  obtain ⟨hsup, -, -⟩ := hn
  have hv := Comp.arrives_valve d true (s.comp c)
  have hstarts : (((s.comp c).arrives d true).starts time).valve d = ((s.comp c).arrives d true).valve d := by cases d <;> rfl
  unfold Comp.stopsNow
  rw [Comp.stops_valve, hstarts, hv]
  exact Valve.toldShut_open hsup (Valve.arrived_isOpen _ _)

theorem feedback_stops (hq : s.waitsNowhere) (hs : (s.comp c).seated = []) (htime : s.site (·.runOnTime) = 0) :
    ∃ t, exec (.limitChange (.direction c d) true false) s = .next t ∧ (t.comp c).state = .stopped ∧
      (t.comp c).step = none ∧ (t.comp c).dir = none ∧ (t.comp c).startOn = false ∧ (t.comp c).startTimer = .stopped ∧
      (t.comp c).runTimer = .stopped ∧
      (t.comp c).valve d = (((s.comp c).valve d).arrived true).shutting s.strokeOfDirection ∧
      (t.comp c).push.command = .toShut ∧ (t.comp c).draw.command = .toShut ∧ t.changes.comps.getLsbD c = true ∧
      t.frame = { s.frame with comps := s.comps.set c (t.comp c) } := by
  have hon : enterRunOn c (s.startedDir c d) = (clearScratch s).modComp c
      (Comp.stopsNow d (.seconds (s.site (·.startTime))) s.strokeOfDirection s.fe) := by
    refine (if_pos (show s.site (·.runOnTime) = 0 from htime)).trans ?_
    rw [stopComp_eq]
    exact modComp_modComp _ _ _ _
  have hbare := Comp.stops_bare s.strokeOfDirection s.fe (((s.comp c).arrives d true).starts (.seconds (s.site (·.startTime))))
  have e1 := congrArg Comp.state hbare
  have e2 := congrArg Comp.step hbare
  have e3 := congrArg Comp.dir hbare
  have e4 := congrArg Comp.startOn hbare
  have e5 := congrArg Comp.startTimer hbare
  have e6 := congrArg Comp.runTimer hbare
  have hval := stopsNow_valve hn (.seconds (s.site (·.startTime)))
  have hpush := Comp.stops_command s.strokeOfDirection s.fe (((s.comp c).arrives d true).starts (.seconds (s.site (·.startTime)))) .push
  have hdraw := Comp.stops_command s.strokeOfDirection s.fe (((s.comp c).arrives d true).starts (.seconds (s.site (·.startTime)))) .draw
  obtain ⟨t, hexec, hframe, htc, hflag⟩ := feedback_alone hst hstep hdir hn hr hq hs hon e2 (by
    rw [hval, hn.2.1]
    exact nofun)
  rw [← htc] at hframe hval
  refine ⟨t, hexec, ?_, ?_, ?_, ?_, ?_, ?_, hval, ?_, ?_, hflag, hframe⟩ <;> rw [htc]
  exacts [e1, e2, e3, e4, e5, e6, hpush, hdraw]

end Feedback

/-- Settles O58: each direction valve's arrival, by the state and the step it finds its compressor in. -/
theorem directionValveArrivalsMoveOn : Obligations.DirectionValveArrivalsMoveOn := by
  refine ⟨fun s c _ hq h0 => ⟨fun d hst hstep hdir hn hr => opening_starts hst hstep hdir hn hr hq,
    fun d hst hstep hdir hn ho => ?_, fun hst => ⟨fun hstep hn ho => settling_draw h0 hq hst hstep hn ho,
      fun hstep hn ho => ⟨fun hm => settling_push hq hst hstep hn ho hm,
        fun age hm hage hfe hcmd => settling_opens hq hst hstep hn ho hm hage hfe hcmd⟩,
      fun d st hsd hstep ho hon => ⟨fun _ hn => stroke_opens hq hst hsd hstep hn,
        fun hs hn => stroked_shut h0 hq hsd hst hstep ho hon hs hn⟩,
      fun hstep hon hn hr => push_starts hq hst ⟨hstep, hon, hn⟩ hr,
      fun hstep hon hn hr => push_runs hq hst ⟨hstep, hon, hn⟩ hr,
      fun hstep hn => push_passes hq hst hstep hn⟩⟩,
    fun s c d _ hst hstep hdir hn hr => ⟨fun hs => feedback_seated hst hstep hdir hn hr hs,
      fun hs hq htime => feedback_runsOn hst hstep hdir hn hr hq hs htime,
      fun hs hq htime => feedback_stops hst hstep hdir hn hr hq hs htime⟩⟩
  have h := reversing_shut h0 hq hst hstep (by rw [Direction.other_other]; exact hdir) hn (by rw [Direction.other_other]; exact ho)
  obtain ⟨-, -, -, -, e5, -⟩ := Comp.arrives_fields d.other false (s.comp c)
  unfold State.shutLeads Comp.reaches at h
  rw [← e5] at h
  exact h

end Sys2Proof.Machine
end

section
/-! PROOFS. The arbiter where one head waits (R127, R129): which compressor it turns to, what a seat makes of it, and what is due next. -/

namespace Sys2Proof.Machine

/-! ## The compressor that seats an entry -/

/-- The lowest-numbered compressor of a kind. -/
theorem allComps_find {p : CompNo → Bool} {c : CompNo} (hc : p c = true) (hlow : ∀ k, k < c → p k = false) :
    allComps.find? p = some c := by
  have hcase : ∀ k : CompNo, k = 0 ∨ k = 1 := by decide
  rcases hcase c with rfl | rfl
  · exact List.find?_cons_of_pos (p := p) hc
  · have h0 := hlow 0 (by decide)
    refine (List.find?_cons_of_neg (p := p) (by rw [h0]; exact Bool.false_ne_true)).trans ?_
    exact List.find?_cons_of_pos (p := p) hc

theorem allComps_find_none {p : CompNo → Bool} (h : ∀ k, p k = false) : allComps.find? p = none :=
  List.find?_eq_none.mpr fun k _ e => Bool.false_ne_true ((h k).symm.trans e)

section Seat

variable {u : State} {c : CompNo} {d : Direction}

theorem seatFor_working (h : u.hasSeat d c = true) (hlow : ∀ k, k < c → u.hasSeat d k = false) : u.seatFor d = some c := by
  unfold State.seatFor
  rw [allComps_find h hlow]

theorem seatFor_stopped (hno : ∀ k, u.hasSeat d k = false) (h : u.canStart c = true) (hlow : ∀ k, k < c → u.canStart k = false) :
    u.seatFor d = some c := by
  unfold State.seatFor
  rw [allComps_find_none hno]
  exact allComps_find h hlow

theorem seatFor_none (hno : ∀ k, u.hasSeat d k = false) (h : ∀ k, u.canStart k = false) : u.seatFor d = none := by
  unfold State.seatFor
  rw [allComps_find_none hno]
  exact allComps_find_none h

end Seat

/-! ## What is due -/

section Due

variable {u : State} {i : SpotNo} (hj : ∀ j, j ≠ i → ¬ (u.spot j).waits)

include hj

theorem mustJoin_none (hm : u.mustJoin i = false) : allSpots.any u.mustJoin = false := by
  refine List.any_eq_false.mpr fun j _ e => ?_
  by_cases hji : j = i
  · rw [hji, hm] at e
    cases e
  · exact hj j hji (mustJoin_waits e)

theorem unready (hr : u.headReady i = false) : allSpots.find? u.headReady = none := by
  refine List.find?_eq_none.mpr fun j _ e => ?_
  by_cases hji : j = i
  · rw [hji, hr] at e
    cases e
  · exact hj j hji (headReady_waits e)

/-- Nothing is due once the one head is neither ready nor to join, and no entry waits. -/
theorem due_rests (hr : u.headReady i = false) (hm : u.mustJoin i = false) (hg : u.grants = []) : u.due = none := by
  have hnext : u.nextGrant = none := by
    unfold State.nextGrant
    rw [hg]
    rfl
  have hturn : u.nextTurn = none := by
    unfold State.nextTurn
    rw [hg]
  unfold State.due
  rw [unready hj hr, mustJoin_none hj hm, hnext, hturn]
  simp

theorem due_ready (hr : u.headReady i = true) : u.due = some (.run i) := by
  have hfind : allSpots.find? u.headReady = some i := by
    cases h : allSpots.find? u.headReady with
    | none => exact absurd hr (List.find?_eq_none.mp h i (mem_allSpots i))
    | some j =>
      by_cases hji : j = i
      · rw [hji]
      · exact absurd (headReady_waits (List.find?_some h)) (hj j hji)
  unfold State.due
  rw [hfind]

variable {g : Grant} (hs : (u.spot i).seat = none) (hg : u.grants = [g]) (hgi : g.spot = i)

include hs hg hgi

/-- With the one entry in the queue the scan looks for its seat. -/
theorem due_scan : u.due = if u.fe then
    match u.nextGrant with
      | some (g, c) => some (.seat g c)
      | none => u.nextTurn.map fun p => .turn p.1 p.2
    else none := by
  have hm : u.mustJoin i = false := by
    unfold State.mustJoin
    rw [hg]
    simp [hgi]
  unfold State.due
  rw [headReady_none hj hs, mustJoin_none hj hm]
  rfl

variable (hfe : u.fe = true)

include hfe

theorem due_seats {c : CompNo} (h : u.seatFor g.dir = some c) : u.due = some (.seat g c) := by
  have hnext : u.nextGrant = some (g, c) := by
    unfold State.nextGrant
    rw [hg]
    simp [h]
  rw [due_scan hj hs hg hgi, if_pos hfe, hnext]

theorem due_turns (h : u.seatFor g.dir = none) : u.due = u.nextTurn.map fun p => .turn p.1 p.2 := by
  have hnext : u.nextGrant = none := by
    unfold State.nextGrant
    rw [hg]
    simp [h]
  rw [due_scan hj hs hg hgi, if_pos hfe, hnext]

end Due

/-! ## A seat granted -/

section Grant

variable {u : State} {c : CompNo} {g : Grant}

theorem grantSeat_spot : (grantSeat c g u).spot g.spot = { u.spot g.spot with seat := some c } := by
  rw [spot_of_spots (spots_grantSeat c g u)]
  exact modSpot_spot_same _ _ _

theorem grantSeat_elsewhere {j : SpotNo} (h : j ≠ g.spot) : (grantSeat c g u).spot j = u.spot j := by
  rw [spot_of_spots (spots_grantSeat c g u)]
  exact modSpot_spot_other _ _ _ _ h

theorem grantSeat_ungranted (hg : u.grants = [g]) : (grantSeat c g u).grants = [] := by
  have hfilter : (grantSeat c g u).grants = u.grants.filter (·.spot ≠ g.spot) := by
    unfold grantSeat
    dsimp only
    split <;> simp
  rw [hfilter, hg]
  simp

/-- The state in which the seated compressor acts. -/
def State.seatGiven (u : State) (c : CompNo) (g : Grant) : State :=
  dropGrant g.spot ((((u.touchSpot g.spot).touchComp c).modSpot g.spot fun sp => { sp with seat := some c }).modComp c fun k =>
    { k with seated := insertSpot g.spot k.seated })

theorem grantSeat_eq : grantSeat c g u = match (u.comp c).state with
    | .stopped => startComp c g.dir (u.seatGiven c g)
    | .runOn => (u.seatGiven c g).modComp c fun k => { k with state := .running, runTimer := .stopped }
    | .starting | .running | .reversing | .proof | .faulted => u.seatGiven c g := rfl

theorem seatGiven_comp (ht : (u.comp c).turning = none) :
    (u.seatGiven c g).comp c = { u.comp c with seated := insertSpot g.spot (u.comp c).seated } := by
  have hsame : (((((u.touchSpot g.spot).touchComp c).modSpot g.spot fun sp => { sp with seat := some c }).modComp c fun k =>
      { k with seated := insertSpot g.spot k.seated }).comp c) = { u.comp c with seated := insertSpot g.spot (u.comp c).seated } :=
    modComp_comp_same _ _ _
  unfold State.seatGiven
  rw [dropGrant_unturned (by rw [hsame]; exact ht), hsame]

theorem kept_seatGiven : Kept u (u.seatGiven c g) := by
  unfold State.seatGiven
  refine .trans ?_ (spotWork_dropGrant g.spot _).kept
  exact ((Kept.touchSpot g.spot u).trans (.touchComp c _)).trans ((Kept.modSpot g.spot _ _).trans (.modComp c _ _))

theorem grantSeat_stays (ht : (u.comp c).turning = none)
    (hst : (u.comp c).state = .starting ∨ (u.comp c).state = .reversing ∨ (u.comp c).state = .running) :
    (grantSeat c g u).comp c = { u.comp c with seated := insertSpot g.spot (u.comp c).seated } := by
  rw [grantSeat_eq]
  rcases hst with e | e | e <;> · rw [e]; exact seatGiven_comp ht

theorem grantSeat_runOn (ht : (u.comp c).turning = none) (hst : (u.comp c).state = .runOn) :
    (grantSeat c g u).comp c =
      { u.comp c with seated := insertSpot g.spot (u.comp c).seated, state := .running, runTimer := .stopped } := by
  rw [grantSeat_eq, hst]
  dsimp only
  rw [modComp_comp_same, seatGiven_comp ht]

end Grant

/-! ## A compressor that starts -/

/-- A compressor that has a direction to start toward (R123). -/
def Comp.heads (d : Direction) (k : Comp) : Comp := { k with state := .starting, step := some .deadTime, dir := some d }

section Starts

variable {u : State} {c : CompNo} {d : Direction}

theorem compOnArrivals_heads : compOnArrivals c (u.modComp c (Comp.heads d)) = u.modComp c (Comp.heads d) := by
  have hc : (u.modComp c (Comp.heads d)).comp c = (u.comp c).heads d := modComp_comp_same _ _ _
  have hopen : ¬ ((u.comp c).heads d).opened := by simp [Comp.opened, Comp.heads]
  have hclosed : ¬ ((u.comp c).heads d).closed := by simp [Comp.closed, Comp.heads]
  unfold compOnArrivals
  rw [compOnOpen_off (by rw [hc]; exact hopen), compOnRun_off (.inl (by rw [hc]; exact nofun)), compOnShut_off (by rw [hc]; exact hclosed)]

/-- The partner valve SHUT for the dead-time: the direction valve opens at once. -/
theorem startComp_opens {age : Nat} (hfe : u.fe = true) (hp : ((u.comp c).valve d.other).isShut = true)
    (hm : (u.comp c).mark d.other = some age) (hage : u.protection.deadTime * 100 ≤ age)
    (hsh : ((u.comp c).valve d).isShut = true) (hs : ((u.comp c).valve d).supervised = true) :
    (startComp c d u).comp c = ((u.comp c).heads d).opens u.strokeOfDirection d .valveOpening := by
  have hc : (u.modComp c (Comp.heads d)).comp c = (u.comp c).heads d := modComp_comp_same _ _ _
  have hv : ∀ e, ((u.comp c).heads d).valve e = (u.comp c).valve e := fun e => by cases e <;> rfl
  have hmark : ((u.comp c).heads d).mark d.other = some age := by
    rw [← hm]
    cases d <;> rfl
  have hpass := compPassGuard_opens (u := u.modComp c (Comp.heads d)) (c := c) (d := d) (st := .valveOpening) (age := age)
    (by rw [hc]; exact .inl ⟨rfl, rfl, rfl, rfl⟩) hfe (by rw [hc, hv]; exact hp) (by rw [hc]; exact hmark) hage (by rw [hc, hv]; exact hsh)
    (by rw [hc, hv]; exact hs)
  show (compPassGuard c (compOnArrivals c (u.modComp c (Comp.heads d)))).comp c = _
  rw [compOnArrivals_heads, hpass, modComp_comp_same, hc]
  rfl

/-- The partner valve SHUT for less than the dead-time: the compressor waits. -/
theorem startComp_waits {age : Nat} (hm : (u.comp c).mark d.other = some age) (hage : age < u.protection.deadTime * 100) :
    (startComp c d u).comp c = (u.comp c).heads d := by
  have hc : (u.modComp c (Comp.heads d)).comp c = (u.comp c).heads d := modComp_comp_same _ _ _
  have hrests : ((u.comp c).heads d).Rests u.protection.deadTime := by
    refine ⟨fun e he => ?_, by simp [Comp.opened, Comp.heads], .inr (.inl nofun)⟩
    have hdir : ((u.comp c).heads d).awaits = some d := rfl
    cases hdir.symm.trans he
    have hmark : ((u.comp c).heads d).mark d.other = some age := by
      rw [← hm]
      cases d <;> rfl
    have hlt : ¬ u.protection.deadTime * Config.ticksPerSecond ≤ age := Nat.not_le.mpr hage
    unfold Comp.provenShut
    rw [hmark]
    simp [hlt]
  show (compPassGuard c (compOnArrivals c (u.modComp c (Comp.heads d)))).comp c = _
  rw [compOnArrivals_heads, compPassGuard_rests (by rw [hc]; exact hrests), hc]

end Starts

end Sys2Proof.Machine
end

section
/-! PROOFS. A placed order that takes a seat (R64, R65, R127). -/

namespace Sys2Proof.Machine

/-! ## The head that has entered the grant queue -/

/-- `u` is `v` with the placed order WAITING at the head of spot `i`, alone in the grant queue. -/
structure Queued (v : State) (i : SpotNo) (d : Direction) (o : Order) (u : State) : Prop where
  kept : Kept v u
  others : ∀ j, j ≠ i → ¬ (u.spot j).waits
  spot : ∃ a n, u.spot i = { v.spot i with
    active := a, activeVersion := n, orders := [{ o with state := .waiting }], state := .staged }
  comps : u.comps = v.comps
  grants : u.grants = [{ spot := i, dir := d }]
  flag : u.scratch.spots.getLsbD i = true
  queue : ∀ k, v.fittedComp k = true → u.scratch.comps.getLsbD k = true

theorem Kept.profile_eq {v u : State} (h : Kept v u) : u.profile = v.profile := congrArg Fixed.profile h.fixed
theorem Kept.fe_eq {v u : State} (h : Kept v u) : u.fe = v.fe := congrArg Fixed.fe h.fixed

theorem Kept.site_eq {v u : State} (h : Kept v u) (f : Site → Nat) : u.site f = v.site f := by
  unfold State.site
  rw [h.profile_eq]

theorem Kept.protection_eq {v u : State} (h : Kept v u) : u.protection = v.protection := by
  unfold State.protection
  rw [h.profile_eq]

theorem Kept.strokeOfDirection_eq {v u : State} (h : Kept v u) : u.strokeOfDirection = v.strokeOfDirection := by
  unfold State.strokeOfDirection
  rw [h.profile_eq]

theorem Kept.fittedComp_eq {v u : State} (h : Kept v u) (k : CompNo) : u.fittedComp k = v.fittedComp k := by
  unfold State.fittedComp
  rw [h.site_eq]

section Queued

variable {v u : State} {i : SpotNo} {d : Direction} {o : Order} (h : Queued v i d o u)

include h

theorem Queued.comp (k : CompNo) : u.comp k = v.comp k := by
  unfold State.comp
  rw [h.comps]

theorem Queued.hasSeat (k : CompNo) : u.hasSeat d k = v.hasSeat d k := by
  unfold State.hasSeat
  dsimp only
  rw [h.comp k, h.kept.fittedComp_eq, h.kept.site_eq]

theorem Queued.canStart (k : CompNo) : u.canStart k = v.canStart k := by
  unfold State.canStart
  rw [h.comp k, h.kept.fittedComp_eq]

theorem Queued.head : (u.spot i).head = some { o with state := .waiting } := by
  obtain ⟨a, n, hi⟩ := h.spot
  rw [hi]
  rfl

theorem Queued.seat : (u.spot i).seat = (v.spot i).seat := by
  obtain ⟨a, n, hi⟩ := h.spot
  rw [hi]

/-- The seat granted: what it leaves of the state. -/
theorem Queued.given (c : CompNo) : (∀ j, j ≠ i → ¬ ((grantSeat c { spot := i, dir := d } u).spot j).waits) ∧
    (grantSeat c { spot := i, dir := d } u).spot i = { u.spot i with seat := some c } ∧
    (grantSeat c { spot := i, dir := d } u).grants = [] ∧ Kept u (grantSeat c { spot := i, dir := d } u) := by
  refine ⟨fun j hj => ?_, grantSeat_spot, grantSeat_ungranted h.grants, kept_grantSeat _ _ _⟩
  rw [grantSeat_elsewhere (g := { spot := i, dir := d }) hj]
  exact h.others j hj

end Queued

/-! ## A head that runs -/

/-- A spot whose valve is commanded open as far as field enable lets it (R143). -/
def Spot.tellsOpen (stroke : ValveName → Timer) (fe : Bool) (n : ValveName) (sp : Spot) : Spot :=
  sp.setValve n ((sp.valve n).told (stroke n) (fe && sp.state != .faulted) .toOpen)

/-- A spot that enters TRANSFER (R65). -/
def Spot.beginsTransfer (stroke : ValveName → Timer) (fe : Bool) (sp : Spot) : Spot :=
  (({ sp.modHead (fun o => { o with state := .running }) with
    state := .transfer, stall := .stopped, window := .seconds sp.active.window, windowCount := 0 } : Spot).tellsOpen stroke fe
      .liquid).tellsOpen stroke fe .vapour

/-- A spot that enters RECOVERY (R65). -/
def Spot.beginsRecovery (stroke : ValveName → Timer) (fe : Bool) (sp : Spot) : Spot :=
  ({ sp.modHead (fun o => { o with state := .running }) with
    state := .recovery, recoveryTimer := .seconds sp.active.recovery } : Spot).tellsOpen stroke fe .vapour

section Runs

variable {s : State} {i : SpotNo} {h : Order} (hh : (s.spot i).head = some h)

include hh

theorem runHead_liquid (hl : h.liquid.isSome = true) :
    runHead i s = (s.touchSpot i).modSpot i (Spot.beginsTransfer s.strokeOf s.fe) := by
  unfold runHead
  dsimp only
  rw [hh]
  dsimp only
  rw [if_pos hl, commandSpot_eq, commandSpot_eq, modSpot_modSpot, modSpot_modSpot]
  rfl

theorem runHead_recovery (hl : h.liquid.isSome = false) (hr : (s.spot i).residual.active = false) :
    runHead i s = (s.touchSpot i).modSpot i (Spot.beginsRecovery s.strokeOf s.fe) := by
  unfold runHead
  dsimp only
  rw [hh]
  dsimp only
  rw [if_neg (by rw [hl]; exact Bool.false_ne_true), if_neg (by rw [hr]; exact Bool.false_ne_true), commandSpot_eq, modSpot_modSpot]
  rfl

end Runs

section Begins

variable (stroke : ValveName → Timer) (fe : Bool) (sp : Spot)

theorem Spot.tellsOpen_bare (n : ValveName) : (sp.tellsOpen stroke fe n).bare = sp.bare := setValve_bare _ _ _

theorem Spot.tellsOpen_valve (n m : ValveName) : (sp.tellsOpen stroke fe n).valve m =
    if m = n then (sp.valve n).told (stroke n) (fe && sp.state != .faulted) .toOpen else sp.valve m := setValve_valve _ _ _ _

theorem Spot.beginsTransfer_bare : (sp.beginsTransfer stroke fe).bare =
    ({ sp.modHead (fun o => { o with state := .running }) with
      state := .transfer, stall := .stopped, window := .seconds sp.active.window, windowCount := 0 } : Spot).bare :=
  (tellsOpen_bare _ _ _ _).trans (tellsOpen_bare _ _ _ _)

theorem Spot.beginsRecovery_bare : (sp.beginsRecovery stroke fe).bare =
    ({ sp.modHead (fun o => { o with state := .running }) with
      state := .recovery, recoveryTimer := .seconds sp.active.recovery } : Spot).bare := tellsOpen_bare _ _ _ _

theorem Spot.beginsTransfer_commands : (sp.beginsTransfer stroke fe).liquid.command = .toOpen ∧
    (sp.beginsTransfer stroke fe).vapour.command = .toOpen := by
  have hl : (sp.beginsTransfer stroke fe).valve .liquid = _ := (tellsOpen_valve stroke fe _ .vapour .liquid).trans
    ((if_neg nofun).trans ((tellsOpen_valve stroke fe _ .liquid .liquid).trans (if_pos rfl)))
  have hv : (sp.beginsTransfer stroke fe).valve .vapour = _ := (tellsOpen_valve stroke fe _ .vapour .vapour).trans (if_pos rfl)
  exact ⟨(congrArg Valve.command hl).trans (Valve.told_command _ _ _ _), (congrArg Valve.command hv).trans (Valve.told_command _ _ _ _)⟩

theorem Spot.beginsRecovery_command : (sp.beginsRecovery stroke fe).vapour.command = .toOpen := by
  have hv : (sp.beginsRecovery stroke fe).valve .vapour = _ := (tellsOpen_valve stroke fe _ .vapour .vapour).trans (if_pos rfl)
  exact (congrArg Valve.command hv).trans (Valve.told_command _ _ _ _)

/-- The liquid valve starts to open. -/
theorem Spot.beginsTransfer_liquid {sp : Spot} (hs : sp.liquid.supervised = true) (h : sp.liquid.isShut = true) :
    (sp.beginsTransfer stroke true).liquid.state = some .movingOpen := by
  have hv : (sp.modHead fun o => { o with state := .running }).liquid = sp.liquid := by rw [modHead_eq]
  have hl : (sp.beginsTransfer stroke true).valve .liquid =
      (sp.modHead fun o => { o with state := .running }).liquid.told (stroke .liquid) true .toOpen :=
    (tellsOpen_valve stroke true _ .vapour .liquid).trans
      ((if_neg nofun).trans ((tellsOpen_valve stroke true _ .liquid .liquid).trans (if_pos rfl)))
  have e := congrArg Valve.state hl
  rw [hv, Valve.told_opening hs h] at e
  exact e

end Begins

end Sys2Proof.Machine
end

section
/-! PROOFS. A placed order whose head a compressor seats: which one, and whether the head runs at once (R64, R65, R127). -/

namespace Sys2Proof.Machine

/-! ## The rounds after a placed order's entry -/

section Seated

variable {s : State} {i : SpotNo} {c : CompNo} (h : (s.spot i).seat = some c)

include h

theorem mustJoin_seated : s.mustJoin i = false := by
  unfold State.mustJoin
  dsimp only
  rw [h]
  simp

theorem headReady_seated (hst : (s.comp c).state ≠ .running) : s.headReady i = false := by
  refine Bool.eq_false_iff.mpr fun e => hst ?_
  unfold State.headReady at e
  dsimp only at e
  split at e
  next hs =>
    cases hs.symm.trans h
    simp only [Bool.and_eq_true, beq_iff_eq] at e
    exact e.1.1.1.1.2
  next => cases e

end Seated

section Rounds

variable {v w : State} {i : SpotNo} {d : Direction} {o : Order} (hdue : w.due = some .join) (h : Queued v i d o (joinGrants w))
  (hseat : (v.spot i).seat = none) (hfe : v.fe = true)

/-- The state once compressor `c` has seated the head. -/
def State.seatedBy (w : State) (i : SpotNo) (d : Direction) (c : CompNo) : State := grantSeat c { spot := i, dir := d } (joinGrants w)

include h hseat hfe

theorem Queued.due_seat {c : CompNo} (hc : (joinGrants w).seatFor d = some c) :
    (joinGrants w).due = some (.seat { spot := i, dir := d } c) :=
  due_seats h.others (h.seat.trans hseat) h.grants rfl (h.kept.fe_eq.trans hfe) hc

include hdue

/-- The head has its seat and waits for its compressor. -/
theorem Queued.settles_waiting {c : CompNo} (hc : (joinGrants w).seatFor d = some c)
    (hst : ((w.seatedBy i d c).comp c).state ≠ .running) : settle w = w.seatedBy i d c := by
  obtain ⟨hothers, hspot, hgrants, -⟩ := h.given c
  have hseated : ((w.seatedBy i d c).spot i).seat = some c := congrArg Spot.seat hspot
  exact settle_twice hdue (h.due_seat hseat hfe hc) (due_rests hothers (headReady_seated hseated hst) (mustJoin_seated hseated) hgrants)

/-- The head has its seat at a compressor that runs, and its valves stand: it runs at once. -/
theorem Queued.settles_running {c : CompNo} (hc : (joinGrants w).seatFor d = some c) (hd : o.direction = d)
    (hst : ((w.seatedBy i d c).comp c).state = .running) (hdir : ((w.seatedBy i d c).comp c).dir = some d)
    (hv : (v.spot i).shutoff.isOpen = true ∧ (v.spot i).liquid.isShut = true ∧ (v.spot i).vapour.isShut = true)
    (hrun : ¬ ((runHead i (w.seatedBy i d c)).spot i).waits) : settle w = runHead i (w.seatedBy i d c) := by
  obtain ⟨hothers, hspot, hgrants, -⟩ := h.given c
  obtain ⟨a, n, hi⟩ := h.spot
  have hsp : (w.seatedBy i d c).spot i = { v.spot i with
      active := a, activeVersion := n, orders := [{ o with state := .waiting }], state := .staged, seat := some c } := by
    refine hspot.trans ?_
    rw [hi]
  have hready : (w.seatedBy i d c).headReady i = true := by
    obtain ⟨h1, h2, h3⟩ := hv
    unfold State.headReady
    dsimp only
    rw [hsp]
    show (_ && ((w.seatedBy i d c).comp c).state == .running && ((w.seatedBy i d c).comp c).dir == some o.direction &&
      (v.spot i).shutoff.isOpen && (v.spot i).liquid.isShut && (v.spot i).vapour.isShut) = true
    rw [hst, hdir, hd, h1, h2, h3]
    simp
  have hwork := spotWork_runHead i (w.seatedBy i d c)
  have hquiet : (runHead i (w.seatedBy i d c)).waitsNowhere := by
    refine ⟨fun j => ?_, ?_⟩
    · by_cases hji : j = i
      · rw [hji]
        exact hrun
      · rw [hwork.others j hji]
        exact hothers j hji
    · refine List.eq_nil_iff_forall_not_mem.mpr fun g hg => ?_
      have := hwork.grants g hg
      rw [show (w.seatedBy i d c).grants = [] from hgrants] at this
      cases this
  exact settle_thrice hdue (h.due_seat hseat hfe hc) (due_ready hothers hready) (due_none hquiet)

end Rounds

/-! ## The placing -/

section Place

variable {s : State} {i : SpotNo} {x : Instr} {r : OrderRequest} {l : Option Liquid} (ht : s.canTake (route x) = true)
  (hw : writingCode (code x) = true) (ha : ∀ v, v.frame = s.frame → answer x v = placedReply i r l (placeOrder i r l v))

include ht hw ha

/-- What the event of a placed order leaves, as the placing left it. -/
theorem place_event {o : Order} (htag : o.tag = r.tag)
    (hdone : ∀ v, v.frame = s.frame → Kept v (placeOrder i r l v) ∧ ((placeOrder i r l v).spot i).orders = [o]) :
    ∃ v t, v.frame = s.frame ∧ exec x s = .next t ∧ (∀ j, t.spot j = (placeOrder i r l v).spot j) ∧
      (∀ k, t.comp k = (placeOrder i r l v).comp k) ∧ t.grants = (placeOrder i r l v).grants ∧
      (∀ j : SpotNo, (placeOrder i r l v).scratch.spots.getLsbD j = true → t.changes.spots.getLsbD j = true) ∧
      (∀ k : CompNo, (placeOrder i r l v).scratch.comps.getLsbD k = true → t.changes.comps.getLsbD k = true) ∧ s.sameStore t := by
  obtain ⟨v, t, b, hv, ⟨hexec, -⟩, hframe, hch⟩ := place_answers ht hw ha htag fun v hv => (hdone v hv).2
  refine ⟨v, t, hv.frame, hexec, fun j => ?_, fun k => ?_, ?_, fun j hj => ?_, fun k hk => ?_,
    (hdone v hv.frame).1.sameStore hv.frame hframe⟩
  · rw [spot_of_frame hframe]
    exact closeEvent_spot v _ j
  · rw [comp_of_frame hframe]
    exact closeEvent_comp v _ k
  · rw [grants_of_frame hframe]
    exact closeEvent_grants v _
  · rw [hch]
    exact spotFlag_of_touched hj
  · rw [hch]
    exact compFlag_of_touched hk

end Place

section Queueing

variable {s : State} {i : SpotNo} {r : OrderRequest} {l : Option Liquid} (hq : (s.spot i).orders = [])
  (hst : (s.spot i).state = .connected) (htrip : s.tripsOrder (r.order l) = false) (hseat : (s.spot i).seat = none) (hw : s.waitsNowhere)

include hq hst htrip hseat hw

/-- A placed order enters the grant queue first. -/
theorem place_queued {v : State} (hv : v.frame = s.frame) :
    ∃ w, placeOrder i r l v = settle w ∧ w.due = some .join ∧ Queued v i (r.order l).direction (r.order l) (joinGrants w) := by
  obtain ⟨w, hplace, hwork, hflag, hgrants, hcomps, a, n, hwi⟩ := place_staged r l hq hst htrip hv
  have hhead : (w.spot i).head = some { r.order l with state := .waiting } := by
    rw [hwi]
    rfl
  have hothers : ∀ j, j ≠ i → ¬ (w.spot j).waits := fun j hj => by
    rw [hwork.others j hj, spot_of_frame hv]
    exact hw.1 j
  obtain ⟨hdue, hone⟩ := due_join hothers (hgrants.trans ((grants_of_frame hv).trans hw.2))
    ⟨by rw [hwi], Spot.headIs_of_head hhead rfl⟩ (by rw [hwi]; exact hseat) hhead
  have hkept := hwork.kept.trans (kept_joinGrants w)
  refine ⟨w, hplace, hdue, hkept, hothers, ⟨a, n, ?_⟩, hcomps, hone, hflag, fun k hk => ?_⟩
  · rw [spot_of_frame hv]
    exact hwi
  · exact touchQueue_flag (s := w) ((hwork.kept.fittedComp_eq k).trans hk)

end Queueing

end Sys2Proof.Machine
end

section
/-! PROOFS. The seat of a placed order: a compressor that starts for it, one that is on its way, and one that runs (R64, R65, R123,
R127). -/

namespace Sys2Proof.Machine

theorem mem_insertSpot (i : SpotNo) (l : List SpotNo) : i ∈ insertSpot i l := by
  induction l with
  | nil => exact List.mem_singleton.mpr rfl
  | cons j l ih =>
    unfold insertSpot
    split
    · exact List.mem_cons_self
    · exact List.mem_cons_of_mem _ ih

theorem Comp.putValve_mark_open {d : Direction} {v : Valve} {k : Comp} (hv : v.isShut = false) (hk : (k.valve d).isShut = true) :
    (k.putValve d v).mark d = none := by
  unfold Comp.putValve
  dsimp only
  rw [hv, hk]
  cases d <;> rfl

/-- A compressor that seats a spot. -/
def Comp.seats (i : SpotNo) (k : Comp) : Comp := { k with seated := insertSpot i k.seated }

theorem Comp.seats_valve (i : SpotNo) (k : Comp) (e : Direction) : (k.seats i).valve e = k.valve e ∧ (k.seats i).mark e = k.mark e := by
  cases e <;> exact ⟨rfl, rfl⟩

section Seated

variable {v w : State} {i : SpotNo} {d : Direction} {o : Order} {c : CompNo} (h : Queued v i d o (joinGrants w))
  (hturn : (v.comp c).turning = none)

include h hturn

theorem Queued.seatGiven : ((joinGrants w).seatGiven c { spot := i, dir := d }).comp c = (v.comp c).seats i := by
  rw [seatGiven_comp (by rw [h.comp]; exact hturn), h.comp]
  rfl

/-- A compressor on its way toward the direction. -/
theorem Queued.seated_waiting (hst : (v.comp c).state = .starting ∨ (v.comp c).state = .reversing) :
    (w.seatedBy i d c).comp c = (v.comp c).seats i := by
  have hs := grantSeat_stays (u := joinGrants w) (c := c) (g := { spot := i, dir := d }) (by rw [h.comp]; exact hturn)
    (by rw [h.comp]; exact hst.imp id .inl)
  rw [h.comp] at hs
  exact hs

/-- A compressor that runs, or runs on. -/
theorem Queued.seated_running (hst : (v.comp c).state = .running ∨ (v.comp c).state = .runOn) :
    (w.seatedBy i d c).comp c = { (v.comp c).seats i with
      state := .running, runTimer := if (v.comp c).state = .runOn then .stopped else (v.comp c).runTimer } := by
  rcases hst with e | e
  · have hs := grantSeat_stays (u := joinGrants w) (c := c) (g := { spot := i, dir := d }) (by rw [h.comp]; exact hturn)
      (by rw [h.comp]; exact .inr (.inr e))
    rw [h.comp] at hs
    refine hs.trans ?_
    rw [e, if_neg nofun, ← e]
    rfl
  · have hs := grantSeat_runOn (u := joinGrants w) (c := c) (g := { spot := i, dir := d }) (by rw [h.comp]; exact hturn)
      (by rw [h.comp]; exact e)
    rw [h.comp] at hs
    refine hs.trans ?_
    rw [e, if_pos rfl]
    rfl

variable {age : Nat} (hst : (v.comp c).state = .stopped) (hm : (v.comp c).mark d.other = some age)

include hst

omit hturn in
theorem Queued.seated_starts : (w.seatedBy i d c).comp c = (startComp c d ((joinGrants w).seatGiven c { spot := i, dir := d })).comp c := by
  unfold State.seatedBy
  rw [grantSeat_eq, h.comp, hst]

include hm

/-- A STOPPED compressor whose partner valve has stood SHUT for the dead-time. -/
theorem Queued.seated_opens (hfe : v.fe = true) (hp : ((v.comp c).valve d.other).isShut = true)
    (hage : v.protection.deadTime * 100 ≤ age) (hsh : ((v.comp c).valve d).isShut = true)
    (hs : ((v.comp c).valve d).supervised = true) : (w.seatedBy i d c).comp c =
      (((v.comp c).seats i).heads d).opens v.strokeOfDirection d .valveOpening := by
  have hk := h.kept.trans (kept_seatGiven (u := joinGrants w) (c := c) (g := { spot := i, dir := d }))
  have hy := h.seatGiven hturn
  obtain ⟨hv1, hm1⟩ := Comp.seats_valve i (v.comp c) d.other
  obtain ⟨hv2, -⟩ := Comp.seats_valve i (v.comp c) d
  rw [h.seated_starts hst, startComp_opens (age := age) (hk.fe_eq.trans hfe) (by rw [hy, hv1]; exact hp) (by rw [hy, hm1]; exact hm)
    (by rw [hk.protection_eq]; exact hage) (by rw [hy, hv2]; exact hsh) (by rw [hy, hv2]; exact hs), hy, hk.strokeOfDirection_eq]

/-- A STOPPED compressor whose partner valve has stood SHUT for less. -/
theorem Queued.seated_heads (hage : age < v.protection.deadTime * 100) :
    (w.seatedBy i d c).comp c = ((v.comp c).seats i).heads d := by
  have hk := h.kept.trans (kept_seatGiven (u := joinGrants w) (c := c) (g := { spot := i, dir := d }))
  have hy := h.seatGiven hturn
  obtain ⟨-, hm1⟩ := Comp.seats_valve i (v.comp c) d.other
  rw [h.seated_starts hst, startComp_waits (age := age) (by rw [hy, hm1]; exact hm) (by rw [hk.protection_eq]; exact hage), hy]

end Seated

end Sys2Proof.Machine
end

section
/-! PROOFS. PLACE ORDER where a compressor has a seat for its head (R64, R65, R123, R127). -/

namespace Sys2Proof.Machine

/-- An order placed by request `x` at the head of the empty queue of spot `i`, where no head waits yet. -/
structure Placing (s : State) (x : Instr) (i : SpotNo) (r : OrderRequest) (l : Option Liquid) (d : Direction) : Prop where
  taken : s.canTake (route x) = true
  writes : writingCode (code x) = true
  answers : ∀ v, v.frame = s.frame → answer x v = placedReply i r l (placeOrder i r l v)
  empty : (s.spot i).orders = []
  connected : (s.spot i).state = .connected
  untripped : s.tripsOrder (r.order l) = false
  unseated : (s.spot i).seat = none
  alone : s.waitsNowhere
  enabled : s.fe = true
  direction : (r.order l).direction = d

section Frames

variable {s v : State} (hv : v.frame = s.frame)

include hv

theorem site_of_frame (f : Site → Nat) : v.site f = s.site f := by
  have hp : v.profile = s.profile := congrArg Frame.profile hv
  unfold State.site
  rw [hp]

theorem hasSeat_of_frame (d : Direction) (k : CompNo) : v.hasSeat d k = s.hasSeat d k := by
  unfold State.hasSeat State.fittedComp
  dsimp only
  rw [comp_of_frame hv, site_of_frame hv, site_of_frame hv]

theorem canStart_of_frame (k : CompNo) : v.canStart k = s.canStart k := by
  unfold State.canStart State.fittedComp
  rw [comp_of_frame hv, site_of_frame hv]

end Frames

/-! ## A head that runs at once -/

/-- A spot whose seated head runs: TRANSFER for a LIQUID order, RECOVERY for the other (R65). -/
def Spot.begins (liquid : Bool) (stroke : ValveName → Timer) (fe : Bool) (sp : Spot) : Spot :=
  if liquid then sp.beginsTransfer stroke fe else sp.beginsRecovery stroke fe

theorem runHead_begins {s : State} {i : SpotNo} {h : Order} (hh : (s.spot i).head = some h) (hr : (s.spot i).residual.active = false) :
    runHead i s = (s.touchSpot i).modSpot i (Spot.begins h.liquid.isSome s.strokeOf s.fe) := by
  cases hl : h.liquid.isSome with
  | true => exact runHead_liquid hh hl
  | false => exact runHead_recovery hh hl hr

/-- What the spot of a head that runs keeps, and where its order stands. -/
theorem Spot.begins_fields (liquid : Bool) (stroke : ValveName → Timer) (fe : Bool) {sp : Spot} {o : Order} (ho : sp.orders = [o]) :
    (sp.begins liquid stroke fe).orders = [{ o with state := .running }] ∧ (sp.begins liquid stroke fe).seat = sp.seat ∧
      (sp.begins liquid stroke fe).vapour.command = .toOpen ∧ (sp.begins liquid stroke fe).active = sp.active := by
  cases liquid with
  | true =>
    have hbare := Spot.beginsTransfer_bare stroke fe sp
    rw [Spot.modHead_eq, ho] at hbare
    have e1 := congrArg Spot.orders hbare
    have e2 := congrArg Spot.seat hbare
    have e3 := congrArg Spot.active hbare
    obtain ⟨-, hv⟩ := Spot.beginsTransfer_commands stroke fe sp
    exact ⟨e1, e2, hv, e3⟩
  | false =>
    have hbare := Spot.beginsRecovery_bare stroke fe sp
    rw [Spot.modHead_eq, ho] at hbare
    have e1 := congrArg Spot.orders hbare
    have e2 := congrArg Spot.seat hbare
    have e3 := congrArg Spot.active hbare
    exact ⟨e1, e2, Spot.beginsRecovery_command stroke fe sp, e3⟩

section Placing

variable {s : State} {x : Instr} {i : SpotNo} {r : OrderRequest} {l : Option Liquid} {d : Direction} (h : Placing s x i r l d)

include h

theorem Placing.queued {v : State} (hv : v.frame = s.frame) :
    ∃ w, placeOrder i r l v = settle w ∧ w.due = some .join ∧ Queued v i d (r.order l) (joinGrants w) := by
  obtain ⟨w, hplace, hdue, hq⟩ := place_queued h.empty h.connected h.untripped h.unseated h.alone hv
  rw [h.direction] at hq
  exact ⟨w, hplace, hdue, hq⟩

theorem Placing.due {v : State} (hv : v.frame = s.frame) : (v.spot i).seat = none ∧ v.fe = true := by
  rw [spot_of_frame hv, fe_of_frame hv]
  exact ⟨h.unseated, h.enabled⟩

omit h in
/-- The compressor with the seat is the one the state before names. -/
theorem seatFor_queued {v w : State} {c : CompNo} {o : Order} (hv : v.frame = s.frame) (hq : Queued v i d o (joinGrants w)) :
    (s.hasSeat d c = true → (∀ k, k < c → s.hasSeat d k = false) → (joinGrants w).seatFor d = some c) ∧
      ((∀ k, s.hasSeat d k = false) → s.canStart c = true → (∀ k, k < c → s.canStart k = false) →
        (joinGrants w).seatFor d = some c) ∧
      ((∀ k, s.hasSeat d k = false) → (∀ k, s.canStart k = false) → (joinGrants w).seatFor d = none) := by
  have h1 : ∀ k, (joinGrants w).hasSeat d k = s.hasSeat d k := fun k => (hq.hasSeat k).trans (hasSeat_of_frame hv d k)
  have h2 : ∀ k, (joinGrants w).canStart k = s.canStart k := fun k => (hq.canStart k).trans (canStart_of_frame hv k)
  refine ⟨fun e hlow => seatFor_working ((h1 c).trans e) fun k hk => (h1 k).trans (hlow k hk),
    fun hno e hlow => seatFor_stopped (fun k => (h1 k).trans (hno k)) ((h2 c).trans e) fun k hk => (h2 k).trans (hlow k hk),
    fun hno hnone => seatFor_none (fun k => (h1 k).trans (hno k)) fun k => (h2 k).trans (hnone k)⟩

/-- The head has its seat and waits for the compressor. -/
theorem Placing.waits {c : CompNo} (hc : ∀ v w, v.frame = s.frame → Queued v i d (r.order l) (joinGrants w) →
      (joinGrants w).seatFor d = some c ∧ ((w.seatedBy i d c).comp c).state ≠ .running) :
    ∃ v w t, v.frame = s.frame ∧ Queued v i d (r.order l) (joinGrants w) ∧ exec x s = .next t ∧
      (t.spot i).state = .staged ∧ (t.spot i).headIs .waiting = true ∧ (t.spot i).seat = some c ∧
      t.comp c = (w.seatedBy i d c).comp c ∧ t.grants = [] ∧ t.changes.spots.getLsbD i = true ∧
      (∀ k, s.fittedComp k = true → t.changes.comps.getLsbD k = true) ∧ s.sameStore t := by
  have hsettled : ∀ v, v.frame = s.frame → ∃ w, Queued v i d (r.order l) (joinGrants w) ∧ placeOrder i r l v = w.seatedBy i d c := by
    intro v hv
    obtain ⟨w, hplace, hdue, hq⟩ := h.queued hv
    obtain ⟨hseat, hfe⟩ := h.due hv
    obtain ⟨hfor, hst⟩ := hc v w hv hq
    exact ⟨w, hq, hplace.trans (hq.settles_waiting hdue hseat hfe hfor hst)⟩
  obtain ⟨v, t, hv, hexec, hspots, hcomps, hgrants, hsf, hcf, hstore⟩ := place_event h.taken h.writes h.answers
    (o := { r.order l with state := .waiting }) rfl fun v hv => by
      obtain ⟨w, hq, hx⟩ := hsettled v hv
      obtain ⟨-, hspot, -, hk⟩ := hq.given c
      obtain ⟨a, n, hi⟩ := hq.spot
      rw [hx]
      exact ⟨hq.kept.trans hk, (congrArg Spot.orders hspot).trans (congrArg Spot.orders hi)⟩
  obtain ⟨w, hq, hx⟩ := hsettled v hv
  obtain ⟨-, hspot, hno, hk⟩ := hq.given c
  obtain ⟨a, n, hi⟩ := hq.spot
  rw [hi] at hspot
  rw [hx] at hspots hcomps hgrants hsf hcf
  have hti := (hspots i).trans hspot
  refine ⟨v, w, t, hv, hq, hexec, ?_, ?_, ?_, hcomps c, hgrants.trans hno, hsf i (hk.spots i hq.flag), fun k hfit => ?_, hstore⟩
  · rw [hti]
  · rw [hti]
    rfl
  · rw [hti]
  · refine hcf k (hk.comps k (hq.queue k ?_))
    unfold State.fittedComp
    rw [site_of_frame hv]
    exact hfit

/-- The head has its seat at a compressor that runs, over valves that stand: it runs at once. -/
theorem Placing.runs {c : CompNo} (hc : ∀ v w, v.frame = s.frame → Queued v i d (r.order l) (joinGrants w) →
      (joinGrants w).seatFor d = some c ∧ ((w.seatedBy i d c).comp c).state = .running ∧ ((w.seatedBy i d c).comp c).dir = some d)
    (hvalves : (s.spot i).shutoff.isOpen = true ∧ (s.spot i).liquid.isShut = true ∧ (s.spot i).vapour.isShut = true)
    (hres : (s.spot i).residual.active = false) :
    ∃ v w t, ∃ sp : Spot, v.frame = s.frame ∧ Queued v i d (r.order l) (joinGrants w) ∧ exec x s = .next t ∧
      t.spot i = sp.begins l.isSome s.strokeOf true ∧ sp.orders = [{ r.order l with state := .waiting }] ∧ sp.seat = some c ∧
      sp.liquid = (s.spot i).liquid ∧ t.comp c = (w.seatedBy i d c).comp c ∧ t.grants = [] ∧ t.changes.spots.getLsbD i = true ∧
      (∀ k, s.fittedComp k = true → t.changes.comps.getLsbD k = true) ∧ s.sameStore t := by
  have hsettled : ∀ v, v.frame = s.frame → ∃ w, ∃ sp : Spot, Queued v i d (r.order l) (joinGrants w) ∧
      placeOrder i r l v = runHead i (w.seatedBy i d c) ∧ (w.seatedBy i d c).grants = [] ∧ Kept (joinGrants w) (w.seatedBy i d c) ∧
      runHead i (w.seatedBy i d c) = ((w.seatedBy i d c).touchSpot i).modSpot i (Spot.begins l.isSome s.strokeOf true) ∧
      (w.seatedBy i d c).spot i = sp ∧ sp.orders = [{ r.order l with state := .waiting }] ∧ sp.seat = some c ∧
      sp.liquid = (s.spot i).liquid := by
    intro v hv
    obtain ⟨w, hplace, hdue, hq⟩ := h.queued hv
    obtain ⟨hseat, hfe⟩ := h.due hv
    obtain ⟨hfor, hst, hdir⟩ := hc v w hv hq
    obtain ⟨-, hspot, hno, hk⟩ := hq.given c
    obtain ⟨a, n, hi⟩ := hq.spot
    rw [hi, spot_of_frame hv] at hspot
    have hkv := hq.kept.trans hk
    have hhead : ((w.seatedBy i d c).spot i).head = some { r.order l with state := .waiting } := (congrArg Spot.head hspot).trans rfl
    have hresidual : ((w.seatedBy i d c).spot i).residual.active = false := (congrArg (fun sp : Spot => sp.residual.active) hspot).trans hres
    have hrun := runHead_begins hhead hresidual
    have hstroke : (w.seatedBy i d c).strokeOf = s.strokeOf := by
      funext m
      have hp : (w.seatedBy i d c).profile = s.profile := hkv.profile_eq.trans (congrArg Frame.profile hv)
      unfold State.strokeOf
      rw [hp]
    rw [hstroke, show (w.seatedBy i d c).fe = true from hkv.fe_eq.trans hfe] at hrun
    change runHead i (w.seatedBy i d c) = ((w.seatedBy i d c).touchSpot i).modSpot i (Spot.begins l.isSome s.strokeOf true) at hrun
    refine ⟨w, _, hq, hplace.trans ?_, hno, hk, hrun, hspot, rfl, rfl, rfl⟩
    refine hq.settles_running hdue hseat hfe hfor h.direction hst hdir (by rw [spot_of_frame hv]; exact hvalves) ?_
    rintro ⟨-, hwait⟩
    obtain ⟨horders, -⟩ := Spot.begins_fields l.isSome s.strokeOf true (sp := (w.seatedBy i d c).spot i)
      (o := { r.order l with state := .waiting }) ((congrArg Spot.orders hspot).trans rfl)
    rw [hrun, modSpot_spot_same] at hwait
    unfold Spot.headIs Spot.head at hwait
    rw [show (((w.seatedBy i d c).touchSpot i).spot i) = (w.seatedBy i d c).spot i from rfl, horders] at hwait
    cases hwait
  obtain ⟨v, t, hv, hexec, hspots, hcomps, hgrants, hsf, hcf, hstore⟩ := place_event h.taken h.writes h.answers
    (o := { r.order l with state := .running }) rfl fun v hv => by
      obtain ⟨w, sp, hq, hx, -, hk, hrun, hsp, horders, -⟩ := hsettled v hv
      rw [hx]
      refine ⟨(hq.kept.trans hk).trans (spotWork_runHead i _).kept, ?_⟩
      rw [hrun, modSpot_spot_same, show (((w.seatedBy i d c).touchSpot i).spot i) = sp from hsp]
      exact (Spot.begins_fields _ _ _ horders).1
  obtain ⟨w, sp, hq, hx, hno, hk, hrun, hsp, horders, hseat, hliquid⟩ := hsettled v hv
  have hkept := hk.trans (spotWork_runHead i (w.seatedBy i d c)).kept
  rw [hx] at hspots hcomps hgrants hsf hcf
  refine ⟨v, w, t, sp, hv, hq, hexec, ?_, horders, hseat, hliquid, ?_, ?_, hsf i (hkept.spots i hq.flag), fun k hfit => ?_, hstore⟩
  · rw [hspots, hrun, modSpot_spot_same, show (((w.seatedBy i d c).touchSpot i).spot i) = sp from hsp]
  · rw [hcomps, hrun]
    rfl
  · rw [hgrants, hrun]
    exact hno
  · refine hcf k (hkept.comps k (hq.queue k ?_))
    unfold State.fittedComp
    rw [site_of_frame hv]
    exact hfit

end Placing

end Sys2Proof.Machine
end

section
/-! PROOFS. Orders that take seats (R64, R65, R123, R127). -/

namespace Sys2Proof.Machine

/-- The order of the obligations on seats and turns is a placing. -/
theorem placing_of {s : State} {via : Via} {place : Byte} {i : SpotNo} {tag : Word16} {kind : Byte} {target : Option Word32}
    {vessel : Option Byte} {closeAfter : Byte} {r : OrderRequest} {l : Option Liquid} {d : Direction} (ht : s.canTake via = true)
    (hn : s.namedSpot place = .ok i) (hop : s.siding = .operating) (hfe : s.fe = true) (hst : (s.spot i).state = .connected)
    (hq : (s.spot i).orders = []) (hseat : (s.spot i).seat = none) (hw : s.waitsNowhere)
    (hr : orderRequestOf tag kind target vessel closeAfter = some r)
    (hl : match r.liquid with
      | none => l = none
      | some lr => ∃ car v, s.boundCar i = some car ∧ s.judgeLiquid car lr = .ok v ∧ (s.vessel v).trip.active = false ∧
          l = some { target := lr.target, vessel := v, delivered := 0 })
    (hd : d = if l.isSome then .push else .draw) : Placing s (.placeOrder via place tag kind target vessel closeAfter) i r l d := by
  have hfound : s.tripsOrder (r.order l) = false ∧ (match r.liquid with
      | none => l = none
      | some lr => ∃ car v, s.boundCar i = some car ∧ s.judgeLiquid car lr = .ok v ∧
          l = some { target := lr.target, vessel := v, delivered := 0 }) := by
    cases hlr : r.liquid with
    | none =>
      rw [hlr] at hl
      have hnone : l = none := hl
      rw [hnone]
      exact ⟨rfl, rfl⟩
    | some lr =>
      rw [hlr] at hl
      obtain ⟨car, v, hb, hj, htrip, hl⟩ := hl
      refine ⟨?_, car, v, hb, hj, hl⟩
      rw [hl]
      exact htrip
  obtain ⟨htrip, hl'⟩ := hfound
  refine ⟨ht, rfl, fun v hv => ?_, hq, hst, htrip, hseat, hw, hfe, hd.symm⟩
  exact answer_placeOrder (v := v) (via := via) hn hop (by rw [hst]; rfl) (by rw [hq]; exact Nat.succ_pos _)
    (by unfold Spot.hasTag; rw [hq]; rfl) hr hl' hv

section Seats

variable {s : State} {x : Instr} {i : SpotNo} {r : OrderRequest} {l : Option Liquid} {d : Direction} (h : Placing s x i r l d) {c : CompNo}
  (hturn : ∀ k, (s.comp k).turning = none)

include h hturn

/-- No compressor works: the lowest-numbered STOPPED one starts. -/
theorem Placing.starts (hfit : s.fittedComp c = true) (hwork : ∀ k, (s.comp k).state.working = false) (hst : (s.comp c).state = .stopped)
    (hlow : ∀ k, k < c → s.fittedComp k = true → (s.comp k).state ≠ .stopped) (hp : ((s.comp c).valve d.other).isShut = true)
    (hsh : ((s.comp c).valve d).isShut = true) (hs : ((s.comp c).valve d).supervised = true) {age : Nat}
    (hm : (s.comp c).mark d.other = some age) :
    ∃ t, exec x s = .next t ∧
      (t.spot i).state = .staged ∧ (t.spot i).headIs .waiting = true ∧ (t.spot i).seat = some c ∧
      (t.comp c).state = .starting ∧ (t.comp c).dir = some d ∧ i ∈ (t.comp c).seated ∧ t.grants = [] ∧
      (s.protection.deadTime * 100 ≤ age → (t.comp c).step = some .valveOpening ∧
        (t.comp c).valve d = ((s.comp c).valve d).opening s.strokeOfDirection ∧ (t.comp c).mark d = none) ∧
      (age < s.protection.deadTime * 100 → (t.comp c).step = some .deadTime ∧
        (t.comp c).valve d = (s.comp c).valve d) ∧
      t.changes.spots.getLsbD i = true ∧ (∀ k, s.fittedComp k = true → t.changes.comps.getLsbD k = true) ∧
      s.sameStore t := by
  have hno : ∀ k, s.hasSeat d k = false := fun k => by
    unfold State.hasSeat
    dsimp only
    rw [hwork k]
    simp
  have hstart : s.canStart c = true := by
    unfold State.canStart
    rw [hfit, hturn c, hst]
    rfl
  have hlow' : ∀ k, k < c → s.canStart k = false := fun k hk => Bool.eq_false_iff.mpr fun e => by
    unfold State.canStart at e
    simp only [Bool.and_eq_true, beq_iff_eq] at e
    exact hlow k hk e.1.1 e.2
  have opens : s.protection.deadTime * 100 ≤ age → ∀ v w, v.frame = s.frame → Queued v i d (r.order l) (joinGrants w) →
      (w.seatedBy i d c).comp c = (((s.comp c).seats i).heads d).opens s.strokeOfDirection d .valveOpening := fun hage v w hv hq => by
    have hc := comp_of_frame hv c
    have hprof : v.profile = s.profile := congrArg Frame.profile hv
    have hstroke : v.strokeOfDirection = s.strokeOfDirection := by
      unfold State.strokeOfDirection
      rw [hprof]
    have hprot : v.protection = s.protection := by
      unfold State.protection
      rw [hprof]
    rw [hq.seated_opens (by rw [hc]; exact hturn c) (by rw [hc]; exact hst) (by rw [hc]; exact hm) (h.due hv).2 (by rw [hc]; exact hp)
      (by rw [hprot]; exact hage) (by rw [hc]; exact hsh) (by rw [hc]; exact hs), hc, hstroke]
  have heads : age < s.protection.deadTime * 100 → ∀ v w, v.frame = s.frame → Queued v i d (r.order l) (joinGrants w) →
      (w.seatedBy i d c).comp c = ((s.comp c).seats i).heads d := fun hage v w hv hq => by
    have hc := comp_of_frame hv c
    have hprot : v.protection = s.protection := by
      unfold State.protection
      rw [show v.profile = s.profile from congrArg Frame.profile hv]
    rw [hq.seated_heads (by rw [hc]; exact hturn c) (by rw [hc]; exact hst) (by rw [hc]; exact hm) (by rw [hprot]; exact hage), hc]
  have hbare := Comp.opens_bare s.strokeOfDirection d .valveOpening (((s.comp c).seats i).heads d)
  have hval := Comp.opens_valve s.strokeOfDirection d .valveOpening (((s.comp c).seats i).heads d)
  have hheads : (((s.comp c).seats i).heads d).valve d = (s.comp c).valve d := by cases d <;> rfl
  have hmark : ((((s.comp c).seats i).heads d).opens s.strokeOfDirection d .valveOpening).mark d = none := by
    have hput := Comp.putValve_mark_open (d := d) (v := ((((s.comp c).seats i).heads d).valve d).opening s.strokeOfDirection)
      (k := ((s.comp c).seats i).heads d) rfl (by rw [hheads]; exact hsh)
    cases d <;> exact hput
  have hfields : ∀ k : Comp, k = (((s.comp c).seats i).heads d).opens s.strokeOfDirection d .valveOpening ∨ k = ((s.comp c).seats i).heads d →
      k.state = .starting ∧ k.dir = some d ∧ k.seated = insertSpot i (s.comp c).seated := by
    rintro k (rfl | rfl)
    · have e1 := congrArg Comp.state hbare
      have e2 := congrArg Comp.dir hbare
      have e3 := congrArg Comp.seated hbare
      exact ⟨e1, e2, e3⟩
    · exact ⟨rfl, rfl, rfl⟩
  have hkind : ∀ v w, v.frame = s.frame → Queued v i d (r.order l) (joinGrants w) →
      (w.seatedBy i d c).comp c = (((s.comp c).seats i).heads d).opens s.strokeOfDirection d .valveOpening ∨
        (w.seatedBy i d c).comp c = ((s.comp c).seats i).heads d := fun v w hv hq =>
    (Nat.lt_or_ge age (s.protection.deadTime * 100)).elim (fun e => .inr (heads e v w hv hq)) fun e => .inl (opens e v w hv hq)
  obtain ⟨v, w, t, hv, hq, hexec, h1, h2, h3, hcomp, hno', hflag, hflags, hstore⟩ := h.waits (c := c) fun v w hv hq =>
    ⟨(seatFor_queued hv hq).2.1 hno hstart hlow', by
      obtain ⟨e, -⟩ := hfields _ (hkind v w hv hq)
      rw [e]
      exact nofun⟩
  obtain ⟨f1, f2, f3⟩ := hfields _ (hkind v w hv hq)
  rw [← hcomp] at f1 f2 f3
  refine ⟨t, hexec, h1, h2, h3, f1, f2, by rw [f3]; exact mem_insertSpot _ _, hno', fun hage => ?_, fun hage => ?_, hflag, hflags, hstore⟩
  · rw [hcomp, opens hage v w hv hq]
    exact ⟨congrArg Comp.step hbare, hval.trans (by rw [hheads]), hmark⟩
  · rw [hcomp, heads hage v w hv hq]
    exact ⟨rfl, hheads⟩

/-- A compressor on its way toward the direction has the seat. -/
theorem Placing.joins (hhas : s.hasSeat d c = true) (hlow : ∀ k, k < c → s.hasSeat d k = false)
    (hst : (s.comp c).state = .starting ∨ (s.comp c).state = .reversing) :
    ∃ t, exec x s = .next t ∧
      (t.spot i).state = .staged ∧ (t.spot i).headIs .waiting = true ∧ (t.spot i).seat = some c ∧
      t.comp c = { s.comp c with seated := insertSpot i (s.comp c).seated } ∧ t.grants = [] ∧
      t.changes.spots.getLsbD i = true ∧ (∀ k, s.fittedComp k = true → t.changes.comps.getLsbD k = true) ∧ s.sameStore t := by
  have seated : ∀ v w, v.frame = s.frame → Queued v i d (r.order l) (joinGrants w) →
      (w.seatedBy i d c).comp c = (s.comp c).seats i := fun v w hv hq => by
    have hc := comp_of_frame hv c
    rw [hq.seated_waiting (by rw [hc]; exact hturn c) (by rw [hc]; exact hst), hc]
  obtain ⟨v, w, t, hv, hq, hexec, h1, h2, h3, hcomp, hno, hflag, hflags, hstore⟩ := h.waits (c := c) fun v w hv hq =>
    ⟨(seatFor_queued hv hq).1 hhas hlow, by
      rw [seated v w hv hq]
      show (s.comp c).state ≠ .running
      rcases hst with e | e <;> rw [e] <;> exact nofun⟩
  exact ⟨t, hexec, h1, h2, h3, hcomp.trans (seated v w hv hq), hno, hflag, hflags, hstore⟩

/-- A compressor that runs, or runs on, has the seat, and the valves stand: the head runs. -/
theorem Placing.runsAt (hhas : s.hasSeat d c = true) (hlow : ∀ k, k < c → s.hasSeat d k = false)
    (hst : (s.comp c).state = .running ∨ (s.comp c).state = .runOn) (hso : (s.spot i).shutoff.isOpen = true)
    (hls : (s.spot i).liquid.isShut = true) (hvs : (s.spot i).vapour.isShut = true) (hres : (s.spot i).residual.active = false) :
    ∃ t, exec x s = .next t ∧
      (t.spot i).headIs .running = true ∧ (t.spot i).seat = some c ∧ (t.comp c).state = .running ∧
      (t.comp c).runTimer = (if (s.comp c).state = .runOn then .stopped else (s.comp c).runTimer) ∧
      (t.comp c).seated = insertSpot i (s.comp c).seated ∧ t.grants = [] ∧ (t.spot i).vapour.command = .toOpen ∧
      (l.isSome = true → (t.spot i).state = .transfer ∧ (t.spot i).liquid.command = .toOpen ∧
        ((s.spot i).liquid.supervised = true → (t.spot i).liquid.state = some .movingOpen) ∧
        (t.spot i).window = .seconds (t.spot i).active.window ∧ (t.spot i).windowCount = 0 ∧
        (t.spot i).stall = .stopped) ∧
      (l = none → (t.spot i).state = .recovery ∧
        (t.spot i).recoveryTimer = .seconds (t.spot i).active.recovery) ∧
      t.changes.spots.getLsbD i = true ∧ (∀ k, s.fittedComp k = true → t.changes.comps.getLsbD k = true) ∧ s.sameStore t := by
  have hdir : (s.comp c).dir = some d := by
    unfold State.hasSeat at hhas
    simp only [Bool.and_eq_true, beq_iff_eq] at hhas
    exact hhas.1.2
  have seated : ∀ v w, v.frame = s.frame → Queued v i d (r.order l) (joinGrants w) → (w.seatedBy i d c).comp c = { (s.comp c).seats i with
      state := .running, runTimer := if (s.comp c).state = .runOn then .stopped else (s.comp c).runTimer } := fun v w hv hq => by
    have hc := comp_of_frame hv c
    rw [hq.seated_running (by rw [hc]; exact hturn c) (by rw [hc]; exact hst), hc]
  obtain ⟨v, w, t, sp, hv, hq, hexec, hti, horders, hseat, hliquid, hcomp, hno, hflag, hflags, hstore⟩ := h.runs (c := c)
    (fun v w hv hq => ⟨(seatFor_queued hv hq).1 hhas hlow, by rw [seated v w hv hq], by rw [seated v w hv hq]; exact hdir⟩)
    ⟨hso, hls, hvs⟩ hres
  rw [seated v w hv hq] at hcomp
  obtain ⟨e1, e2, e3, -⟩ := Spot.begins_fields l.isSome s.strokeOf true horders
  rw [← hti] at e1 e2 e3
  refine ⟨t, hexec, ?_, e2.trans hseat, by rw [hcomp], by rw [hcomp], by rw [hcomp]; rfl, hno, e3, fun hl => ?_, fun hl => ?_, hflag, hflags,
    hstore⟩
  · unfold Spot.headIs Spot.head
    rw [e1]
    rfl
  · have hb : t.spot i = sp.beginsTransfer s.strokeOf true := by rw [hti, hl]; rfl
    have hbare := Spot.beginsTransfer_bare s.strokeOf true sp
    rw [← hb, Spot.modHead_eq] at hbare
    obtain ⟨hcmd, -⟩ := Spot.beginsTransfer_commands s.strokeOf true sp
    have g1 := congrArg Spot.state hbare
    have g2 := congrArg Spot.window hbare
    have g3 := congrArg Spot.windowCount hbare
    have g4 := congrArg Spot.stall hbare
    have g5 := congrArg Spot.active hbare
    refine ⟨g1, by rw [hb]; exact hcmd, fun hs => ?_, g2.trans (congrArg (fun a : Setpoints => Timer.seconds a.window) g5.symm), g3, g4⟩
    rw [hb]
    exact Spot.beginsTransfer_liquid s.strokeOf (by rw [hliquid]; exact hs) (by rw [hliquid]; exact hls)
  · have hb : t.spot i = sp.beginsRecovery s.strokeOf true := by rw [hti, hl]; rfl
    have hbare := Spot.beginsRecovery_bare s.strokeOf true sp
    rw [← hb, Spot.modHead_eq] at hbare
    have g1 := congrArg Spot.state hbare
    have g2 := congrArg Spot.recoveryTimer hbare
    have g5 := congrArg Spot.active hbare
    exact ⟨g1, g2.trans (congrArg (fun a : Setpoints => Timer.seconds a.recovery) g5.symm)⟩

end Seats

/-- Settles O59: a STOPPED compressor starts for the head, one on its way seats it, and one that runs lets it run. -/
theorem ordersTakeSeats : Obligations.OrdersTakeSeats := by
  intro s via place i tag kind target vessel closeAfter r l c d ht hn hop hfe hst hq hh hseat hw hr hl hd hfit hturn
  have h := placing_of ht hn hop hfe hst hq hseat hw hr hl hd
  exact ⟨fun hwork hstop hlow hp hsh hs age hm => h.starts hturn hfit hwork hstop hlow hp hsh hs hm,
    fun hhas hlow => ⟨fun hway => h.joins hturn hhas hlow hway,
      fun hrun hso hls hvs hres => h.runsAt hturn hhas hlow hrun hso hls hvs hres⟩⟩

end Sys2Proof.Machine
end

section
/-! PROOFS. A compressor that is marked TURNING, and one that reverses (R129 to R131). -/

namespace Sys2Proof.Machine

/-! ## A compressor that reverses -/

/-- A compressor that reverses toward a direction (R131). -/
def Comp.reverses (d : Direction) (stroke : Timer) (fe : Bool) (k : Comp) : Comp :=
  ({ k with state := .reversing, step := some .valvesShutting, dir := some d, turning := none, startOn := false,
            startTimer := .stopped, runTimer := .stopped } : Comp).shutBoth stroke fe

section Reverses

variable (d : Direction) (stroke : Timer) (fe : Bool) (k : Comp)

theorem Comp.reverses_bare : (k.reverses d stroke fe).bare = { k.bare with
    state := .reversing, step := some .valvesShutting, dir := some d, turning := none, startOn := false,
    startTimer := .stopped, runTimer := .stopped } := shutBoth_bare _ _ _

theorem Comp.reverses_valve (e : Direction) : (k.reverses d stroke fe).valve e = (k.valve e).toldShut stroke := by
  unfold Comp.reverses
  rw [shutBoth_valve]
  cases e <;> rfl

/-- What the reversal makes of the compressor's own fields. -/
theorem Comp.reverses_fields : (k.reverses d stroke fe).state = .reversing ∧ (k.reverses d stroke fe).step = some .valvesShutting ∧
    (k.reverses d stroke fe).dir = some d ∧ (k.reverses d stroke fe).turning = none ∧ (k.reverses d stroke fe).startOn = false ∧
    (k.reverses d stroke fe).runTimer = .stopped ∧ (k.reverses d stroke fe).seated = k.seated := by
  have h := Comp.reverses_bare d stroke fe k
  have e1 := congrArg Comp.state h
  have e2 := congrArg Comp.step h
  have e3 := congrArg Comp.dir h
  have e4 := congrArg Comp.turning h
  have e5 := congrArg Comp.startOn h
  have e6 := congrArg Comp.runTimer h
  have e7 := congrArg Comp.seated h
  exact ⟨e1, e2, e3, e4, e5, e6, e7⟩

end Reverses

/-- A reversal of which a valve does not stand SHUT yet goes no further. -/
theorem compAdvance_reversing {w : State} {c : CompNo} (hst : (w.comp c).state = .reversing)
    (hstep : (w.comp c).step = some .valvesShutting) {e : Direction} (hv : ((w.comp c).valve e).isShut = false) : compAdvance c w = w := by
  have hshut : compOnShut c w = w := by
    unfold compOnShut
    dsimp only
    rw [hst, hstep]
    refine if_neg fun h => ?_
    simp only [Bool.and_eq_true] at h
    obtain ⟨h1, h2⟩ := h
    cases e
    · exact Bool.false_ne_true (hv.symm.trans h1)
    · exact Bool.false_ne_true (hv.symm.trans h2)
  have hrests : (w.comp c).Rests w.protection.deadTime := by
    refine ⟨fun d hd => ?_, by simp [Comp.opened, hst, hstep], .inr (.inl (by rw [hstep]; exact nofun))⟩
    unfold Comp.awaits at hd
    rw [hst, hstep] at hd
    cases hd
  exact compAdvance_stages (compOnOpen_off hrests.unopened) (compOnRun_rests hrests.unrun) hshut (compPassGuard_rests hrests)

theorem enterReversing_eq {u : State} {c : CompNo} {d : Direction} (hs : ((u.comp c).valve d.other).supervised = true)
    (ho : ((u.comp c).valve d.other).isOpen = true) :
    enterReversing c d u = (u.touchComp c).modComp c (Comp.reverses d u.strokeOfDirection u.fe) := by
  obtain ⟨w, hw⟩ : ∃ w, w = (u.touchComp c).modComp c (Comp.reverses d u.strokeOfDirection u.fe) := ⟨_, rfl⟩
  have hc : w.comp c = (u.comp c).reverses d u.strokeOfDirection u.fe := by
    rw [hw]
    exact modComp_comp_same _ _ _
  obtain ⟨e1, e2, -⟩ := Comp.reverses_fields d u.strokeOfDirection u.fe (u.comp c)
  rw [← hc] at e1 e2
  have hv : ((w.comp c).valve d.other).isShut = false := by
    rw [hc, Comp.reverses_valve, Valve.toldShut_open hs ho]
    rfl
  have hadv := compAdvance_reversing e1 e2 hv
  rw [← hw]
  unfold enterReversing
  rw [shutDirs_eq, modComp_modComp]
  rw [hw] at hadv ⊢
  exact hadv

/-- A TURNING compressor without seats reverses (R130). -/
theorem compOnEmpty_turning {u : State} {c : CompNo} {i : SpotNo} {d : Direction} (h0 : (u.comp c).seated = [])
    (ht : (u.comp c).turning = some i) (hd : (u.comp c).dir = some d.other) (hw : (u.comp c).state.working = true)
    (hs : ((u.comp c).valve d.other).supervised = true) (ho : ((u.comp c).valve d.other).isOpen = true) :
    compOnEmpty c u = (u.touchComp c).modComp c (Comp.reverses d u.strokeOfDirection u.fe) := by
  unfold compOnEmpty
  dsimp only
  rw [h0, ht, hd]
  dsimp only
  rw [List.isEmpty_nil, if_pos rfl, if_pos hw, Direction.other_other]
  exact enterReversing_eq hs ho

theorem compOnEmpty_seated {u : State} {c : CompNo} (h : (u.comp c).seated ≠ []) : compOnEmpty c u = u := by
  unfold compOnEmpty
  exact if_neg (by simpa using h)

/-! ## The one compressor that can turn -/

/-- Every compressor but `c` neither works nor may start. -/
def State.onlyComp (s : State) (c : CompNo) : Prop :=
  ∀ k, k ≠ c → s.fittedComp k = false ∨ (s.comp k).state = .proof ∨ (s.comp k).state = .faulted

section Only

variable {s : State} {c : CompNo} (h : s.onlyComp c) {k : CompNo} (hk : k ≠ c) (d : Direction)

include h hk

theorem onlyComp_hasSeat : s.hasSeat d k = false := by
  unfold State.hasSeat
  dsimp only
  rcases h k hk with e | e | e <;> rw [e] <;> simp [CompState.working]

theorem onlyComp_canStart : s.canStart k = false := by
  unfold State.canStart
  rcases h k hk with e | e | e <;> rw [e] <;> simp

theorem onlyComp_canTurn : s.canTurn d k = false := by
  unfold State.canTurn
  rcases h k hk with e | e | e <;> rw [e] <;> simp [CompState.working]

end Only

theorem allComps_filter {p : CompNo → Bool} {c : CompNo} (hc : p c = true) (h : ∀ k, k ≠ c → p k = false) :
    allComps.filter p = [c] := by
  have heq : p = fun k => decide (k = c) := funext fun k => by
    by_cases e : k = c
    · rw [e, hc, decide_eq_true rfl]
    · rw [h k e, decide_eq_false e]
  rw [heq]
  revert c
  decide +revert

/-- The mark is due to the one compressor that works the other way (R129). -/
theorem nextTurn_only {s : State} {c : CompNo} {g : Grant} (h : s.onlyComp c) (hg : s.grants = [g])
    (hturn : ∀ k, (s.comp k).turning = none) (hfit : s.fittedComp c = true) (hw : (s.comp c).state.working = true)
    (hd : (s.comp c).dir = some g.dir.other) : s.nextTurn = some (g.spot, c) := by
  have hcan : s.canTurn g.dir c = true := by
    unfold State.canTurn
    rw [hfit, hw, hd]
    simp
  have hone := allComps_filter (p := s.canTurn g.dir) hcan fun k hk => onlyComp_canTurn h hk _
  have hany : (allComps.any fun k => (s.comp k).turning.isSome) = false := List.any_eq_false.mpr fun k _ => by
    rw [hturn k]
    exact Bool.false_ne_true
  unfold State.nextTurn
  rw [hg]
  dsimp only
  rw [hany, hone]
  rfl

theorem nextTurn_turning {s : State} {c : CompNo} {i : SpotNo} (h : (s.comp c).turning = some i) : s.nextTurn = none := by
  have hmem : ∀ k : CompNo, k ∈ allComps := by decide
  have hany : (allComps.any fun k => (s.comp k).turning.isSome) = true := List.any_eq_true.mpr ⟨c, hmem c, by rw [h]; rfl⟩
  unfold State.nextTurn
  split
  · rfl
  · rw [hany]
    rfl

end Sys2Proof.Machine
end

section
/-! PROOFS. A compressor that works the other way turns for a waiting head (R129, R130). -/

namespace Sys2Proof.Machine

section Turns

variable {v w : State} {i : SpotNo} {d : Direction} {o : Order} {c : CompNo} (hdue : w.due = some .join)
  (h : Queued v i d o (joinGrants w)) (hseat : (v.spot i).seat = none) (hfe : v.fe = true)
  (hturn : ∀ k, (v.comp k).turning = none) (hfit : v.fittedComp c = true) (hwork : (v.comp c).state.working = true)
  (hdir : (v.comp c).dir = some d.other) (honly : v.onlyComp c)

/-- The state once compressor `c` is marked TURNING by the head. -/
def State.turnedBy (w : State) (i : SpotNo) (c : CompNo) : State := markTurning i c (joinGrants w)

include h

/-- Where no other compressor works or may start, it is so after the head has entered the queue. -/
theorem Queued.onlyComp (honly : v.onlyComp c) : (joinGrants w).onlyComp c := fun k hk => by
  rw [h.kept.fittedComp_eq, h.comp]
  exact honly k hk

include hseat hfe hturn hfit hwork hdir honly

theorem Queued.due_turn : (joinGrants w).due = some (.turn i c) := by
  have hnone : (joinGrants w).seatFor d = none := by
    have hopp : (v.comp c).dir ≠ some d := by
      rw [hdir]
      cases d <;> exact nofun
    refine seatFor_none (fun k => ?_) fun k => ?_
    · by_cases hk : k = c
      · rw [hk, h.hasSeat]
        unfold State.hasSeat
        simp [hopp]
      · exact onlyComp_hasSeat (h.onlyComp honly) hk d
    · by_cases hk : k = c
      · rw [hk, h.canStart]
        unfold State.canStart
        have hst : (v.comp c).state ≠ .stopped := fun e => by
          rw [e] at hwork
          cases hwork
        simp [hst]
      · exact onlyComp_canStart (h.onlyComp honly) hk
  have hnext := nextTurn_only (s := joinGrants w) (c := c) (g := { spot := i, dir := d }) (h.onlyComp honly) h.grants
    (fun k => by rw [h.comp]; exact hturn k) (h.kept.fittedComp_eq c |>.trans hfit) (by rw [h.comp]; exact hwork)
    (by rw [h.comp]; exact hdir)
  rw [due_turns h.others (h.seat.trans hseat) h.grants rfl (h.kept.fe_eq.trans hfe) hnone, hnext]
  rfl

omit hturn hfit hwork hdir in
/-- With seats held the compressor is marked, and nothing else is due. -/
theorem Queued.marks (hs : (v.comp c).seated ≠ []) : (w.turnedBy i c).comp c = { v.comp c with turning := some i } ∧
    (w.turnedBy i c).due = none := by
  have hc : (((joinGrants w).touchComp c).modComp c fun k => { k with turning := some i }).comp c = { v.comp c with turning := some i } := by
    rw [modComp_comp_same]
    exact congrArg (fun k : Comp => { k with turning := some i }) (h.comp c)
  have hy : w.turnedBy i c = ((joinGrants w).touchComp c).modComp c fun k => { k with turning := some i } :=
    compOnEmpty_seated (by rw [hc]; exact hs)
  obtain ⟨y, hyd⟩ : ∃ y, y = ((joinGrants w).touchComp c).modComp c fun k => { k with turning := some i } := ⟨_, rfl⟩
  rw [← hyd] at hc
  rw [hy, ← hyd]
  have hothers : ∀ k, k ≠ c → y.comp k = v.comp k := fun k hk => by
    rw [hyd, modComp_comp_other _ _ _ _ hk]
    exact h.comp k
  have hyonly : y.onlyComp c := fun k hk => by
    rw [hothers k hk, hyd]
    show (joinGrants w).fittedComp k = false ∨ _
    rw [h.kept.fittedComp_eq]
    exact honly k hk
  have hturning : (y.comp c).turning = some i := by rw [hc]
  have hnone : y.seatFor d = none := by
    refine seatFor_none (fun k => ?_) fun k => ?_
    · by_cases hk : k = c
      · unfold State.hasSeat
        rw [hk]
        simp [hturning]
      · exact onlyComp_hasSeat hyonly hk d
    · by_cases hk : k = c
      · unfold State.canStart
        rw [hk, hturning]
        simp
      · exact onlyComp_canStart hyonly hk
  have hygrants : y.grants = [{ spot := i, dir := d }] := by
    rw [hyd]
    exact h.grants
  refine ⟨hc, ?_⟩
  rw [due_turns (u := y) (g := { spot := i, dir := d }) (by rw [hyd]; exact h.others) (by rw [hyd]; exact h.seat.trans hseat) hygrants rfl
    (by rw [hyd]; exact h.kept.fe_eq.trans hfe) hnone, nextTurn_turning hturning]
  rfl

omit hseat hturn hfit honly in
/-- Without seats, its direction valve open, the compressor reverses. -/
theorem Queued.reverses (hs : (v.comp c).seated = []) (hsup : ((v.comp c).valve d.other).supervised = true)
    (ho : ((v.comp c).valve d.other).isOpen = true) : ∃ y, w.turnedBy i c = y ∧
      y.comp c = ({ v.comp c with turning := some i } : Comp).reverses d v.strokeOfDirection true ∧
      (∀ k, k ≠ c → y.comp k = v.comp k) ∧ y.spots = (joinGrants w).spots ∧ y.grants = (joinGrants w).grants ∧
      Kept (joinGrants w) y := by
  obtain ⟨x, hx⟩ : ∃ x, x = ((joinGrants w).touchComp c).modComp c fun k => { k with turning := some i } := ⟨_, rfl⟩
  have hc : x.comp c = { v.comp c with turning := some i } := by
    rw [hx, modComp_comp_same]
    exact congrArg (fun k : Comp => { k with turning := some i }) (h.comp c)
  have hval : (x.comp c).valve d.other = (v.comp c).valve d.other := by
    rw [hc]
    cases d <;> rfl
  have hy : w.turnedBy i c = (x.touchComp c).modComp c (Comp.reverses d x.strokeOfDirection x.fe) := by
    have hmark : w.turnedBy i c = compOnEmpty c x := by rw [hx]; rfl
    rw [hmark, compOnEmpty_turning (i := i) (d := d) (by rw [hc]; exact hs) (by rw [hc]) (by rw [hc]; exact hdir) (by rw [hc]; exact hwork)
      (by rw [hval]; exact hsup) (by rw [hval]; exact ho)]
  have hkx : Kept (joinGrants w) x := by
    rw [hx]
    exact (Kept.touchComp c _).trans (.modComp c _ _)
  have hstroke : x.strokeOfDirection = v.strokeOfDirection := (h.kept.trans hkx).strokeOfDirection_eq
  refine ⟨_, rfl, ?_, fun k hk => ?_, ?_, ?_, ?_⟩
  · rw [hy, modComp_comp_same, show (x.touchComp c).comp c = x.comp c from rfl, hc, hstroke, (h.kept.trans hkx).fe_eq, hfe]
  · rw [hy, modComp_comp_other _ _ _ _ hk, show (x.touchComp c).comp k = x.comp k from rfl, hx, modComp_comp_other _ _ _ _ hk]
    exact h.comp k
  · rw [hy, hx]
    rfl
  · rw [hy, hx]
    rfl
  · rw [hy]
    exact hkx.trans ((Kept.touchComp c x).trans (.modComp c _ _))

end Turns

end Sys2Proof.Machine
end

section
/-! PROOFS. PLACE ORDER where the one compressor works the other way (R129, R130). -/

namespace Sys2Proof.Machine

/-! ## A reversing compressor seats the head that waits -/

section Seats

variable {y : State} {i : SpotNo} {d : Direction} {c : CompNo} (hj : ∀ j, j ≠ i → ¬ (y.spot j).waits) (hseat : (y.spot i).seat = none)
  (hg : y.grants = [{ spot := i, dir := d }]) (hfe : y.fe = true) (hst : (y.comp c).state = .reversing) (hdir : (y.comp c).dir = some d)
  (hturn : (y.comp c).turning = none) (hs : (y.comp c).seated = []) (hfit : y.fittedComp c = true) (hseats : 0 < y.site (·.seats))
  (honly : y.onlyComp c)

include hj hseat hg hfe hst hdir hturn hs hfit hseats honly

theorem reversing_seats : y.due = some (.seat { spot := i, dir := d } c) ∧ (grantSeat c { spot := i, dir := d } y).due = none ∧
    (grantSeat c { spot := i, dir := d } y).comp c = { y.comp c with seated := [i] } := by
  have hhas : y.hasSeat d c = true := by
    unfold State.hasSeat
    dsimp only
    rw [hfit, hturn, hst, hdir, hs]
    simp [CompState.working, hseats]
  have hfor : y.seatFor d = some c := seatFor_working hhas fun k hk => onlyComp_hasSeat honly (ne_of_lt hk) d
  have hcomp : (grantSeat c { spot := i, dir := d } y).comp c = { y.comp c with seated := [i] } := by
    have h := grantSeat_stays (g := { spot := i, dir := d }) hturn (.inr (.inl hst))
    rw [hs] at h
    exact h
  have hspot : ((grantSeat c { spot := i, dir := d } y).spot i).seat = some c :=
    congrArg Spot.seat (grantSeat_spot (u := y) (c := c) (g := { spot := i, dir := d }))
  refine ⟨due_seats hj hseat hg rfl hfe hfor, due_rests (i := i) (fun j hji => ?_) (headReady_seated hspot ?_) (mustJoin_seated hspot)
    (grantSeat_ungranted hg), hcomp⟩
  · rw [grantSeat_elsewhere (g := { spot := i, dir := d }) hji]
    exact hj j hji
  · rw [hcomp, hst]
    exact nofun

end Seats

section Placing

variable {s : State} {x : Instr} {i : SpotNo} {r : OrderRequest} {l : Option Liquid} {d : Direction} (h : Placing s x i r l d) {c : CompNo}
  (hturn : ∀ k, (s.comp k).turning = none) (hfit : s.fittedComp c = true) (hwork : (s.comp c).state.working = true)
  (hdir : (s.comp c).dir = some d.other) (honly : s.onlyComp c)

theorem fittedComp_of_frame {s v : State} (hv : v.frame = s.frame) (k : CompNo) : v.fittedComp k = s.fittedComp k := by
  unfold State.fittedComp
  rw [site_of_frame hv]

theorem onlyComp_of_frame {s v : State} (hv : v.frame = s.frame) (h : s.onlyComp c) : v.onlyComp c := fun k hk => by
  rw [fittedComp_of_frame hv, comp_of_frame hv]
  exact h k hk

include h hturn hfit hwork hdir honly

/-- With seats held: the compressor is marked, and the head keeps its entry. -/
theorem Placing.marks (hs : (s.comp c).seated ≠ []) :
    ∃ t, exec x s = .next t ∧
      (t.spot i).state = .staged ∧ (t.spot i).headIs .waiting = true ∧ (t.spot i).seat = none ∧
      t.grants = [{ spot := i, dir := d }] ∧ t.comp c = { s.comp c with turning := some i } ∧
      t.changes.spots.getLsbD i = true ∧ (∀ k, s.fittedComp k = true → t.changes.comps.getLsbD k = true) ∧ s.sameStore t := by
  have hsettled : ∀ v, v.frame = s.frame → ∃ w, Queued v i d (r.order l) (joinGrants w) ∧ placeOrder i r l v = w.turnedBy i c ∧
      (w.turnedBy i c).comp c = { s.comp c with turning := some i } := by
    intro v hv
    obtain ⟨w, hplace, hdue, hq⟩ := h.queued hv
    obtain ⟨hseat, hfe⟩ := h.due hv
    have hc := comp_of_frame hv
    have hturn' : ∀ k, (v.comp k).turning = none := fun k => by rw [hc]; exact hturn k
    have hfit' := (fittedComp_of_frame hv c).trans hfit
    have hwork' : (v.comp c).state.working = true := by rw [hc]; exact hwork
    have hdir' : (v.comp c).dir = some d.other := by rw [hc]; exact hdir
    have honly' := onlyComp_of_frame hv honly
    obtain ⟨hcomp, hrest⟩ := hq.marks hseat hfe honly' (by rw [hc]; exact hs)
    refine ⟨w, hq, hplace.trans (settle_twice hdue (hq.due_turn hseat hfe hturn' hfit' hwork' hdir' honly') hrest), ?_⟩
    rw [hcomp, hc]
  have hkept : ∀ w, Kept (joinGrants w) (w.turnedBy i c) := fun w =>
    ((Kept.touchComp c _).trans (.modComp c _ _)).trans (compWork_compOnEmpty c _).kept
  have hspots : ∀ w j, (w.turnedBy i c).spot j = (joinGrants w).spot j := fun w j => spot_of_spots (spots_markTurning i c (joinGrants w)) j
  obtain ⟨v, t, hv, hexec, hts, htc, htg, hsf, hcf, hstore⟩ := place_event h.taken h.writes h.answers
    (o := { r.order l with state := .waiting }) rfl fun v hv => by
      obtain ⟨w, hq, hx, -⟩ := hsettled v hv
      obtain ⟨a, n, hi⟩ := hq.spot
      rw [hx]
      refine ⟨hq.kept.trans (hkept w), ?_⟩
      rw [hspots, hi]
  obtain ⟨w, hq, hx, hcomp⟩ := hsettled v hv
  obtain ⟨a, n, hi⟩ := hq.spot
  rw [hx] at hts htc htg hsf hcf
  have hti := (hts i).trans ((hspots w i).trans hi)
  refine ⟨t, hexec, ?_, ?_, ?_, ?_, (htc c).trans hcomp, hsf i ((hkept w).spots i hq.flag), fun k hk => ?_, hstore⟩
  · rw [hti]
  · rw [hti]
    rfl
  · rw [hti]
    exact (h.due hv).1
  · rw [htg, ← hq.grants]
    exact grants_markTurning i c (joinGrants w)
  · exact hcf k ((hkept w).comps k (hq.queue k ((fittedComp_of_frame hv k).trans hk)))

/-- Without seats, its direction valve open: the compressor reverses and seats the head. -/
theorem Placing.reverses (hs : (s.comp c).seated = []) (ho : ((s.comp c).valve d.other).isOpen = true)
    (hsup : ((s.comp c).valve d.other).supervised = true) (hseats : 0 < s.site (·.seats)) :
    ∃ t, exec x s = .next t ∧
      (t.spot i).state = .staged ∧ (t.spot i).headIs .waiting = true ∧ (t.spot i).seat = some c ∧ t.grants = [] ∧
      t.comp c = { ({ s.comp c with turning := some i } : Comp).reverses d s.strokeOfDirection true with seated := [i] } ∧
      t.changes.spots.getLsbD i = true ∧ (∀ k, s.fittedComp k = true → t.changes.comps.getLsbD k = true) ∧ s.sameStore t := by
  have hsettled : ∀ v, v.frame = s.frame → ∃ w y, Queued v i d (r.order l) (joinGrants w) ∧ Kept (joinGrants w) y ∧
      y.spots = (joinGrants w).spots ∧ y.grants = [{ spot := i, dir := d }] ∧ placeOrder i r l v = grantSeat c { spot := i, dir := d } y ∧
      (grantSeat c { spot := i, dir := d } y).comp c =
        { ({ s.comp c with turning := some i } : Comp).reverses d s.strokeOfDirection true with seated := [i] } := by
    intro v hv
    obtain ⟨w, hplace, hdue, hq⟩ := h.queued hv
    obtain ⟨hseat, hfe⟩ := h.due hv
    have hc := comp_of_frame hv
    have hfit' := (fittedComp_of_frame hv c).trans hfit
    have hwork' : (v.comp c).state.working = true := by rw [hc]; exact hwork
    have hdir' : (v.comp c).dir = some d.other := by rw [hc]; exact hdir
    have honly' := onlyComp_of_frame hv honly
    obtain ⟨y, hy, hyc, hyo, hys, hyg, hk⟩ := hq.reverses hfe hwork' hdir' (by rw [hc]; exact hs) (by rw [hc]; exact hsup)
      (by rw [hc]; exact ho)
    obtain ⟨e1, -, e3, e4, -, -, e7⟩ := Comp.reverses_fields d v.strokeOfDirection true { v.comp c with turning := some i }
    rw [← hyc] at e1 e3 e4 e7
    have hkv := hq.kept.trans hk
    have hyonly : y.onlyComp c := fun k hkc => by
      rw [hyo k hkc, hkv.fittedComp_eq]
      exact honly' k hkc
    obtain ⟨h1, h2, h3⟩ := reversing_seats (y := y) (i := i) (d := d) (c := c)
      (fun j hj => by rw [spot_of_spots hys j]; exact hq.others j hj)
      (by rw [spot_of_spots hys i]; exact hq.seat.trans hseat) (hyg.trans hq.grants) (hkv.fe_eq.trans hfe) e1 e3 e4
      (e7.trans (by rw [hc]; exact hs)) ((hkv.fittedComp_eq c).trans hfit')
      (by rw [hkv.site_eq, site_of_frame hv]; exact hseats) hyonly
    have hstroke : v.strokeOfDirection = s.strokeOfDirection := by
      unfold State.strokeOfDirection
      rw [show v.profile = s.profile from congrArg Frame.profile hv]
    refine ⟨w, y, hq, hk, hys, hyg.trans hq.grants, ?_, by rw [h3, hyc, hc, hstroke]⟩
    have hturned := hq.due_turn hseat hfe (fun k => by rw [hc]; exact hturn k) hfit' hwork' hdir' honly'
    rw [hplace, settle_thrice hdue hturned (c := .seat { spot := i, dir := d } c)]
    · exact congrArg (grantSeat c { spot := i, dir := d }) hy
    · exact (congrArg State.due hy).trans h1
    · exact (congrArg (fun u => (grantSeat c { spot := i, dir := d } u).due) hy).trans h2
  have hspot : ∀ v w y, Queued v i d (r.order l) (joinGrants w) → y.spots = (joinGrants w).spots →
      ∃ a n, (grantSeat c { spot := i, dir := d } y).spot i = { v.spot i with
        active := a, activeVersion := n, orders := [{ r.order l with state := .waiting }], state := .staged, seat := some c } :=
    fun v w y hq hys => by
      obtain ⟨a, n, hi⟩ := hq.spot
      refine ⟨a, n, grantSeat_spot.trans ?_⟩
      dsimp only
      rw [spot_of_spots hys i, hi]
  obtain ⟨v, t, hv, hexec, hts, htc, htg, hsf, hcf, hstore⟩ := place_event h.taken h.writes h.answers
    (o := { r.order l with state := .waiting }) rfl fun v hv => by
      obtain ⟨w, y, hq, hk, hys, -, hx, -⟩ := hsettled v hv
      obtain ⟨a, n, hi⟩ := hspot v w y hq hys
      rw [hx]
      refine ⟨(hq.kept.trans hk).trans (kept_grantSeat _ _ _), ?_⟩
      rw [hi]
  obtain ⟨w, y, hq, hk, hys, hyg, hx, hcomp⟩ := hsettled v hv
  obtain ⟨a, n, hi⟩ := hspot v w y hq hys
  rw [hx] at hts htc htg hsf hcf
  have hti := (hts i).trans hi
  have hlast := hk.trans (kept_grantSeat c { spot := i, dir := d } y)
  refine ⟨t, hexec, ?_, ?_, ?_, htg.trans (grantSeat_ungranted hyg), (htc c).trans hcomp, hsf i (hlast.spots i hq.flag), fun k hfk => ?_,
    hstore⟩
  · rw [hti]
  · rw [hti]
    rfl
  · rw [hti]
  · exact hcf k (hlast.comps k (hq.queue k ((fittedComp_of_frame hv k).trans hfk)))

end Placing

end Sys2Proof.Machine
end

section
/-! PROOFS. A TURNING compressor that loses its last seat (R128 to R130). -/

namespace Sys2Proof.Machine

/-! ## What a granted seat flags -/

theorem clearTurning_flag {i : SpotNo} {c k : CompNo} {s : State} (h : s.scratch.comps.getLsbD k = true) :
    (clearTurning i c s).scratch.comps.getLsbD k = true := (marked_clearTurning i s c).calls k h

/-- An entry that leaves the queue flags every fitted compressor (R126). -/
theorem dropGrant_queue {i : SpotNo} {s : State} {k : CompNo} (h : s.grants.any (fun g => g.spot == i) = true)
    (hf : s.fittedComp k = true) : (dropGrant i s).scratch.comps.getLsbD k = true := by
  have fold : ∀ (l : List CompNo) (u : State), u.scratch.comps.getLsbD k = true →
      (l.foldl (fun u c => clearTurning i c u) u).scratch.comps.getLsbD k = true := by
    intro l
    induction l with
    | nil => exact fun _ h => h
    | cons c l ih => exact fun u hu => ih _ (clearTurning_flag hu)
  unfold dropGrant
  dsimp only
  rw [if_pos h]
  exact fold _ _ (touchQueue_flag (s := s.touchSpot i) hf)

theorem grantSeat_flags {c : CompNo} {g : Grant} {u : State} (hg : u.grants = [g]) :
    (grantSeat c g u).scratch.spots.getLsbD g.spot = true ∧
      ∀ k, u.fittedComp k = true → (grantSeat c g u).scratch.comps.getLsbD k = true := by
  have hgiven : Kept (u.seatGiven c g) (grantSeat c g u) := by
    rw [grantSeat_eq]
    split
    · exact (compWork_startComp c _ g.dir).kept
    · exact .modComp c _ _
    all_goals exact .refl _
  refine ⟨hgiven.spots _ ?_, fun k hk => hgiven.comps k ?_⟩
  · unfold State.seatGiven
    refine (spotWork_dropGrant g.spot _).kept.spots g.spot ?_
    exact ((Kept.touchComp c (u.touchSpot g.spot)).trans ((Kept.modSpot g.spot _ _).trans (.modComp c _ _))).spots g.spot (touchSpot_flag g.spot u)
  · refine dropGrant_queue ?_ hk
    show u.grants.any _ = true
    rw [hg]
    simp

/-! ## A WAITING head cancelled -/

theorem nextHead_staged_nil {i : SpotNo} {d : State} (hst : (d.spot i).state = .staged) (ho : (d.spot i).orders = []) :
    nextHead i d = d.modSpot i fun sp => { sp.stopMeter with state := .connected, pulses := 0 } := by
  unfold nextHead
  dsimp only
  rw [hst]
  dsimp only
  rw [ho, List.isEmpty_nil, if_pos rfl, modSpot_modSpot]

section Cancelled

variable {v : State} {i j : SpotNo} {o : Order} {c : CompNo} {d : Direction} (hij : i ≠ j) (hst : (v.spot j).state = .staged)
  (ho : (v.spot j).orders = [o]) (how : o.state = .waiting) (hseat : (v.spot j).seat = some c)

/-- The spot of a WAITING head that has been cancelled, without other orders. -/
def Spot.emptied (sp : Spot) : Spot :=
  { sp with seat := none, orders := [], state := .connected, pulses := 0, stall := .stopped, window := .stopped, windowCount := 0 }

/-- The state after the cancellation, before the arbiter's scan. -/
def State.emptied (v : State) (j : SpotNo) (o : Order) : State :=
  (depart j { o with reason := some .cancelled } (leaveCompressors j v)).modSpot j fun sp =>
    { sp.stopMeter with state := .connected, pulses := 0 }

include ho

theorem depart_empties : ((depart j { o with reason := some .cancelled } (leaveCompressors j v)).spot j) =
    { v.spot j with seat := none, orders := [] } := by
  rw [depart_spot, leaveCompressors_unseats]
  dsimp only
  rw [ho]
  simp

theorem emptied_spot : (v.emptied j o).spot j = (v.spot j).emptied := by
  unfold State.emptied
  rw [modSpot_spot_same, depart_empties ho]
  rfl

include hst how

theorem cancel_empties : advanceSpot j (endOrder j o.tag .cancelled v) = v.emptied j o := by
  have hhead : (v.spot j).head = some o := by
    unfold Spot.head
    rw [ho]
    rfl
  have hdrains : (v.spot j).headDrains = false := by
    unfold Spot.headDrains
    rw [hhead]
    simp [how]
  have hend : endOrder j o.tag .cancelled v = v.emptied j o := by
    rw [endOrder_head hhead rfl]
    unfold endHead
    rw [hhead]
    dsimp only
    rw [if_neg (by simp [hdrains])]
    unfold headLeaves
    dsimp only
    rw [if_neg (by simp [how]), headGone_stays (by simp [EndReason.natural])]
    exact nextHead_staged_nil (by rw [depart_empties ho]; exact hst) (by rw [depart_empties ho])
  have hi := emptied_spot ho
  rw [hend, advanceSpot_connected] <;> rw [hi] <;> rfl

end Cancelled

section Leaving

variable {v : State} {i j : SpotNo} {o : Order} {c : CompNo} {d : Direction} (hij : i ≠ j) (hseat : (v.spot j).seat = some c)

include hseat

/-- A compressor that the spot does not sit on keeps its state. -/
theorem leaveCompressors_state {k : CompNo} (hk : k ≠ c) : ((leaveCompressors j v).comp k).state = (v.comp k).state := by
  have hrelease : (releaseSeat j v).comp k = v.comp k := by
    rw [releaseSeat_seated hseat, (compWork_compOnEmpty c _).others k hk, unseat_comp, if_neg hk]
  have hclear : ∀ (u : State) (e : CompNo), ((clearTurning j e u).comp k).state = (u.comp k).state := fun u e => by
    unfold clearTurning
    split
    · rw [modComp_comp]
      split <;> rfl
    · rfl
  unfold leaveCompressors dropGrant
  refine (foldl_keeps (fun u : State => (u.comp k).state) _ hclear _ _).trans ?_
  have h := congrArg Comp.state hrelease
  split <;> exact h

variable (hturn : (v.comp c).turning = some i) (hdir : (v.comp c).dir = some d) (hwork : (v.comp c).state.working = true)
  (hs : (v.comp c).seated = [j]) (ho : ((v.comp c).valve d).isOpen = true) (hsup : ((v.comp c).valve d).supervised = true)

include hturn hdir hwork hs ho hsup

/-- Its last seat gone, the TURNING compressor reverses (R130). -/
theorem leaveCompressors_reverses : (leaveCompressors j v).comp c =
    ({ v.comp c with seated := [] } : Comp).reverses d.other v.strokeOfDirection v.fe := by
  have hu : (unseat j c v).comp c = { v.comp c with seated := [] } := by
    rw [unseat_comp, if_pos rfl, hs]
    simp
  have hval : ({ v.comp c with seated := [] } : Comp).valve d.other.other = (v.comp c).valve d := by
    rw [Direction.other_other]
    cases d <;> rfl
  have hempty : (releaseSeat j v).comp c = ({ v.comp c with seated := [] } : Comp).reverses d.other v.strokeOfDirection v.fe := by
    rw [releaseSeat_seated hseat, compOnEmpty_turning (i := i) (d := d.other) (by rw [hu]) (by rw [hu]; exact hturn)
      (by rw [hu, Direction.other_other]; exact hdir) (by rw [hu]; exact hwork) (by rw [hu, hval]; exact hsup) (by rw [hu, hval]; exact ho),
      modComp_comp_same]
    show Comp.reverses d.other v.strokeOfDirection v.fe ((unseat j c v).comp c) = _
    rw [hu]
  obtain ⟨-, -, -, e4, -⟩ := Comp.reverses_fields d.other v.strokeOfDirection v.fe { v.comp c with seated := [] }
  unfold leaveCompressors
  rw [dropGrant_unturned (by rw [hempty]; exact e4), hempty]

end Leaving

section Turned

variable {v : State} {i j : SpotNo} {o : Order} {c : CompNo} {d : Direction} (hfe : v.fe = true) (hij : i ≠ j)
  (ho : (v.spot j).orders = [o]) (hseat : (v.spot j).seat = some c) (hiseat : (v.spot i).seat = none)
  (hg : v.grants = [{ spot := i, dir := d.other }]) (hothers : ∀ k, k ≠ i → k ≠ j → ¬ (v.spot k).waits) (hfit : v.fittedComp c = true)
  (hwork : (v.comp c).state.working = true) (hdir : (v.comp c).dir = some d) (hturn : (v.comp c).turning = some i)
  (hs : (v.comp c).seated = [j]) (hopen : ((v.comp c).valve d).isOpen = true) (hsup : ((v.comp c).valve d).supervised = true)
  (hseats : 0 < v.site (·.seats)) (honly : v.onlyComp c)

theorem emptied_work (v : State) (j : SpotNo) (o : Order) : SpotWork j v (v.emptied j o) := by
  unfold State.emptied
  exact ((spotWork_leaveCompressors j v).trans (spotWork_depart j _ _)).trans (.mod (by intro; rfl) (by intro; rfl) _)

theorem emptied_comps (v : State) (j : SpotNo) (o : Order) : (v.emptied j o).comps = (leaveCompressors j v).comps :=
  congrArg Frame.comps (depart_frame j _ _)

theorem emptied_comp (v : State) (j : SpotNo) (o : Order) (k : CompNo) : (v.emptied j o).comp k = (leaveCompressors j v).comp k := by
  unfold State.comp
  rw [emptied_comps]

theorem emptied_flag (v : State) (j : SpotNo) (o : Order) : (v.emptied j o).scratch.spots.getLsbD j = true := depart_flag j _ _

include hfe hij ho hseat hiseat hg hothers hfit hwork hdir hturn hs hopen hsup hseats honly

/-- The arbiter gives the waiting spot the seat of the compressor that reverses. -/
theorem emptied_seats : settle (v.emptied j o) = grantSeat c { spot := i, dir := d.other } (v.emptied j o) ∧
    (v.emptied j o).grants = [{ spot := i, dir := d.other }] ∧
    (grantSeat c { spot := i, dir := d.other } (v.emptied j o)).comp c =
      { ({ v.comp c with seated := [] } : Comp).reverses d.other v.strokeOfDirection v.fe with seated := [i] } := by
  have hemptied := emptied_spot (j := j) ho
  have hgrants : (v.emptied j o).grants = [{ spot := i, dir := d.other }] := by
    have hleft : (v.emptied j o).grants = (leaveCompressors j v).grants := congrArg Frame.grants (depart_frame j _ _)
    rw [hleft, grants_leaveCompressors, hg]
    simp [hij]
  have hk := (emptied_work v j o).kept
  have hc := leaveCompressors_reverses hseat hturn hdir hwork hs hopen hsup
  rw [← emptied_comp v j o] at hc
  obtain ⟨e1, -, e3, e4, -, -, e7⟩ := Comp.reverses_fields d.other v.strokeOfDirection v.fe { v.comp c with seated := [] }
  rw [← hc] at e1 e3 e4 e7
  have hself : (v.emptied j o).spot i = v.spot i := (emptied_work v j o).others i hij
  have hquiet : ∀ k, k ≠ i → ¬ ((v.emptied j o).spot k).waits := fun k hki => by
    by_cases hkj : k = j
    · rw [hkj, hemptied]
      exact fun h => nomatch h.1
    · rw [(emptied_work v j o).others k hkj]
      exact hothers k hki hkj
  obtain ⟨h1, h2, h3⟩ := reversing_seats (y := v.emptied j o) (i := i) (d := d.other) (c := c) hquiet
    (by rw [hself]; exact hiseat) hgrants (hk.fe_eq.trans hfe) e1 e3 e4 e7 ((hk.fittedComp_eq c).trans hfit)
    (by rw [hk.site_eq]; exact hseats) fun k hkc => by
      rw [hk.fittedComp_eq, emptied_comp, leaveCompressors_state hseat hkc]
      exact honly k hkc
  refine ⟨settle_once h1 h2, hgrants, ?_⟩
  rw [h3, hc]

end Turned

/-- The WAITING head of spot `j` cancelled where spot `i` waits for its compressor to turn. -/
theorem cancel_turns {s : State} {via : Via} {place : Byte} {i j : SpotNo} {o : Order} {c : CompNo} {d : Direction}
    (ht : s.canTake via = true) (hn : s.namedSpot place = .ok j) (hfe : s.fe = true) (hij : i ≠ j) (hst : (s.spot j).state = .staged)
    (ho : (s.spot j).orders = [o]) (how : o.state = .waiting) (hseat : (s.spot j).seat = some c)
    (hiseat : (s.spot i).seat = none) (hg : s.grants = [{ spot := i, dir := d.other }])
    (hothers : ∀ k, k ≠ i → k ≠ j → ¬ (s.spot k).waits) (hfit : s.fittedComp c = true) (hwork : (s.comp c).state.working = true)
    (hdir : (s.comp c).dir = some d) (hturn : (s.comp c).turning = some i) (hs : (s.comp c).seated = [j])
    (hopen : ((s.comp c).valve d).isOpen = true) (hsup : ((s.comp c).valve d).supervised = true) (hseats : 0 < s.site (·.seats))
    (honly : s.onlyComp c) :
    ∃ t, s.answers (.cancelOrder via place o.tag) .done [0] t ∧ t.spot j = (s.spot j).emptied ∧
      t.spot i = { s.spot i with seat := some c } ∧ t.grants = [] ∧
      t.comp c = { ({ s.comp c with seated := [] } : Comp).reverses d.other s.strokeOfDirection true with seated := [i] } ∧
      t.changes.spots.getLsbD i = true ∧ t.changes.spots.getLsbD j = true ∧
      (∀ k, s.fittedComp k = true → t.changes.comps.getLsbD k = true) ∧ s.sameStore t := by
  have hdone : ∀ v : State, v.frame = s.frame →
      settle (advanceSpot j (endOrder j o.tag .cancelled v)) = grantSeat c { spot := i, dir := d.other } (v.emptied j o) ∧
      (v.emptied j o).grants = [{ spot := i, dir := d.other }] ∧
      (grantSeat c { spot := i, dir := d.other } (v.emptied j o)).comp c =
        { ({ s.comp c with seated := [] } : Comp).reverses d.other s.strokeOfDirection true with seated := [i] } ∧
      (grantSeat c { spot := i, dir := d.other } (v.emptied j o)).spot j = (s.spot j).emptied ∧
      (grantSeat c { spot := i, dir := d.other } (v.emptied j o)).spot i = { s.spot i with seat := some c } := fun v hv => by
    have hsp := spot_of_frame hv
    have hc := comp_of_frame hv c
    have hstroke : v.strokeOfDirection = s.strokeOfDirection := by
      unfold State.strokeOfDirection
      rw [show v.profile = s.profile from congrArg Frame.profile hv]
    obtain ⟨h1, h2, h3⟩ := emptied_seats (v := v) (i := i) (j := j) (o := o) (c := c) (d := d) ((fe_of_frame hv).trans hfe) hij
      (by rw [hsp]; exact ho) (by rw [hsp]; exact hseat) (by rw [hsp]; exact hiseat)
      ((grants_of_frame hv).trans hg) (fun k => by rw [hsp]; exact hothers k) ((fittedComp_of_frame hv c).trans hfit) (by rw [hc]; exact hwork)
      (by rw [hc]; exact hdir) (by rw [hc]; exact hturn) (by rw [hc]; exact hs) (by rw [hc]; exact hopen) (by rw [hc]; exact hsup)
      (by rw [site_of_frame hv]; exact hseats) (onlyComp_of_frame hv honly)
    refine ⟨?_, h2, ?_, ?_, ?_⟩
    · rw [cancel_empties (by rw [hsp]; exact hst) (by rw [hsp]; exact ho) how, h1]
    · rw [h3, hc, hstroke, (fe_of_frame hv).trans hfe]
    · rw [grantSeat_elsewhere (g := { spot := i, dir := d.other }) (Ne.symm hij), emptied_spot (by rw [hsp]; exact ho), hsp]
    · refine grantSeat_spot.trans ?_
      dsimp only
      rw [(emptied_work v j o).others i hij, hsp]
  obtain ⟨v, t, hv, ha, hframe, hch, -⟩ := answers_event (c := .cancelOrder via place o.tag) (s := s) ht rfl fun v hv => by
    obtain ⟨hx, -, -, hj, -⟩ := hdone v hv
    have horder : (v.spot j).order o.tag = some o := by
      rw [spot_of_frame hv]
      exact Spot.order_of_head (h := o) (by unfold Spot.head; rw [ho]; rfl)
    have hnone : ((settle (advanceSpot j (endOrder j o.tag .cancelled v))).spot j).order o.tag = none := by
      rw [hx, hj]
      rfl
    rw [show answer (.cancelOrder via place o.tag) v = answerCancelOrder place o.tag v from rfl,
      answerCancelOrder_done ((namedSpot_of_frame hv _).trans hn) horder (by rw [how]; exact nofun), hnone]
  obtain ⟨hx, hgr, hcomp, hj, hi'⟩ := hdone v hv.frame
  rw [hx] at hframe hch
  have hkept := (emptied_work v j o).kept.trans (kept_grantSeat c { spot := i, dir := d.other } (v.emptied j o))
  obtain ⟨hflag, hflags⟩ := grantSeat_flags (c := c) hgr
  refine ⟨t, ha, ?_, ?_, ?_, ?_, ?_, ?_, fun k hk => ?_, hkept.sameStore hv.frame hframe⟩
  · rw [spot_of_frame hframe, ← hj]
    exact closeEvent_spot v _ j
  · rw [spot_of_frame hframe, ← hi']
    exact closeEvent_spot v _ i
  · rw [grants_of_frame hframe, ← grantSeat_ungranted (c := c) hgr]
    exact closeEvent_grants v _
  · rw [comp_of_frame hframe, ← hcomp]
    exact closeEvent_comp v _ c
  · rw [hch]
    exact spotFlag_of_touched hflag
  · rw [hch]
    exact spotFlag_of_touched ((kept_grantSeat c _ _).spots j (emptied_flag v j o))
  · rw [hch]
    exact compFlag_of_touched (hflags k (((emptied_work v j o).kept.fittedComp_eq k).trans ((fittedComp_of_frame hv.frame k).trans hk)))

/-- Settles O60: the compressor marked, the one that reverses at once, and the one that loses its last seat. -/
theorem compressorsTurnForWaitingHeads : Obligations.CompressorsTurnForWaitingHeads := by
  refine ⟨fun s via place i tag kind target vessel closeAfter r l c d ht hn hop hfe hst hq hh hseat hw hr hl hd hfit hturn hwork hdir honly =>
    ⟨fun hs => ?_, fun hs hro ho hsup hseats => ?_⟩,
    fun s via place i j o c d ht hn hfe hij hst ho how hseat hi hiseat hg hothers hfit hwork hdir hturn hs hopen hsup hseats honly => ?_⟩
  · exact (placing_of ht hn hop hfe hst hq hseat hw hr hl hd).marks hturn hfit hwork hdir honly hs
  · obtain ⟨t, hexec, h1, h2, h3, hno, htc, hflag, hflags, hstore⟩ :=
      (placing_of ht hn hop hfe hst hq hseat hw hr hl hd).reverses hturn hfit hwork hdir honly hs ho hsup hseats
    obtain ⟨e1, e2, e3, e4, e5, e6, -⟩ := Comp.reverses_fields d s.strokeOfDirection true { s.comp c with turning := some i }
    have hval := Comp.reverses_valve d s.strokeOfDirection true { s.comp c with turning := some i } d.other
    have hv : (t.comp c).valve d.other = ((s.comp c).valve d.other).shutting s.strokeOfDirection := by
      rw [htc, ← Valve.toldShut_open hsup ho]
      cases d <;> exact hval
    refine ⟨t, hexec, h1, h2, h3, hno, ?_, ?_, ?_, ?_, ?_, ?_, ?_, hv, hflag, hflags, hstore⟩ <;> rw [htc]
    exacts [e1, e2, e3, e4, e5, e6]
  · obtain ⟨t, ha, htj, hti, hno, htc, hf1, hf2, hflags, hstore⟩ :=
      cancel_turns ht hn hfe hij hst ho how hseat hiseat hg hothers hfit hwork hdir hturn hs hopen hsup hseats honly
    obtain ⟨e1, e2, e3, e4, e5, -, -⟩ := Comp.reverses_fields d.other s.strokeOfDirection true { s.comp c with seated := [] }
    have hval := Comp.reverses_valve d.other s.strokeOfDirection true { s.comp c with seated := [] } d
    have hv : (t.comp c).valve d = ((s.comp c).valve d).shutting s.strokeOfDirection := by
      rw [htc, ← Valve.toldShut_open hsup hopen]
      cases d <;> exact hval
    refine ⟨t, ha, by rw [htj]; rfl, by rw [htj]; rfl, by rw [htj]; rfl, by rw [hti], by rw [hti]; exact hi.1, hno, ?_, ?_, ?_, ?_, ?_, ?_,
      hv, hf1, hf2, hflags, hstore⟩ <;> rw [htc]
    exacts [e1, e2, e3, e4, e5]

end Sys2Proof.Machine
end

section
/-! PROOFS. Field enable's return at the spots (R45, R164): while field enable is on, no work of arrivals, of orders or of the arbiter
gives a spot the hold ESD or makes it stand in ISOLATING. -/

namespace Sys2Proof.Machine

/-! ## Work under field enable -/

/-- A spot that neither takes the hold ESD nor comes to stand (R37, R45). -/
def Spot.StaysLive (a b : Spot) : Prop := (a.holds.esd = false → b.holds.esd = false) ∧ (a.standing = false → b.standing = false)

/-- Work that keeps field enable and, while it is on, leaves spot `i` live. -/
structure LiveWork (i : SpotNo) (s t : State) : Prop where
  fe : t.fe = s.fe
  live : s.fe = true → (s.spot i).StaysLive (t.spot i)

theorem Spot.StaysLive.of_eq {a b : Spot} (h1 : b.holds.esd = a.holds.esd) (h2 : b.standing = a.standing) : a.StaysLive b :=
  ⟨h1.trans, h2.trans⟩

theorem Spot.StaysLive.refl (a : Spot) : a.StaysLive a := ⟨id, id⟩

theorem LiveWork.refl (i : SpotNo) (s : State) : LiveWork i s s := ⟨rfl, fun _ => .refl _⟩

theorem LiveWork.trans {i : SpotNo} {s t u : State} (h : LiveWork i s t) (k : LiveWork i t u) : LiveWork i s u where
  fe := k.fe.trans h.fe
  live hf := by
    obtain ⟨h1, h2⟩ := h.live hf
    obtain ⟨k1, k2⟩ := k.live (h.fe.trans hf)
    exact ⟨fun e => k1 (h1 e), fun e => k2 (h2 e)⟩

theorem LiveWork.ite {i : SpotNo} {p : Prop} [Decidable p] {s t u : State} (h : p → LiveWork i s t) (k : ¬ p → LiveWork i s u) :
    LiveWork i s (if p then t else u) := by
  split
  next e => exact h e
  next e => exact k e

theorem LiveWork.mod {i : SpotNo} {f : Spot → Spot} (h : ∀ sp : Spot, sp.StaysLive (f sp)) (s : State) : LiveWork i s (s.modSpot i f) :=
  ⟨rfl, fun _ => by rw [modSpot_spot_same]; exact h _⟩

/-- Writing other fields of the spot. -/
theorem LiveWork.same {i : SpotNo} {f : Spot → Spot} (s : State)
    (h : ∀ sp : Spot, (f sp).holds.esd = sp.holds.esd ∧ (f sp).standing = sp.standing := by exact fun _ => ⟨rfl, rfl⟩) :
    LiveWork i s (s.modSpot i f) := .mod (fun sp => .of_eq (h sp).1 (h sp).2) s

theorem LiveWork.of_spot {i : SpotNo} {s t : State} (hf : t.fe = s.fe) (h : t.spot i = s.spot i) : LiveWork i s t :=
  ⟨hf, fun _ => by rw [h]; exact .refl _⟩

theorem LiveWork.foldl {α : Type} {i : SpotNo} {f : State → α → State} (h : ∀ s a, LiveWork i s (f s a)) :
    ∀ (l : List α) (s : State), LiveWork i s (l.foldl f s)
  | [], s => .refl i s
  | a :: l, s => (h s a).trans (LiveWork.foldl h l _)

theorem Kept.live {i : SpotNo} {s t : State} (h : Kept s t) (hs : (s.spot i).StaysLive (t.spot i)) : LiveWork i s t :=
  ⟨h.fe_eq, fun _ => hs⟩

/-- Work at another spot. -/
theorem SpotWork.live {i j : SpotNo} {s t : State} (h : SpotWork j s t) (hij : i ≠ j) : LiveWork i s t :=
  h.kept.live (by rw [h.others i hij]; exact .refl _)

section SpotOps

variable (i : SpotNo) (s : State)

theorem live_touchSpot : LiveWork i s (s.touchSpot i) := .of_spot rfl rfl

theorem live_commandSpot (n : ValveName) (c : Command) : LiveWork i s (commandSpot i n c s) := by
  rw [commandSpot_eq]
  exact .mod (fun sp => .of_eq (by cases n <;> rfl) (Spot.setValve_standing n _ sp)) s

theorem live_pursueSpotAll : LiveWork i s (pursueSpotAll i s) := by
  refine .foldl (fun s n => ?_) _ s
  exact .mod (fun sp => .of_eq (by cases n <;> rfl) (Spot.setValve_standing n _ sp)) s

theorem live_shutLines : LiveWork i s (shutLines i s) :=
  ((live_commandSpot i s _ _).trans (live_commandSpot i _ _ _)).trans (live_commandSpot i _ _ _)

theorem live_shutAll : LiveWork i s (shutAll i s) := (live_shutLines i s).trans (live_commandSpot i _ _ _)

theorem live_depart (o : Order) : LiveWork i s (depart i o s) :=
  (spotWork_depart i s o).kept.live (by rw [depart_spot]; exact .of_eq rfl rfl)

theorem live_leaveCompressors : LiveWork i s (leaveCompressors i s) :=
  (spotWork_leaveCompressors i s).kept.live (by rw [leaveCompressors_unseats]; exact .of_eq rfl rfl)

/-- Entry to ISOLATING is live under field enable: the holds are gone, and the spot does not stand (R41, R160). -/
theorem live_enterIsolating (a b : EndReason) (f : Option SpotFault) : LiveWork i s (enterIsolating a b f i s) := by
  have hkept := (spotWork_enterIsolating i s a b f).kept
  obtain ⟨q, e, -⟩ := enterIsolating_line a b f i s
  refine ⟨hkept.fe_eq, fun hf => ⟨fun _ => ?_, fun _ => ?_⟩⟩
  · rw [Spot.holds_of_line e]
    rfl
  · have hleft : (leaveCompressors i (endQueue a b i s)).fe = true := by
      rw [(spotWork_leaveCompressors i _).kept.fe_eq, (spotWork_endQueue i s a b).kept.fe_eq, hf]
    unfold enterIsolating
    dsimp only
    rw [shutAll_eq, modSpot_spot_same, modSpot_spot_same]
    show (!s.fe) = false
    rw [hf]
    rfl

theorem HoldSet.put_esd {r : HoldReason} (h : r ≠ .esd) (x : HoldSet) (b : Bool) : (x.put r b).esd = x.esd := by
  cases r <;> first | rfl | contradiction

theorem live_addHold {r : HoldReason} (h : r ≠ .esd) : LiveWork i s (addHold i r s) := by
  have held : LiveWork i s ((s.touchSpot i).modSpot i fun sp =>
      { (sp.modHead Order.suspend).stopMeter with state := .held, holds := sp.holds.put r true, recoveryTimer := .stopped }) :=
    (live_touchSpot i s).trans (.mod (fun sp => .of_eq (HoldSet.put_esd h _ _) (by rw [Spot.modHead_eq]; rfl)) _)
  have shut : ∀ u : State, LiveWork i u (if r = .esd then commandSpot i .shutoff .toShut u else u) := fun u =>
    .ite (fun _ => live_commandSpot i u _ _) fun _ => .refl i u
  unfold addHold
  dsimp only
  refine .ite (fun _ => .refl i s) fun _ => ?_
  split
  case h_5 => exact LiveWork.trans (.same s (by exact fun _ => ⟨HoldSet.put_esd h _ _, rfl⟩)) (shut _)
  case h_6 | h_7 | h_8 | h_9 | h_10 | h_11 => exact .refl i s
  all_goals exact (((held.trans (live_commandSpot i _ _ _)).trans (live_commandSpot i _ _ _)).trans (shut _)).trans (live_leaveCompressors i _)

theorem live_removeHold (r : HoldReason) : LiveWork i s (removeHold i r s) :=
  .mod (f := fun sp => { sp with holds := sp.holds.put r false })
    (fun sp => ⟨fun e => by cases r <;> first | exact e | rfl, id⟩) s

theorem live_becomeHead : LiveWork i s (becomeHead i s) := by
  have start : LiveWork i s ((s.touchSpot i).modSpot i (Spot.takeStaged s)) := (live_touchSpot i s).trans (.mod (fun sp => by
    obtain ⟨a, ha⟩ := sp.takeStaged_eq s
    rw [ha]
    exact .of_eq rfl rfl) _)
  unfold becomeHead
  dsimp only
  refine .ite (fun _ => start.trans ?_) fun _ => start.trans ?_
  · refine LiveWork.trans (.mod (fun sp => by rw [Spot.modHead_eq]; exact .of_eq rfl rfl) _) (.mod (fun sp => ?_) _)
    exact .of_eq (HoldSet.put_esd (by decide) _ _) rfl
  · have staged : ∀ u : State, LiveWork i u (u.modSpot i fun sp => { sp.modHead (fun o => { o with state := .waiting }) with state := .staged }) :=
      fun u => .mod (fun sp => by rw [Spot.modHead_eq]; exact .of_eq rfl rfl) u
    exact .ite (fun _ => (staged _).trans (live_addHold i _ (by decide))) fun _ => staged _

theorem live_nextHead : LiveWork i s (nextHead i s) := by
  have meter : LiveWork i s (s.modSpot i Spot.stopMeter) := .same s
  unfold nextHead
  dsimp only
  split
  case h_4 => exact .ite (fun _ => live_removeHold i s _) fun _ => live_becomeHead i s
  case h_1 | h_2 | h_3 =>
    exact .ite (fun _ => meter.trans (.same _)) fun _ => meter.trans (live_becomeHead i _)
  all_goals exact .refl i s

theorem live_headGone (closes : Bool) : LiveWork i s (headGone i closes s) :=
  .ite (fun _ => live_enterIsolating i s _ _ _) fun _ => live_nextHead i s

theorem live_drainHead (r : EndReason) : LiveWork i s (drainHead i r s) := by
  unfold drainHead
  refine LiveWork.trans (LiveWork.trans ?_ (live_leaveCompressors i _)) (live_commandSpot i _ _ _)
  exact (live_touchSpot i s).trans (.mod (fun sp => by rw [Spot.modHead_eq]; exact .of_eq rfl rfl) _)

theorem live_headLeaves (h : Order) (r : EndReason) : LiveWork i s (headLeaves i h r s) := by
  unfold headLeaves
  refine LiveWork.trans (LiveWork.trans (LiveWork.trans ?_ (live_leaveCompressors i _)) (live_depart i _ _)) (live_headGone i _ _)
  exact .ite (fun _ => LiveWork.trans (.same s) (live_commandSpot i _ _ _)) fun _ => .refl i s

theorem live_endHead (r : EndReason) : LiveWork i s (endHead i r s) := by
  unfold endHead
  split
  · exact .refl i s
  · exact .ite (fun _ => live_drainHead i s r) fun _ => live_headLeaves i s _ r

/-! ## The arrivals -/

theorem live_onDrained : LiveWork i s (onDrained i s) := by
  rcases onDrained_cases i s with ⟨e, -⟩ | ⟨h, -, e⟩ <;> rw [e]
  · exact .refl i s
  · exact (((live_commandSpot i s _ _).trans (live_leaveCompressors i _)).trans (live_depart i _ _)).trans (live_headGone i _ _)

theorem live_onResumed : LiveWork i s (onResumed i s) :=
  .ite (fun _ => (live_touchSpot i s).trans (.mod (fun sp => by rw [Spot.modHead_eq]; exact .of_eq rfl rfl) _)) fun _ => .refl i s

theorem live_opened : LiveWork i s (onLiquidOpen i (onShutoffOpen i s)) := by
  have shutoff : LiveWork i s (onShutoffOpen i s) := .ite (fun _ => .same s) fun _ => .refl i s
  exact shutoff.trans (.ite (fun _ => .same _) fun _ => .refl i _)

theorem live_isolation : LiveWork i s (onVentShut i (onVentOpen i (onLinesShut i s))) := by
  have lines : LiveWork i s (onLinesShut i s) :=
    .ite (fun _ => LiveWork.trans (.same s) (live_commandSpot i _ _ _)) fun _ => .refl i s
  have vent : ∀ u : State, LiveWork i u (onVentOpen i u) := fun u => .ite (fun _ => .same u) fun _ => .refl i u
  refine (lines.trans (vent _)).trans ?_
  generalize onVentOpen i (onLinesShut i s) = u
  rcases onVentShut_cases i u with ⟨e, -⟩ | ⟨-, -, e⟩
  · rw [e]
    exact .refl i u
  · exact (spotWork_onVentShut i u).kept.live (by rw [e]; exact ⟨id, fun _ => rfl⟩)

theorem live_passStroke : LiveWork i s (passStroke i s) := by
  refine (spotWork_passStroke i s).kept.live ?_
  unfold passStroke
  rw [endSpotTest_spot, modSpot_spot_same]
  exact .of_eq rfl rfl

theorem live_strokes : LiveWork i s (onStrokeTurn i (onStrokeShut i (onStrokeOpen i s))) := by
  have opened : LiveWork i s (onStrokeOpen i s) := by
    unfold onStrokeOpen
    dsimp only
    split
    · exact .ite (fun _ => LiveWork.trans (.same s) (live_commandSpot i _ _ _)) fun _ => .refl i s
    · exact .refl i s
  have shut : ∀ u : State, LiveWork i u (onStrokeShut i u) := fun u => by
    unfold onStrokeShut
    dsimp only
    split
    · refine .ite (fun _ => ?_) fun _ => .refl i u
      split
      · exact .same u
      · exact live_passStroke i u
    · exact .refl i u
  have turn : ∀ u : State, LiveWork i u (onStrokeTurn i u) := fun u => by
    unfold onStrokeTurn
    dsimp only
    split
    · exact .ite (fun _ => live_commandSpot i u _ _) fun _ => .refl i u
    · exact .refl i u
  exact (opened.trans (shut _)).trans (turn _)

theorem live_advanceSpot : LiveWork i s (advanceSpot i s) :=
  ((((live_opened i s).trans (live_onDrained i _)).trans (live_onResumed i _)).trans (live_isolation i _)).trans (live_strokes i _)

theorem live_runHead : LiveWork i s (runHead i s) := by
  unfold runHead
  dsimp only
  split
  · exact .refl i s
  · refine .ite (fun _ => ?_) fun _ => .ite (fun _ => (live_endHead i s _).trans (live_advanceSpot i _)) fun _ => ?_
    · refine LiveWork.trans (LiveWork.trans ((live_touchSpot i s).trans ?_) (live_commandSpot i _ _ _)) (live_commandSpot i _ _ _)
      exact .mod (fun sp => by rw [Spot.modHead_eq]; exact .of_eq rfl rfl) _
    · refine LiveWork.trans ((live_touchSpot i s).trans ?_) (live_commandSpot i _ _ _)
      exact .mod (fun sp => by rw [Spot.modHead_eq]; exact .of_eq rfl rfl) _

end SpotOps

/-! ## The arbiter -/

theorem live_performDue (i : SpotNo) (d : Due) (s : State) : LiveWork i s (performDue d s) := by
  cases d with
  | run j =>
    by_cases e : i = j
    · rw [e]
      exact live_runHead j s
    · exact (spotWork_runHead j s).live e
  | join => exact .of_spot rfl rfl
  | seat g c =>
    refine (kept_grantSeat c g s).live ?_
    show (s.spot i).StaysLive ((grantSeat c g s).spot i)
    by_cases e : i = g.spot
    · rw [e, grantSeat_spot]
      exact .of_eq rfl rfl
    · rw [grantSeat_elsewhere e]
      exact .refl _
  | turn j c => exact (kept_markTurning j c s).live (by
      show (s.spot i).StaysLive ((markTurning j c s).spot i)
      rw [spot_of_spots (spots_markTurning j c s) i]
      exact .refl _)

theorem live_settle (i : SpotNo) (s : State) : LiveWork i s (settle s) := by
  suffices h : ∀ n s, LiveWork i s (settleFor n s) from h _ s
  intro n
  induction n with
  | zero => exact fun s => .refl i s
  | succ n ih =>
    intro s
    unfold settleFor
    split
    · exact .refl i s
    · exact (live_performDue i _ s).trans (ih _)

end Sys2Proof.Machine
end

section
/-! PROOFS. Field enable turned on (R45, R162, R163, R164): what it leaves as it is, and what it gives each spot back. -/

namespace Sys2Proof.Machine

/-! ## Field enable's return at one spot -/

/-- A spot that stands no more begins its isolation anew (R45). -/
def Spot.isolatesAnew (sp : Spot) : Spot := { sp with standing := false, step := some .linesClosing }

theorem spotGainsEnable_cases (i : SpotNo) (s : State) :
    spotGainsEnable i s = removeHold i .esd s ∧ ¬ ((s.spot i).state = .isolating ∧ (s.spot i).standing = true) ∨
      (s.spot i).state = .isolating ∧ spotGainsEnable i s = shutLines i ((removeHold i .esd s).modSpot i Spot.isolatesAnew) := by
  have e : (removeHold i .esd s).spot i = { s.spot i with holds := (s.spot i).holds.put .esd false } := modSpot_spot_same s i _
  unfold spotGainsEnable
  dsimp only
  rw [e]
  split
  next h => exact .inr ⟨h.1, rfl⟩
  next h => exact .inl ⟨rfl, h⟩

theorem spotWork_spotGainsEnable (i : SpotNo) (s : State) : SpotWork i s (spotGainsEnable i s) := by
  have hold := spotWork_removeHold i s .esd
  rcases spotGainsEnable_cases i s with ⟨e, -⟩ | ⟨-, e⟩ <;> rw [e]
  · exact hold
  · generalize removeHold i .esd s = u at *
    have resume : SpotWork i u (u.modSpot i Spot.isolatesAnew) := .mod (by intro; rfl) (by intro; rfl) u
    exact (hold.trans resume).trans (spotWork_shutLines i _)

/-- The hold ESD is removed (R45). -/
theorem spotGainsEnable_unholds {i : SpotNo} {s : State} (h : s.fe = true) : ((spotGainsEnable i s).spot i).holds.esd = false := by
  have e : ((removeHold i .esd s).spot i).holds.esd = false := by rw [removeHold, modSpot_spot_same]; rfl
  have hf : (removeHold i .esd s).fe = true := h
  rcases spotGainsEnable_cases i s with ⟨e', -⟩ | ⟨-, e'⟩ <;> rw [e']
  · exact e
  · generalize removeHold i .esd s = u at *
    have resume : LiveWork i u (u.modSpot i Spot.isolatesAnew) := .mod (by exact fun _ => ⟨id, fun _ => rfl⟩) u
    exact ((resume.trans (live_shutLines i _)).live hf).1 e

/-- A spot that was standing in ISOLATING stands no more (R45). -/
theorem spotGainsEnable_resumes {i : SpotNo} {s : State} (h : s.fe = true) (hst : (s.spot i).state = .isolating) :
    ((spotGainsEnable i s).spot i).standing = false := by
  have hf : (removeHold i .esd s).fe = true := h
  rcases spotGainsEnable_cases i s with ⟨e, hno⟩ | ⟨-, e⟩ <;> rw [e]
  · rw [removeHold, modSpot_spot_same]
    exact eq_false_of_ne_true fun hs => hno ⟨hst, hs⟩
  · generalize removeHold i .esd s = u at *
    have hnow : ((u.modSpot i Spot.isolatesAnew).spot i).standing = false := by rw [modSpot_spot_same]; rfl
    exact ((live_shutLines i (u.modSpot i Spot.isolatesAnew)).live hf).2 hnow

/-! ## Each owner's turn -/

/-- Field enable on and the rearm run back at 0, before the owners have had their turn. -/
def enabled (s : State) : State := { s with fe := true, rearmRun := 0 }

/-- The spots have field enable back. -/
def spotsEnabled (s : State) : State := eachFittedSpot spotGainsEnable (enabled s)

/-- A spot looks at its open commands and its arrivals again. -/
def spotResumes (i : SpotNo) (s : State) : State := advanceSpot i (pursueSpotAll i s)

/-- A compressor looks at its open commands and its arrivals again. -/
def compResumes (c : CompNo) (s : State) : State := compAdvance c (pursueDirAll c s)

theorem enableOn_eq (s : State) : enableOn s = settle (eachComp compResumes (eachSpot spotResumes (spotsEnabled s))) := rfl

theorem spotWork_spotResumes (i : SpotNo) (s : State) : SpotWork i s (spotResumes i s) :=
  (spotWork_pursueSpotAll i s).trans (spotWork_advanceSpot i _)

theorem compWork_compResumes (c : CompNo) (s : State) : CompWork c s (compResumes c s) :=
  (compWork_pursueDirAll c s).trans (compWork_compAdvance c _)

theorem kept_enableOn (s : State) : Kept (enabled s) (enableOn s) :=
  (((Kept.eachFittedSpot (fun i s => (spotWork_spotGainsEnable i s).kept) _).trans
    (.eachSpot (fun i s => (spotWork_spotResumes i s).kept) _)).trans
    (.eachComp (fun c s => (compWork_compResumes c s).kept) _)).trans (kept_settle _)

theorem live_eachSpot {f : SpotNo → State → State} (hw : ∀ i s, SpotWork i s (f i s)) (i : SpotNo) (hf : ∀ s, LiveWork i s (f i s))
    (s : State) : LiveWork i s (eachSpot f s) := by
  refine .foldl (fun s j => ?_) _ s
  by_cases e : i = j
  · rw [← e]
    exact hf s
  · exact (hw j s).live e

theorem live_eachComp {f : CompNo → State → State} (hw : ∀ c s, CompWork c s (f c s)) (i : SpotNo) (s : State) :
    LiveWork i s (eachComp f s) :=
  .foldl (fun s c => .of_spot (hw c s).kept.fe_eq (spot_of_spots (hw c s).spots i)) _ s

theorem live_spotResumes (i : SpotNo) (s : State) : LiveWork i s (spotResumes i s) :=
  (live_pursueSpotAll i s).trans (live_advanceSpot i _)

/-- After the spots' own turn, the rest of field enable's return leaves each spot live. -/
theorem live_afterEnable (i : SpotNo) (s : State) : LiveWork i (spotsEnabled s) (enableOn s) :=
  ((live_eachSpot spotWork_spotResumes i (live_spotResumes i) _).trans (live_eachComp compWork_compResumes i _)).trans (live_settle i _)

/-- A fitted spot has its own turn at field enable's return, on the spot as it was. -/
theorem spotsEnabled_turn {i : SpotNo} {s : State} (hi : s.fittedSpot i = true) :
    ∃ u : State, u.fe = true ∧ u.spot i = s.spot i ∧ (spotsEnabled s).spot i = (spotGainsEnable i u).spot i := by
  obtain ⟨u, h1, h2⟩ := eachFittedSpot_turn spotWork_spotGainsEnable (s := enabled s) (i := i) hi
  exact ⟨u, h1.kept.fe_eq, h1.spot, h2.spot⟩

theorem spotsEnabled_fe (s : State) : (spotsEnabled s).fe = true :=
  (Kept.eachFittedSpot (fun i s => (spotWork_spotGainsEnable i s).kept) (enabled s)).fe_eq

theorem enableOn_unholds {i : SpotNo} {s : State} (hi : s.fittedSpot i = true) : ((enableOn s).spot i).holds.esd = false := by
  obtain ⟨u, hf, -, he⟩ := spotsEnabled_turn hi
  exact ((live_afterEnable i s).live (spotsEnabled_fe s)).1 (by rw [he]; exact spotGainsEnable_unholds hf)

theorem enableOn_resumes {i : SpotNo} {s : State} (hi : s.fittedSpot i = true) (hst : (s.spot i).state = .isolating) :
    ((enableOn s).spot i).standing = false := by
  obtain ⟨u, hf, hu, he⟩ := spotsEnabled_turn hi
  exact ((live_afterEnable i s).live (spotsEnabled_fe s)).2 (by rw [he]; exact spotGainsEnable_resumes hf (by rw [hu]; exact hst))

/-! ## A spot at rest -/

/-- VACANT, SPOTTED or FAULTED, without orders: the states at which no arrival and no order finds the spot. -/
def Spot.Idle (sp : Spot) : Prop := (sp.state = .vacant ∨ sp.state = .spotted ∨ sp.state = .faulted) ∧ sp.orders = []

theorem Spot.Idle.of_eq {a b : Spot} (h : a.Idle) (h1 : b.state = a.state) (h2 : b.orders = a.orders) : b.Idle := by
  unfold Spot.Idle
  rw [h1, h2]
  exact h

theorem Spot.Idle.ne {a : Spot} (h : a.Idle) {x : SpotState} (hx : x ≠ .vacant ∧ x ≠ .spotted ∧ x ≠ .faulted) : a.state ≠ x := by
  rintro rfl
  obtain ⟨h1, h2, h3⟩ := hx
  rcases h.1 with e | e | e
  · exact h1 e
  · exact h2 e
  · exact h3 e

theorem advanceSpot_idle {i : SpotNo} {s : State} (h : (s.spot i).Idle) : advanceSpot i s = s := by
  refine advanceSpot_head ?_ (h.ne (by decide)) (h.ne (by decide)) (h.ne (by decide))
  rw [onShutoffOpen_off (h.ne (by decide)), onLiquidOpen_off (h.ne (by decide)), onDrained_empty h.2]

theorem spotResumes_idle {i : SpotNo} {s : State} (h : (s.spot i).Idle) :
    ((spotResumes i s).spot i).state = (s.spot i).state ∧ ((spotResumes i s).spot i).orders = (s.spot i).orders := by
  have hbare : ((pursueSpotAll i s).spot i).bare = (s.spot i).bare := by
    rw [pursueSpotAll_eq, modSpot_spot_same]
    exact Spot.pursueAll_bare _ _ _
  have hst : ((pursueSpotAll i s).spot i).state = (s.spot i).state := by
    have e := congrArg Spot.state hbare
    exact e
  have ho : ((pursueSpotAll i s).spot i).orders = (s.spot i).orders := by
    have e := congrArg Spot.orders hbare
    exact e
  unfold spotResumes
  rw [advanceSpot_idle (h.of_eq hst ho)]
  exact ⟨hst, ho⟩

theorem spotGainsEnable_idle {i : SpotNo} {s : State} (h : (s.spot i).Idle) :
    ((spotGainsEnable i s).spot i).state = (s.spot i).state ∧ ((spotGainsEnable i s).spot i).orders = (s.spot i).orders := by
  rcases spotGainsEnable_cases i s with ⟨e, -⟩ | ⟨hst, -⟩
  · rw [e, removeHold, modSpot_spot_same]
    exact ⟨rfl, rfl⟩
  · exact absurd hst (h.ne (by decide))

theorem settle_idle {i : SpotNo} {s : State} (h : (s.spot i).Idle) : ((settle s).spot i).state = (s.spot i).state := by
  obtain ⟨x, hx⟩ := settle_spot s i fun hw => h.ne (by decide) hw.1
  rw [hx]

theorem enableOn_idle {i : SpotNo} {s : State} (h : (s.spot i).Idle) : ((enableOn s).spot i).state = (s.spot i).state := by
  obtain ⟨u, h1, h2⟩ := eachSpot_turn (spotWork_ifFitted spotWork_spotGainsEnable) i (enabled s)
  have hu : (u.spot i).Idle := h1.spot.symm ▸ h
  have hgain : ((spotsEnabled s).spot i).state = (s.spot i).state ∧ ((spotsEnabled s).spot i).orders = (s.spot i).orders := by
    have e : (spotsEnabled s).spot i = (if u.fittedSpot i then spotGainsEnable i u else u).spot i := h2.spot
    have hspot : u.spot i = s.spot i := h1.spot
    rw [e, ← hspot]
    split
    · exact spotGainsEnable_idle hu
    · exact ⟨rfl, rfl⟩
  have hidle := h.of_eq hgain.1 hgain.2
  obtain ⟨w, k1, k2⟩ := eachSpot_turn spotWork_spotResumes i (spotsEnabled s)
  have hw := spotResumes_idle (i := i) (s := w) (k1.spot.symm ▸ hidle)
  rw [← k2.spot, k1.spot] at hw
  have hcomps : (eachComp compResumes (eachSpot spotResumes (spotsEnabled s))).spot i = (eachSpot spotResumes (spotsEnabled s)).spot i :=
    foldl_keeps (fun s => s.spot i) _ (fun s c => spot_of_spots (compWork_compResumes c s).spots i) _ _
  rw [enableOn_eq, settle_idle (by rw [hcomps]; exact hidle.of_eq hw.1 hw.2), hcomps, hw.1, hgain.1]

end Sys2Proof.Machine
end

section
/-! PROOFS. REARM (R162). -/

namespace Sys2Proof.Machine

section

variable {s b v t : State} {via : Via}

theorem esdActive_of_frame {s u : State} (h : u.frame = s.frame) : u.esdActive = s.esdActive := by
  have hp : u.profile = s.profile := congrArg Frame.profile h
  have hl : u.esdHigh = s.esdHigh := congrArg Frame.esdHigh h
  unfold State.esdActive State.judgedActive
  rw [hp, hl]

theorem answerRearm_esd (h : s.esdActive = true) : answerRearm s = (s, .bare .esdActive) := if_pos h

theorem answerRearm_on (h : s.esdActive = false) (hf : s.fe = true) : answerRearm s = (s, { status := .done, body := [1] }) := by
  unfold answerRearm
  rw [if_neg (by rw [h]; exact Bool.false_ne_true), if_pos hf, hf]
  rfl

theorem answerRearm_off (h : s.esdActive = false) (hf : s.fe = false) :
    answerRearm s = (enableOn s, { status := .done, body := [1] }) := by
  have hon : (enableOn s).fe = true := (kept_enableOn s).fe_eq
  unfold answerRearm
  rw [if_neg (by rw [h]; exact Bool.false_ne_true), if_neg (by rw [hf]; exact Bool.false_ne_true)]
  dsimp only
  rw [hon]
  rfl

/-- What field enable's return leaves in the frame at the close of its event. -/
theorem enableOn_event (ht : t.frame = (closeEvent b (enableOn v)).frame) (hch : t.changes = (closeEvent b (enableOn v)).changes)
    (hoff : b.fe = false) :
    t.fe = true ∧ t.rearmRun = 0 ∧ t.changes.siding = true ∧ t.beatTimer = v.beatTimer ∧ t.profile = v.profile ∧
      t.staged = v.staged ∧ t.stagedVersion = v.stagedVersion ∧ t.setpointHold = v.setpointHold ∧ t.lock = v.lock ∧
      t.lockTaken = v.lockTaken ∧ t.esdHigh = v.esdHigh ∧ ∀ i, t.spot i = (enableOn v).spot i := by
  have hfix := (kept_enableOn v).fixed
  obtain ⟨w, hw⟩ : ∃ w, w = enableOn v := ⟨_, rfl⟩
  rw [← hw] at ht hch hfix ⊢
  have hfe : w.fe = true := congrArg Fixed.fe hfix
  rw [closeEvent_frame] at ht
  generalize (closeEvent b w).cars = cars at ht
  have field {α : Type} (f : Frame → α) (g : Fixed → α) (hg : f { w.frame with cars := cars } = g w.fixed) :
      f t.frame = g (enabled v).fixed := by rw [ht, hg, hfix]
  refine ⟨field Frame.fe Fixed.fe rfl, field Frame.rearmRun Fixed.rearmRun rfl, ?_, field Frame.beatTimer Fixed.beatTimer rfl,
    field Frame.profile Fixed.profile rfl, field Frame.staged Fixed.staged rfl, field Frame.stagedVersion Fixed.stagedVersion rfl,
    field Frame.setpointHold Fixed.setpointHold rfl, field Frame.lock Fixed.lock rfl, field Frame.lockTaken Fixed.lockTaken rfl,
    field Frame.esdHigh Fixed.esdHigh rfl, spot_of_spots (congrArg Frame.spots ht)⟩
  rw [hch]
  refine sidingFlag_of_ne fun e => ?_
  have h : b.fe = w.fe := congrArg SidingView.fe e
  rw [hoff, hfe] at h
  exact Bool.false_ne_true h

end

theorem Spot.queueLegal_idle {sp : Spot} (h : sp.queueLegal) (hst : sp.state = .vacant ∨ sp.state = .spotted ∨ sp.state = .faulted) :
    sp.Idle := by
  obtain ⟨-, -, -, hq⟩ := h
  refine ⟨hst, ?_⟩
  rcases hst with e | e | e <;> rw [e] at hq <;> exact hq

/-- Settles O42: of the request's three answers two change nothing; the third gives field enable back, where the fixed fields
stand by `kept_enableOn` and each spot's clause by the spot's own turn and the rest being live. -/
theorem rearmTurnsFieldEnableOn : Obligations.RearmTurnsFieldEnableOn := by
  unfold Obligations.RearmTurnsFieldEnableOn
  intro s via ht
  refine ⟨fun h => ?_, fun h hf => ?_, fun h hf => ?_⟩
  · exact refuses_of (c := .rearm via) ht rfl fun u hu => answerRearm_esd ((esdActive_of_frame hu).trans h)
  · exact refuses_of (c := .rearm via) ht rfl fun u hu =>
      answerRearm_on ((esdActive_of_frame hu).trans h) ((fe_of_frame hu).trans hf)
  · obtain ⟨v, t, hv, ha, hframe, hch, -⟩ := answers_event (c := .rearm via) (s := s) ht rfl fun v hv =>
      answerRearm_off ((esdActive_of_frame hv).trans h) ((fe_of_frame hv).trans hf)
    obtain ⟨h1, h2, h3, h4, h5, h6, h7, h8, h9, h10, h11, hspot⟩ := enableOn_event hframe hch ((fe_of_frame hv.frame).trans hf)
    have hvs : ∀ i, v.spot i = s.spot i := spot_of_frame hv.frame
    have hfit : ∀ i, s.fittedSpot i = true → v.fittedSpot i = true := fun i hi =>
      (fittedSpot_of_profile (congrArg Frame.profile hv.frame) i).trans hi
    refine ⟨t, ha, h1, h2, h3, fun i hi _ => ?_, fun i hst hq => ?_, fun i hi hst _ => ?_,
      h5.trans (congrArg Frame.profile hv.frame), h6.trans (congrArg Frame.staged hv.frame),
      h7.trans (congrArg Frame.stagedVersion hv.frame), h8.trans (congrArg Frame.setpointHold hv.frame),
      h9.trans (congrArg Frame.lock hv.frame), h10.trans (congrArg Frame.lockTaken hv.frame),
      h11.trans (congrArg Frame.esdHigh hv.frame), h4.trans (congrArg Frame.beatTimer hv.frame)⟩
    · rw [hspot]
      exact enableOn_unholds (hfit i hi)
    · rw [hspot, enableOn_idle (by rw [hvs]; exact Spot.queueLegal_idle hq hst), hvs]
    · rw [hspot]
      exact enableOn_resumes (hfit i hi) (by rw [hvs]; exact hst)

end Sys2Proof.Machine
end

section
/-! PROOFS. Compressors halted (R137, R138): what the halt leaves, and what no work of spots and orders undoes. -/

namespace Sys2Proof.Machine

/-! ## One compressor halted -/

/-- STOPPED, without seats or a mark, its start output off (R137). -/
structure Comp.Halted (k : Comp) : Prop where
  state : k.state = .stopped
  seated : k.seated = []
  turning : k.turning = none
  startOn : k.startOn = false

theorem Comp.Halted.of_bare {a b : Comp} (h : a.Halted) (e : b.bare = a.bare) : b.Halted := by
  have e1 := congrArg Comp.state e
  have e2 := congrArg Comp.seated e
  have e3 := congrArg Comp.turning e
  have e4 := congrArg Comp.startOn e
  exact ⟨e1.trans h.state, e2.trans h.seated, e3.trans h.turning, e4.trans h.startOn⟩

/-- A halted compressor on which no spot is seated. -/
structure Halted (c : CompNo) (s : State) : Prop where
  comp : (s.comp c).Halted
  unseats : ∀ i, (s.spot i).seat ≠ some c

/-- Every spot off the seats of compressor `c`. -/
def Spot.vacates (c : CompNo) (sp : Spot) : Spot := if sp.seat = some c then { sp with seat := none } else sp

theorem Spot.vacates_seat (c : CompNo) (sp : Spot) : (sp.vacates c).seat ≠ some c ∧ ((sp.vacates c).seat = sp.seat ∨ (sp.vacates c).seat = none) := by
  unfold Spot.vacates
  split
  next => exact ⟨nofun, .inr rfl⟩
  next h => exact ⟨h, .inl rfl⟩

theorem Spot.vacates_eq (c : CompNo) (sp : Spot) : ∃ x, sp.vacates c = { sp with seat := x } := by
  unfold Spot.vacates
  split
  · exact ⟨none, rfl⟩
  · exact ⟨sp.seat, rfl⟩

def State.vacate (c : CompNo) (s : State) : State := { s with spots := Vector.ofFn fun i => (s.spot i).vacates c }

theorem vacate_spot (c : CompNo) (s : State) (i : SpotNo) : (s.vacate c).spot i = (s.spot i).vacates c := Vector.getElem_ofFn _

/-- The compressor of a halt, before a proof it was in ends. -/
def haltedComp (c : CompNo) (s : State) : State := stopComp c ((s.vacate c).modComp c fun k => { k with turning := none, seated := [] })

theorem haltComp_eq (keep : Bool) (c : CompNo) (s : State) : haltComp keep c s =
    if (s.comp c).state == .proof then
      endCompTest c (if keep then (haltedComp c s).modComp c fun k => k.mapValves Valve.failTest
        else ((haltedComp c s).modComp c fun k => k.mapValves Valve.failTest).modComp c fun k => k.mapValves Valve.stopTimer)
    else haltedComp c s := by
  unfold haltComp
  dsimp only
  rw [show eachSpot (fun i s => s.modSpot i fun sp => if sp.seat = some c then { sp with seat := none } else sp) s = s.vacate c from
    eachSpot_modSpot (fun _ => Spot.vacates c) s]
  rfl

section Halt

variable (keep : Bool) (c : CompNo) (s : State)

theorem haltedComp_halts : ((haltedComp c s).comp c).Halted := by
  have e := Comp.stops_bare s.strokeOfDirection s.fe { s.comp c with turning := none, seated := [] }
  have h : (haltedComp c s).comp c = Comp.stops s.strokeOfDirection s.fe { s.comp c with turning := none, seated := [] } := by
    unfold haltedComp
    rw [stopComp_eq, modComp_comp_same, modComp_comp_same]
    rfl
  rw [h]
  exact ⟨congrArg Comp.state e, congrArg Comp.seated e, congrArg Comp.turning e, congrArg Comp.startOn e⟩

theorem compWork_haltComp : CompWork c (s.vacate c) (haltComp keep c s) := by
  have seats : CompWork c (s.vacate c) ((s.vacate c).modComp c fun k => { k with turning := none, seated := [] }) :=
    .modComp (by exact fun _ _ e => by cases e) _
  have stop : CompWork c (s.vacate c) (haltedComp c s) := seats.trans (compWork_stopComp c _)
  have fail : ∀ u, CompWork c u (u.modComp c fun k => k.mapValves Valve.failTest) := fun u =>
    .mod (fun k => by have e := congrArg Comp.turning (Comp.mapValves_bare Valve.failTest k); exact e) u
  have timers : ∀ u, CompWork c u (u.modComp c fun k => k.mapValves Valve.stopTimer) := fun u =>
    .mod (fun k => by have e := congrArg Comp.turning (Comp.mapValves_bare Valve.stopTimer k); exact e) u
  rw [haltComp_eq]
  refine .ite (fun _ => .trans ?_ (compWork_endCompTest c _)) fun _ => stop
  exact .ite (fun _ => stop.trans (fail _)) fun _ => (stop.trans (fail _)).trans (timers _)

theorem haltComp_halts : ((haltComp keep c s).comp c).Halted := by
  have h := haltedComp_halts c s
  rw [haltComp_eq]
  split
  · rw [endCompTest_comp]
    have hfail : (((haltedComp c s).modComp c fun k => k.mapValves Valve.failTest).comp c).Halted := by
      rw [modComp_comp_same]
      exact h.of_bare (Comp.mapValves_bare _ _)
    split
    · exact hfail
    · rw [modComp_comp_same]
      exact hfail.of_bare (Comp.mapValves_bare _ _)
  · exact h

theorem haltComp_spot (i : SpotNo) : (haltComp keep c s).spot i = (s.spot i).vacates c := by
  rw [spot_of_spots (compWork_haltComp keep c s).spots, vacate_spot]

theorem halted_haltComp : Halted c (haltComp keep c s) :=
  ⟨haltComp_halts keep c s, fun i => by rw [haltComp_spot]; exact (Spot.vacates_seat c _).1⟩

theorem haltComp_elsewhere {d : CompNo} (h : d ≠ c) : (haltComp keep c s).comp d = s.comp d :=
  (compWork_haltComp keep c s).others d h

theorem kept_haltComp : Kept s (haltComp keep c s) :=
  (Kept.plain rfl rfl rfl rfl : Kept s (s.vacate c)).trans (compWork_haltComp keep c s).kept

end Halt

/-! ## What keeps a compressor halted -/

/-- The work of a spot never seats it. -/
theorem Halted.spotWork {c : CompNo} {i : SpotNo} {s t : State} (h : Halted c s) (w : SpotWork i s t) : Halted c t := by
  refine ⟨?_, fun j => ?_⟩
  · rw [w.comps c (h.unseats i) (by rw [h.comp.turning]; exact nofun)]
    exact h.comp
  · by_cases e : j = i
    · rw [e]
      rcases w.seat with e' | e' <;> rw [e']
      · exact h.unseats i
      · exact nofun
    · rw [w.others j e]
      exact h.unseats j

theorem Halted.other {c d : CompNo} {s t : State} (h : Halted c s) (w : CompWork d s t) (hd : c ≠ d) : Halted c t :=
  ⟨by rw [w.others c hd]; exact h.comp, fun i => by rw [spot_of_spots w.spots]; exact h.unseats i⟩

theorem Halted.halt {c : CompNo} {s : State} (h : Halted c s) (keep : Bool) (d : CompNo) : Halted c (haltComp keep d s) := by
  by_cases e : c = d
  · rw [← e]
    exact halted_haltComp keep c s
  · refine ⟨by rw [haltComp_elsewhere keep d s e]; exact h.comp, fun i => ?_⟩
    rw [haltComp_spot]
    rcases (Spot.vacates_seat d (s.spot i)).2 with e' | e' <;> rw [e']
    · exact h.unseats i
    · exact nofun

theorem Halted.pursueDirAll {c : CompNo} {s : State} (h : Halted c s) (d : CompNo) : Halted c (pursueDirAll d s) := by
  by_cases e : c = d
  · rw [← e]
    refine ⟨?_, fun i => by rw [spot_of_spots (compWork_pursueDirAll c s).spots]; exact h.unseats i⟩
    rw [pursueDirAll_eq, modComp_comp_same]
    exact h.comp.of_bare (Comp.pursueAll_bare _ _ _)
  · exact h.other (compWork_pursueDirAll d s) e

/-! ## A fold that passes a point -/

/-- A fold keeps what each of its steps keeps. -/
theorem foldl_preserves {α σ : Type} {f : σ → α → σ} {p : σ → Prop} (h : ∀ s a, p s → p (f s a)) :
    ∀ (l : List α) (s : σ), p s → p (l.foldl f s)
  | [], _, hs => hs
  | a :: l, s, hs => foldl_preserves h l _ (h s a hs)

/-- A fold that comes by an element brings about what the step at that element brings about, where the steps before it keep what
that step needs and the steps after it keep what it has brought. -/
theorem foldl_reaches {α σ : Type} {f : σ → α → σ} {p q : σ → Prop} {a : α} (hp : ∀ s b, p s → p (f s b)) (hq : ∀ s, p s → q (f s a))
    (hk : ∀ s b, q s → q (f s b)) : ∀ (l : List α) (s : σ), a ∈ l → p s → q (l.foldl f s)
  | b :: l, s, hl, hs => by
    rw [List.foldl_cons]
    rcases List.mem_cons.mp hl with e | hl
    · rw [← e]
      exact foldl_preserves hk l _ (hq s hs)
    · exact foldl_reaches hp hq hk l _ hl (hp s b hs)

/-! ## With field enable off the arbiter seats nobody -/

/-- What the arbiter does while field enable is off. -/
theorem due_unenabled {s : State} (h : s.fe = false) {d : Due} (hd : s.due = some d) : (∃ i, d = .run i) ∨ d = .join := by
  unfold State.due at hd
  split at hd
  next i _ => exact .inl ⟨i, (Option.some.inj hd).symm⟩
  next =>
    split at hd
    · exact .inr (Option.some.inj hd).symm
    · rw [if_neg (by rw [h]; exact Bool.false_ne_true)] at hd
      cases hd

theorem Halted.settle {c : CompNo} {s : State} (h : Halted c s) (hf : s.fe = false) : Halted c (settle s) := by
  suffices hall : ∀ n s, Halted c s → s.fe = false → Halted c (settleFor n s) from hall _ s h hf
  intro n
  induction n with
  | zero => exact fun _ h _ => h
  | succ n ih =>
    intro s h hf
    unfold settleFor
    split
    next => exact h
    next d hd =>
      refine ih _ ?_ ((kept_performDue d s).fe_eq.trans hf)
      rcases due_unenabled hf hd with ⟨i, rfl⟩ | rfl
      · exact h.spotWork (spotWork_runHead i s)
      · exact ⟨h.comp, h.unseats⟩

end Sys2Proof.Machine
end

section
/-! PROOFS. Field enable turned off (R37, R137, R158, R159, R181): each owner's turn. -/

namespace Sys2Proof.Machine

/-- Field enable off and the rearm run back at 0, a commissioning run ended (R158, R181). -/
def disabled (s : State) : State := endCommissioning { s with fe := false, rearmRun := 0 }

def compsDisabled (s : State) : State := eachFittedComp compLosesEnable (disabled s)

def spotsDisabled (s : State) : State := eachFittedSpot spotLosesEnable (compsDisabled s)

theorem enableOff_eq (s : State) : enableOff s = eachComp pursueDirAll (eachSpot spotResumes (spotsDisabled s)) := rfl

/-! ## Each fitted compressor in turn -/

theorem eachFittedComp_preserves {f : CompNo → State → State} {p : State → Prop} (h : ∀ s c, p s → p (f c s)) {s : State} (hs : p s) :
    p (eachFittedComp f s) := by
  refine foldl_preserves (f := fun s c => if s.fittedComp c then f c s else s) (p := p) (fun s c hs => ?_) _ s hs
  split
  · exact h s c hs
  · exact hs

theorem eachFittedComp_reaches {f : CompNo → State → State} {p q : State → Prop} {c : CompNo} (hfit : ∀ s, p s → s.fittedComp c = true)
    (hp : ∀ s d, p s → p (f d s)) (hq : ∀ s, p s → q (f c s)) (hk : ∀ s d, q s → q (f d s)) {s : State} (hs : p s) :
    q (eachFittedComp f s) := by
  refine foldl_reaches (f := fun s c => if s.fittedComp c then f c s else s) (p := p) (a := c) (fun s d hs => ?_) (fun s hs => ?_)
    (fun s d hs => ?_) _ s (List.mem_finRange c) hs
  · split
    · exact hp s d hs
    · exact hs
  · rw [if_pos (hfit s hs)]
    exact hq s hs
  · split
    · exact hk s d hs
    · exact hs

/-! ## What stays -/

theorem disabled_cases (s : State) : disabled s = (if s.siding = .commissioning then
    { s with fe := false, rearmRun := 0, siding := .configured, tests := { spots := [], comps := [] } }
    else { s with fe := false, rearmRun := 0 }) := rfl

theorem disabled_fixed (s : State) : (disabled s).fixed = { s.fixed with fe := false, rearmRun := 0 } := by
  rw [disabled_cases]
  split <;> rfl

theorem disabled_spots (s : State) : (disabled s).spots = s.spots := by
  rw [disabled_cases]
  split <;> rfl

theorem disabled_comps (s : State) : (disabled s).comps = s.comps := by
  rw [disabled_cases]
  split <;> rfl

theorem comp_of_comps {s t : State} (h : t.comps = s.comps) (c : CompNo) : t.comp c = s.comp c := by
  unfold State.comp
  rw [h]

theorem disabled_siding (s : State) : (disabled s).siding = if s.siding = .commissioning then .configured else s.siding := by
  rw [disabled_cases]
  split <;> rfl

theorem disabled_fe (s : State) : (disabled s).fe = false := congrArg Fixed.fe (disabled_fixed s)

theorem disabled_profile (s : State) : (disabled s).profile = s.profile := congrArg Fixed.profile (disabled_fixed s)

theorem spotWork_spotLosesEnable (i : SpotNo) (s : State) : SpotWork i s (spotLosesEnable i s) := by
  unfold spotLosesEnable
  split
  case h_1 | h_2 | h_3 | h_4 | h_5 => exact spotWork_addHold i s _
  case h_6 => exact spotWork_failProving i s _
  case h_7 => exact SpotWork.trans (.mod (by intro; rfl) (by intro; rfl) s) (spotWork_shutAll i _)
  case h_8 => exact spotWork_failStroke i s _ _
  all_goals exact .refl i s

theorem kept_compLosesEnable (c : CompNo) (s : State) : Kept s (compLosesEnable c s) := by
  unfold compLosesEnable
  split
  · exact .refl s
  · exact kept_haltComp true c s

theorem kept_compsDisabled (s : State) : Kept (disabled s) (compsDisabled s) := .eachFittedComp kept_compLosesEnable _

theorem kept_enableOff (s : State) : Kept (disabled s) (enableOff s) :=
  (((kept_compsDisabled s).trans (.eachFittedSpot (fun i s => (spotWork_spotLosesEnable i s).kept) _)).trans
    (.eachSpot (fun i s => (spotWork_spotResumes i s).kept) _)).trans (.eachComp (fun c s => (compWork_pursueDirAll c s).kept) _)

/-! ## The compressors -/

theorem compLosesEnable_halts {c : CompNo} {s : State} (h : (s.comp c).state ≠ .faulted) : Halted c (compLosesEnable c s) := by
  unfold compLosesEnable
  rw [if_neg h]
  exact halted_haltComp true c s

theorem Halted.losesEnable {c : CompNo} {s : State} (h : Halted c s) (d : CompNo) : Halted c (compLosesEnable d s) := by
  unfold compLosesEnable
  split
  · exact h
  · exact h.halt true d

theorem compLosesEnable_unfaulted {c : CompNo} {s : State} (h : (s.comp c).state ≠ .faulted) (d : CompNo) :
    ((compLosesEnable d s).comp c).state ≠ .faulted := by
  by_cases e : c = d
  · rw [← e, (compLosesEnable_halts h).comp.state]
    exact nofun
  · unfold compLosesEnable
    split
    · exact h
    · rwa [haltComp_elsewhere true d s e]

/-- Every fitted compressor that is not FAULTED is halted (R137). -/
theorem compsDisabled_halts {c : CompNo} {s : State} (hf : s.fittedComp c = true) (h : (s.comp c).state ≠ .faulted) :
    Halted c (compsDisabled s) := by
  have hfit : (disabled s).fittedComp c = true := by
    unfold State.fittedComp State.site
    rw [disabled_profile]
    exact hf
  have hst : ((disabled s).comp c).state ≠ .faulted := by rwa [comp_of_comps (disabled_comps s)]
  exact eachFittedComp_reaches (p := fun u => u.fittedComp c = true ∧ (u.comp c).state ≠ .faulted) (fun _ hu => hu.1)
    (fun u d hu => ⟨((kept_compLosesEnable d u).fittedComp_eq c).trans hu.1, compLosesEnable_unfaulted hu.2 d⟩)
    (fun u hu => compLosesEnable_halts hu.2) (fun u d hu => hu.losesEnable d) ⟨hfit, hst⟩

theorem enableOff_halts {c : CompNo} {s : State} (hf : s.fittedComp c = true) (h : (s.comp c).state ≠ .faulted) :
    Halted c (settle (enableOff s)) := by
  refine Halted.settle ?_ ((kept_enableOff s).fe_eq.trans (disabled_fe s))
  refine foldl_preserves (fun u d hu => hu.pursueDirAll d) _ _ ?_
  refine foldl_preserves (fun u i hu => hu.spotWork (spotWork_spotResumes i u)) _ _ ?_
  exact foldl_preserves (fun u i hu => hu.spotWork (spotWork_ifFitted spotWork_spotLosesEnable i u)) _ _ (compsDisabled_halts hf h)

/-! ## Each spot's turn -/

theorem compLosesEnable_spot (c : CompNo) (s : State) (i : SpotNo) :
    ∃ x, (compLosesEnable c s).spot i = { s.spot i with seat := x } := by
  unfold compLosesEnable
  split
  · exact ⟨_, rfl⟩
  · rw [haltComp_spot]
    exact Spot.vacates_eq c _

theorem compsDisabled_spot (s : State) (i : SpotNo) : ∃ x, (compsDisabled s).spot i = { s.spot i with seat := x } := by
  have h : ∃ x, (compsDisabled s).spot i = { (disabled s).spot i with seat := x } := by
    refine eachFittedComp_preserves (p := fun u : State => ∃ x, u.spot i = { (disabled s).spot i with seat := x }) (fun u c hu => ?_)
      ⟨_, rfl⟩
    obtain ⟨x, hx⟩ := hu
    obtain ⟨y, hy⟩ := compLosesEnable_spot c u i
    exact ⟨y, by rw [hy, hx]⟩
  rwa [spot_of_spots (disabled_spots s)] at h

/-- Field enable off, and each fitted spot's work in two turns: its own loss, in `u`, and its valves' and arrivals', in `w`. -/
theorem enableOff_turn {i : SpotNo} {s : State} (hi : s.fittedSpot i = true) :
    ∃ (x : Option CompNo) (u w : State), u.fe = false ∧ u.spot i = { s.spot i with seat := x } ∧ w.fe = false ∧
      w.spot i = (spotLosesEnable i u).spot i ∧ GrantsShrink (spotLosesEnable i u) w ∧
      (enableOff s).spot i = (spotResumes i w).spot i ∧ GrantsShrink (spotResumes i w) (enableOff s) := by
  obtain ⟨x, hx⟩ := compsDisabled_spot s i
  have hk := kept_compsDisabled s
  have hfit : (compsDisabled s).fittedSpot i = true := (fittedSpot_of_profile (hk.profile_eq.trans (disabled_profile s)) i).trans hi
  obtain ⟨u, h1, h2⟩ := eachFittedSpot_turn spotWork_spotLosesEnable hfit
  obtain ⟨w, k1, k2⟩ := eachSpot_turn spotWork_spotResumes i (spotsDisabled s)
  have hu : u.fe = false := (h1.kept.fe_eq.trans hk.fe_eq).trans (disabled_fe s)
  have hl : (spotLosesEnable i u).fe = false := (spotWork_spotLosesEnable i u).kept.fe_eq.trans hu
  refine ⟨x, u, w, hu, h1.spot.trans hx, (k1.kept.fe_eq.trans h2.kept.fe_eq).trans hl, k1.spot.trans h2.spot, h2.grants.trans k1.grants, ?_, ?_⟩
  · rw [← k2.spot, enableOff_eq]
    exact foldl_keeps (fun s => s.spot i) _ (fun s c => spot_of_spots (compWork_pursueDirAll c s).spots i) _ _
  · rw [enableOff_eq]
    exact k2.grants.trans (.of_eq (foldl_keeps State.grants _ (fun s c => (compWork_pursueDirAll c s).grants) _ _))

end Sys2Proof.Machine
end

section
/-! PROOFS. Field enable turned off (R37): what each fitted spot shows at the end of the event. -/

namespace Sys2Proof.Machine

/-! ## Valves without field enable -/

theorem Spot.effective_off (sp : Spot) (n : ValveName) : sp.effective false n = false := by simp [Spot.effective]

/-- A command SHUT moves the valve as the loss of its effective command does. -/
theorem Valve.toldShut_state (stroke : Timer) (v : Valve) : (v.toldShut stroke).state = (v.pursue stroke false).state := by
  unfold Valve.toldShut Valve.pursue
  dsimp only
  split
  · split
    case h_2 => split <;> rfl
    all_goals first | rfl | contradiction
  · rfl

theorem Valve.pursue_isShut {stroke : Timer} {v : Valve} (h : (v.pursue stroke false).isShut = true) :
    v.isShut = true ∨ v.state = some .movingOpen :=
  Valve.toldShut_isShut (stroke := stroke) (by rwa [Valve.isShut, Valve.toldShut_state])

theorem Valve.toldShut_unopening {stroke : Timer} {v : Valve} (h : v.state ≠ some .movingOpen) :
    (v.toldShut stroke).state ≠ some .movingOpen := by
  rw [toldShut_state]
  unfold Valve.pursue
  split
  · split
    next _ e => cases e
    next e _ => exact absurd e h
    next => exact nofun
    next _ e => cases e
    next => exact h
  · exact h

/-! ## HELD -/

theorem Spot.held_stillDrains {stroke : ValveName → Timer} {r : HoldReason} {sp : Spot} (h : sp.stillDrains) :
    (sp.held stroke r).stillDrains := fun e => by
  obtain ⟨-, h2⟩ := h (by rwa [held_headIs] at e)
  exact ⟨eq_false_of_ne_true fun hs => held_drains h ⟨e, hs⟩, Valve.toldShut_unopening h2⟩

/-- A HELD spot looks at its commands again: its valves alone can change, its head drains on. -/
theorem spotResumes_held {i : SpotNo} {s : State} (hf : s.fe = false) (hst : (s.spot i).state = .held) (hd : (s.spot i).stillDrains) :
    (spotResumes i s).spot i = (s.spot i).pursueAll s.strokeOf false := by
  have h : (pursueSpotAll i s).spot i = (s.spot i).pursueAll s.strokeOf false := by rw [pursueSpotAll_eq, modSpot_spot_same, hf]
  have hbare := Spot.pursueAll_bare s.strokeOf false (s.spot i)
  have hstate : ((s.spot i).pursueAll s.strokeOf false).state = (s.spot i).state := by
    have e := congrArg Spot.state hbare
    exact e
  have hhead : ((s.spot i).pursueAll s.strokeOf false).headIs .draining = (s.spot i).headIs .draining := by
    have e := congrArg (fun sp => Spot.headIs sp .draining) hbare
    exact e
  unfold spotResumes
  rw [advanceSpot_held, h]
  · rw [h, hstate, hst]
  · rw [h, hhead]
    rintro ⟨h1, h2⟩
    obtain ⟨h3, h4⟩ := hd h1
    have hl := Spot.pursueAll_valve s.strokeOf false (s.spot i) .liquid
    rw [Spot.effective_off] at hl
    change ((s.spot i).pursueAll s.strokeOf false).liquid = _ at hl
    rw [hl] at h2
    rcases Valve.pursue_isShut h2 with e | e
    · exact Bool.false_ne_true (h3.symm.trans e)
    · exact h4 e

section Turn

variable {i : SpotNo} {s : State}

theorem spotLosesEnable_holds (h : (s.spot i).state.holdable) : spotLosesEnable i s = addHold i .esd s := by
  unfold spotLosesEnable
  rcases h with e | e | e | e <;> rw [e]

/-- The hold ESD joins the hold set of a HELD spot, and its shutoff valve is commanded SHUT (R37). -/
theorem addHold_esd (hr : (s.spot i).holds.esd = false) (hst : (s.spot i).state = .held) :
    (addHold i .esd s).spot i = { s.spot i with
      holds := (s.spot i).holds.put .esd true, shutoff := (s.spot i).shutoff.toldShut (s.strokeOf .shutoff) } := by
  have h : addHold i .esd s = commandSpot i .shutoff .toShut (s.modSpot i fun sp => { sp with holds := sp.holds.put .esd true }) := by
    unfold addHold
    dsimp only
    rw [if_neg (by rw [HoldSet.has, hr]; exact Bool.false_ne_true), hst]
    exact if_pos rfl
  rw [h, commandSpot_toShut, modSpot_spot_same, modSpot_spot_same]
  rfl

/-- A fitted spot with nothing held, brought to HELD by field enable's loss. -/
theorem enableOff_holds (hi : s.fittedSpot i = true) (hst : (s.spot i).state.holdable) (hr : (s.spot i).holds.esd = false)
    (hd : (s.spot i).stillDrains) :
    ∃ a b, (settle (enableOff s)).spot i = ((s.spot i).held a .esd).pursueAll b false := by
  obtain ⟨x, u, w, -, hu, hwf, hw, hg1, he, hg2⟩ := enableOff_turn hi
  have hust : (u.spot i).state.holdable := by
    rw [hu]
    exact hst
  have hur : (u.spot i).holds.has .esd = false := by
    rw [hu]
    exact hr
  have hheld : (u.spot i).held u.strokeOf .esd = (s.spot i).held u.strokeOf .esd := by
    rw [hu]
    unfold Spot.held
    rw [Spot.modHead_eq, Spot.modHead_eq]
    rfl
  rw [spotLosesEnable_holds hust] at hw hg1
  rw [addHold_spot hur hust, hheld] at hw
  have hspot := spotResumes_held hwf (by rw [hw]; rfl) (by rw [hw]; exact Spot.held_stillDrains hd)
  have hstate : ((enableOff s).spot i).state = .held := by
    rw [he, hspot, hw]
    have e := congrArg Spot.state (Spot.pursueAll_bare w.strokeOf false ((s.spot i).held u.strokeOf .esd))
    exact e
  have hquiet : ∀ g ∈ (enableOff s).grants, g.spot ≠ i := fun g hg =>
    (addHold_done hur hust).ungranted g (hg1 g ((spotWork_spotResumes i w).grants g (hg2 g hg)))
  refine ⟨u.strokeOf, w.strokeOf, ?_⟩
  rw [settle_quiet _ i (Spot.not_waits (by rw [hstate]; exact nofun)) hquiet, he, hspot, hw]

/-- A HELD spot at field enable's loss. -/
theorem enableOff_held (hi : s.fittedSpot i = true) (hst : (s.spot i).state = .held) (hr : (s.spot i).holds.esd = false)
    (hd : (s.spot i).stillDrains) :
    ∃ x y a b, (settle (enableOff s)).spot i = { ({ s.spot i with
      seat := x, holds := (s.spot i).holds.put .esd true, shutoff := (s.spot i).shutoff.toldShut a } : Spot).pursueAll b false with
      seat := y } := by
  obtain ⟨x, u, w, -, hu, hwf, hw, -, he, -⟩ := enableOff_turn hi
  have hust : (u.spot i).state = .held := by
    rw [hu]
    exact hst
  have hloss : spotLosesEnable i u = addHold i .esd u := by
    unfold spotLosesEnable
    rw [hust]
  rw [hloss, addHold_esd (by rw [hu]; exact hr) hust, hu] at hw
  have hspot := spotResumes_held hwf (by rw [hw]; exact hst) (by rw [hw]; exact hd)
  obtain ⟨y, hy⟩ := settle_spot (enableOff s) i (Spot.not_waits (by
    rw [he, hspot, hw]
    have e := congrArg Spot.state (Spot.pursueAll_bare w.strokeOf false { s.spot i with
      seat := x, holds := (s.spot i).holds.put .esd true, shutoff := (s.spot i).shutoff.toldShut (u.strokeOf .shutoff) })
    intro hs
    have e' := hst.symm.trans (e.symm.trans hs)
    cases e'))
  exact ⟨x, y, u.strokeOf .shutoff, w.strokeOf, by rw [hy, he, hspot, hw]⟩

end Turn

end Sys2Proof.Machine
end

section
/-! PROOFS. Field enable turned off (R37, R48): the spots in PROVING, ISOLATING and STROKING. -/

namespace Sys2Proof.Machine

/-! ## A spot that stands in ISOLATING -/

/-- Standing in ISOLATING as before, with the same last fault and timer (R37). -/
structure Spot.StandsAs (a b : Spot) : Prop where
  state : b.state = .isolating
  standing : b.standing = true
  fault : b.fault = a.fault
  timer : b.timer = a.timer

theorem Spot.StandsAs.trans {a b c : Spot} (h : a.StandsAs b) (k : b.StandsAs c) : a.StandsAs c :=
  ⟨k.state, k.standing, k.fault.trans h.fault, k.timer.trans h.timer⟩

theorem Spot.StandsAs.of_bare {a b : Spot} (e : b.bare = a.bare) (h1 : a.state = .isolating) (h2 : a.standing = true) : a.StandsAs b := by
  have e1 := congrArg Spot.state e
  have e2 := congrArg Spot.standing e
  have e3 := congrArg Spot.fault e
  have e4 := congrArg Spot.timer e
  exact ⟨e1.trans h1, e2.trans h2, e3, e4⟩

section Stand

variable {i : SpotNo} {s : State}

theorem onDrained_stands (h1 : (s.spot i).state = .isolating) (h2 : (s.spot i).standing = true) :
    (s.spot i).StandsAs ((onDrained i s).spot i) := by
  rcases onDrained_cases i s with ⟨e, -⟩ | ⟨o, -, e⟩ <;> rw [e]
  · exact ⟨h1, h2, rfl, rfl⟩
  · obtain ⟨u, hu⟩ : ∃ u, u = depart i o (leaveCompressors i (commandSpot i .vapour .toShut s)) := ⟨_, rfl⟩
    have hs : (s.spot i).StandsAs (u.spot i) := by
      rw [hu, depart_spot, leaveCompressors_unseats, commandSpot_toShut, modSpot_spot_same]
      exact ⟨h1, h2, rfl, rfl⟩
    rw [← hu, headGone_isolating hs.state]
    exact hs

theorem advanceSpot_stands (h1 : (s.spot i).state = .isolating) (h2 : (s.spot i).standing = true) :
    (s.spot i).StandsAs ((advanceSpot i s).spot i) := by
  have hs := onDrained_stands h1 h2
  obtain ⟨u, hu⟩ : ∃ u, u = onDrained i s := ⟨_, rfl⟩
  rw [← hu] at hs
  have hno {p : Prop} : ¬ ((u.spot i).state = .isolating ∧ (u.spot i).standing = false ∧ p) := fun e =>
    Bool.false_ne_true (e.2.1.symm.trans hs.standing)
  have hlines : onLinesShut i u = u := if_neg hno
  have hvent : onVentOpen i u = u := if_neg hno
  have hshut : onVentShut i u = u := if_neg hno
  have hstroke : (u.spot i).state ≠ .stroking := by
    rw [hs.state]
    exact nofun
  unfold advanceSpot
  rw [onShutoffOpen_off (by rw [h1]; exact nofun), onLiquidOpen_off (by rw [h1]; exact nofun), ← hu,
    onResumed_off (by rw [hs.state]; exact nofun), hlines, hvent, hshut, onStrokeOpen_off hstroke, onStrokeShut_off hstroke,
    onStrokeTurn_off hstroke]
  exact hs

theorem spotResumes_stands (h1 : (s.spot i).state = .isolating) (h2 : (s.spot i).standing = true) :
    (s.spot i).StandsAs ((spotResumes i s).spot i) := by
  have h : (s.spot i).StandsAs ((pursueSpotAll i s).spot i) := by
    rw [pursueSpotAll_eq, modSpot_spot_same]
    exact .of_bare (Spot.pursueAll_bare _ _ _) h1 h2
  exact h.trans (advanceSpot_stands h.state h.standing)

/-- A fitted spot whose own loss of field enable leaves it standing in ISOLATING. -/
theorem enableOff_stands (hi : s.fittedSpot i = true) {p : Option SpotFault → Timer → Prop}
    (hloss : ∀ u x, u.fe = false → u.spot i = { s.spot i with seat := x } → ((spotLosesEnable i u).spot i).state = .isolating ∧
      ((spotLosesEnable i u).spot i).standing = true ∧
      p ((spotLosesEnable i u).spot i).fault ((spotLosesEnable i u).spot i).timer) :
    ((settle (enableOff s)).spot i).state = .isolating ∧ ((settle (enableOff s)).spot i).standing = true ∧
      p ((settle (enableOff s)).spot i).fault ((settle (enableOff s)).spot i).timer := by
  obtain ⟨x, u, w, hf, hu, -, hw, -, he, -⟩ := enableOff_turn hi
  obtain ⟨h1, h2, h3⟩ := hloss u x hf hu
  rw [← hw] at h1 h2 h3
  have hs := spotResumes_stands h1 h2
  rw [← he] at hs
  have h3' : p ((enableOff s).spot i).fault ((enableOff s).spot i).timer := by rwa [hs.fault, hs.timer]
  generalize enableOff s = e at *
  obtain ⟨y, hy⟩ := settle_spot e i (Spot.not_waits (by rw [hs.state]; exact nofun))
  rw [hy]
  exact ⟨hs.state, hs.standing, h3'⟩

theorem enableOff_proving (hi : s.fittedSpot i = true) (hst : (s.spot i).state = .proving) :
    ((settle (enableOff s)).spot i).state = .isolating ∧ ((settle (enableOff s)).spot i).standing = true ∧
      ((settle (enableOff s)).spot i).fault = some .esd := by
  refine enableOff_stands hi (p := fun f _ => f = some .esd) fun u x hf hu => ?_
  have hloss : spotLosesEnable i u = failProving .esd i u := by
    unfold spotLosesEnable
    rw [hu]
    dsimp only
    rw [hst]
  obtain ⟨q, -, e⟩ := enterIsolating_spot .stopped .stopped (some .esd) i u
  rw [hloss, failProving, e, hf]
  exact ⟨rfl, rfl, rfl⟩

theorem enableOff_isolating (hi : s.fittedSpot i = true) (hst : (s.spot i).state = .isolating) :
    ((settle (enableOff s)).spot i).state = .isolating ∧ ((settle (enableOff s)).spot i).standing = true ∧
      ((settle (enableOff s)).spot i).timer = .stopped := by
  refine enableOff_stands hi (p := fun _ t => t = .stopped) fun u x hf hu => ?_
  have hloss : spotLosesEnable i u = shutAll i (u.modSpot i fun sp => { sp with standing := true, timer := .stopped }) := by
    unfold spotLosesEnable
    rw [hu]
    dsimp only
    rw [hst]
  rw [hloss, shutAll_eq, modSpot_spot_same, modSpot_spot_same, hu]
  exact ⟨hst, rfl, rfl⟩

/-! ## A stroke test fails -/

theorem failStroke_bare (keep : Bool) (f : SpotFault) (i : SpotNo) (s : State) :
    ((failStroke keep f i s).spot i).bare = { (s.spot i).bare with state := .faulted, step := none, fault := some f } := by
  unfold failStroke
  dsimp only
  rw [endSpotTest_spot, shutAll_eq]
  have h : ∀ u : State, ((if keep = true then u else u.modSpot i (Spot.mapValves Valve.stopTimer)).spot i).bare = (u.spot i).bare := fun u => by
    split
    · rfl
    · rw [modSpot_spot_same]
      rfl
  rw [h, modSpot_spot_same, modSpot_spot_same, modSpot_spot_same]
  rfl

theorem enableOff_stroking (hi : s.fittedSpot i = true) (hst : (s.spot i).state = .stroking) (ho : (s.spot i).orders = []) :
    ((settle (enableOff s)).spot i).state = .faulted ∧ ((settle (enableOff s)).spot i).fault = some .esd := by
  obtain ⟨x, u, w, hf, hu, -, hw, -, he, -⟩ := enableOff_turn hi
  have hloss : spotLosesEnable i u = failStroke true .esd i u := by
    unfold spotLosesEnable
    rw [hu]
    dsimp only
    rw [hst]
  have hbare := failStroke_bare true .esd i u
  rw [hloss] at hw
  rw [← hw, hu] at hbare
  have h : ((pursueSpotAll i w).spot i).bare = (w.spot i).bare := by
    rw [pursueSpotAll_eq, modSpot_spot_same]
    exact Spot.pursueAll_bare _ _ _
  rw [hbare] at h
  have h1 := congrArg Spot.state h
  have h2 := congrArg Spot.fault h
  have h3 := congrArg Spot.orders h
  have hidle : advanceSpot i (pursueSpotAll i w) = pursueSpotAll i w := advanceSpot_idle ⟨.inr (.inr h1), h3.trans ho⟩
  have hspot : (enableOff s).spot i = (pursueSpotAll i w).spot i := by rw [he, spotResumes, hidle]
  obtain ⟨y, hy⟩ := settle_spot (enableOff s) i (Spot.not_waits (by rw [hspot, show ((pursueSpotAll i w).spot i).state = _ from h1]; exact nofun))
  rw [hy, hspot]
  exact ⟨h1, h2⟩

end Stand

end Sys2Proof.Machine
end

section
/-! PROOFS. The ESD input, the beats (R156 to R159, R163) and the drives (R148). -/

namespace Sys2Proof.Machine

/-! ## The drives -/

theorem Valve.shutDriveWhenShut_iff {off : Bool} {closed : ClosedDrive} {v : Valve} : v.shutDriveWhenShut off closed = true ↔
    (v.supervised = true ∧ v.state = some .movingShut ∧ off = false) ∨ drivesClosed closed = true := by
  unfold Valve.shutDriveWhenShut
  split
  next h =>
    refine ⟨.inr, fun e => e.resolve_left fun ⟨hs, hv, ho⟩ => ?_⟩
    simp [ho, hs, Valve.isFault, hv] at h
  next h =>
    have hs : off = false ∧ v.supervised = true := by
      simp only [Bool.or_eq_true, not_or, Bool.not_eq_true, Bool.not_eq_false'] at h
      exact ⟨h.1.1, h.2⟩
    split
    next hv => exact ⟨fun _ => .inl ⟨hs.2, hv, hs.1⟩, fun _ => rfl⟩
    next hv => exact ⟨.inr, fun e => e.resolve_left fun e => hv e.2.1⟩

theorem drivesClosed_iff {closed : ClosedDrive} : drivesClosed closed = true ↔ closed = .held := by cases closed <;> decide

/-- Only a written PROTECTION section holds a closed drive. -/
theorem closed_held {s : State} {g : Protection → ClosedDrive} (h : g .beforeWrite = .released) :
    g s.protection = .held ↔ ∃ p, s.profile.protection = some p ∧ g p = .held := by
  unfold State.protection
  cases s.profile.protection with
  | none =>
    rw [Option.getD_none, h]
    exact ⟨nofun, fun ⟨_, e, _⟩ => nomatch e⟩
  | some p => exact ⟨fun e => ⟨p, rfl, e⟩, fun ⟨_, e, e'⟩ => Option.some.inj e ▸ e'⟩

section Drives

variable (s : State)

theorem openDrive_spot (i : SpotNo) (n : ValveName) : s.openDrive (.spot i n) = true ↔
    ((s.spot i).valve n).supervised = true ∧ ((s.spot i).valve n).command = .toOpen ∧ s.fe = true ∧ (s.spot i).state ≠ .faulted ∧
      ((s.spot i).valve n).isFault = false := by
  simp [State.openDrive, Spot.effective, and_assoc]

theorem openDrive_direction (c : CompNo) (d : Direction) : s.openDrive (.direction c d) = true ↔
    ((s.comp c).valve d).supervised = true ∧ ((s.comp c).valve d).command = .toOpen ∧ s.fe = true ∧ (s.comp c).state ≠ .faulted ∧
      ((s.comp c).valve d).isFault = false := by
  simp [State.openDrive, Comp.effective, and_assoc]

theorem openDrive_off (h : s.fe = false) (v : ValveId) : s.openDrive v = false := by
  refine eq_false_of_ne_true fun e => Bool.false_ne_true (h.symm.trans ?_)
  cases v with
  | spot i n =>
    obtain ⟨-, -, hf, -, -⟩ := (openDrive_spot s i n).mp e
    exact hf
  | direction c d =>
    obtain ⟨-, -, hf, -, -⟩ := (openDrive_direction s c d).mp e
    exact hf

/-- A shut drive waits for its open drive to end. -/
theorem shutDrive_iff (v : ValveId) : s.shutDrive v = true ↔ s.openDrive v = false ∧ (match v with
    | .spot i n => ((s.spot i).valve n).shutDriveWhenShut (!s.fe || (s.spot i).state == .faulted) (s.protection.closed.ofSpotValve n)
    | .direction c d =>
      ((s.comp c).valve d).shutDriveWhenShut (!s.fe || (s.comp c).state == .faulted) s.protection.closed.direction) = true := by
  unfold State.shutDrive
  cases s.openDrive v <;> cases v <;> simp

theorem shutDrive_spot (i : SpotNo) (n : ValveName) : s.shutDrive (.spot i n) = true ↔ s.openDrive (.spot i n) = false ∧
    ((((s.spot i).valve n).supervised = true ∧ ((s.spot i).valve n).state = some .movingShut ∧ s.fe = true ∧
        (s.spot i).state ≠ .faulted) ∨ ∃ p, s.profile.protection = some p ∧ p.closed.ofSpotValve n = .held) := by
  rw [shutDrive_iff, Valve.shutDriveWhenShut_iff, drivesClosed_iff,
    closed_held (g := fun p => p.closed.ofSpotValve n) (by cases n <;> rfl)]
  simp

theorem shutDrive_direction (c : CompNo) (d : Direction) : s.shutDrive (.direction c d) = true ↔ s.openDrive (.direction c d) = false ∧
    ((((s.comp c).valve d).supervised = true ∧ ((s.comp c).valve d).state = some .movingShut ∧ s.fe = true ∧
        (s.comp c).state ≠ .faulted) ∨ ∃ p, s.profile.protection = some p ∧ p.closed.direction = .held) := by
  rw [shutDrive_iff, Valve.shutDriveWhenShut_iff, drivesClosed_iff, closed_held (g := fun p => p.closed.direction) rfl]
  simp

end Drives

/-! ## The ESD input -/

section Level

variable {s : State} {high : Bool}

theorem exec_esdInput {c : Instr} (h : c = .esdInputActive high ∨ c = .esdInputInactive high) :
    exec c s = .next (closeEvent (clearScratch s) (changeEsdLevel high (clearScratch s))) := by
  rcases h with rfl | rfl
  · exact congrArg Host.Outcome.next (event_eq _ s)
  · exact congrArg Host.Outcome.next (event_eq _ s)

theorem changeEsdLevel_same (h : s.esdHigh = high) : changeEsdLevel high s = s := if_pos h

theorem changeEsdLevel_quiet (h : s.esdHigh ≠ high) (hq : s.judgedActive high = false ∨ s.fe = false) :
    changeEsdLevel high s = { s with esdHigh := high } := by
  unfold changeEsdLevel
  rw [if_neg h]
  refine ite_eq_right_iff.mpr fun (hj : s.judgedActive high = true) => ?_
  rcases hq with e | e
  · exact absurd (e.symm.trans hj) Bool.false_ne_true
  · exact if_neg (by rw [e]; exact Bool.false_ne_true)

theorem changeEsdLevel_acts (h : s.esdHigh ≠ high) (hj : s.judgedActive high = true) (hf : s.fe = true) :
    changeEsdLevel high s = settle (enableOff { s with esdHigh := high }) := by
  unfold changeEsdLevel
  rw [if_neg h]
  exact (if_pos hj).trans (if_pos hf)

/-- A change of the ESD level sets the siding's flag. -/
theorem esdFlag {v w : State} (h : v.esdHigh ≠ w.esdHigh) : (closeEvent v w).changes.siding = true :=
  sidingFlag_of_ne fun e => h (congrArg SidingView.esdHigh e)

/-- The siding's and the fixed records after field enable's loss. -/
theorem enableOff_event {v w t : State} (hw : w = settle (enableOff v)) (ht : t.frame = (closeEvent s w).frame) :
    t.fe = false ∧ t.rearmRun = 0 ∧ t.esdHigh = v.esdHigh ∧ t.profile = v.profile ∧
      (v.siding = .commissioning → t.siding = .configured ∧ t.tests = { spots := [], comps := [] }) ∧
      (v.siding ≠ .commissioning → t.siding = v.siding) ∧ (∀ i, t.spot i = w.spot i) ∧ ∀ c, t.comp c = w.comp c := by
  have hk : Kept (disabled v) w := hw ▸ (kept_enableOff v).trans (kept_settle _)
  have hfix : w.fixed = { v.fixed with fe := false, rearmRun := 0 } := hk.fixed.trans (disabled_fixed v)
  have hsd := disabled_siding v
  have hnot : (disabled v).siding ≠ .commissioning := by
    rw [hsd]
    split
    · exact nofun
    next h => exact h
  have hside : t.siding = (disabled v).siding := by
    rw [closeEvent_frame] at ht
    exact (congrArg Frame.siding ht).trans (hk.siding hnot)
  have htests : t.tests = w.tests := by
    rw [closeEvent_frame] at ht
    exact congrArg Frame.tests ht
  rw [closeEvent_frame] at ht
  generalize (closeEvent s w).cars = cars at ht
  have field {α : Type} (f : Frame → α) (g : Fixed → α) (hg : f { w.frame with cars := cars } = g w.fixed) :
      f t.frame = g { v.fixed with fe := false, rearmRun := 0 } := by rw [ht, hg, hfix]
  refine ⟨field Frame.fe Fixed.fe rfl, field Frame.rearmRun Fixed.rearmRun rfl, field Frame.esdHigh Fixed.esdHigh rfl,
    field Frame.profile Fixed.profile rfl, fun h => ⟨?_, ?_⟩, fun h => ?_, spot_of_spots (congrArg Frame.spots ht),
    comp_of_comps (congrArg Frame.comps ht)⟩
  · rw [hside, hsd, if_pos h]
  · have hempty : (disabled v).tests = { spots := [], comps := [] } := by
      rw [disabled_cases, if_pos h]
    have hin := hk.tests
    rw [hempty] at hin
    obtain ⟨h1, h2⟩ := hin
    have e1 : w.tests.spots = [] := List.eq_nil_iff_forall_not_mem.mpr fun i hi => nomatch h1 i hi
    have e2 : w.tests.comps = [] := List.eq_nil_iff_forall_not_mem.mpr fun i hi => nomatch h2 i hi
    rw [htests]
    show (⟨w.tests.spots, w.tests.comps⟩ : PendingTests) = _
    rw [e1, e2]
  · rw [hside, hsd, if_neg h]

end Level

/-! ## The beats -/

theorem takeBeat_zero {s : State} (h : s.fe = true ∨ s.protection.autoRearm = false ∨ s.esdActive = true) :
    takeBeat s = { s with beatTimer := .running Config.ticksPerSecond, rearmRun := 0 } := by
  unfold takeBeat
  dsimp only
  split
  · rfl
  next hf =>
    refine if_neg fun e => ?_
    simp only [Bool.and_eq_true, Bool.not_eq_true'] at e
    rcases h with h | h | h
    · exact hf h
    · exact Bool.false_ne_true (h.symm.trans e.1)
    · exact Bool.false_ne_true (e.2.symm.trans h)

theorem takeBeat_counts {s : State} (h1 : s.fe = false) (h2 : s.protection.autoRearm = true) (h3 : s.esdActive = false) :
    takeBeat s = if s.rearmRun + 1 ≥ s.protection.rearmCount then
        enableOn { s with beatTimer := .running Config.ticksPerSecond, rearmRun := 0 }
      else { s with beatTimer := .running Config.ticksPerSecond, rearmRun := s.rearmRun + 1 } := by
  unfold takeBeat
  dsimp only
  rw [if_neg (by rw [h1]; exact Bool.false_ne_true)]
  refine if_pos ?_
  rw [Bool.and_eq_true]
  exact ⟨h2, by rw [Bool.not_eq_true']; exact h3⟩

theorem exec_beat (s : State) : exec .beat s = .next (closeEvent (clearScratch s) (takeBeat (clearScratch s))) :=
  congrArg Host.Outcome.next (event_eq _ s)

end Sys2Proof.Machine
end

section
/-! PROOFS. The ESD input and the beats, put together (R37, R156 to R159, R163). -/

namespace Sys2Proof.Machine

section Spots

variable {i : SpotNo} {s : State}

/-- What field enable's loss brings a fitted spot that is held, or is to be held. -/
theorem esd_holds (hi : s.fittedSpot i = true) (hd : (s.spot i).stillDrains)
    (hst : (s.spot i).state = .held ∨ ((s.spot i).holds = .empty ∧ ((s.spot i).state = .connected ∨
      (s.spot i).state = .staged ∨ (s.spot i).state = .transfer ∨ (s.spot i).state = .recovery)))
    (hr : (s.spot i).holds.esd = false) {x : Spot} (hx : x = (settle (enableOff s)).spot i) :
    x.state = .held ∧ x.holds = { (s.spot i).holds with esd := true } ∧ x.shutoff.command = .toShut ∧ x.car = (s.spot i).car ∧
      (∀ h, (s.spot i).head = some h → h.state = .draining → x.head = some h) ∧
      ((s.spot i).state ≠ .held → x.liquid.command = .toShut ∧ x.vapour.command = .toShut ∧ x.seat = none ∧
        ∀ h, (s.spot i).head = some h → h.state = .waiting ∨ h.state = .running ∨ h.state = .suspended →
          x.head = some { h with state := .suspended }) := by
  have told (b : ValveName → Timer) (n : ValveName) (sp : Spot) (h : (sp.valve n).command = .toShut) :
      ((sp.pursueAll b false).valve n).command = .toShut := by
    rw [Spot.pursueAll_valve, Valve.pursue_command, h]
  by_cases hheld : (s.spot i).state = .held
  · obtain ⟨p, q, a, b, e⟩ := enableOff_held hi hheld hr hd
    obtain ⟨y, hy⟩ : ∃ y : Spot, y = { s.spot i with
      seat := p, holds := (s.spot i).holds.put .esd true, shutoff := (s.spot i).shutoff.toldShut a } := ⟨_, rfl⟩
    rw [← hy] at e
    have hbare := Spot.pursueAll_bare b false y
    have hshut := told b .shutoff y (by rw [hy]; exact Valve.toldShut_command _ _)
    generalize y.pursueAll b false = z at *
    have e1 := congrArg Spot.state hbare
    have e2 := congrArg Spot.holds hbare
    have e3 := congrArg Spot.car hbare
    have e4 := congrArg Spot.head hbare
    rw [hx, e]
    refine ⟨e1.trans ?_, e2.trans ?_, hshut, e3.trans ?_, fun h hh _ => e4.trans ?_, fun h => absurd hheld h⟩
    · rw [hy]
      exact hheld
    · rw [hy]
      rfl
    · rw [hy]
      rfl
    · rw [hy]
      exact hh
  · have hst' : (s.spot i).state.holdable := (hst.resolve_left hheld).2
    obtain ⟨a, b, e⟩ := enableOff_holds hi hst' hr hd
    obtain ⟨y, hy⟩ : ∃ y : Spot, y = (s.spot i).held a .esd := ⟨_, rfl⟩
    rw [← hy] at e
    have hbare := Spot.pursueAll_bare b false y
    have hcar : y.car = (s.spot i).car := by
      rw [hy]
      exact Spot.modHead_car _ _
    have hshut := told b .shutoff y (by rw [hy]; exact Valve.toldShut_command _ _)
    have hliq := told b .liquid y (by rw [hy]; exact Valve.toldShut_command _ _)
    have hvap := told b .vapour y (by rw [hy]; exact Valve.toldShut_command _ _)
    generalize y.pursueAll b false = z at *
    have e1 := congrArg Spot.state hbare
    have e2 := congrArg Spot.holds hbare
    have e3 := congrArg Spot.car hbare
    have e4 := congrArg Spot.head hbare
    have e5 := congrArg Spot.seat hbare
    rw [hx, e]
    refine ⟨e1.trans (by rw [hy]; rfl), e2.trans (by rw [hy]; rfl), hshut, e3.trans hcar, fun h hh hs => e4.trans ?_,
      fun _ => ⟨hliq, hvap, e5.trans (by rw [hy]; rfl), fun h hh hs => e4.trans ?_⟩⟩
    · rw [hy]
      exact (Spot.held_head a .esd hh).2 (.inr hs)
    · rw [hy]
      exact (Spot.held_head a .esd hh).1 hs

end Spots

section Commands

variable {s : State} {high : Bool} {c : Instr}

theorem esd_same (hc : c = .esdInputActive high ∨ c = .esdInputInactive high) (h : s.esdHigh = high) :
    ∃ t, exec c s = .next t ∧ t.frame = s.frame := by
  refine ⟨_, exec_esdInput hc, ?_⟩
  rw [changeEsdLevel_same (s := clearScratch s) h, closeEvent_frame_quiet _ _ rfl rfl]
  rfl

theorem esd_quiet (hc : c = .esdInputActive high ∨ c = .esdInputInactive high) (h : s.esdHigh ≠ high)
    (hq : s.judgedActive high = false ∨ s.fe = false) :
    ∃ t, exec c s = .next t ∧ t.frame = { s.frame with esdHigh := high } ∧ t.changes.siding = true := by
  refine ⟨_, exec_esdInput hc, ?_⟩
  rw [changeEsdLevel_quiet (s := clearScratch s) h hq]
  exact ⟨closeEvent_frame_quiet (clearScratch s) { clearScratch s with esdHigh := high } rfl rfl, esdFlag h⟩

/-- The event of an ESD input that becomes active under field enable: its records are those of field enable's loss. -/
theorem esd_acts (hc : c = .esdInputActive high ∨ c = .esdInputInactive high) (h : s.esdHigh ≠ high)
    (hj : s.judgedActive high = true) (hf : s.fe = true) :
    ∃ t v : State, exec c s = .next t ∧ v.frame = { s.frame with esdHigh := high } ∧
      t.frame = (closeEvent (clearScratch s) (settle (enableOff v))).frame ∧ t.changes.siding = true := by
  refine ⟨_, { clearScratch s with esdHigh := high }, exec_esdInput hc, rfl, ?_, ?_⟩
  · rw [changeEsdLevel_acts (s := clearScratch s) h hj hf]
  · have hfe : (settle (enableOff { clearScratch s with esdHigh := high })).fe = false :=
      ((kept_enableOff _).trans (kept_settle _)).fe_eq.trans (disabled_fe _)
    rw [changeEsdLevel_acts (s := clearScratch s) h hj hf]
    generalize settle (enableOff { clearScratch s with esdHigh := high }) = w at *
    refine sidingFlag_of_ne fun e => ?_
    have he : s.fe = w.fe := congrArg SidingView.fe e
    rw [hf, hfe] at he
    cases he

/-- A beat that turns nothing on changes the rearm run and starts the next second. -/
theorem beat_counts {n : Nat} (h : takeBeat (clearScratch s) = { clearScratch s with beatTimer := .running 100, rearmRun := n }) :
    ∃ t, exec .beat s = .next t ∧ t.frame = { s.frame with beatTimer := .running 100, rearmRun := n } := by
  refine ⟨_, exec_beat s, ?_⟩
  rw [h, closeEvent_frame_quiet _ _ rfl rfl]
  rfl

/-- The beat that reaches the rearm count gives field enable back. -/
theorem beat_enables (h1 : s.fe = false) (h2 : s.protection.autoRearm = true) (h3 : s.esdActive = false)
    (hn : s.protection.rearmCount ≤ s.rearmRun + 1) :
    ∃ t, exec .beat s = .next t ∧ t.fe = true ∧ t.rearmRun = 0 ∧ t.beatTimer = .running 100 ∧ t.changes.siding = true ∧
      t.profile = s.profile ∧
      (∀ i, s.fittedSpot i = true → (s.spot i).state = .held → (t.spot i).holds.esd = false) ∧
      (∀ i, s.fittedSpot i = true → (s.spot i).state = .isolating → (t.spot i).standing = false) := by
  obtain ⟨v, hv⟩ : ∃ v : State, v = { clearScratch s with beatTimer := .running 100, rearmRun := 0 } := ⟨_, rfl⟩
  have hbeat : takeBeat (clearScratch s) = enableOn v := by
    rw [takeBeat_counts (s := clearScratch s) h1 h2 h3, hv]
    exact if_pos hn
  have hvs : ∀ i, v.spot i = s.spot i := fun i => by
    rw [hv]
    rfl
  have hfit : ∀ i, v.fittedSpot i = s.fittedSpot i := fun i => by
    rw [hv]
    rfl
  have hx := exec_beat s
  rw [hbeat] at hx
  obtain ⟨e1, e2, e3, e4, e5, -, -, -, -, -, -, hspot⟩ := enableOn_event (b := clearScratch s) (v := v) rfl rfl h1
  refine ⟨_, hx, e1, e2, e4.trans ?_, e3, e5.trans ?_, fun i hi _ => ?_, fun i hi hst => ?_⟩
  · rw [hv]
  · rw [hv]
    rfl
  · rw [hspot]
    exact enableOn_unholds ((hfit i).trans hi)
  · rw [hspot]
    exact enableOn_resumes ((hfit i).trans hi) (by rw [hvs]; exact hst)

end Commands

/-- Settles O54: the level's own events by `esd_same` and `esd_quiet`; field enable's loss by each owner's turn in `enableOff`; the
beats by the table of R163; the drives by their definitions. -/
theorem esdAndBeatsActOnFieldEnable : Obligations.EsdAndBeatsActOnFieldEnable := by
  unfold Obligations.EsdAndBeatsActOnFieldEnable
  intro s
  refine ⟨fun high c hc => ⟨esd_same hc, esd_quiet hc, fun h hj hf => ?_⟩, fun h => ?_, fun h1 h2 h3 => ⟨fun hn => ?_, ?_⟩, rfl,
    openDrive_off s, fun i n => ⟨openDrive_spot s i n, shutDrive_spot s i n⟩,
    fun c d => ⟨openDrive_direction s c d, shutDrive_direction s c d⟩⟩
  · obtain ⟨t, v, hx, hv, ht, hflag⟩ := esd_acts hc h hj hf
    obtain ⟨w, hw⟩ : ∃ w, w = settle (enableOff v) := ⟨_, rfl⟩
    rw [← hw] at ht
    obtain ⟨e1, e2, e3, e4, e5, e6, hspot, hcomp⟩ := enableOff_event hw ht
    have hvs : ∀ i, v.spot i = s.spot i := fun i => spot_of_spots (congrArg Frame.spots hv) i
    have hvc : ∀ k, v.comp k = s.comp k := comp_of_comps (congrArg Frame.comps hv)
    have hp : v.profile = s.profile := congrArg Frame.profile hv
    have hsd : v.siding = s.siding := congrArg Frame.siding hv
    have hfit : ∀ i, s.fittedSpot i = true → v.fittedSpot i = true := fun i hi => (fittedSpot_of_profile hp i).trans hi
    have hts : ∀ i, t.spot i = (settle (enableOff v)).spot i := fun i => by rw [hspot, hw]
    rw [hsd] at e5 e6
    refine ⟨t, hx, e1, e2, e3.trans (congrArg Frame.esdHigh hv), hflag, e4.trans hp, e5, e6, fun i hi hd hst hr => ?_,
      fun i hi hst => ?_, fun i hi hst => ?_, fun i hi hst hq => ?_, fun k hk hst => ?_⟩
    · rw [← hvs i] at hd hst hr ⊢
      exact esd_holds (hfit i hi) hd hst hr (hts i)
    · rw [hts]
      exact enableOff_proving (hfit i hi) (by rw [hvs]; exact hst)
    · rw [hts]
      exact enableOff_isolating (hfit i hi) (by rw [hvs]; exact hst)
    · rw [hts]
      obtain ⟨-, -, -, ho⟩ := hq
      rw [hst] at ho
      exact enableOff_stroking (hfit i hi) (by rw [hvs]; exact hst) (by rw [hvs]; exact ho)
    · have hfitc : v.fittedComp k = true := by
        unfold State.fittedComp State.site
        rw [hp]
        exact hk
      obtain ⟨h1, h2, -, h4⟩ := (enableOff_halts hfitc (by rw [hvc]; exact hst)).comp
      rw [hcomp, hw]
      exact ⟨h1, h2, h4⟩
  · exact beat_counts (takeBeat_zero (s := clearScratch s) h)
  · exact beat_counts ((takeBeat_counts (s := clearScratch s) h1 h2 h3).trans (if_neg (Nat.not_le.mpr hn)))
  · exact beat_enables h1 h2 h3

end Sys2Proof.Machine
end

section
/-! PROOFS. RESTART SIDING (R104, R138, R182): the reservation lists stay empty while the spots are isolated. -/

namespace Sys2Proof.Machine

/-! ## Work that reserves nothing -/

/-- A vessel without entries has none after the work. -/
def Frees (s t : State) : Prop := ∀ v, (s.vessel v).entries = [] → (t.vessel v).entries = []

theorem Frees.refl (s : State) : Frees s s := fun _ h => h

theorem Frees.trans {s t u : State} (h : Frees s t) (k : Frees t u) : Frees s u := fun v e => k v (h v e)

theorem Frees.of_vessels {s t : State} (h : t.vessels = s.vessels) : Frees s t := fun v e => by rwa [vessel_of_vessels h]

theorem Frees.foldl {α : Type} {f : State → α → State} (h : ∀ s a, Frees s (f s a)) : ∀ (l : List α) (s : State), Frees s (l.foldl f s)
  | [], s => .refl s
  | a :: l, s => (h s a).trans (Frees.foldl h l _)

section Ops

variable (i : SpotNo) (s : State)

theorem frees_commandSpot (n : ValveName) (c : Command) : Frees s (commandSpot i n c s) := .of_vessels rfl

theorem frees_leaveCompressors : Frees s (leaveCompressors i s) := by
  refine .of_vessels ((vessels_dropGrant i _).trans ?_)
  cases h : (s.spot i).seat with
  | none => rw [releaseSeat_unseated h]
  | some c =>
    rw [releaseSeat_seated h]
    exact (compWork_compOnEmpty c _).vessels

theorem frees_depart (o : Order) : Frees s (depart i o s) := fun v h => by
  have lists (l : VesselNo) (f : Vessel → Vessel) (hf : ∀ r : Vessel, r.entries = [] → (f r).entries = []) (u : State)
      (hu : (u.vessel v).entries = []) : ((u.modVessel l f).vessel v).entries = [] := by
    by_cases e : v = l
    · rw [e, modVessel_vessel_same]
      exact hf _ (e ▸ hu)
    · rwa [modVessel_vessel_other _ _ _ _ e]
  unfold depart
  dsimp only
  split
  · refine lists _ _ (fun r hr => ?_) _ h
    show r.entries.filter _ = []
    rw [hr]
    rfl
  · exact h

theorem frees_endQueue (a b : EndReason) : Frees s (endQueue a b i s) := by
  have rest : ∀ (l : List Order) (u : State), Frees u (l.foldl (fun s o => depart i { o with reason := some (o.reason.getD b) } s) u) :=
    Frees.foldl fun s o => frees_depart i s _
  unfold endQueue
  split
  · exact .refl s
  · refine Frees.trans ?_ (rest _ _)
    split
    · exact .refl s
    · split
      · exact .of_vessels rfl
      · exact frees_depart i s _

theorem frees_enterIsolating (a b : EndReason) (f : Option SpotFault) : Frees s (enterIsolating a b f i s) := by
  have hleave := (frees_endQueue i s a b).trans (frees_leaveCompressors i _)
  unfold enterIsolating
  dsimp only
  generalize leaveCompressors i (endQueue a b i s) = u at hleave
  rw [shutAll_eq]
  exact hleave.trans (.of_vessels rfl)

theorem frees_onVentShut : Frees s (onVentShut i s) := by
  unfold onVentShut State.modCarAt
  dsimp only
  split
  · split <;> exact .of_vessels rfl
  · exact .refl s

/-- The arrivals of a spot that isolates free what they touch. -/
theorem frees_advanceIsolating (h : (s.spot i).state = .isolating) : Frees s (advanceSpot i s) := by
  have hdrain : Frees s (onDrained i s) ∧ ((onDrained i s).spot i).state = .isolating := by
    rcases onDrained_cases i s with ⟨e, -⟩ | ⟨o, -, e⟩ <;> rw [e]
    · exact ⟨.refl s, h⟩
    · have hst : ((depart i o (leaveCompressors i (commandSpot i .vapour .toShut s))).spot i).state = .isolating := by
        rw [depart_spot, leaveCompressors_unseats, commandSpot_toShut, modSpot_spot_same]
        exact h
      rw [headGone_isolating hst]
      exact ⟨((frees_commandSpot i s _ _).trans (frees_leaveCompressors i _)).trans (frees_depart i _ o), hst⟩
  obtain ⟨hf, hst⟩ := hdrain
  unfold advanceSpot
  rw [onShutoffOpen_off (by rw [h]; exact nofun), onLiquidOpen_off (by rw [h]; exact nofun)]
  generalize onDrained i s = u at hf hst
  rw [onResumed_off (by rw [hst]; exact nofun)]
  have lines : Frees u (onLinesShut i u) ∧ ((onLinesShut i u).spot i).state = .isolating := by
    unfold onLinesShut
    dsimp only
    split
    · refine ⟨.of_vessels rfl, ?_⟩
      rw [commandSpot_eq, modSpot_spot_same, modSpot_spot_same]
      exact hst
    · exact ⟨.refl u, hst⟩
  have vent : ∀ w : State, (w.spot i).state = .isolating → Frees w (onVentOpen i w) ∧ ((onVentOpen i w).spot i).state = .isolating :=
    fun w hw => by
      unfold onVentOpen
      dsimp only
      split
      · refine ⟨.of_vessels rfl, ?_⟩
        rw [modSpot_spot_same]
        exact hw
      · exact ⟨.refl w, hw⟩
  obtain ⟨h1, e1⟩ := lines
  obtain ⟨h2, e2⟩ := vent _ e1
  generalize onVentOpen i (onLinesShut i u) = w at h2 e2
  have hend : ((onVentShut i w).spot i).state ≠ .stroking := by
    rcases onVentShut_cases i w with ⟨e, -⟩ | ⟨-, -, e⟩ <;> rw [e]
    · rw [e2]
      exact nofun
    · exact nofun
  rw [onStrokeOpen_off hend, onStrokeShut_off hend, onStrokeTurn_off hend]
  exact ((hf.trans h1).trans h2).trans (frees_onVentShut i w)

theorem frees_failStroke (f : SpotFault) : Frees s (failStroke false f i s) := by
  have h := congrArg Frame.vessels (endSpotTest_frame i ((s.touchSpot i).modSpot i (Spot.testFailed s.strokeOf f)))
  rw [failStroke_eq]
  exact .of_vessels h

end Ops

end Sys2Proof.Machine
end

section
/-! PROOFS. RESTART SIDING (R104, R138, R182). -/

namespace Sys2Proof.Machine

/-! ## The restart step by step -/

/-- The siding's own records restarted, before its owners' turns (R104, R182). -/
def restarted (s : State) : State := emptyReservations { s with siding := .configured, tests := { spots := [], comps := [] }, grants := [] }

/-- One compressor's turn (R138). -/
def compRestarts (c : CompNo) (s : State) : State := flagComp c (restartComp c (s.modComp c fun k => { k with turning := none }))

def compsRestarted (s : State) : State := eachFittedComp compRestarts (restarted s)

theorem restart_eq (s : State) : restart s = (eachFittedSpot restartSpot (compsRestarted s)).flagSiding := rfl

/-- The siding's records, the reservation lists and the vessels' flags as a restart of `b` leaves them. -/
structure Restarted (b t : State) : Prop where
  siding : t.siding = .configured
  tests : t.tests.within { spots := [], comps := [] }
  grants : t.grants = []
  entries : ∀ v, (t.vessel v).entries = []
  stores : ∀ v, (t.vessel v).store = (b.vessel v).store
  vessels : t.changes.vessels = BitVec.allOnes 6
  profile : t.profile = b.profile

theorem Restarted.step {b s t : State} (h : Restarted b s) (k : Kept s t) (hg : GrantsShrink s t) (he : Frees s t)
    (hs : ∀ v, (t.vessel v).store = (s.vessel v).store) : Restarted b t where
  siding := (k.siding (by rw [h.siding]; exact nofun)).trans h.siding
  tests := ⟨fun i hi => h.tests.1 i (k.tests.1 i hi), fun c hc => h.tests.2 c (k.tests.2 c hc)⟩
  grants := List.eq_nil_iff_forall_not_mem.mpr fun g hm => by
    have hin := hg g hm
    rw [h.grants] at hin
    exact nomatch hin
  entries v := he v (h.entries v)
  stores v := (hs v).trans (h.stores v)
  vessels := by
    have e : t.changes = s.changes := congrArg Fixed.changes k.fixed
    rw [e, h.vessels]
  profile := k.profile_eq.trans h.profile

theorem Restarted.spotWork {b s t : State} {i : SpotNo} (h : Restarted b s) (w : SpotWork i s t) (he : Frees s t) : Restarted b t :=
  h.step w.kept w.grants he w.stores

/-- A reservation list emptied. -/
def State.freed (v : VesselNo) (s : State) : State := s.modVessel v fun r => { r with entries := [] }

theorem freed_vessel (l v : VesselNo) (s : State) :
    ((s.freed l).vessel v).store = (s.vessel v).store ∧ ((s.vessel v).entries = [] → ((s.freed l).vessel v).entries = []) := by
  unfold State.freed
  by_cases e : v = l
  · rw [e, modVessel_vessel_same]
    exact ⟨rfl, fun _ => rfl⟩
  · rw [modVessel_vessel_other _ _ _ _ e]
    exact ⟨rfl, id⟩

theorem restarted_restarted (s : State) : Restarted s (restarted s) := by
  obtain ⟨u, hu⟩ : ∃ u : State, u = { s with siding := .configured, tests := { spots := [], comps := [] }, grants := [] } := ⟨_, rfl⟩
  have h : restarted s = { allVessels.foldl (fun s v => s.freed v) u with
      changes := { (allVessels.foldl (fun s v => s.freed v) u).changes with vessels := BitVec.allOnes 6 } } := by
    rw [hu]
    rfl
  have same {α : Type} (g : State → α) (hg : ∀ s v, g (State.freed v s) = g s) :
      g (allVessels.foldl (fun s v => s.freed v) u) = g u := foldl_keeps g _ hg _ _
  have lists (v : VesselNo) : ((allVessels.foldl (fun s v => s.freed v) u).vessel v).entries = [] ∧
      ((allVessels.foldl (fun s v => s.freed v) u).vessel v).store = (u.vessel v).store := by
    have hmem : v ∈ allVessels := by
      revert v
      decide
    refine foldl_reaches (f := fun s v => State.freed v s) (a := v) (p := fun w : State => (w.vessel v).store = (u.vessel v).store)
      (q := fun w : State => (w.vessel v).entries = [] ∧ (w.vessel v).store = (u.vessel v).store) (fun w l hw => ?_) (fun w hw => ?_)
      (fun w l hw => ?_) _ u hmem rfl
    · exact (freed_vessel l v w).1.trans hw
    · refine ⟨?_, (freed_vessel v v w).1.trans hw⟩
      rw [State.freed, modVessel_vessel_same]
    · exact ⟨(freed_vessel l v w).2 hw.1, (freed_vessel l v w).1.trans hw.2⟩
  have h1 := same State.siding fun _ _ => rfl
  have h2 := same State.tests fun _ _ => rfl
  have h3 := same State.grants fun _ _ => rfl
  have h4 := same State.profile fun _ _ => rfl
  rw [h]
  generalize allVessels.foldl (fun s v => s.freed v) u = w at *
  rw [hu] at h1 h2 h3 h4
  exact ⟨h1, .of_eq h2, h3, fun v => (lists v).1, fun v => (lists v).2.trans (by rw [hu]; rfl), rfl, h4⟩

theorem restarted_spot (s : State) (i : SpotNo) : (restarted s).spot i = s.spot i :=
  spot_of_spots (foldl_keeps State.spots (fun s v => s.modVessel v fun r => { r with entries := [] }) (fun _ _ => rfl) allVessels _) i

theorem restarted_comp (s : State) (c : CompNo) : (restarted s).comp c = s.comp c :=
  comp_of_comps (foldl_keeps State.comps (fun s v => s.modVessel v fun r => { r with entries := [] }) (fun _ _ => rfl) allVessels _) c

/-! ## The compressors -/

theorem restartComp_cases (c : CompNo) (s : State) :
    restartComp c s = s ∧ ((s.comp c).state = .faulted ∧ (s.comp c).faultInput.active = true) ∨
      restartComp c s = haltComp false c s ∧ ¬ ((s.comp c).state = .faulted ∧ (s.comp c).faultInput.active = true) := by
  unfold restartComp
  split
  next h => exact .inl ⟨rfl, h⟩
  next h => exact .inr ⟨rfl, h⟩

section Comps

variable {b s : State} {c : CompNo}

/-- A compressor's mark gone (R138). -/
def State.unmarked (c : CompNo) (s : State) : State := s.modComp c fun k => { k with turning := none }

theorem compRestarts_eq : compRestarts c s = flagComp c (restartComp c (s.unmarked c)) := rfl

theorem Restarted.flagComp (h : Restarted b s) : Restarted b (flagComp c s) :=
  ⟨h.siding, h.tests, h.grants, h.entries, h.stores, h.vessels, h.profile⟩

theorem Restarted.compRestarts (h : Restarted b s) : Restarted b (compRestarts c s) := by
  have hmark : Restarted b (s.unmarked c) := h.step (.modComp c _ s) (.refl _) (.refl _) fun _ => rfl
  rw [compRestarts_eq]
  refine Restarted.flagComp ?_
  generalize s.unmarked c = u at hmark
  rcases restartComp_cases c u with ⟨e, -⟩ | ⟨e, -⟩ <;> rw [e]
  · exact hmark
  · have w := compWork_haltComp false c u
    exact hmark.step (kept_haltComp false c u) (.of_eq w.grants) (.of_vessels w.vessels) fun v => by rw [vessel_of_vessels w.vessels]; rfl

theorem compRestarts_spot (i : SpotNo) : ∃ x, (compRestarts c s).spot i = { s.spot i with seat := x } := by
  have h : ∃ x, (restartComp c (s.unmarked c)).spot i = { (s.unmarked c).spot i with seat := x } := by
    rcases restartComp_cases c (s.unmarked c) with ⟨e, -⟩ | ⟨e, -⟩ <;> rw [e]
    · exact ⟨_, rfl⟩
    · rw [haltComp_spot]
      exact Spot.vacates_eq c _
  exact h

theorem compRestarts_elsewhere {d : CompNo} (h : d ≠ c) : (compRestarts c s).comp d = s.comp d := by
  have hmark : (s.unmarked c).comp d = s.comp d := modComp_comp_other _ _ _ _ h
  refine Eq.trans ?_ hmark
  show (restartComp c (s.unmarked c)).comp d = _
  rcases restartComp_cases c (s.unmarked c) with ⟨e, -⟩ | ⟨e, -⟩ <;> rw [e]
  exact haltComp_elsewhere false c _ h

/-- FAULTED with its fault input active: the one state a restart leaves (R138). -/
def Comp.stuck (k : Comp) : Prop := k.state = .faulted ∧ k.faultInput.active = true

theorem compRestarts_halts (h : ¬ (s.comp c).stuck) : Halted c (compRestarts c s) := by
  have hmark : ¬ ((s.unmarked c).comp c).stuck := by
    unfold State.unmarked
    rw [modComp_comp_same]
    exact h
  have hh : Halted c (restartComp c (s.unmarked c)) := by
    rcases restartComp_cases c (s.unmarked c) with ⟨-, e⟩ | ⟨e, -⟩
    · exact absurd e hmark
    · rw [e]
      exact halted_haltComp false c _
  exact ⟨hh.comp, hh.unseats⟩

theorem Halted.unstuck (h : Halted c s) : ¬ (s.comp c).stuck := fun e => nomatch h.comp.state.symm.trans e.1

theorem Halted.compRestarts (h : Halted c s) (d : CompNo) : Halted c (compRestarts d s) := by
  by_cases e : c = d
  · rw [← e]
    exact compRestarts_halts h.unstuck
  · refine ⟨by rw [compRestarts_elsewhere e]; exact h.comp, fun i => ?_⟩
    have hs : Halted c (restartComp d (s.unmarked d)) := by
      have hm : Halted c (s.unmarked d) := h.other (.modComp (by exact fun _ _ e => by cases e) s) e
      rcases restartComp_cases d (s.unmarked d) with ⟨e', -⟩ | ⟨e', -⟩ <;> rw [e']
      · exact hm
      · exact hm.halt false d
    exact hs.unseats i

end Comps

theorem restarted_compsRestarted (s : State) : Restarted s (compsRestarted s) :=
  eachFittedComp_preserves (fun _ _ h => h.compRestarts) (restarted_restarted s)

theorem compsRestarted_spot (s : State) (i : SpotNo) : ∃ x, (compsRestarted s).spot i = { s.spot i with seat := x } := by
  refine eachFittedComp_preserves (p := fun u : State => ∃ x, u.spot i = { s.spot i with seat := x }) (fun u c ⟨x, hx⟩ => ?_)
    ⟨_, restarted_spot s i⟩
  obtain ⟨y, hy⟩ := compRestarts_spot (c := c) (s := u) i
  exact ⟨y, by rw [hy, hx]⟩

theorem fittedComp_of_profile {s t : State} (h : t.profile = s.profile) (c : CompNo) : t.fittedComp c = s.fittedComp c := by
  unfold State.fittedComp State.site
  rw [h]

theorem compsRestarted_halts {s : State} {c : CompNo} (hf : s.fittedComp c = true) (h : ¬ (s.comp c).stuck) :
    Halted c (compsRestarted s) := by
  refine eachFittedComp_reaches (f := compRestarts) (p := fun u => Restarted s u ∧ ¬ (u.comp c).stuck)
    (fun u hu => (fittedComp_of_profile hu.1.profile c).trans hf) (fun u d hu => ⟨hu.1.compRestarts, ?_⟩)
    (fun u hu => compRestarts_halts hu.2) (fun u d hu => hu.compRestarts d) ⟨restarted_restarted s, by rwa [restarted_comp]⟩
  by_cases e : c = d
  · rw [← e]
    exact (compRestarts_halts hu.2).unstuck
  · rw [compRestarts_elsewhere e]
    exact hu.2

theorem flagComp_flag (c d : CompNo) (s : State) :
    (flagComp c s).changes.comps.getLsbD d = (s.changes.comps.getLsbD d || decide (d = c)) := by
  show (s.changes.comps ||| BitVec.twoPow 2 c).getLsbD d = _
  rw [BitVec.getLsbD_or]
  congr 1
  revert c d
  decide

theorem compRestarts_flag (c d : CompNo) (s : State) :
    (compRestarts c s).changes.comps.getLsbD d = (s.changes.comps.getLsbD d || decide (d = c)) := by
  have h : (restartComp c (s.unmarked c)).changes = s.changes := by
    rcases restartComp_cases c (s.unmarked c) with ⟨e, -⟩ | ⟨e, -⟩ <;> rw [e]
    · rfl
    · exact congrArg Fixed.changes (kept_haltComp false c (s.unmarked c)).fixed
  rw [compRestarts_eq, flagComp_flag, h]

theorem compsRestarted_flag {s : State} {c : CompNo} (hf : s.fittedComp c = true) : (compsRestarted s).changes.comps.getLsbD c = true :=
  eachFittedComp_reaches (f := compRestarts) (p := fun u => Restarted s u) (q := fun u => u.changes.comps.getLsbD c = true) (fun u hu => (fittedComp_of_profile hu.profile c).trans hf)
    (fun u d hu => hu.compRestarts) (fun u _ => by rw [compRestarts_flag]; simp)
    (fun u d hu => by rw [compRestarts_flag, hu, Bool.true_or]) (restarted_restarted s)

end Sys2Proof.Machine
end

section
/-! PROOFS. RESTART SIDING (R182): the spots' turns, and the request. -/

namespace Sys2Proof.Machine

/-! ## The spots -/

theorem spotWork_restartSpot (i : SpotNo) (s : State) : SpotWork i s (restartSpot i s) := by
  unfold restartSpot
  split
  case h_1 => exact (spotWork_failProving i s _).trans (spotWork_advanceSpot i _)
  case h_2 | h_3 | h_4 | h_5 | h_6 => exact (spotWork_enterIsolating i s _ _ _).trans (spotWork_advanceSpot i _)
  case h_7 => exact spotWork_failStroke i s _ _
  all_goals exact .refl i s

theorem frees_isolation (a b : EndReason) (f : Option SpotFault) (i : SpotNo) (s : State) :
    Frees s (advanceSpot i (enterIsolating a b f i s)) := by
  obtain ⟨q, -, e⟩ := enterIsolating_spot a b f i s
  exact (frees_enterIsolating i s a b f).trans (frees_advanceIsolating i _ (by rw [e]; rfl))

theorem frees_restartSpot (i : SpotNo) (s : State) : Frees s (restartSpot i s) := by
  unfold restartSpot
  split
  case h_1 => exact frees_isolation _ _ _ i s
  case h_2 | h_3 | h_4 | h_5 | h_6 => exact frees_isolation _ _ _ i s
  case h_7 => exact frees_failStroke i s _
  all_goals exact .refl s

section Flag

variable {b s : State}

theorem flagSiding_compFlags : s.flagSiding.changes.comps = s.changes.comps := rfl

theorem Restarted.flagSiding (h : Restarted b s) : Restarted b s.flagSiding :=
  ⟨h.siding, h.tests, h.grants, h.entries, h.stores, h.vessels, h.profile⟩

theorem Halted.flagSiding {c : CompNo} (h : Halted c s) : Halted c s.flagSiding := ⟨h.comp, h.unseats⟩

end Flag

theorem restarted_restart (s : State) : Restarted s (restart s) := by
  have h : Restarted s (eachFittedSpot restartSpot (compsRestarted s)) := by
    refine foldl_preserves (f := fun s i => if s.fittedSpot i then restartSpot i s else s) (p := fun u => Restarted s u)
      (fun u i hu => ?_) _ _ (restarted_compsRestarted s)
    split
    · exact hu.spotWork (spotWork_restartSpot i u) (frees_restartSpot i u)
    · exact hu
  rw [restart_eq]
  exact h.flagSiding

theorem restart_halts {s : State} {c : CompNo} (hf : s.fittedComp c = true) (h : ¬ (s.comp c).stuck) : Halted c (restart s) := by
  have hh : Halted c (eachFittedSpot restartSpot (compsRestarted s)) :=
    foldl_preserves (fun u i hu => hu.spotWork (spotWork_ifFitted spotWork_restartSpot i u)) _ _ (compsRestarted_halts hf h)
  rw [restart_eq]
  exact hh.flagSiding

theorem restart_compFlag {s : State} {c : CompNo} (hf : s.fittedComp c = true) : (restart s).changes.comps.getLsbD c = true := by
  have h : (eachFittedSpot restartSpot (compsRestarted s)).changes = (compsRestarted s).changes :=
    congrArg Fixed.changes (Kept.eachFittedSpot (fun i s => (spotWork_restartSpot i s).kept) (compsRestarted s)).fixed
  rw [restart_eq, flagSiding_compFlags, h]
  exact compsRestarted_flag hf

section Turn

variable {i : SpotNo} {s : State}

/-- A fitted spot's turn: it finds the spot as it was, but for its seat. -/
theorem restart_turn (hi : s.fittedSpot i = true) :
    ∃ (x : Option CompNo) (u : State), u.spot i = { s.spot i with seat := x } ∧ (restart s).spot i = (restartSpot i u).spot i := by
  obtain ⟨x, hx⟩ := compsRestarted_spot s i
  have hfit : (compsRestarted s).fittedSpot i = true := (fittedSpot_of_profile (restarted_compsRestarted s).profile i).trans hi
  obtain ⟨u, h1, h2⟩ := eachFittedSpot_turn spotWork_restartSpot hfit
  exact ⟨x, u, h1.spot.trans hx, by rw [restart_eq, flagSiding_spot, h2.spot]⟩

theorem restart_isolable (hi : s.fittedSpot i = true) (h : (s.spot i).state.isolable = true) :
    ((restart s).spot i).state = .isolating ∧ ((restart s).spot i).car = (s.spot i).car ∧
      ∀ o ∈ ((restart s).spot i).orders, o.state = .draining := by
  obtain ⟨x, u, hu, he⟩ := restart_turn hi
  have hst : (u.spot i).state = (s.spot i).state := by rw [hu]
  have hcar : (u.spot i).car = (s.spot i).car := by rw [hu]
  have hturn : ∃ a b f, restartSpot i u = advanceSpot i (enterIsolating a b f i u) := by
    rw [← hst] at h
    unfold restartSpot
    revert h
    cases e : (u.spot i).state <;> intro h
    case proving => exact ⟨_, _, some .restart, rfl⟩
    case connected | staged | transfer | recovery | held => exact ⟨_, _, none, rfl⟩
    all_goals cases h
  obtain ⟨a, b, f, hr⟩ := hturn
  have hl := (isolationWork a b f i u).leaving
  rw [he, hr]
  exact ⟨hl.state, hl.car.trans hcar, hl.orders⟩

theorem restart_stroking (hi : s.fittedSpot i = true) (h : (s.spot i).state = .stroking) :
    ((restart s).spot i).state = .faulted ∧ ((restart s).spot i).fault = some .restart := by
  obtain ⟨x, u, hu, he⟩ := restart_turn hi
  have hr : restartSpot i u = failStroke false .restart i u := by
    unfold restartSpot
    rw [hu]
    dsimp only
    rw [h]
  rw [he, hr, failStroke_spot]
  exact ⟨rfl, rfl⟩

theorem restart_rests (h : (s.spot i).state = .vacant ∨ (s.spot i).state = .spotted ∨ (s.spot i).state = .isolating ∨
    (s.spot i).state = .faulted) :
    ((restart s).spot i).state = (s.spot i).state ∧ ((restart s).spot i).orders = (s.spot i).orders := by
  obtain ⟨x, hx⟩ := compsRestarted_spot s i
  have hpass : Passed i (compsRestarted s) (eachFittedSpot restartSpot (compsRestarted s)) := by
    refine eachFittedSpot_passes spotWork_restartSpot fun u hu => ?_
    unfold restartSpot
    rw [hu, hx]
    dsimp only
    rcases h with e | e | e | e <;> rw [e]
  rw [restart_eq, flagSiding_spot, hpass.spot, hx]
  exact ⟨rfl, rfl⟩

end Turn

/-! ## The request -/

def Frame.guarded (f : Frame) : Guarded :=
  { profile := f.profile, staged := f.staged, stagedVersion := f.stagedVersion, setpointHold := f.setpointHold,
    lockTaken := f.lockTaken, lock := f.lock, fe := f.fe, rearmRun := f.rearmRun, esdHigh := f.esdHigh }

theorem guarded_of_frame {s u : State} (h : u.frame = s.frame) : u.guarded = s.guarded := by
  have e := congrArg Frame.guarded h
  exact e

theorem answerRestart_refuses {s : State} (h : s.siding = .unconfigured) : answerRestart s = (s, .bare .notConfigured) := if_pos h

theorem answerRestart_done {s : State} (h : s.siding ≠ .unconfigured) :
    answerRestart s = (restart s, { status := .done, body := [Layout.sidingState s.siding] }) := if_neg h

theorem Restarted.vessel {b t : State} (h : Restarted b t) (v : VesselNo) : t.vessel v = { b.vessel v with entries := [] } :=
  calc t.vessel v = { (t.vessel v).store with entries := (t.vessel v).entries } := rfl
    _ = _ := by rw [h.entries, h.stores]; rfl

/-- Settles O45: the restart's own records by `Restarted`, which no owner's turn undoes; each owner by its own turn. -/
theorem restartReturnsToConfigured : Obligations.RestartReturnsToConfigured := by
  unfold Obligations.RestartReturnsToConfigured
  intro s via ht
  refine ⟨fun h => ?_, fun h => ?_⟩
  · exact refuses_of (c := .restartSiding via) ht rfl fun u hu => answerRestart_refuses ((siding_of_frame hu).trans h)
  obtain ⟨v, t, hv, ha, hframe, hch, -⟩ := answers_event (c := .restartSiding via) (s := s) (b := [Layout.sidingState s.siding]) ht rfl
    fun v hv => by
      rw [← siding_of_frame hv]
      exact answerRestart_done (by rw [siding_of_frame hv]; exact h)
  have hr := restarted_restart v
  have hg := guarded_restart v
  have hcomp : ∀ c, t.comp c = (restart v).comp c := fun c => (comp_of_frame hframe c).trans (closeEvent_comp v _ c)
  have hvessel : ∀ x, t.vessel x = (restart v).vessel x := fun x => (vessel_of_frame hframe x).trans (closeEvent_vessel v _ x)
  have hspot : ∀ i, t.spot i = (restart v).spot i := fun i => (spot_of_frame hframe i).trans (closeEvent_spot v _ i)
  have hfit : ∀ i, s.fittedSpot i = true → v.fittedSpot i = true := fun i hi =>
    (fittedSpot_of_profile (congrArg Frame.profile hv.frame) i).trans hi
  have hfitc : ∀ c, s.fittedComp c = true → v.fittedComp c = true := fun c hc =>
    (fittedComp_of_profile (congrArg Frame.profile hv.frame) c).trans hc
  have hvs : ∀ i, v.spot i = s.spot i := spot_of_frame hv.frame
  have hvc : ∀ c, v.comp c = s.comp c := comp_of_frame hv.frame
  have hvv : ∀ x, v.vessel x = s.vessel x := vessel_of_frame hv.frame
  have hcflag : ∀ c, s.fittedComp c = true → t.changes.comps.getLsbD c = true := fun c hc => by
    rw [hch, closeEvent_compFlag, restart_compFlag (hfitc c hc)]
    rfl
  have hvflag : t.changes.vessels = BitVec.allOnes 6 := by
    refine BitVec.eq_of_getLsbD_eq fun x hx => ?_
    have h := closeEvent_vesselFlag v (restart v) ⟨x, hx⟩
    rw [hr.vessels, BitVec.getLsbD_allOnes] at h
    rw [hch, BitVec.getLsbD_allOnes]
    refine h.trans ?_
    simp [hx]
  have hsflag : t.changes.siding = true := by
    rw [hch, closeEvent_sidingFlag]
    rfl
  refine ⟨t, ha, ?_⟩
  have hg : t.guarded = s.guarded :=
    ((guarded_of_frame hframe).trans (guarded_closeEvent v _)).trans ((guarded_restart v).trans (guarded_of_frame hv.frame))
  rw [closeEvent_frame] at hframe
  obtain ⟨w, hw⟩ : ∃ w, w = restart v := ⟨_, rfl⟩
  rw [← hw] at hframe hr
  have htests : t.tests = { spots := [], comps := [] } := by
    have e : t.tests = w.tests := congrArg Frame.tests hframe
    obtain ⟨k1, k2⟩ := hr.tests
    have e1 : w.tests.spots = [] := List.eq_nil_iff_forall_not_mem.mpr fun i hi => nomatch k1 i hi
    have e2 : w.tests.comps = [] := List.eq_nil_iff_forall_not_mem.mpr fun i hi => nomatch k2 i hi
    rw [e]
    show (⟨w.tests.spots, w.tests.comps⟩ : PendingTests) = _
    rw [e1, e2]
  have hsiding : t.siding = w.siding := congrArg Frame.siding hframe
  have hgrants : t.grants = w.grants := congrArg Frame.grants hframe
  refine ⟨hsiding.trans hr.siding, htests, hgrants.trans hr.grants, fun x => ?_, fun i hi hst => ?_, fun i hi hst => ?_,
    fun i hst => ?_, fun c hc hns => ?_, hsflag, hvflag, hcflag, congrArg Guarded.profile hg, congrArg Guarded.staged hg,
    congrArg Guarded.stagedVersion hg, congrArg Guarded.setpointHold hg, congrArg Guarded.lock hg, congrArg Guarded.lockTaken hg,
    congrArg Guarded.fe hg, congrArg Guarded.esdHigh hg⟩
  · rw [hvessel, ← hw, hr.vessel, hvv]
  · have h := restart_isolable (hfit i hi) (by rwa [hvs])
    rwa [← hspot, hvs] at h
  · have h := restart_stroking (hfit i hi) (by rwa [hvs])
    rwa [← hspot] at h
  · have h := restart_rests (s := v) (i := i) (by rwa [hvs])
    rwa [← hspot, hvs] at h
  · obtain ⟨h1, h2, h3, h4⟩ := (restart_halts (hfitc c hc) (by rw [hvc]; exact hns)).comp
    rw [hcomp]
    exact ⟨h1, h2, h3, h4⟩

end Sys2Proof.Machine
end

section
/-! PROOFS. The inputs' filters (R152): no work of spots, compressors and orders moves one. One lemma per operation says so, in the
order of the definitions. -/

namespace Sys2Proof.Machine

/-! ## The filters of one record -/

def Valve.limits (v : Valve) : Filter × Filter := (v.openLimit, v.shutLimit)

/-- The filters of a spot: its switches and buttons, and the limits of its valves. -/
def Spot.filters (sp : Spot) : List Filter × (ValveName → Filter × Filter) := (sp.inputs, fun n => (sp.valve n).limits)

/-- The filters of a compressor: its two inputs, and the limits of its valves. -/
def Comp.filters (k : Comp) : Filter × Filter × (Direction → Filter × Filter) := (k.run, k.faultInput, fun d => (k.valve d).limits)

theorem Spot.setValve_filters {n : ValveName} {v : Valve} {sp : Spot} (h : v.limits = (sp.valve n).limits) :
    (sp.setValve n v).filters = sp.filters := by
  refine Prod.ext (by cases n <;> rfl) (funext fun m => ?_)
  show ((sp.setValve n v).valve m).limits = (sp.valve m).limits
  rw [Spot.setValve_valve]
  split
  next e => rw [e, h]
  next => rfl

theorem Comp.putValve_filters {d : Direction} {v : Valve} {k : Comp} (h : v.limits = (k.valve d).limits) :
    (k.putValve d v).filters = k.filters := by
  have hbare := Comp.putValve_bare d v k
  have h1 := congrArg Comp.run hbare
  have h2 := congrArg Comp.faultInput hbare
  refine Prod.ext h1 (Prod.ext h2 (funext fun e => ?_))
  show ((k.putValve d v).valve e).limits = (k.valve e).limits
  rw [Comp.putValve_valve]
  split
  next e' => rw [e', h]
  next => rfl

/-! ## What a valve's own work leaves -/

@[simp] theorem Valve.pursue_limits (stroke : Timer) (e : Bool) (v : Valve) : (v.pursue stroke e).limits = v.limits := by
  unfold Valve.pursue
  repeat' split
  all_goals rfl

@[simp] theorem Valve.enterFault_limits (v : Valve) : v.enterFault.limits = v.limits := rfl
@[simp] theorem Valve.failTest_limits (v : Valve) : v.failTest.limits = v.limits := by
  unfold Valve.failTest
  split <;> rfl
@[simp] theorem Valve.passTest_limits (v : Valve) : v.passTest.limits = v.limits := rfl
@[simp] theorem Valve.stopTimer_limits (v : Valve) : v.stopTimer.limits = v.limits := rfl
@[simp] theorem Valve.command_limits (v : Valve) (c : Command) : ({ v with command := c } : Valve).limits = v.limits := rfl

theorem Spot.mapValves_filters {f : Valve → Valve} (h : ∀ v, (f v).limits = v.limits) (sp : Spot) : (sp.mapValves f).filters = sp.filters := by
  refine Prod.ext rfl (funext fun n => ?_)
  cases n <;> exact h _

theorem Comp.mapValves_filters {f : Valve → Valve} (h : ∀ v, (f v).limits = v.limits) (k : Comp) : (k.mapValves f).filters = k.filters :=
  (Comp.putValve_filters (h _)).trans (Comp.putValve_filters (h _))

@[simp] theorem Spot.modHead_filters (f : Order → Order) (sp : Spot) : (sp.modHead f).filters = sp.filters := by
  rw [Spot.modHead_eq]
  rfl
@[simp] theorem Spot.takeStaged_filters (s : State) (sp : Spot) : (sp.takeStaged s).filters = sp.filters := by
  unfold Spot.takeStaged
  split <;> rfl

/-! ## Single updates -/

theorem filterOf_congr {s t : State} (hs : ∀ i, (t.spot i).filters = (s.spot i).filters) (hc : ∀ c, (t.comp c).filters = (s.comp c).filters)
    (hv : ∀ v, (t.vessel v).trip = (s.vessel v).trip) : t.filterOf = s.filterOf := by
  have limits : ∀ v, (t.valve v).limits = (s.valve v).limits := fun v => by
    cases v with
    | spot i n => exact congrFun (congrArg Prod.snd (hs i)) n
    | direction c d => exact congrFun (congrArg (fun x => x.2.2) (hc c)) d
  funext x
  cases x with
  | openLimit v => exact congrArg Prod.fst (limits v)
  | shutLimit v => exact congrArg Prod.snd (limits v)
  | bond i => exact congrArg (fun x => x.1.getD 0 .reset) (hs i)
  | hose i => exact congrArg (fun x => x.1.getD 1 .reset) (hs i)
  | residual i => exact congrArg (fun x => x.1.getD 2 .reset) (hs i)
  | connectedButton i => exact congrArg (fun x => x.1.getD 3 .reset) (hs i)
  | stopButton i => exact congrArg (fun x => x.1.getD 4 .reset) (hs i)
  | clearButton i => exact congrArg (fun x => x.1.getD 5 .reset) (hs i)
  | trip v => exact hv v
  | run c => exact congrArg Prod.fst (hc c)
  | faultInput c => exact congrArg (fun x => x.2.1) (hc c)

/-- Records that stand keep their filters. -/
theorem filterOf_of_eq {s t : State} (hs : t.spots = s.spots) (hc : t.comps = s.comps) (hv : t.vessels = s.vessels) :
    t.filterOf = s.filterOf :=
  filterOf_congr (fun i => by rw [spot_of_spots hs]) (fun c => by rw [comp_of_comps hc]) fun v => by rw [vessel_of_vessels hv]

theorem filterOf_modSpot (i : SpotNo) (f : Spot → Spot) (s : State) (h : ∀ sp, (f sp).filters = sp.filters) :
    (s.modSpot i f).filterOf = s.filterOf := by
  refine filterOf_congr (fun j => ?_) (fun _ => rfl) fun _ => rfl
  rw [modSpot_spot]
  split
  · exact h _
  · rfl

theorem filterOf_modComp (c : CompNo) (f : Comp → Comp) (s : State) (h : ∀ k, (f k).filters = k.filters) :
    (s.modComp c f).filterOf = s.filterOf := by
  refine filterOf_congr (fun _ => rfl) (fun d => ?_) fun _ => rfl
  by_cases e : d = c
  · rw [e, modComp_comp_same]
    exact h _
  · rw [modComp_comp_other _ _ _ _ e]

theorem filterOf_modVessel (v : VesselNo) (f : Vessel → Vessel) (s : State) (h : ∀ r, (f r).trip = r.trip) :
    (s.modVessel v f).filterOf = s.filterOf := by
  refine filterOf_congr (fun _ => rfl) (fun _ => rfl) fun u => ?_
  rw [modVessel_vessel]
  split
  · exact h _
  · rfl

/-- A change that touches neither a switch nor a valve. -/
theorem filterOf_plainSpot {i : SpotNo} {f : Spot → Spot} {s : State} (h : ∀ sp, (f sp).inputs = sp.inputs ∧ (f sp).shutoff = sp.shutoff ∧
    (f sp).liquid = sp.liquid ∧ (f sp).vapour = sp.vapour ∧ (f sp).vent = sp.vent) : (s.modSpot i f).filterOf = s.filterOf := by
  refine filterOf_modSpot i f s fun sp => ?_
  obtain ⟨h1, h2, h3, h4, h5⟩ := h sp
  refine Prod.ext h1 (funext fun n => ?_)
  cases n
  · exact congrArg Valve.limits h2
  · exact congrArg Valve.limits h3
  · exact congrArg Valve.limits h4
  · exact congrArg Valve.limits h5

theorem filterOf_plainComp {c : CompNo} {f : Comp → Comp} {s : State} (h : ∀ k, (f k).run = k.run ∧ (f k).faultInput = k.faultInput ∧
    (f k).push = k.push ∧ (f k).draw = k.draw) : (s.modComp c f).filterOf = s.filterOf := by
  refine filterOf_modComp c f s fun k => ?_
  obtain ⟨h1, h2, h3, h4⟩ := h k
  refine Prod.ext h1 (Prod.ext h2 (funext fun d => ?_))
  cases d
  · exact congrArg Valve.limits h3
  · exact congrArg Valve.limits h4

section Updates

variable (s : State)

@[simp] theorem filterOf_touchSpot (i : SpotNo) : (s.touchSpot i).filterOf = s.filterOf := rfl
@[simp] theorem filterOf_touchVessel (v : VesselNo) : (s.touchVessel v).filterOf = s.filterOf := rfl
@[simp] theorem filterOf_touchComp (c : CompNo) : (s.touchComp c).filterOf = s.filterOf := rfl
@[simp] theorem filterOf_touchQueue : s.touchQueue.filterOf = s.filterOf := rfl
@[simp] theorem filterOf_clearScratch : (clearScratch s).filterOf = s.filterOf := rfl
@[simp] theorem filterOf_scratch (x : Scratch) : ({ s with scratch := x } : State).filterOf = s.filterOf := rfl
@[simp] theorem filterOf_modCar (k : SlotNo) (f : Car → Car) : (s.modCar k f).filterOf = s.filterOf := rfl
@[simp] theorem filterOf_modCarAt (i : SpotNo) (f : Car → Car) : (s.modCarAt i f).filterOf = s.filterOf := by
  unfold State.modCarAt
  split <;> rfl

theorem filterOf_eachFittedSpot (f : SpotNo → State → State) (h : ∀ i s, (f i s).filterOf = s.filterOf) :
    (eachFittedSpot f s).filterOf = s.filterOf :=
  foldl_keeps State.filterOf _ (fun s i => by
    dsimp only
    split
    · exact h i s
    · rfl) _ _

end Updates

end Sys2Proof.Machine
end

section
/-! PROOFS. The inputs' filters stand through the work of compressors, spots, orders and the arbiter (R152). -/

namespace Sys2Proof.Machine

/-! ## Compressors -/

section Comps

variable (c : CompNo) (s : State)

@[simp] theorem filterOf_pursueDir (d : Direction) : (pursueDir c d s).filterOf = s.filterOf :=
  filterOf_modComp _ _ _ fun _ => Comp.putValve_filters (by simp)
@[simp] theorem filterOf_commandDir (d : Direction) (x : Command) : (commandDir c d x s).filterOf = s.filterOf :=
  (filterOf_pursueDir c _ d).trans (filterOf_modComp _ _ _ fun _ => Comp.putValve_filters (by simp))
@[simp] theorem filterOf_shutDirs : (shutDirs c s).filterOf = s.filterOf := by simp [shutDirs]
@[simp] theorem filterOf_stopComp : (stopComp c s).filterOf = s.filterOf :=
  (filterOf_shutDirs c _).trans (filterOf_modComp _ _ _ fun _ => rfl)
@[simp] theorem filterOf_enterRunOn : (enterRunOn c s).filterOf = s.filterOf := by
  unfold enterRunOn
  split
  · exact filterOf_stopComp c s
  · exact filterOf_modComp _ _ _ fun _ => rfl
@[simp] theorem filterOf_enterRunWait : (enterRunWait c s).filterOf = s.filterOf := filterOf_modComp _ _ _ fun _ => rfl
@[simp] theorem filterOf_settleTests : (settleTests s).filterOf = s.filterOf := by
  unfold settleTests
  split <;> rfl
@[simp] theorem filterOf_endCompTest : (endCompTest c s).filterOf = s.filterOf := filterOf_settleTests _
@[simp] theorem filterOf_compOnOpen : (compOnOpen c s).filterOf = s.filterOf := by
  unfold compOnOpen
  dsimp only
  repeat' split
  all_goals simp [filterOf_plainComp]
@[simp] theorem filterOf_compOnRun : (compOnRun c s).filterOf = s.filterOf := by
  unfold compOnRun
  dsimp only
  repeat' split
  all_goals simp [filterOf_plainComp]
@[simp] theorem filterOf_passProof : (passProof c s).filterOf = s.filterOf :=
  (filterOf_endCompTest c _).trans (filterOf_modComp _ _ _ fun k => Comp.mapValves_filters Valve.passTest_limits k)
@[simp] theorem filterOf_compOnShut : (compOnShut c s).filterOf = s.filterOf := by
  unfold compOnShut
  dsimp only
  repeat' split
  all_goals simp [filterOf_plainComp]
@[simp] theorem filterOf_compOnGuard : (compOnGuard c s).filterOf = s.filterOf := by
  unfold compOnGuard
  dsimp only
  repeat' split
  · refine (filterOf_commandDir c _ _ _).trans (filterOf_plainComp fun k => ?_)
    split <;> exact ⟨rfl, rfl, rfl, rfl⟩
  all_goals rfl
@[simp] theorem filterOf_compPassGuard : (compPassGuard c s).filterOf = s.filterOf := by simp [compPassGuard]
@[simp] theorem filterOf_compOnArrivals : (compOnArrivals c s).filterOf = s.filterOf := by simp [compOnArrivals]
@[simp] theorem filterOf_compAdvance : (compAdvance c s).filterOf = s.filterOf := by simp [compAdvance]
@[simp] theorem filterOf_compReported (b : State) : (compReported b c s).filterOf = s.filterOf := by
  unfold compReported
  dsimp only
  split <;> simp
@[simp] theorem filterOf_startComp (d : Direction) : (startComp c d s).filterOf = s.filterOf := by
  simp [startComp, filterOf_plainComp]
@[simp] theorem filterOf_enterReversing (d : Direction) : (enterReversing c d s).filterOf = s.filterOf := by
  simp [enterReversing, filterOf_plainComp]
@[simp] theorem filterOf_compOnEmpty : (compOnEmpty c s).filterOf = s.filterOf := by
  unfold compOnEmpty
  dsimp only
  repeat' split
  all_goals simp
@[simp] theorem filterOf_clearTurning (i : SpotNo) : (clearTurning i c s).filterOf = s.filterOf := by
  unfold clearTurning
  split <;> simp [filterOf_plainComp]

end Comps

/-! ## Spots and orders -/

section Spots

variable (i : SpotNo) (s : State)

@[simp] theorem filterOf_releaseSeat : (releaseSeat i s).filterOf = s.filterOf := by
  unfold releaseSeat
  split
  · rfl
  · simp [filterOf_plainComp, filterOf_plainSpot, Spot.inputs]
@[simp] theorem filterOf_dropGrant : (dropGrant i s).filterOf = s.filterOf := by
  unfold dropGrant
  refine (foldl_keeps State.filterOf _ (fun s c => filterOf_clearTurning c s i) _ _).trans ?_
  split <;> rfl
@[simp] theorem filterOf_leaveCompressors : (leaveCompressors i s).filterOf = s.filterOf := by simp [leaveCompressors]
@[simp] theorem filterOf_commandSpot (n : ValveName) (x : Command) : (commandSpot i n x s).filterOf = s.filterOf := by
  rw [commandSpot_eq]
  exact filterOf_modSpot _ _ _ fun _ => Spot.setValve_filters (by simp [Valve.told])

@[simp] theorem filterOf_shutLines : (shutLines i s).filterOf = s.filterOf := by simp [shutLines]
@[simp] theorem filterOf_shutAll : (shutAll i s).filterOf = s.filterOf := by simp [shutAll]

@[simp] theorem filterOf_depart (o : Order) : (depart i o s).filterOf = s.filterOf := by
  have h : ((s.touchSpot i).modSpot i fun sp => { sp with orders := sp.orders.filter fun p => p.tag ≠ o.tag }).filterOf = s.filterOf :=
    (filterOf_plainSpot (by exact fun _ => ⟨rfl, rfl, rfl, rfl, rfl⟩)).trans (filterOf_touchSpot s i)
  have lists (v : VesselNo) (u : State) : ((u.touchVessel v).modVessel v (Vessel.unreserve i o.tag)).filterOf = u.filterOf :=
    (filterOf_modVessel v (Vessel.unreserve i o.tag) _ (by exact fun _ => rfl)).trans (filterOf_touchVessel u v)
  unfold depart
  dsimp only
  rw [filterOf_scratch]
  split
  · rw [lists, h]
  · rw [h]
@[simp] theorem filterOf_departAll (f : Order → Order) (l : List Order) : (l.foldl (fun s o => depart i (f o) s) s).filterOf = s.filterOf :=
  foldl_keeps State.filterOf _ (fun s o => filterOf_depart i s (f o)) _ _
@[simp] theorem filterOf_addHold (r : HoldReason) : (addHold i r s).filterOf = s.filterOf := by
  unfold addHold
  dsimp only
  repeat' split
  all_goals simp [filterOf_plainSpot, Spot.modHead_eq, Spot.stopMeter, Spot.inputs]
@[simp] theorem filterOf_removeHold (r : HoldReason) : (removeHold i r s).filterOf = s.filterOf :=
  filterOf_plainSpot fun _ => ⟨rfl, rfl, rfl, rfl, rfl⟩
@[simp] theorem filterOf_takeStaged (u : State) : (s.modSpot i (Spot.takeStaged u)).filterOf = s.filterOf :=
  filterOf_modSpot _ _ _ (Spot.takeStaged_filters u)
@[simp] theorem filterOf_becomeHead : (becomeHead i s).filterOf = s.filterOf := by
  unfold becomeHead
  dsimp only
  repeat' split
  all_goals simp [filterOf_plainSpot, Spot.modHead_eq, Spot.inputs]
@[simp] theorem filterOf_nextHead : (nextHead i s).filterOf = s.filterOf := by
  unfold nextHead
  dsimp only
  repeat' split
  all_goals simp [filterOf_plainSpot, Spot.stopMeter, Spot.inputs]
@[simp] theorem filterOf_endQueue (a b : EndReason) : (endQueue a b i s).filterOf = s.filterOf := by
  unfold endQueue
  split
  · rfl
  · dsimp only
    rw [filterOf_departAll i _ fun o => { o with reason := some (o.reason.getD b) }]
    repeat' split
    all_goals simp [filterOf_plainSpot, Spot.modHead_eq, Spot.inputs]
@[simp] theorem filterOf_enterIsolating (a b : EndReason) (f : Option SpotFault) : (enterIsolating a b f i s).filterOf = s.filterOf := by
  simp [enterIsolating, filterOf_plainSpot, Spot.stopMeter, Spot.inputs]
@[simp] theorem filterOf_failProving (f : SpotFault) : (failProving f i s).filterOf = s.filterOf := filterOf_enterIsolating i s _ _ _
@[simp] theorem filterOf_headGone (b : Bool) : (headGone i b s).filterOf = s.filterOf := by
  unfold headGone
  split <;> simp
@[simp] theorem filterOf_drainHead (r : EndReason) : (drainHead i r s).filterOf = s.filterOf := by
  simp [drainHead, filterOf_plainSpot, Spot.modHead_eq, Spot.inputs]
@[simp] theorem filterOf_headLeaves (h : Order) (r : EndReason) : (headLeaves i h r s).filterOf = s.filterOf := by
  unfold headLeaves
  dsimp only
  split <;> simp [filterOf_plainSpot, Spot.inputs]
@[simp] theorem filterOf_endHead (r : EndReason) : (endHead i r s).filterOf = s.filterOf := by
  unfold endHead
  repeat' split
  all_goals simp
@[simp] theorem filterOf_serveUnloading : (serveUnloading i s).filterOf = s.filterOf := by
  unfold serveUnloading
  repeat' split
  all_goals rfl
@[simp] theorem filterOf_faultSpot (f : SpotFault) : (faultSpot f i s).filterOf = s.filterOf := by
  simp [faultSpot, filterOf_plainSpot, Spot.stopMeter, Spot.inputs, filterOf_departAll i _ fun o => { o with reason := some .fault }]
@[simp] theorem filterOf_failTests : (s.modSpot i (Spot.mapValves Valve.failTest)).filterOf = s.filterOf :=
  filterOf_modSpot _ _ _ (Spot.mapValves_filters Valve.failTest_limits)
@[simp] theorem filterOf_stopTimers : (s.modSpot i (Spot.mapValves Valve.stopTimer)).filterOf = s.filterOf :=
  filterOf_modSpot _ _ _ (Spot.mapValves_filters Valve.stopTimer_limits)
@[simp] theorem filterOf_endSpotTest : (endSpotTest i s).filterOf = s.filterOf := filterOf_settleTests _
@[simp] theorem filterOf_failStroke (k : Bool) (f : SpotFault) : (failStroke k f i s).filterOf = s.filterOf := by
  unfold failStroke
  dsimp only
  split <;> simp [filterOf_plainSpot, Spot.inputs]
@[simp] theorem filterOf_spotValveFault (n : ValveName) : (spotValveFault i n s).filterOf = s.filterOf := by
  unfold spotValveFault
  split <;> simp
@[simp] theorem filterOf_passStroke : (passStroke i s).filterOf = s.filterOf :=
  (filterOf_endSpotTest i _).trans (filterOf_modSpot _ _ _ fun sp => Spot.mapValves_filters Valve.passTest_limits sp)

/-! ## Arrivals -/

@[simp] theorem filterOf_onShutoffOpen : (onShutoffOpen i s).filterOf = s.filterOf := by
  unfold onShutoffOpen
  dsimp only
  split <;> simp [filterOf_plainSpot, Spot.inputs]
@[simp] theorem filterOf_onLiquidOpen : (onLiquidOpen i s).filterOf = s.filterOf := by
  unfold onLiquidOpen
  dsimp only
  split <;> simp [filterOf_plainSpot, Spot.inputs]
@[simp] theorem filterOf_onDrained : (onDrained i s).filterOf = s.filterOf := by
  rcases onDrained_cases i s with ⟨e, -⟩ | ⟨o, -, e⟩ <;> rw [e]
  simp
@[simp] theorem filterOf_onResumed : (onResumed i s).filterOf = s.filterOf := by
  unfold onResumed
  dsimp only
  split <;> simp [filterOf_plainSpot, Spot.modHead_eq, Spot.inputs]
@[simp] theorem filterOf_onLinesShut : (onLinesShut i s).filterOf = s.filterOf := by
  unfold onLinesShut
  dsimp only
  split <;> simp [filterOf_plainSpot, Spot.inputs]
@[simp] theorem filterOf_onVentOpen : (onVentOpen i s).filterOf = s.filterOf := by
  unfold onVentOpen
  dsimp only
  split <;> simp [filterOf_plainSpot, Spot.inputs]
@[simp] theorem filterOf_onVentShut : (onVentShut i s).filterOf = s.filterOf := by
  unfold onVentShut
  dsimp only
  split <;> simp [filterOf_plainSpot, Spot.inputs]
@[simp] theorem filterOf_onStrokeOpen : (onStrokeOpen i s).filterOf = s.filterOf := by
  unfold onStrokeOpen
  dsimp only
  repeat' split
  all_goals simp [filterOf_plainSpot, Spot.inputs]
@[simp] theorem filterOf_onStrokeShut : (onStrokeShut i s).filterOf = s.filterOf := by
  unfold onStrokeShut
  dsimp only
  repeat' split
  all_goals simp [filterOf_plainSpot, Spot.inputs]
@[simp] theorem filterOf_onStrokeTurn : (onStrokeTurn i s).filterOf = s.filterOf := by
  unfold onStrokeTurn
  dsimp only
  repeat' split
  all_goals simp
@[simp] theorem filterOf_advanceSpot : (advanceSpot i s).filterOf = s.filterOf := by simp [advanceSpot]
@[simp] theorem filterOf_holdSpot (r : HoldReason) : (holdSpot i r s).filterOf = s.filterOf := by simp [holdSpot]

end Spots

/-! ## The arbiter -/

section Arbiter

variable (s : State)

@[simp] theorem filterOf_faultComp (f : CompFault) (c : CompNo) : (faultComp f c s).filterOf = s.filterOf := by
  have holds : ∀ (l : List SpotNo) (t : State), (l.foldl (fun s i =>
      holdSpot i .compressor ((s.touchSpot i).modSpot i fun sp => { sp with seat := none })) t).filterOf = t.filterOf :=
    foldl_keeps State.filterOf _ fun s i =>
      (filterOf_holdSpot i _ _).trans (filterOf_plainSpot fun _ => ⟨rfl, rfl, rfl, rfl, rfl⟩)
  have proof : ∀ t : State, (t.modComp c fun k => (k.mapValves Valve.failTest).mapValves Valve.stopTimer).filterOf = t.filterOf :=
    fun t => filterOf_modComp _ _ _ fun k =>
      (Comp.mapValves_filters Valve.stopTimer_limits _).trans (Comp.mapValves_filters Valve.failTest_limits k)
  unfold faultComp
  dsimp only
  repeat' split
  all_goals simp [holds, proof, filterOf_plainComp]
@[simp] theorem filterOf_runHead (i : SpotNo) : (runHead i s).filterOf = s.filterOf := by
  unfold runHead
  dsimp only
  repeat' split
  all_goals simp [filterOf_plainSpot, Spot.modHead_eq, Spot.inputs]
@[simp] theorem filterOf_grantSeat (c : CompNo) (g : Grant) : (grantSeat c g s).filterOf = s.filterOf := by
  unfold grantSeat
  dsimp only
  split <;> simp [filterOf_plainSpot, filterOf_plainComp, Spot.inputs]
@[simp] theorem filterOf_markTurning (i : SpotNo) (c : CompNo) : (markTurning i c s).filterOf = s.filterOf := by
  simp [markTurning, filterOf_plainComp]
@[simp] theorem filterOf_performDue (d : Due) : (performDue d s).filterOf = s.filterOf := by
  cases d with
  | run i => exact filterOf_runHead s i
  | join => rfl
  | seat g c => exact filterOf_grantSeat s c g
  | turn i c => exact filterOf_markTurning s i c
theorem filterOf_settleFor : ∀ (n : Nat) (s : State), (settleFor n s).filterOf = s.filterOf
  | 0, _ => rfl
  | n + 1, s => by
    unfold settleFor
    split
    · rfl
    · rw [filterOf_settleFor n, filterOf_performDue]
@[simp] theorem filterOf_settle : (settle s).filterOf = s.filterOf := filterOf_settleFor _ s
@[simp] theorem filterOf_closeEvent (b : State) : (closeEvent b s).filterOf = s.filterOf :=
  filterOf_of_eq (closeEvent_spots b s) (closeEvent_comps b s) (closeEvent_vessels b s)

end Arbiter

end Sys2Proof.Machine
end

section
/-! PROOFS. One sample of the inputs (R152 to R154): each group of inputs by itself, and what it leaves of the others. -/

namespace Sys2Proof.Machine

/-! ## The inputs and their groups -/

/-- The group that samples an input (R154). -/
def groupOf : Input → SampleGroup
  | .openLimit v | .shutLimit v => .limits v
  | .bond i => .bond i
  | .hose i => .hose i
  | .residual i => .residual i
  | .connectedButton i => .connectedButton i
  | .stopButton i => .stopButton i
  | .clearButton i => .clearButton i
  | .trip v => .trip v
  | .run c => .run c
  | .faultInput c => .faultInput c

/-- A switch or button: its spot, and its place among the spot's inputs. -/
def switchOf : Input → Option (SpotNo × Nat)
  | .bond i => some (i, 0)
  | .hose i => some (i, 1)
  | .residual i => some (i, 2)
  | .connectedButton i => some (i, 3)
  | .stopButton i => some (i, 4)
  | .clearButton i => some (i, 5)
  | .openLimit _ | .shutLimit _ | .trip _ | .run _ | .faultInput _ => none

/-- The group of a switch or button. -/
def switchGroup : SpotNo × Nat → SampleGroup
  | (i, 0) => .bond i
  | (i, 1) => .hose i
  | (i, 2) => .residual i
  | (i, 3) => .connectedButton i
  | (i, 4) => .stopButton i
  | (i, _) => .clearButton i

theorem groupOf_switch {x : Input} {p : SpotNo × Nat} (h : switchOf x = some p) : groupOf x = switchGroup p := by
  cases x <;> cases h <;> rfl

section Read

variable {s : State} {x y : Input} {f : Filter}

theorem filterOf_switch {i : SpotNo} {k : Nat} (h : switchOf x = some (i, k)) : s.filterOf x = (s.spot i).inputs.getD k .reset := by
  cases x <;> cases h <;> rfl

/-- A change of one switch of a spot leaves every other input. -/
theorem filterOf_setSwitch {i : SpotNo} {k : Nat} {g : Spot → Spot} (hin : ∀ sp, (g sp).inputs = sp.inputs.set k f)
    (hv : ∀ sp n, (g sp).valve n = sp.valve n) (hy : switchOf y ≠ some (i, k)) : (s.modSpot i g).filterOf y = s.filterOf y := by
  have valves : ∀ v, (s.modSpot i g).valve v = s.valve v := fun v => by
    cases v with
    | spot j n =>
      show ((s.modSpot i g).spot j).valve n = (s.spot j).valve n
      rw [modSpot_spot]
      split
      · exact hv _ n
      · rfl
    | direction c d => rfl
  cases hsw : switchOf y with
  | some p =>
    obtain ⟨j, m⟩ := p
    rw [filterOf_switch hsw, filterOf_switch hsw]
    by_cases e : j = i
    · have hk : k ≠ m := fun e' => hy (by rw [hsw, e, e'])
      rw [e, modSpot_spot_same, hin, List.getD_eq_getElem?_getD, List.getD_eq_getElem?_getD, List.getElem?_set_ne hk]
    · rw [modSpot_spot_other _ _ _ _ e]
  | none =>
    cases y with
    | openLimit v => exact congrArg Valve.openLimit (valves v)
    | shutLimit v => exact congrArg Valve.shutLimit (valves v)
    | trip | run | faultInput => rfl
    | bond | hose | residual | connectedButton | stopButton | clearButton => cases hsw

/-- A change of one valve leaves every input but its limits. -/
theorem filterOf_modValve {v : ValveId} {g : Valve → Valve} (h : groupOf y ≠ .limits v) : (s.modValve v g).filterOf y = s.filterOf y := by
  have others : ∀ u, u ≠ v → (s.modValve v g).valve u = s.valve u := fun u hu => by
    cases v with
    | spot i n =>
      cases u with
      | direction c d => rfl
      | spot j m =>
        show ((s.modSpot i fun sp => sp.setValve n (g (sp.valve n))).spot j).valve m = (s.spot j).valve m
        rw [modSpot_spot]
        split
        next e => rw [Spot.setValve_valve, if_neg (fun e' => hu (by rw [e, e']))]
        next => rfl
    | direction c d =>
      cases u with
      | spot j m => rfl
      | direction k e =>
        show ((s.modComp c fun x => x.putValve d (g (x.valve d))).comp k).valve e = (s.comp k).valve e
        by_cases hk : k = c
        · rw [hk, modComp_comp_same, Comp.putValve_valve, if_neg (fun e' => hu (by rw [hk, e']))]
        · rw [modComp_comp_other _ _ _ _ hk]
  have spots : ∀ i, ((s.modValve v g).spot i).inputs = (s.spot i).inputs := fun i => by
    cases v with
    | spot j n =>
      show ((s.modSpot j fun sp => sp.setValve n (g (sp.valve n))).spot i).inputs = _
      rw [modSpot_spot]
      split
      · cases n <;> rfl
      · rfl
    | direction c d => rfl
  have comps : ∀ k, ((s.modValve v g).comp k).bare = (s.comp k).bare := fun k => by
    cases v with
    | spot j n => rfl
    | direction c d =>
      show ((s.modComp c fun x => x.putValve d (g (x.valve d))).comp k).bare = _
      by_cases hk : k = c
      · rw [hk, modComp_comp_same, Comp.putValve_bare]
      · rw [modComp_comp_other _ _ _ _ hk]
  have vessels : ∀ u, (s.modValve v g).vessel u = s.vessel u := fun u => by cases v <;> rfl
  cases hsw : switchOf y with
  | some p => rw [filterOf_switch hsw, filterOf_switch hsw, spots]
  | none =>
    cases y with
    | openLimit u => exact congrArg Valve.openLimit (others u fun e => h (by rw [e]; rfl))
    | shutLimit u => exact congrArg Valve.shutLimit (others u fun e => h (by rw [e]; rfl))
    | trip u => exact congrArg Vessel.trip (vessels u)
    | run k =>
      have e := congrArg Comp.run (comps k)
      exact e
    | faultInput k =>
      have e := congrArg Comp.faultInput (comps k)
      exact e
    | bond | hose | residual | connectedButton | stopButton | clearButton => cases hsw

/-- A change of one compressor's inputs leaves its valves, and every other record. -/
theorem filterOf_modInput {c : CompNo} {g : Comp → Comp} (hv : ∀ k d, (g k).valve d = k.valve d)
    (hrun : y = .run c → ∀ k, (g k).run = k.run) (hfault : y = .faultInput c → ∀ k, (g k).faultInput = k.faultInput) :
    (s.modComp c g).filterOf y = s.filterOf y := by
  have valves : ∀ v, (s.modComp c g).valve v = s.valve v := fun v => by
    cases v with
    | spot j n => rfl
    | direction k d =>
      show ((s.modComp c g).comp k).valve d = (s.comp k).valve d
      by_cases e : k = c
      · rw [e, modComp_comp_same, hv]
      · rw [modComp_comp_other _ _ _ _ e]
  cases y with
  | openLimit v => exact congrArg Valve.openLimit (valves v)
  | shutLimit v => exact congrArg Valve.shutLimit (valves v)
  | run k =>
    show ((s.modComp c g).comp k).run = (s.comp k).run
    by_cases e : k = c
    · rw [e, modComp_comp_same, hrun (by rw [e])]
    · rw [modComp_comp_other _ _ _ _ e]
  | faultInput k =>
    show ((s.modComp c g).comp k).faultInput = (s.comp k).faultInput
    by_cases e : k = c
    · rw [e, modComp_comp_same, hfault (by rw [e])]
    · rw [modComp_comp_other _ _ _ _ e]
  | bond | hose | residual | connectedButton | stopButton | clearButton | trip => rfl

theorem filterOf_modTrip {v : VesselNo} {g : Vessel → Vessel} (hy : y ≠ .trip v) : (s.modVessel v g).filterOf y = s.filterOf y := by
  cases y with
  | trip u => exact congrArg Vessel.trip (modVessel_vessel_other s v u g fun e => hy (by rw [e]))
  | openLimit w | shutLimit w => cases w <;> rfl
  | bond | hose | residual | connectedButton | stopButton | clearButton | run | faultInput => rfl

/-- One filter written leaves the inputs of the other groups. -/
theorem filterOf_withFilter (h : groupOf y ≠ groupOf x) : (s.withFilter x f).filterOf y = s.filterOf y := by
  have switched {i : SpotNo} {k : Nat} (hx : switchOf x = some (i, k)) : switchOf y ≠ some (i, k) := fun hy =>
    h ((groupOf_switch hy).trans (groupOf_switch hx).symm)
  cases x with
  | openLimit v | shutLimit v => exact filterOf_modValve h
  | bond i | hose i | residual i | connectedButton i | stopButton i | clearButton i =>
    exact filterOf_setSwitch (by exact fun _ => rfl) (by exact fun _ n => by cases n <;> rfl) (switched rfl)
  | trip v => exact filterOf_modTrip fun e => h (by rw [e])
  | run c =>
    exact filterOf_modInput (by exact fun _ d => by cases d <;> rfl) (fun e => absurd (by rw [e]) h) (by exact fun _ _ => rfl)
  | faultInput c =>
    exact filterOf_modInput (by exact fun _ d => by cases d <;> rfl) (by exact fun _ _ => rfl) (fun e => absurd (by rw [e]) h)

end Read

end Sys2Proof.Machine
end

section
/-! PROOFS. The filtered changes (R152, R154): each leaves the inputs of the other groups. -/

namespace Sys2Proof.Machine

section Changes

variable {s : State} {y : Input}

theorem filterOf_event {f : State → State} (h : ∀ u : State, u.filterOf = s.filterOf → (f u).filterOf y = u.filterOf y) :
    (event f s).filterOf y = s.filterOf y := by
  unfold event
  rw [filterOf_closeEvent, h _ (filterOf_clearScratch s)]
  rfl

theorem filterOf_ifFitted {i : SpotNo} {f : SpotNo → State → State} (h : ∀ u, (f i u).filterOf = u.filterOf) (u : State) :
    (ifFitted i f u).filterOf = u.filterOf := by
  unfold ifFitted
  split
  · exact h u
  · rfl

/-! ## What the changes do at their owner -/

section Owners

variable (i : SpotNo) (v : VesselNo) (c : CompNo) (u : State)

theorem filterOf_bondTrip : (bondTrip i u).filterOf = u.filterOf := by
  unfold bondTrip
  split <;> simp
theorem filterOf_pressureMade : (pressureMade i u).filterOf = u.filterOf := by
  unfold pressureMade
  split
  · exact filterOf_plainSpot (by exact fun _ => ⟨rfl, rfl, rfl, rfl, rfl⟩)
  · simp
  · rfl
theorem filterOf_pressureLost : (pressureLost i u).filterOf = u.filterOf := by
  unfold pressureLost
  split <;> simp
theorem filterOf_residualMade : (residualMade i u).filterOf = u.filterOf := by
  unfold residualMade
  split <;> simp
theorem filterOf_pressConnected : (pressConnected i u).filterOf = u.filterOf := by
  unfold pressConnected
  split
  · split <;> simp
  · rfl
theorem filterOf_pressStop : (pressStop i u).filterOf = u.filterOf := by
  unfold pressStop
  split <;> simp
theorem filterOf_resumeSpot : (resumeSpot i u).filterOf = u.filterOf := by
  unfold resumeSpot
  dsimp only
  rw [filterOf_settle, filterOf_advanceSpot, filterOf_commandSpot]
  refine filterOf_plainSpot (by
    intro sp
    split <;> exact ⟨rfl, rfl, rfl, rfl, rfl⟩)
theorem filterOf_pressClear : (pressClear i u).filterOf = u.filterOf := by
  unfold pressClear
  dsimp only
  repeat' split
  all_goals simp [filterOf_resumeSpot]
theorem filterOf_vesselTrips : (vesselTrips v u).filterOf = u.filterOf := by
  unfold vesselTrips
  rw [filterOf_settle]
  exact filterOf_eachFittedSpot u _ fun i s => by split <;> simp
theorem filterOf_vesselClears : (vesselClears v u).filterOf = u.filterOf :=
  filterOf_eachFittedSpot u _ fun i s => by split <;> simp
theorem filterOf_runLost : (runLost c u).filterOf = u.filterOf := by
  unfold runLost
  split <;> simp
theorem filterOf_reportValve (b : State) (w : ValveId) (f : Bool) : (reportValve b w f u).filterOf = u.filterOf := by
  unfold reportValve
  cases w <;> dsimp only <;> split <;> simp

end Owners

/-! ## The changes -/

theorem filterOf_bondChange {i : SpotNo} {l : Bool} (h : groupOf y ≠ .bond i) : (bondChange i l s).filterOf y = s.filterOf y := by
  unfold bondChange
  split
  · rfl
  · refine filterOf_event fun u _ => ?_
    have hw : (u.withFilter (.bond i) (.at l)).filterOf y = u.filterOf y := filterOf_withFilter h
    dsimp only
    split
    · exact hw
    · rw [filterOf_ifFitted (filterOf_bondTrip i)]
      exact hw

theorem filterOf_hoseChange {i : SpotNo} {l : Bool} (h : groupOf y ≠ .hose i) : (hoseChange i l s).filterOf y = s.filterOf y := by
  unfold hoseChange
  split
  · rfl
  · refine filterOf_event fun u _ => ?_
    have hw : (u.withFilter (.hose i) (.at l)).filterOf y = u.filterOf y := filterOf_withFilter h
    dsimp only
    split
    · rw [filterOf_ifFitted (filterOf_pressureMade i)]
      exact hw
    · rw [filterOf_ifFitted (filterOf_pressureLost i)]
      exact hw

theorem filterOf_residualChange {i : SpotNo} {l : Bool} (h : groupOf y ≠ .residual i) :
    (residualChange i l s).filterOf y = s.filterOf y := by
  unfold residualChange
  split
  · rfl
  · refine filterOf_event fun u _ => ?_
    have hw : (u.withFilter (.residual i) (.at l)).filterOf y = u.filterOf y := filterOf_withFilter h
    dsimp only
    split
    · rw [filterOf_ifFitted (filterOf_residualMade i)]
      exact hw
    · exact hw

theorem filterOf_connectedPressed {i : SpotNo} (h : groupOf y ≠ .connectedButton i) :
    (connectedPressed i s).filterOf y = s.filterOf y :=
  filterOf_event fun u _ => by
    have hw : (u.withFilter (.connectedButton i) (.at true)).filterOf y = u.filterOf y := filterOf_withFilter h
    rw [filterOf_ifFitted (filterOf_pressConnected i)]
    exact hw

theorem filterOf_stopPressed {i : SpotNo} (h : groupOf y ≠ .stopButton i) : (stopPressed i s).filterOf y = s.filterOf y :=
  filterOf_event fun u _ => by
    have hw : (u.withFilter (.stopButton i) (.at true)).filterOf y = u.filterOf y := filterOf_withFilter h
    rw [filterOf_ifFitted (filterOf_pressStop i)]
    exact hw

theorem filterOf_clearPressed {i : SpotNo} (h : groupOf y ≠ .clearButton i) : (clearPressed i s).filterOf y = s.filterOf y :=
  filterOf_event fun u _ => by
    have hw : (u.withFilter (.clearButton i) (.at true)).filterOf y = u.filterOf y := filterOf_withFilter h
    rw [filterOf_ifFitted (filterOf_pressClear i)]
    exact hw

theorem filterOf_tripChange {v : VesselNo} {l : Bool} (h : groupOf y ≠ .trip v) : (tripChange v l s).filterOf y = s.filterOf y := by
  unfold tripChange
  split
  · rfl
  · refine filterOf_event fun u _ => ?_
    have hw : (u.withFilter (.trip v) (.at l)).filterOf y = u.filterOf y := filterOf_withFilter h
    dsimp only
    repeat' split
    · rw [filterOf_vesselTrips]
      exact hw
    · rw [filterOf_vesselClears]
      exact hw
    · exact hw

theorem filterOf_runChange {c : CompNo} {l : Bool} (h : groupOf y ≠ .run c) : (runChange c l s).filterOf y = s.filterOf y := by
  unfold runChange
  split
  · rfl
  · refine filterOf_event fun u _ => ?_
    have hw : (u.withFilter (.run c) (.at l)).filterOf y = u.filterOf y := filterOf_withFilter h
    dsimp only
    repeat' split
    · rw [filterOf_settle, filterOf_compOnRun]
      exact hw
    · rw [filterOf_runLost]
      exact hw
    · exact hw

theorem filterOf_faultChange {c : CompNo} {l : Bool} (h : groupOf y ≠ .faultInput c) : (faultChange c l s).filterOf y = s.filterOf y := by
  unfold faultChange
  split
  · rfl
  · refine filterOf_event fun u _ => ?_
    have hw : (u.withFilter (.faultInput c) (.at l)).filterOf y = u.filterOf y := filterOf_withFilter h
    dsimp only
    split
    · rw [filterOf_settle, filterOf_faultComp]
      exact hw
    · exact hw

theorem filterOf_limitChange {v : ValveId} {o sh : Bool} (h : groupOf y ≠ .limits v) : (limitChange v o sh s).filterOf y = s.filterOf y := by
  unfold limitChange
  split
  · rfl
  · refine filterOf_event fun u _ => ?_
    unfold limitsBecome
    dsimp only
    rw [filterOf_reportValve, filterOf_modValve h]

/-! ## One group sampled -/

theorem filterOf_sampleInput {n : Nat} {raw : Bool} {f : Filter} {x : Input} {change : State → State}
    (hy : groupOf y ≠ groupOf x) (h : (change s).filterOf y = s.filterOf y) :
    (sampleInput n raw f (fun f s => s.withFilter x f) change s).filterOf y = s.filterOf y := by
  unfold sampleInput
  split
  · exact h
  · exact filterOf_withFilter hy

theorem filterOf_buttonChange {raw : Bool} {x : Input} {press : State → State} (hy : groupOf y ≠ groupOf x)
    (h : (press s).filterOf y = s.filterOf y) : (buttonChange raw press (fun f s => s.withFilter x f) s).filterOf y = s.filterOf y := by
  unfold buttonChange
  split
  · exact h
  · exact filterOf_withFilter hy

theorem filterOf_sampleLimits {n : Nat} {v : ValveId} {o sh : Bool} (h : groupOf y ≠ .limits v) :
    (sampleLimits n v o sh s).filterOf y = s.filterOf y := by
  unfold sampleLimits
  dsimp only
  split
  · rw [filterOf_limitChange h, filterOf_modValve h]
  · exact filterOf_modValve h

/-- One group's sample leaves the inputs of the other groups. -/
theorem filterOf_sampleGroup {active : List Input} {g : SampleGroup} (h : groupOf y ≠ g) :
    (sampleGroup active g s).filterOf y = s.filterOf y := by
  cases g with
  | limits v => exact filterOf_sampleLimits h
  | bond i => exact filterOf_sampleInput (x := .bond i) h (filterOf_bondChange h)
  | hose i => exact filterOf_sampleInput (x := .hose i) h (filterOf_hoseChange h)
  | residual i => exact filterOf_sampleInput (x := .residual i) h (filterOf_residualChange h)
  | connectedButton i =>
    exact filterOf_sampleInput (x := .connectedButton i) h (filterOf_buttonChange (x := .connectedButton i) h (filterOf_connectedPressed h))
  | stopButton i =>
    exact filterOf_sampleInput (x := .stopButton i) h (filterOf_buttonChange (x := .stopButton i) h (filterOf_stopPressed h))
  | clearButton i =>
    exact filterOf_sampleInput (x := .clearButton i) h (filterOf_buttonChange (x := .clearButton i) h (filterOf_clearPressed h))
  | trip v => exact filterOf_sampleInput (x := .trip v) h (filterOf_tripChange h)
  | run c => exact filterOf_sampleInput (x := .run c) h (filterOf_runChange h)
  | faultInput c => exact filterOf_sampleInput (x := .faultInput c) h (filterOf_faultChange h)

end Changes

end Sys2Proof.Machine
end

section
/-! PROOFS. A sample of all inputs (R152 to R154): the groups that are settled do nothing, and the others are those the sample is about. -/

namespace Sys2Proof.Machine

/-! ## One filter sampled -/

theorem Filter.sample_settled {n : Nat} {raw : Bool} {f : Filter} (h : f = { active := raw, count := 0 }) :
    f.sample n raw = (f, false) := by
  rw [h]
  exact if_pos rfl

theorem Filter.sample_counts {n : Nat} {raw : Bool} {f : Filter} (h : raw ≠ f.active) (hn : f.count + 1 < n) :
    f.sample n raw = ({ f with count := f.count + 1 }, false) :=
  (if_neg h).trans (if_neg (Nat.not_le.mpr hn))

theorem Filter.sample_changes {n : Nat} {raw : Bool} {f : Filter} (h : raw ≠ f.active) (hn : n ≤ f.count + 1) :
    f.sample n raw = (.at raw, true) :=
  (if_neg h).trans (if_pos hn)

/-! ## Writing back what stands -/

theorem Comp.putValve_self (d : Direction) (k : Comp) : k.putValve d (k.valve d) = k := by
  unfold Comp.putValve
  dsimp only
  rw [if_neg (by simp), if_neg (by simp)]
  cases d <;> rfl

theorem modValve_congr {v : ValveId} {f g : Valve → Valve} {s : State} (h : f (s.valve v) = g (s.valve v)) : s.modValve v f = s.modValve v g := by
  cases v with
  | spot i n =>
    have h' : f ((s.spot i).valve n) = g ((s.spot i).valve n) := h
    exact modSpot_congr (i := i) (f := fun sp => sp.setValve n (f (sp.valve n))) (g := fun sp => sp.setValve n (g (sp.valve n))) (by rw [h'])
  | direction c d =>
    have h' : f ((s.comp c).valve d) = g ((s.comp c).valve d) := h
    exact modComp_congr (c := c) (f := fun k => k.putValve d (f (k.valve d))) (g := fun k => k.putValve d (g (k.valve d))) (by rw [h'])

theorem modValve_self {v : ValveId} {f : Valve → Valve} {s : State} (h : f (s.valve v) = s.valve v) : s.modValve v f = s := by
  rw [modValve_congr (g := fun x => x) h]
  cases v with
  | spot i n =>
    refine modSpot_self (i := i) (f := fun sp => sp.setValve n (sp.valve n)) ?_
    cases n <;> rfl
  | direction c d => exact modComp_self (c := c) (f := fun k => k.putValve d (k.valve d)) (Comp.putValve_self d _)

theorem modVessel_self {v : VesselNo} {f : Vessel → Vessel} {s : State} (h : f (s.vessel v) = s.vessel v) : s.modVessel v f = s := by
  have h' : f s.vessels[v] = s.vessels[v] := h
  unfold State.modVessel
  rw [h']
  simp

theorem withFilter_self (x : Input) (s : State) : s.withFilter x (s.filterOf x) = s := by
  unfold State.withFilter State.filterOf
  cases x with
  | openLimit v | shutLimit v =>
    refine modValve_self ?_
    rfl
  | bond i | hose i | residual i | connectedButton i | stopButton i | clearButton i =>
    refine modSpot_self ?_
    rfl
  | trip v =>
    refine modVessel_self ?_
    rfl
  | run c | faultInput c =>
    refine modComp_self ?_
    rfl

/-! ## A group of one input -/

/-- The filtered change of a switch, a button, a trip or a compressor's input to a level. -/
def inputChange (raw : Bool) : Input → State → State
  | .bond i => bondChange i raw
  | .hose i => hoseChange i raw
  | .residual i => residualChange i raw
  | .connectedButton i => buttonChange raw (connectedPressed i) fun f s => s.withFilter (.connectedButton i) f
  | .stopButton i => buttonChange raw (stopPressed i) fun f s => s.withFilter (.stopButton i) f
  | .clearButton i => buttonChange raw (clearPressed i) fun f s => s.withFilter (.clearButton i) f
  | .trip v => tripChange v raw
  | .run c => runChange c raw
  | .faultInput c => faultChange c raw
  | .openLimit _ | .shutLimit _ => id

section Single

variable {active : List Input} {x : Input} {s : State}

theorem sampleGroup_input (hx : ∀ v, groupOf x ≠ .limits v) : sampleGroup active (groupOf x) s =
    sampleInput (s.filterN x) (active.contains x) (s.filterOf x) (fun f s => s.withFilter x f) (inputChange (active.contains x) x) s := by
  cases x with
  | openLimit v | shutLimit v => exact absurd rfl (hx v)
  | bond | hose | residual | connectedButton | stopButton | clearButton | trip | run | faultInput => rfl

theorem inputChange_delivered (hx : ∀ v, groupOf x ≠ .limits v) {c : Instr} (hc : deliveredAs active x = some c) :
    exec c s = .next (inputChange (active.contains x) x s) := by
  unfold deliveredAs at hc
  cases x with
  | openLimit v | shutLimit v => exact absurd rfl (hx v)
  | bond | hose | residual | trip | run | faultInput =>
    obtain rfl := Option.some.inj hc
    generalize active.contains _ = raw
    cases raw <;> rfl
  | connectedButton | stopButton | clearButton =>
    revert hc
    dsimp only
    generalize active.contains _ = raw
    cases raw <;> intro hc
    · cases hc
    · obtain rfl := Option.some.inj hc
      rfl

theorem inputChange_released (hc : deliveredAs active x = none) :
    inputChange (active.contains x) x s = s.withFilter x { active := active.contains x, count := 0 } := by
  unfold deliveredAs at hc
  cases x with
  | connectedButton | stopButton | clearButton =>
    revert hc
    dsimp only
    generalize active.contains _ = raw
    cases raw <;> intro hc
    · rfl
    · cases hc
  | openLimit | shutLimit | bond | hose | residual | trip | run | faultInput => cases hc

theorem sampleInput_settled {n : Nat} {change : State → State} (h : s.settledAt active x) :
    sampleInput n (active.contains x) (s.filterOf x) (fun f s => s.withFilter x f) change s = s := by
  unfold sampleInput
  rw [Filter.sample_settled h]
  exact withFilter_self x s

end Single

/-! ## The two limits of a valve -/

section Limits

variable {n : Nat} {v : ValveId} {o sh : Bool} {s : State}

/-- Two limits that are not changed count alone. -/
theorem sampleLimits_quiet {fo fs : Filter} (ho : (s.valve v).openLimit.sample n o = (fo, false))
    (hs : (s.valve v).shutLimit.sample n sh = (fs, false)) :
    sampleLimits n v o sh s = s.modValve v fun x => { x with openLimit := fo, shutLimit := fs } := by
  unfold sampleLimits
  rw [ho, hs]
  rfl

theorem sampleLimits_settled (ho : (s.valve v).openLimit = { active := o, count := 0 }) (hs : (s.valve v).shutLimit = { active := sh, count := 0 }) :
    sampleLimits n v o sh s = s := by
  rw [sampleLimits_quiet (Filter.sample_settled ho) (Filter.sample_settled hs)]
  exact modValve_self (f := fun x => { x with openLimit := (s.valve v).openLimit, shutLimit := (s.valve v).shutLimit }) rfl

/-- A limit whose sample counts nothing: settled, or changed. -/
def Filter.judges (n : Nat) (raw : Bool) (f : Filter) : Prop := f = { active := raw, count := 0 } ∨ (raw ≠ f.active ∧ n ≤ f.count + 1)

theorem Filter.judges.sample {raw : Bool} {f : Filter} (h : f.judges n raw) :
    (f.sample n raw).1.active = raw ∧ (if (f.sample n raw).2 then f else (f.sample n raw).1) = f := by
  rcases h with h | ⟨h, hn⟩
  · rw [Filter.sample_settled h]
    exact ⟨by rw [h], rfl⟩
  · rw [Filter.sample_changes h hn]
    exact ⟨rfl, rfl⟩

/-- A changed limit beside one that does not count: the change of both levels (R154). -/
theorem sampleLimits_delivers (ho : (s.valve v).openLimit.judges n o) (hs : (s.valve v).shutLimit.judges n sh)
    (h : ((s.valve v).openLimit.sample n o).2 = true ∨ ((s.valve v).shutLimit.sample n sh).2 = true) :
    sampleLimits n v o sh s = limitChange v o sh s := by
  obtain ⟨h1, h2⟩ := ho.sample
  obtain ⟨h3, h4⟩ := hs.sample
  have hself : s.modValve v (fun x => { x with
      openLimit := if ((s.valve v).openLimit.sample n o).2 then x.openLimit else ((s.valve v).openLimit.sample n o).1
      shutLimit := if ((s.valve v).shutLimit.sample n sh).2 then x.shutLimit else ((s.valve v).shutLimit.sample n sh).1 }) = s := by
    refine modValve_self ?_
    rw [h2, h4]
  unfold sampleLimits
  dsimp only
  rw [hself, if_pos (by rcases h with e | e <;> simp [e]), h1, h3]

theorem sampleLimits_openCounts (ho : o ≠ (s.valve v).openLimit.active) (hn : (s.valve v).openLimit.count + 1 < n)
    (hs : (s.valve v).shutLimit = { active := sh, count := 0 }) : sampleLimits n v o sh s =
      s.withFilter (.openLimit v) { active := (s.valve v).openLimit.active, count := (s.valve v).openLimit.count + 1 } := by
  rw [sampleLimits_quiet (Filter.sample_counts ho hn) (Filter.sample_settled hs)]
  unfold State.withFilter
  refine modValve_congr ?_
  rfl

theorem sampleLimits_shutCounts (ho : (s.valve v).openLimit = { active := o, count := 0 }) (hs : sh ≠ (s.valve v).shutLimit.active)
    (hn : (s.valve v).shutLimit.count + 1 < n) : sampleLimits n v o sh s =
      s.withFilter (.shutLimit v) { active := (s.valve v).shutLimit.active, count := (s.valve v).shutLimit.count + 1 } := by
  rw [sampleLimits_quiet (Filter.sample_settled ho) (Filter.sample_counts hs hn)]
  unfold State.withFilter
  refine modValve_congr ?_
  rfl

end Limits

end Sys2Proof.Machine
end

section
/-! PROOFS. A sample of all inputs (R152 to R154), whatever order it names. -/

namespace Sys2Proof.Machine

/-! ## Every group, each once -/

theorem mem_firstOnly {g : SampleGroup} : ∀ {l : List SampleGroup}, g ∈ l → g ∈ firstOnly l
  | h :: rest, hg => by
    unfold firstOnly
    by_cases e : g = h
    · exact List.mem_cons.mpr (.inl e)
    · exact List.mem_cons.mpr (.inr (List.mem_filter.mpr ⟨mem_firstOnly ((List.mem_cons.mp hg).resolve_left e), by simp [e]⟩))

theorem nodup_firstOnly : ∀ l : List SampleGroup, (firstOnly l).Nodup
  | [] => List.nodup_nil
  | h :: rest => by
    unfold firstOnly
    refine List.nodup_cons.mpr ⟨fun hm => ?_, (nodup_firstOnly rest).filter _⟩
    have := (List.mem_filter.mp hm).2
    simp at this

theorem mem_allValves (v : ValveId) : v ∈ allValves := by
  cases v with
  | spot i n =>
    refine List.mem_append_left _ (List.mem_flatMap.mpr ⟨i, List.mem_finRange i, List.mem_map.mpr ⟨n, ?_, rfl⟩⟩)
    cases n <;> decide
  | direction c d =>
    refine List.mem_append_right _ (List.mem_flatMap.mpr ⟨c, List.mem_finRange c, List.mem_map.mpr ⟨d, ?_, rfl⟩⟩)
    cases d <;> decide

theorem mem_allGroups (g : SampleGroup) : g ∈ allGroups := by
  have spots (i : SpotNo) (h : g ∈ [.bond i, .hose i, .residual i, .connectedButton i, .stopButton i, .clearButton i]) : g ∈ allGroups :=
    List.mem_append_left _ (List.mem_append_left _ (List.mem_append_right _ (List.mem_flatMap.mpr ⟨i, List.mem_finRange i, h⟩)))
  have comps (c : CompNo) (h : g ∈ [.run c, .faultInput c]) : g ∈ allGroups :=
    List.mem_append_right _ (List.mem_flatMap.mpr ⟨c, List.mem_finRange c, h⟩)
  cases g with
  | limits v => exact List.mem_append_left _ (List.mem_append_left _ (List.mem_append_left _ (List.mem_map_of_mem (mem_allValves v))))
  | bond i | hose i | residual i | connectedButton i | stopButton i | clearButton i => exact spots i (by simp)
  | trip v => exact List.mem_append_left _ (List.mem_append_right _ (List.mem_map_of_mem (List.mem_finRange v)))
  | run c | faultInput c => exact comps c (by simp)

/-! ## Settled groups -/

/-- Every input of the group is settled. -/
def State.groupSettled (s : State) (active : List Input) (g : SampleGroup) : Prop := ∀ x, groupOf x = g → s.settledAt active x

theorem sampleGroup_settled {active : List Input} {g : SampleGroup} {s : State} (h : s.groupSettled active g) : sampleGroup active g s = s := by
  cases g with
  | limits v => exact sampleLimits_settled (h (.openLimit v) rfl) (h (.shutLimit v) rfl)
  | bond i => exact sampleInput_settled (h (.bond i) rfl)
  | hose i => exact sampleInput_settled (h (.hose i) rfl)
  | residual i => exact sampleInput_settled (h (.residual i) rfl)
  | connectedButton i => exact sampleInput_settled (h (.connectedButton i) rfl)
  | stopButton i => exact sampleInput_settled (h (.stopButton i) rfl)
  | clearButton i => exact sampleInput_settled (h (.clearButton i) rfl)
  | trip v => exact sampleInput_settled (h (.trip v) rfl)
  | run c => exact sampleInput_settled (h (.run c) rfl)
  | faultInput c => exact sampleInput_settled (h (.faultInput c) rfl)

/-- Settled groups taken one after another do nothing. -/
theorem sampleGroups_settled {active : List Input} {s : State} : ∀ l : List SampleGroup, (∀ g ∈ l, s.groupSettled active g) →
    l.foldl (fun s g => sampleGroup active g s) s = s
  | [], _ => rfl
  | g :: l, h => by
    rw [List.foldl_cons, sampleGroup_settled (h g List.mem_cons_self)]
    exact sampleGroups_settled l fun g' hg => h g' (List.mem_cons_of_mem g hg)

/-- Where the groups but one are settled, a sample is that group's. -/
theorem sampleAll_one {active : List Input} {order : List SampleGroup} {s : State} {g : SampleGroup}
    (h : ∀ g', g' ≠ g → s.groupSettled active g') : sampleAll active order s = sampleGroup active g s := by
  obtain ⟨l, r, e⟩ := List.append_of_mem (mem_firstOnly (l := order ++ allGroups) (List.mem_append_right _ (mem_allGroups g)))
  have hnd := nodup_firstOnly (order ++ allGroups)
  rw [e] at hnd
  have hl : g ∉ l := fun hm => List.nodup_append.mp hnd |>.2.2 g hm g List.mem_cons_self rfl
  have hr : g ∉ r := (List.nodup_cons.mp (List.nodup_append.mp hnd).2.1).1
  unfold sampleAll
  rw [e, List.foldl_append, sampleGroups_settled l fun g' hg => h g' fun e' => hl (e' ▸ hg), List.foldl_cons]
  refine sampleGroups_settled r fun g' hg x hx => ?_
  have hne : g' ≠ g := fun e' => hr (e' ▸ hg)
  have hsame : (sampleGroup active g s).filterOf x = s.filterOf x := filterOf_sampleGroup (by rw [hx]; exact hne)
  exact hsame.trans (h g' hne x hx)

theorem sampleAll_settled {active : List Input} {order : List SampleGroup} {s : State} (h : ∀ x, s.settledAt active x) :
    sampleAll active order s = s := sampleGroups_settled _ fun _ _ x _ => h x

/-! ## The sample of one input -/

section One

variable {active : List Input} {x : Input} {s : State}

/-- A changed input beside settled ones counts its samples. -/
theorem sampleGroup_counts (hs : ∀ y, y ≠ x → s.settledAt active y) (h : active.contains x ≠ (s.filterOf x).active)
    (hn : (s.filterOf x).count + 1 < s.filterN x) :
    sampleGroup active (groupOf x) s = s.withFilter x { active := (s.filterOf x).active, count := (s.filterOf x).count + 1 } := by
  by_cases hx : ∀ v, groupOf x ≠ .limits v
  · rw [sampleGroup_input hx]
    unfold sampleInput
    rw [Filter.sample_counts h hn]
    rfl
  · cases x with
    | openLimit v => exact sampleLimits_openCounts h hn (hs (.shutLimit v) nofun)
    | shutLimit v => exact sampleLimits_shutCounts (hs (.openLimit v) nofun) h hn
    | bond | hose | residual | connectedButton | stopButton | clearButton | trip | run | faultInput => exact absurd (fun _ => nofun) hx

/-- At the N of its class the input's change is delivered. -/
theorem sampleGroup_delivers (hs : ∀ y, y ≠ x → s.settledAt active y) (h : active.contains x ≠ (s.filterOf x).active)
    (hn : s.filterN x ≤ (s.filterOf x).count + 1) {c : Instr} (hc : deliveredAs active x = some c) :
    .next (sampleGroup active (groupOf x) s) = exec c s := by
  by_cases hx : ∀ v, groupOf x ≠ .limits v
  · rw [sampleGroup_input hx, inputChange_delivered hx hc]
    unfold sampleInput
    rw [Filter.sample_changes h hn]
    rfl
  · cases x with
    | openLimit v =>
      obtain rfl := Option.some.inj hc
      exact congrArg Host.Outcome.next (sampleLimits_delivers (.inr ⟨h, hn⟩) (.inl (hs (.shutLimit v) nofun))
        (.inl (congrArg Prod.snd (Filter.sample_changes h hn))))
    | shutLimit v =>
      obtain rfl := Option.some.inj hc
      exact congrArg Host.Outcome.next (sampleLimits_delivers (.inl (hs (.openLimit v) nofun)) (.inr ⟨h, hn⟩)
        (.inr (congrArg Prod.snd (Filter.sample_changes h hn))))
    | bond | hose | residual | connectedButton | stopButton | clearButton | trip | run | faultInput => exact absurd (fun _ => nofun) hx

/-- The release of a button moves its filter alone. -/
theorem sampleGroup_releases (h : active.contains x ≠ (s.filterOf x).active) (hn : s.filterN x ≤ (s.filterOf x).count + 1)
    (hc : deliveredAs active x = none) :
    sampleGroup active (groupOf x) s = s.withFilter x { active := active.contains x, count := 0 } := by
  have hx : ∀ v, groupOf x ≠ .limits v := fun v => by
    cases x with
    | openLimit | shutLimit => cases hc
    | bond | hose | residual | connectedButton | stopButton | clearButton | trip | run | faultInput => exact nofun
  rw [sampleGroup_input hx, ← inputChange_released hc]
  unfold sampleInput
  rw [Filter.sample_changes h hn]
  rfl

end One

/-- Settles O47: settled groups do nothing, so a sample is the sample of the one group that is not settled, and the work of that group
leaves the others settled. -/
theorem samplesCountAndDeliver : Obligations.SamplesCountAndDeliver := by
  unfold Obligations.SamplesCountAndDeliver
  intro s active order
  refine ⟨fun h => congrArg Host.Outcome.next (sampleAll_settled h), fun x hs h => ?_, fun v hs h => ?_⟩
  · have hone : sampleAll active order s = sampleGroup active (groupOf x) s := sampleAll_one fun g hg y hy => hs y fun e => hg (by rw [← hy, e])
    have hexec : exec (.inputSample active order) s = .next (sampleGroup active (groupOf x) s) := congrArg Host.Outcome.next hone
    rw [hexec]
    exact ⟨fun hn => congrArg Host.Outcome.next (sampleGroup_counts hs h hn),
      fun hn => ⟨fun c hc => sampleGroup_delivers hs h hn hc, fun hc => congrArg Host.Outcome.next (sampleGroup_releases h hn hc)⟩⟩
  · have hone : sampleAll active order s = sampleGroup active (.limits v) s := sampleAll_one fun g hg y hy =>
      hs y (fun e => hg (by rw [← hy, e]; rfl)) fun e => hg (by rw [← hy, e]; rfl)
    obtain ⟨ho, hno⟩ := h _ (.inl rfl)
    obtain ⟨hsh, hnsh⟩ := h _ (.inr rfl)
    refine congrArg Host.Outcome.next (hone.trans ?_)
    exact sampleLimits_delivers (.inr ⟨ho, hno⟩) (.inr ⟨hsh, hnsh⟩) (.inl (congrArg Prod.snd (Filter.sample_changes ho hno)))

end Sys2Proof.Machine
end

section
/-! PROOFS. What the rest of an event's work leaves of a spot at rest or under test and of a compressor, and folds that take each
spot and each compressor once (R49, R135, R179). -/

namespace Sys2Proof.Machine

/-! ## A fold that takes each point once -/

/-- A fold whose steps elsewhere keep what one step needs and what it brings. -/
theorem foldl_reaches_once {α σ : Type} {f : σ → α → σ} {p q : σ → Prop} {a : α} (hp : ∀ s b, b ≠ a → p s → p (f s b))
    (hq : ∀ s, p s → q (f s a)) (hk : ∀ s b, b ≠ a → q s → q (f s b)) :
    ∀ (l : List α) (s : σ), l.Nodup → a ∈ l → p s → q (l.foldl f s)
  | b :: l, s, hn, hl, hs => by
    obtain ⟨hb, hn⟩ := List.nodup_cons.mp hn
    rw [List.foldl_cons]
    by_cases e : b = a
    · subst e
      exact List.foldlRecOn l f (hq s hs) fun u hu d hd => hk u d (fun e => hb (e ▸ hd)) hu
    · exact foldl_reaches_once hp hq hk l _ hn ((List.mem_cons.mp hl).resolve_left (Ne.symm e)) (hp s b e hs)

/-! ## What the rest of the work leaves -/

/-- Work that leaves spot `i` as it stands, its seat apart, and its pending test. -/
structure SpotRests (i : SpotNo) (s t : State) : Prop where
  kept : Kept s t
  spot : ∃ x, t.spot i = { s.spot i with seat := x }
  test : i ∈ s.tests.spots → i ∈ t.tests.spots

theorem SpotRests.refl (i : SpotNo) (s : State) : SpotRests i s s := ⟨.refl s, ⟨_, rfl⟩, id⟩

theorem SpotRests.trans {i : SpotNo} {s t u : State} (h : SpotRests i s t) (k : SpotRests i t u) : SpotRests i s u := by
  obtain ⟨x, hx⟩ := h.spot
  obtain ⟨y, hy⟩ := k.spot
  exact ⟨h.kept.trans k.kept, ⟨y, by rw [hy, hx]⟩, fun hi => k.test (h.test hi)⟩

theorem SpotWork.spotRests {i j : SpotNo} {s t : State} (h : SpotWork j s t) (hi : i ≠ j) : SpotRests i s t :=
  ⟨h.kept, ⟨(s.spot i).seat, h.others i hi⟩, h.spotTests i hi⟩

theorem CompWork.spotRests {c : CompNo} {s t : State} (h : CompWork c s t) (i : SpotNo) : SpotRests i s t :=
  ⟨h.kept, ⟨(s.spot i).seat, spot_of_spots h.spots i⟩, fun hi => by rw [h.spotTests]; exact hi⟩

/-- Work that leaves compressor `c` as it stands, its TURNING mark apart, and its pending test. -/
structure CompRests (c : CompNo) (s t : State) : Prop where
  kept : Kept s t
  comp : ∃ x, t.comp c = { s.comp c with turning := x }
  test : c ∈ s.tests.comps → c ∈ t.tests.comps

theorem CompRests.refl (c : CompNo) (s : State) : CompRests c s s := ⟨.refl s, ⟨_, rfl⟩, id⟩

theorem CompRests.trans {c : CompNo} {s t u : State} (h : CompRests c s t) (k : CompRests c t u) : CompRests c s u := by
  obtain ⟨x, hx⟩ := h.comp
  obtain ⟨y, hy⟩ := k.comp
  exact ⟨h.kept.trans k.kept, ⟨y, by rw [hy, hx]⟩, fun hc => k.test (h.test hc)⟩

theorem CompWork.compRests {c d : CompNo} {s t : State} (h : CompWork d s t) (hc : c ≠ d) : CompRests c s t :=
  ⟨h.kept, ⟨(s.comp c).turning, h.others c hc⟩, h.compTests c hc⟩

theorem SpotWork.compRests {i : SpotNo} {c : CompNo} {s t : State} (h : SpotWork i s t) (hc : (s.spot i).seat ≠ some c) : CompRests c s t :=
  ⟨h.kept, h.marks c hc, h.compTests c hc⟩

theorem Kept.testGone {s t : State} (h : Kept s t) : (∀ i, i ∉ s.tests.spots → i ∉ t.tests.spots) ∧ ∀ c, c ∉ s.tests.comps → c ∉ t.tests.comps := by
  obtain ⟨h1, h2⟩ := h.tests
  exact ⟨fun i hi hm => hi (h1 i hm), fun c hc hm => hc (h2 c hm)⟩

/-! ## A spot at rest or at the start of its test -/

/-- A spot at rest, or under test with its vent valve opening. -/
def Spot.AtTest (sp : Spot) : Prop :=
  sp.Idle ∨ (sp.state = .stroking ∧ sp.orders = [] ∧ sp.step = some (.stroking .vent false) ∧ sp.vent.state = some .movingOpen)

section AtTest

variable {i : SpotNo} {s : State}

theorem SpotRests.atTest {t : State} (r : SpotRests i s t) (h : (s.spot i).AtTest) : (t.spot i).AtTest := by
  obtain ⟨x, hx⟩ := r.spot
  rw [hx]
  exact h

theorem Spot.AtTest.unstaged {sp : Spot} (h : sp.AtTest) : ¬ sp.waits := by
  rcases h with h | ⟨h, -⟩
  · exact Spot.not_waits (h.ne (by decide))
  · exact Spot.not_waits (by rw [h]; exact nofun)

variable (h : (s.spot i).AtTest)

include h

theorem advanceSpot_atTest : advanceSpot i s = s := by
  rcases h with h | ⟨hst, ho, hp, hv⟩
  · exact advanceSpot_idle h
  · have hopen : onStrokeOpen i s = s := by
      rw [onStrokeOpen_at hst hp, if_neg]
      simp [Spot.valve, Valve.isOpen, hv]
    have hturn : onStrokeTurn i s = s := by
      unfold onStrokeTurn
      simp only [hst, hp]
      rw [if_neg]
      simp [Spot.valve, Valve.isShut, hv]
    rw [advanceSpot_stroking hst ho, hopen, onStrokeShut_opening hst hp, hturn]

theorem addHold_atTest (r : HoldReason) : addHold i r s = s := by
  unfold addHold
  dsimp only
  split
  · rfl
  · rcases h with ⟨h | h | h, -⟩ | ⟨h, -⟩ <;> rw [h]

theorem holdSpot_atTest (r : HoldReason) : holdSpot i r s = s := by
  unfold holdSpot
  rw [addHold_atTest h, advanceSpot_atTest h]

end AtTest

/-! ## A compressor's fault, seen from elsewhere -/

theorem spotWork_unseatHeld (s : State) (j : SpotNo) : SpotWork j s (unseatHeld s j) :=
  ((SpotWork.touchSpot j j s).trans (.modSpot (by intro; rfl) (fun _ => .inr rfl) _)).trans (spotWork_holdSpot j _ .compressor)

theorem unseatHeld_spotRests {i : SpotNo} {s : State} (h : (s.spot i).AtTest) (j : SpotNo) : SpotRests i s (unseatHeld s j) := by
  by_cases e : i = j
  · subst e
    have hi : (((s.touchSpot i).modSpot i fun sp => { sp with seat := none }).spot i) = { s.spot i with seat := none } :=
      modSpot_spot_same _ _ _
    unfold unseatHeld
    rw [holdSpot_atTest (by rw [hi]; exact h)]
    exact ⟨(Kept.touchSpot i s).trans (.modSpot i _ _), ⟨none, hi⟩, id⟩
  · exact (spotWork_unseatHeld s j).spotRests e

theorem unseatHeld_compRests (c : CompNo) (s : State) (j : SpotNo) : CompRests c s (unseatHeld s j) := by
  have hseat : CompRests c s ((s.touchSpot j).modSpot j fun sp => { sp with seat := none }) :=
    ⟨(Kept.touchSpot j s).trans (.modSpot j _ _), ⟨_, rfl⟩, id⟩
  exact hseat.trans ((spotWork_holdSpot j _ .compressor).compRests (by rw [modSpot_spot_same]; exact nofun))

theorem seated_spotRests {i : SpotNo} {s : State} (l : List SpotNo) (h : (s.spot i).AtTest) : SpotRests i s (l.foldl unseatHeld s) :=
  List.foldlRecOn (motive := SpotRests i s) l unseatHeld (.refl i s) fun _ r j _ => r.trans (unseatHeld_spotRests (r.atTest h) j)

theorem seated_compRests (c : CompNo) (s : State) (l : List SpotNo) : CompRests c s (l.foldl unseatHeld s) :=
  List.foldlRecOn (motive := CompRests c s) l unseatHeld (.refl c s) fun u r j _ => r.trans (unseatHeld_compRests c u j)

section Faults

variable (f : CompFault) (d : CompNo) (s : State)

/-- The compressor of a fault before its seated spots are held. -/
def faultedComp : State := (s.touchComp d).modComp d (Comp.faults s.strokeOfDirection s.fe f)

theorem kept_faultedComp : Kept s (faultedComp f d s) := (Kept.touchComp d s).trans (.modComp d _ _)

theorem faultComp_cases : faultComp f d s = s ∧ (s.comp d).state = .faulted ∨
    (s.comp d).state ≠ .faulted ∧ (faultComp f d s = endCompTest d ((s.comp d).seated.foldl unseatHeld (faultedComp f d s)) ∨
      (s.comp d).state ≠ .proof ∧ faultComp f d s = (s.comp d).seated.foldl unseatHeld (faultedComp f d s)) := by
  by_cases e : (s.comp d).state = .faulted
  · exact .inl ⟨if_pos e, e⟩
  · refine .inr ⟨e, ?_⟩
    rw [faultComp_eq e]
    split
    · exact .inl rfl
    next hp => exact .inr ⟨hp, rfl⟩

theorem faultComp_spotRests {i : SpotNo} (h : (s.spot i).AtTest) : SpotRests i s (faultComp f d s) := by
  have hfold : SpotRests i s ((s.comp d).seated.foldl unseatHeld (faultedComp f d s)) := by
    have hbase : SpotRests i s (faultedComp f d s) := ⟨kept_faultedComp f d s, ⟨_, rfl⟩, id⟩
    exact hbase.trans (seated_spotRests _ (hbase.atTest h))
  rcases faultComp_cases f d s with ⟨e, -⟩ | ⟨-, e | ⟨-, e⟩⟩ <;> rw [e]
  · exact .refl i s
  · exact hfold.trans ((compWork_endCompTest d _).spotRests i)
  · exact hfold

theorem faultComp_compRests {c : CompNo} (h : c ≠ d) : CompRests c s (faultComp f d s) := by
  have hfold : CompRests c s ((s.comp d).seated.foldl unseatHeld (faultedComp f d s)) := by
    have hbase : CompRests c s (faultedComp f d s) :=
      ⟨kept_faultedComp f d s, ⟨_, modComp_comp_other (s.touchComp d) d c _ h⟩, id⟩
    exact hbase.trans (seated_compRests c _ _)
  rcases faultComp_cases f d s with ⟨e, -⟩ | ⟨-, e | ⟨-, e⟩⟩ <;> rw [e]
  · exact .refl c s
  · exact hfold.trans ((compWork_endCompTest d _).compRests h)
  · exact hfold

theorem kept_faultComp : Kept s (faultComp f d s) := by
  have hfold := (kept_faultedComp f d s).trans (seated_compRests d (faultedComp f d s) (s.comp d).seated).kept
  rcases faultComp_cases f d s with ⟨e, -⟩ | ⟨-, e | ⟨-, e⟩⟩ <;> rw [e]
  · exact .refl s
  · exact hfold.trans (compWork_endCompTest d _).kept
  · exact hfold

theorem faultComp_faulted : ((faultComp f d s).comp d).state = .faulted := by
  have hfold : (((s.comp d).seated.foldl unseatHeld (faultedComp f d s)).comp d).state = .faulted := by
    obtain ⟨x, hx⟩ := (seated_compRests d (faultedComp f d s) (s.comp d).seated).comp
    rw [hx]
    show ((faultedComp f d s).comp d).state = .faulted
    unfold faultedComp
    rw [modComp_comp_same]
    exact congrArg Comp.state (Comp.faults_bare _ _ _ _)
  rcases faultComp_cases f d s with ⟨e, h⟩ | ⟨-, e | ⟨-, e⟩⟩ <;> rw [e]
  · exact h
  · rw [endCompTest_comp]
    exact hfold
  · exact hfold

theorem endCompTest_ended (u : State) : d ∉ (endCompTest d u).tests.comps := by
  have h : (endCompTest d u).tests.comps = u.tests.comps.filter (· ≠ d) :=
    congrArg (fun x : Frame => x.tests.comps) (endCompTest_frame d u)
  rw [h]
  simp

theorem faultComp_ends (h : (s.comp d).state = .proof) : d ∉ (faultComp f d s).tests.comps := by
  rcases faultComp_cases f d s with ⟨-, e⟩ | ⟨-, e | ⟨hp, -⟩⟩
  · rw [h] at e
    cases e
  · rw [e]
    exact endCompTest_ended d _
  · exact absurd h hp

end Faults

end Sys2Proof.Machine
end

section
/-! PROOFS. COMMISSION at the spots: each fitted spot's test begins, and the tests of the spots leave the compressors alone (R49,
R150, R179). -/

namespace Sys2Proof.Machine

/-! ## What a spot's test leaves -/

/-- Work of a spot's test, which leaves the compressors, their pending tests and every spot's orders. -/
structure SpotTesting (s t : State) : Prop where
  comps : t.comps = s.comps
  tests : t.tests.comps = s.tests.comps
  orders : ∀ j, (t.spot j).orders = (s.spot j).orders

theorem SpotTesting.refl (s : State) : SpotTesting s s := ⟨rfl, rfl, fun _ => rfl⟩

theorem SpotTesting.trans {s t u : State} (h : SpotTesting s t) (k : SpotTesting t u) : SpotTesting s u :=
  ⟨k.comps.trans h.comps, k.tests.trans h.tests, fun j => (k.orders j).trans (h.orders j)⟩

section Testing

variable (i : SpotNo) (s : State)

theorem SpotTesting.modSpot {f : Spot → Spot} (h : ∀ sp : Spot, (f sp).orders = sp.orders) : SpotTesting s (s.modSpot i f) := by
  refine ⟨rfl, rfl, fun j => ?_⟩
  by_cases e : j = i
  · rw [e, modSpot_spot_same, h]
  · rw [modSpot_spot_other s i j f e]

theorem SpotTesting.touch {f : Spot → Spot} (h : ∀ sp : Spot, (f sp).orders = sp.orders) :
    SpotTesting s ((s.touchSpot i).modSpot i f) :=
  (⟨rfl, rfl, fun _ => rfl⟩ : SpotTesting s (s.touchSpot i)).trans (.modSpot i _ h)

theorem SpotTesting.endSpotTest : SpotTesting s (endSpotTest i s) := by
  obtain ⟨x, e⟩ := settleTests_rest { s with tests := { s.tests with spots := s.tests.spots.filter (· ≠ i) } }
  unfold Sys2Proof.Machine.endSpotTest
  rw [e]
  exact ⟨rfl, rfl, fun _ => rfl⟩

theorem SpotTesting.commandSpot (n : ValveName) (c : Command) : SpotTesting s (commandSpot i n c s) := by
  rw [commandSpot_eq]
  exact .modSpot i s fun sp => sp.setValve_orders n _

theorem SpotTesting.shutAll : SpotTesting s (shutAll i s) := by
  unfold Sys2Proof.Machine.shutAll shutLines
  exact (((SpotTesting.commandSpot i s _ _).trans (.commandSpot i _ _ _)).trans (.commandSpot i _ _ _)).trans (.commandSpot i _ _ _)

theorem SpotTesting.failStroke (f : SpotFault) : SpotTesting s (failStroke false f i s) := by
  rw [failStroke_eq]
  refine .trans (SpotTesting.touch i s ?_) (.endSpotTest i _)
  exact fun _ => rfl

theorem SpotTesting.advance (ho : (s.spot i).orders = []) (hst : (s.spot i).state = .stroking ∨ (s.spot i).state = .faulted) :
    SpotTesting s (advanceSpot i s) := by
  have hopen : SpotTesting s (onStrokeOpen i s) := by
    unfold onStrokeOpen
    dsimp only
    repeat' split
    · refine .trans (SpotTesting.modSpot i s ?_) (.commandSpot i _ _ _)
      exact fun _ => rfl
    all_goals exact .refl s
  have hshut (u : State) : SpotTesting u (onStrokeShut i u) := by
    unfold onStrokeShut
    dsimp only
    repeat' split
    · refine .modSpot i u ?_
      exact fun _ => rfl
    · refine .trans (SpotTesting.touch i u ?_) (.endSpotTest i _)
      exact fun _ => rfl
    all_goals exact .refl u
  have hturn (u : State) : SpotTesting u (onStrokeTurn i u) := by
    unfold onStrokeTurn
    dsimp only
    repeat' split
    · exact .commandSpot i u _ _
    all_goals exact .refl u
  rcases hst with h | h
  · rw [advanceSpot_stroking h ho]
    exact (hopen.trans (hshut _)).trans (hturn _)
  · rw [advanceSpot_faulted h ho]
    exact .refl s

theorem SpotTesting.beginSpotTest (ho : (s.spot i).orders = []) : SpotTesting s (beginSpotTest i s) := by
  have htaken : SpotTesting s ((s.touchSpot i).modSpot i (Spot.testTakenUp s.strokeOf s.fe)) := by
    refine .touch i s fun sp => ?_
    have e := congrArg Spot.orders (Spot.testTakenUp_bare s.strokeOf s.fe sp)
    exact e
  have henter : SpotTesting s (enterStroking i s) ∧
      (((enterStroking i s).spot i).state = .stroking ∨ ((enterStroking i s).spot i).state = .faulted) := by
    rw [enterStroking_eq]
    split
    next n _ =>
      refine ⟨htaken.trans (.failStroke i _ _), .inr ?_⟩
      rw [failStroke_spot]
      rfl
    next =>
      refine ⟨htaken, .inl ?_⟩
      rw [modSpot_spot_same]
      have e := congrArg Spot.state (Spot.testTakenUp_bare s.strokeOf s.fe (s.spot i))
      exact e
  unfold Sys2Proof.Machine.beginSpotTest
  dsimp only
  split
  · refine .trans ?_ (.endSpotTest i _)
    refine .trans (SpotTesting.modSpot i s ?_) (.shutAll i _)
    exact fun _ => rfl
  · split
    · exact .endSpotTest i s
    · obtain ⟨w, hst⟩ := henter
      refine w.trans (.advance i _ ?_ hst)
      rw [w.orders]
      exact ho

theorem spotWork_beginSpotTest : SpotWork i s (beginSpotTest i s) := by
  unfold beginSpotTest
  dsimp only
  refine .ite (fun _ => ?_) fun _ => .ite (fun _ => spotWork_endSpotTest i s) fun _ =>
    (spotWork_enterStroking i s).trans (spotWork_advanceSpot i _)
  exact ((SpotWork.mod (by intro; rfl) (by intro; rfl) s).trans (spotWork_shutAll i _)).trans (spotWork_endSpotTest i _)

end Testing

/-! ## One spot's test begun -/

section Begins

variable {i : SpotNo} {s : State}

theorem endSpotTest_ended (i : SpotNo) (s : State) : i ∉ (endSpotTest i s).tests.spots := by
  have hs : (endSpotTest i s).tests.spots = s.tests.spots.filter (· ≠ i) := congrArg (fun x : Frame => x.tests.spots) (endSpotTest_frame i s)
  rw [hs]
  simp

/-- Hose pressure fails the test at its start. -/
theorem beginSpotTest_pressure (h : (s.spot i).hose.active = true) : ((beginSpotTest i s).spot i).state = .faulted ∧
    ((beginSpotTest i s).spot i).fault = some .pressure ∧ ((beginSpotTest i s).spot i).orders = (s.spot i).orders ∧
    i ∉ (beginSpotTest i s).tests.spots := by
  obtain ⟨u, hu⟩ : ∃ u, u = shutAll i (s.modSpot i fun sp => { sp with state := .faulted, step := none, fault := some .pressure }) := ⟨_, rfl⟩
  have hb : beginSpotTest i s = endSpotTest i u := by
    rw [hu]
    exact if_pos h
  rw [hb, endSpotTest_spot, hu, shutAll_eq, modSpot_modSpot, modSpot_spot_same]
  exact ⟨rfl, rfl, rfl, endSpotTest_ended i _⟩

/-- A bound spot whose shutoff valve stands in FAULT is not stroked. -/
theorem beginSpotTest_occupied (h : (s.spot i).hose.active = false) (hc : (s.spot i).car ≠ none) (hf : (s.spot i).shutoff.isFault = true) :
    (beginSpotTest i s).spot i = s.spot i ∧ i ∉ (beginSpotTest i s).tests.spots := by
  have hsome : (s.spot i).car.isSome = true := Option.isSome_iff_ne_none.mpr hc
  have hb : beginSpotTest i s = endSpotTest i s := by
    unfold beginSpotTest
    dsimp only
    rw [if_neg (by simp [h]), if_pos (by simp [hsome, hf])]
  rw [hb, endSpotTest_spot]
  exact ⟨rfl, endSpotTest_ended i s⟩

/-- With its vent valve SHUT and no valve in FAULT, the test begins at the vent valve. -/
theorem beginSpotTest_begins (ho : (s.spot i).orders = []) (hfe : s.fe = true) (h : (s.spot i).hose.active = false)
    (hsup : (s.spot i).vent.supervised = true) (hvent : (s.spot i).vent.isShut = true)
    (hrest : ∀ n, n ≠ .vent → ((s.spot i).valve n).isFault = false) :
    beginSpotTest i s = (s.touchSpot i).modSpot i (Spot.testBegun s.strokeOf s.fe) := by
  have hshut : (s.spot i).shutoff.isFault = false := hrest .shutoff nofun
  unfold beginSpotTest
  dsimp only
  rw [if_neg (by simp [h]), if_neg (by simp [hshut])]
  exact stroke_begins ho hfe hsup (.inl hvent) hrest

end Begins

/-! ## The turn of each spot -/

section Turns

variable {s : State}

theorem allSpots_nodup : allSpots.Nodup := by decide

/-- A fitted spot has its turn once, and is left alone before and after. -/
theorem beginSpotTests_turn {i : SpotNo} (hi : s.fittedSpot i = true) :
    ∃ u, SpotRests i s u ∧ u.spot i = s.spot i ∧ SpotRests i (beginSpotTest i u) (eachFittedSpot beginSpotTest s) := by
  have hstep (u : State) (j : SpotNo) (hj : j ≠ i) : SpotRests i u (if u.fittedSpot j then beginSpotTest j u else u) ∧
      (if u.fittedSpot j then beginSpotTest j u else u).spot i = u.spot i := by
    split
    · exact ⟨(spotWork_beginSpotTest j u).spotRests (Ne.symm hj), (spotWork_beginSpotTest j u).others i (Ne.symm hj)⟩
    · exact ⟨.refl i u, rfl⟩
  unfold eachFittedSpot eachSpot
  refine foldl_reaches_once (a := i) (p := fun u => SpotRests i s u ∧ u.spot i = s.spot i)
    (q := fun t => ∃ u, SpotRests i s u ∧ u.spot i = s.spot i ∧ SpotRests i (beginSpotTest i u) t)
    (fun u j hj hu => ?_) (fun u hu => ?_) (fun u j hj hu => ?_) allSpots s allSpots_nodup (mem_allSpots i) ⟨.refl i s, rfl⟩
  · exact ⟨hu.1.trans (hstep u j hj).1, (hstep u j hj).2.trans hu.2⟩
  · dsimp only
    rw [if_pos ((fittedSpot_of_profile hu.1.kept.profile_eq i).trans hi)]
    exact ⟨u, hu.1, hu.2, .refl i _⟩
  · obtain ⟨w, h1, h2, h3⟩ := hu
    exact ⟨w, h1, h2, h3.trans (hstep u j hj).1⟩

/-- The tests of the spots leave every compressor, where no fitted spot has orders. -/
theorem beginSpotTests_comps (ho : ∀ i, s.fittedSpot i = true → (s.spot i).orders = []) (c : CompNo) :
    CompRests c s (eachFittedSpot beginSpotTest s) := by
  suffices h : CompRests c s (eachFittedSpot beginSpotTest s) ∧ SpotTesting s (eachFittedSpot beginSpotTest s) from h.1
  unfold eachFittedSpot eachSpot
  refine List.foldlRecOn (motive := fun u => CompRests c s u ∧ SpotTesting s u) allSpots _ ⟨.refl c s, .refl s⟩ fun u hu j _ => ?_
  obtain ⟨h1, h2⟩ := hu
  dsimp only
  split
  next hj =>
    have hw := SpotTesting.beginSpotTest j u (by rw [h2.orders]; exact ho j ((fittedSpot_of_profile h1.kept.profile_eq j).symm.trans hj))
    have hcomp : (beginSpotTest j u).comp c = u.comp c := congrArg (·[c]) hw.comps
    exact ⟨h1.trans ⟨(spotWork_beginSpotTest j u).kept, ⟨_, hcomp⟩, fun hc => by rw [hw.tests]; exact hc⟩, h2.trans hw⟩
  next => exact ⟨h1, h2⟩

end Turns

end Sys2Proof.Machine
end

section
/-! PROOFS. COMMISSION at the compressors: each fitted compressor's proof begins (R135, R150, R179). -/

namespace Sys2Proof.Machine

/-! ## A compressor taken up for its proof -/

theorem Comp.pursueAll_valve (stroke : Timer) (fe : Bool) (k : Comp) (d : Direction) :
    (k.pursueAll stroke fe).valve d = (k.valve d).pursue stroke (k.effective fe d) := by
  have hdraw (v : Valve) : (k.putValve .push v).valve .draw = k.valve .draw := by rw [putValve_valve, if_neg nofun]
  have hstate (v : Valve) : (k.putValve .push v).state = k.state := state_of_bare (putValve_bare _ _ _)
  unfold Comp.pursueAll Comp.effective
  dsimp only
  rw [putValve_valve, hdraw, hstate]
  cases d
  · rw [if_neg nofun, putValve_same]
  · rw [if_pos rfl]

/-- A compressor as a proof takes it up (R150). -/
def Comp.takenUp (stroke : Timer) (fe : Bool) (k : Comp) : Comp :=
  ({ k.mapValves (Valve.beginTest stroke) with
      state := .proof, step := some .settling, dir := some .push, seated := [], startOn := false,
      startTimer := .stopped, runTimer := .stopped, stroked := false } : Comp).pursueAll stroke fe

theorem enterProof_eq (c : CompNo) (s : State) : enterProof c s = (s.touchComp c).modComp c (Comp.takenUp s.strokeOfDirection s.fe) := by
  unfold enterProof
  dsimp only
  rw [pursueDirAll_eq, modComp_modComp]
  rfl

/-- What a compressor under proof shows beside its valves, at one step of the proof. -/
def Comp.proves (k : Comp) (step : CompStep) : Comp :=
  { k.bare with
    state := .proof, step := some step, dir := some .push, seated := [], startOn := false, startTimer := .stopped, runTimer := .stopped
    stroked := false }

theorem Comp.takenUp_bare (stroke : Timer) (fe : Bool) (k : Comp) : (k.takenUp stroke fe).bare = k.proves .settling := by
  have hmap := mapValves_bare (Valve.beginTest stroke) k
  unfold Comp.takenUp
  rw [pursueAll_bare]
  exact congrArg (fun b : Comp => ({ b with
      state := .proof, step := some .settling, dir := some .push, seated := [], startOn := false,
      startTimer := .stopped, runTimer := .stopped, stroked := false } : Comp)) hmap

theorem Comp.takenUp_valve (stroke : Timer) (fe : Bool) (k : Comp) (d : Direction) :
    (k.takenUp stroke fe).valve d = ((k.valve d).beginTest stroke).pursue stroke false := by
  have hv : ({ k.mapValves (Valve.beginTest stroke) with
      state := .proof, step := some .settling, dir := some .push, seated := [], startOn := false,
      startTimer := .stopped, runTimer := .stopped, stroked := false } : Comp).valve d = (k.valve d).beginTest stroke := by
    rw [← mapValves_valve (Valve.beginTest stroke)]
    cases d <;> rfl
  unfold Comp.takenUp
  rw [pursueAll_valve, hv]
  unfold Comp.effective
  rw [hv, Valve.beginTest_command]
  rfl

/-- A valve found SHUT, OPEN or MOVING_SHUT is told SHUT, and stands SHUT where it did. -/
theorem Valve.provenTaken {stroke : Timer} {v : Valve} (hs : v.supervised = true)
    (h : v.isShut = true ∨ v.isOpen = true ∨ v.state = some .movingShut) :
    ((v.beginTest stroke).pursue stroke false).isFault = false ∧ ((v.beginTest stroke).pursue stroke false).isShut = v.isShut ∧
      ((v.beginTest stroke).pursue stroke false).command = .toShut := by
  have hst : v.state = some .shut ∨ v.state = some .opened ∨ v.state = some .movingShut :=
    h.imp (by simp [Valve.isShut]) (Or.imp (by simp [Valve.isOpen]) id)
  have hf : v.isFault = false := by rcases hst with e | e | e <;> simp [Valve.isFault, e]
  rw [beginTest_sound hf]
  refine ⟨(pursue_isFault _ _ _).trans hf, ?_, pursue_command _ _ _⟩
  rcases hst with e | e | e <;> simp [Valve.pursue, Valve.isShut, hs, e]

/-- A valve in FAULT with both its limits active keeps the FAULT (R150). -/
theorem Valve.takenFaulted {stroke : Timer} {v : Valve} (h : v.isFault = true) (hs : v.shutLimit.active = true)
    (ho : v.openLimit.active = true) : ((v.beginTest stroke).pursue stroke false).isFault = true := by
  rw [pursue_isFault]
  unfold Valve.beginTest
  rw [if_pos h]
  unfold Valve.byLimits
  simp only [hs, ho]
  rfl

theorem compWork_enterProof (c : CompNo) (s : State) : CompWork c s (enterProof c s) := by
  rw [enterProof_eq]
  refine (CompWork.touchComp c s).trans (.mod ?_ _)
  intro k
  have e := congrArg Comp.turning (k.takenUp_bare s.strokeOfDirection s.fe)
  exact e

theorem enterProof_comp (c : CompNo) (s : State) : (enterProof c s).comp c = (s.comp c).takenUp s.strokeOfDirection s.fe := by
  rw [enterProof_eq, modComp_comp_same]
  rfl

/-! ## A proof at its first steps -/

/-- Under proof, with its valves settling or at the push valve's turn. -/
def Comp.Settles (k : Comp) : Prop := k.state = .proof ∧ (k.step = some .settling ∨ k.step = some .pushStroke)

theorem Comp.Settles.of_bare {a b : Comp} (h : a.Settles) (e : b.bare = a.bare) : b.Settles := by
  have e1 := congrArg Comp.state e
  have e2 := congrArg Comp.step e
  exact ⟨e1.trans h.1, h.2.imp e2.trans e2.trans⟩

/-- Both direction valves SHUT: the push valve's turn (R135). -/
def Comp.pushTurn (k : Comp) : Comp := if k.push.isShut && k.draw.isShut then { k with step := some .pushStroke, stroked := false } else k

section Settling

variable {c : CompNo} {s : State}

theorem compAdvance_settling (h1 : (s.comp c).state = .proof) (h2 : (s.comp c).step = some .settling) :
    compAdvance c s = compPassGuard c (s.modComp c Comp.pushTurn) := by
  have hopen : ¬ (s.comp c).opened := by
    unfold Comp.opened
    simp [h1, h2]
  refine compAdvance_stages (compOnOpen_off hopen) (compOnRun_rests (.inr (.inl (by rw [h2]; exact nofun)))) ?_ rfl
  unfold compOnShut
  simp only [h1, h2]
  split
  next e => exact modComp_congr (if_pos e).symm
  next e => exact (modComp_self (if_neg e)).symm

theorem compOnRun_settles (h : (s.comp c).Settles) : compOnRun c s = s := by
  refine compOnRun_rests (.inr (.inl ?_))
  rcases h.2 with e | e <;> rw [e] <;> exact nofun

theorem compOnOpen_settles (h : (s.comp c).Settles) : ((compOnOpen c s).comp c).Settles := by
  obtain ⟨h1, h2 | h2⟩ := h
  · unfold compOnOpen
    simp only [h1, h2]
    exact ⟨h1, .inl h2⟩
  · unfold compOnOpen
    simp only [h1, h2]
    split
    · rw [commandDir_eq, modComp_modComp, modComp_comp_same]
      exact .of_bare (a := { s.comp c with stroked := true }) ⟨h1, .inr h2⟩ (Comp.commanded_bare _ _ _ _ _)
    · exact ⟨h1, .inr h2⟩

theorem compOnGuard_cases (h : (s.comp c).Settles) :
    compOnGuard c s = s ∨ (s.comp c).awaits = some .push ∧
      compOnGuard c s = s.modComp c (Comp.commanded s.strokeOfDirection s.fe .push .toOpen) := by
  obtain ⟨h1, h2⟩ := h
  have hstep : ¬ (s.comp c).step = some .deadTime := by rcases h2 with e | e <;> rw [e] <;> exact nofun
  have hawait : (s.comp c).awaits = none ∨ (s.comp c).awaits = some .push := by
    unfold Comp.awaits
    rcases h2 with e | e <;> simp only [h1, e]
    · exact .inl trivial
    · split <;> [exact .inr rfl; exact .inl rfl]
  unfold compOnGuard
  dsimp only
  rcases hawait with e | e <;> rw [e]
  · exact .inl rfl
  · dsimp only
    split
    · refine .inr ⟨rfl, ?_⟩
      rw [commandDir_eq, modComp_modComp]
      refine modComp_congr ?_
      exact congrArg (Comp.commanded s.strokeOfDirection s.fe .push .toOpen) (if_neg hstep)
    · exact .inl rfl

theorem compPassGuard_settles (h : (s.comp c).Settles) : ((compPassGuard c s).comp c).Settles := by
  have hguard : ((compOnGuard c s).comp c).Settles := by
    rcases compOnGuard_cases h with e | ⟨-, e⟩ <;> rw [e]
    · exact h
    · rw [modComp_comp_same]
      exact h.of_bare (Comp.commanded_bare _ _ _ _ _)
  unfold compPassGuard
  rw [compOnRun_settles (compOnOpen_settles hguard)]
  exact compOnOpen_settles hguard

/-- From the push valve's turn, with the valve not OPEN, the guard alone may act. -/
theorem compPassGuard_pushTurn (h : (s.comp c).Settles) (ho : (s.comp c).push.isOpen = false) :
    compPassGuard c s = s ∨ (s.comp c).awaits = some .push ∧
      compPassGuard c s = s.modComp c (Comp.commanded s.strokeOfDirection s.fe .push .toOpen) := by
  have hoff (u : State) (hu : (u.comp c).Settles) (hp : (u.comp c).push.isOpen = false) : compOnRun c (compOnOpen c u) = u := by
    have : ¬ (u.comp c).opened := by
      obtain ⟨h1, h2⟩ := hu
      unfold Comp.opened
      rcases h2 with e | e <;> simp [h1, e, hp]
    rw [compOnOpen_off this, compOnRun_settles hu]
  unfold compPassGuard
  rcases compOnGuard_cases h with e | ⟨hw, e⟩ <;> rw [e]
  · exact .inl (hoff s h ho)
  · refine .inr ⟨hw, hoff _ ?_ ?_⟩
    · rw [modComp_comp_same]
      exact h.of_bare (Comp.commanded_bare _ _ _ _ _)
    · have hshut : (s.comp c).push.isShut = true := by
        obtain ⟨h1, h2 | h2⟩ := h <;> simp only [Comp.awaits, h1, h2] at hw
        · cases hw
        · simp only [Bool.and_eq_true] at hw
          split at hw
          next e => exact e.1.2
          next => cases hw
      rw [modComp_comp_same]
      have hv := Comp.commanded_valve s.strokeOfDirection s.fe .push .toOpen (s.comp c) .push
      rw [if_pos rfl] at hv
      exact (congrArg Valve.isOpen hv).trans (Valve.told_isOpen_shut hshut)

end Settling

/-! ## The proof begun -/

section Begins

variable {c : CompNo} {s : State}

/-- Under proof or FAULTED: what every fitted compressor is after COMMISSION. -/
def Comp.Tested (k : Comp) : Prop := k.state = .proof ∨ k.state = .faulted

theorem beginCompTest_input (h : (s.comp c).faultInput.active = true) : beginCompTest c s = endCompTest c (faultComp .faultInput c s) :=
  if_pos h

theorem beginCompTest_cases (h : (s.comp c).faultInput.active = false) :
    (∃ d, (((s.comp c).takenUp s.strokeOfDirection s.fe).valve d).isFault = true ∧
        beginCompTest c s = faultComp (.valve d) c (enterProof c s)) ∨
      (∀ d, (((s.comp c).takenUp s.strokeOfDirection s.fe).valve d).isFault = false) ∧
        beginCompTest c s = compAdvance c (enterProof c s) := by
  unfold beginCompTest
  dsimp only
  rw [if_neg (by simp [h])]
  split
  next d e =>
    have hd := List.find?_some e
    rw [enterProof_comp] at hd
    exact .inl ⟨d, hd, rfl⟩
  next e =>
    refine .inr ⟨fun d => ?_, rfl⟩
    have hd := List.find?_eq_none.mp e d (by cases d <;> decide)
    rw [enterProof_comp] at hd
    exact eq_false_of_ne_true hd

theorem enterProof_proof (c : CompNo) (s : State) : ((enterProof c s).comp c).state = .proof ∧
    ((enterProof c s).comp c).step = some .settling := by
  rw [enterProof_comp]
  have e := Comp.takenUp_bare s.strokeOfDirection s.fe (s.comp c)
  have e1 := congrArg Comp.state e
  have e2 := congrArg Comp.step e
  exact ⟨e1, e2⟩

theorem beginCompTest_tested (c : CompNo) (s : State) : ((beginCompTest c s).comp c).Tested := by
  cases h : (s.comp c).faultInput.active
  case true =>
    rw [beginCompTest_input h, endCompTest_comp]
    exact .inr (faultComp_faulted _ _ _)
  case false =>
    rcases beginCompTest_cases h with ⟨d, -, e⟩ | ⟨-, e⟩ <;> rw [e]
    · exact .inr (faultComp_faulted _ _ _)
    · obtain ⟨h1, h2⟩ := enterProof_proof c s
      rw [compAdvance_settling h1 h2]
      refine .inl (compPassGuard_settles ?_).1
      rw [modComp_comp_same]
      unfold Comp.pushTurn
      split
      · exact ⟨h1, .inr rfl⟩
      · exact ⟨h1, .inl h2⟩

/-- The fault input fails the proof at its start. -/
theorem beginCompTest_faultInput (h : (s.comp c).faultInput.active = true) :
    ((beginCompTest c s).comp c).state = .faulted ∧ c ∉ (beginCompTest c s).tests.comps := by
  rw [beginCompTest_input h, endCompTest_comp]
  exact ⟨faultComp_faulted _ _ _, endCompTest_ended c _⟩

/-- A valve in FAULT with both its limits active fails the proof at its start. -/
theorem beginCompTest_valve {d : Direction} (h : (s.comp c).faultInput.active = false) (hf : ((s.comp c).valve d).isFault = true)
    (hs : ((s.comp c).valve d).shutLimit.active = true) (ho : ((s.comp c).valve d).openLimit.active = true) :
    ((beginCompTest c s).comp c).state = .faulted ∧ c ∉ (beginCompTest c s).tests.comps := by
  rcases beginCompTest_cases h with ⟨e, -, he⟩ | ⟨hno, -⟩
  · rw [he]
    exact ⟨faultComp_faulted _ _ _, faultComp_ends _ _ _ (enterProof_proof c s).1⟩
  · have hd := hno d
    rw [Comp.takenUp_valve, Valve.takenFaulted hf hs ho] at hd
    cases hd

/-- The step at which a proof begins: the push valve's turn at once where both valves are found SHUT. -/
def Comp.firstStep (k : Comp) : CompStep := if k.push.isShut && k.draw.isShut then .pushStroke else .settling

/-- A proof as it begins, its valves found SHUT, OPEN or MOVING_SHUT. -/
structure Comp.Begun (k j : Comp) : Prop where
  bare : j.bare = k.proves k.firstStep
  draw : j.draw.command = .toShut
  push : j.step = some .settling → j.push.command = .toShut

theorem Comp.takenUp_begun {stroke : Timer} {fe : Bool} {k : Comp} (h : ∀ d, (k.valve d).supervised = true ∧
    ((k.valve d).isShut = true ∨ (k.valve d).isOpen = true ∨ (k.valve d).state = some .movingShut)) :
    k.Begun (k.takenUp stroke fe).pushTurn ∧ (k.takenUp stroke fe).pushTurn.push.isOpen = false := by
  have hshut (d : Direction) : ((k.takenUp stroke fe).valve d).isShut = (k.valve d).isShut ∧
      ((k.takenUp stroke fe).valve d).command = .toShut ∧ ((k.takenUp stroke fe).valve d).isOpen = false := by
    obtain ⟨hs, hv⟩ := h d
    obtain ⟨-, h2, h3⟩ := Valve.provenTaken (stroke := stroke) hs hv
    rw [takenUp_valve]
    refine ⟨h2, h3, ?_⟩
    rcases hv with e | e | e
    · have hst : ((k.valve d).beginTest stroke |>.pursue stroke false).state = some .shut := by
        have := h2.trans e
        simpa [Valve.isShut] using this
      simp [Valve.isOpen, hst]
    · have hst : (k.valve d).state = some .opened := by simpa [Valve.isOpen] using e
      rw [Valve.beginTest_sound (by simp [Valve.isFault, hst])]
      simp [Valve.pursue, Valve.isOpen, hs, hst]
    · rw [Valve.beginTest_sound (by simp [Valve.isFault, e])]
      simp [Valve.pursue, Valve.isOpen, hs, e]
  obtain ⟨p1, p2, p3⟩ := hshut .push
  obtain ⟨d1, d2, -⟩ := hshut .draw
  have hbare := takenUp_bare stroke fe k
  have hboth : ((k.takenUp stroke fe).push.isShut && (k.takenUp stroke fe).draw.isShut) = (k.push.isShut && k.draw.isShut) :=
    congrArg₂ and p1 d1
  unfold Comp.pushTurn
  rw [hboth]
  split
  next e =>
    refine ⟨⟨?_, d2, nofun⟩, p3⟩
    rw [Comp.firstStep, if_pos e]
    exact congrArg (fun b : Comp => ({ b with step := some .pushStroke, stroked := false } : Comp)) hbare
  next e =>
    refine ⟨⟨?_, d2, fun _ => p2⟩, p3⟩
    rw [Comp.firstStep, if_neg e]
    exact hbare

theorem beginCompTest_begins (hin : (s.comp c).faultInput.active = false) (h : ∀ d, ((s.comp c).valve d).supervised = true ∧
    (((s.comp c).valve d).isShut = true ∨ ((s.comp c).valve d).isOpen = true ∨ ((s.comp c).valve d).state = some .movingShut)) :
    ∃ f, beginCompTest c s = (s.touchComp c).modComp c f ∧ (s.comp c).Begun (f (s.comp c)) := by
  obtain ⟨g, hg⟩ : ∃ g : Comp → Comp, g = fun k => (k.takenUp s.strokeOfDirection s.fe).pushTurn := ⟨_, rfl⟩
  obtain ⟨hbegun, hopen⟩ := Comp.takenUp_begun (stroke := s.strokeOfDirection) (fe := s.fe) h
  have hgc : g (s.comp c) = ((s.comp c).takenUp s.strokeOfDirection s.fe).pushTurn := by rw [hg]
  rw [← hgc] at hbegun hopen
  obtain ⟨u, hu⟩ : ∃ u, u = (s.touchComp c).modComp c g := ⟨_, rfl⟩
  have huc : u.comp c = g (s.comp c) := by
    rw [hu, modComp_comp_same]
    rfl
  have hset : (u.comp c).Settles := by
    have e1 := congrArg Comp.state hbegun.bare
    have e2 : (g (s.comp c)).step = some (s.comp c).firstStep := congrArg Comp.step hbegun.bare
    rw [huc]
    refine ⟨e1, ?_⟩
    rw [e2]
    unfold Comp.firstStep
    split
    · exact .inr rfl
    · exact .inl rfl
  rcases beginCompTest_cases hin with ⟨d, hd, -⟩ | ⟨-, e⟩
  · obtain ⟨hs, hv⟩ := h d
    rw [Comp.takenUp_valve, (Valve.provenTaken hs hv).1] at hd
    cases hd
  · have hadv : compAdvance c (enterProof c s) = compPassGuard c u := by
      obtain ⟨h1, h2⟩ := enterProof_proof c s
      rw [compAdvance_settling h1 h2, enterProof_eq, modComp_modComp, hu, hg]
    rw [e, hadv]
    rcases compPassGuard_pushTurn hset (by rw [huc]; exact hopen) with e | ⟨hw, e⟩ <;> rw [e]
    · exact ⟨g, hu, hbegun⟩
    · refine ⟨fun k => Comp.commanded u.strokeOfDirection u.fe .push .toOpen (g k), by rw [hu, modComp_modComp], ?_⟩
      have hbare := Comp.commanded_bare u.strokeOfDirection u.fe .push .toOpen (g (s.comp c))
      have hdraw := Comp.commanded_valve u.strokeOfDirection u.fe .push .toOpen (g (s.comp c)) .draw
      rw [if_neg nofun] at hdraw
      refine ⟨hbare.trans hbegun.bare, (congrArg Valve.command hdraw).trans hbegun.draw, fun hstep => ?_⟩
      have hgs : (g (s.comp c)).step = some .settling := (congrArg Comp.step hbare).symm.trans hstep
      have hgp : (g (s.comp c)).state = .proof := by
        rw [← huc]
        exact hset.1
      rw [huc] at hw
      simp only [Comp.awaits, hgs, hgp] at hw
      cases hw

end Begins

end Sys2Proof.Machine
end

section
/-! PROOFS. COMMISSION begins the tests (R49, R135, R179, R180). -/

namespace Sys2Proof.Machine

/-! ## The turn of each compressor -/

section Turns

variable {c : CompNo} {s : State}

theorem beginCompTest_spotRests (c : CompNo) {i : SpotNo} (h : (s.spot i).AtTest) : SpotRests i s (beginCompTest c s) := by
  cases hin : (s.comp c).faultInput.active
  case true =>
    rw [beginCompTest_input hin]
    exact (faultComp_spotRests _ c s h).trans ((compWork_endCompTest c _).spotRests i)
  case false =>
    have hproof := (compWork_enterProof c s).spotRests i
    rcases beginCompTest_cases hin with ⟨d, -, e⟩ | ⟨-, e⟩ <;> rw [e]
    · exact hproof.trans (faultComp_spotRests _ c _ (hproof.atTest h))
    · exact hproof.trans ((compWork_compAdvance c _).spotRests i)

theorem beginCompTest_compRests {d : CompNo} (h : c ≠ d) : CompRests c s (beginCompTest d s) := by
  cases hin : (s.comp d).faultInput.active
  case true =>
    rw [beginCompTest_input hin]
    exact (faultComp_compRests _ d s h).trans ((compWork_endCompTest d _).compRests h)
  case false =>
    have hproof := (compWork_enterProof d s).compRests h
    rcases beginCompTest_cases hin with ⟨e, -, he⟩ | ⟨-, he⟩ <;> rw [he]
    · exact hproof.trans (faultComp_compRests _ d _ h)
    · exact hproof.trans ((compWork_compAdvance d _).compRests h)

theorem kept_beginCompTest (c : CompNo) (s : State) : Kept s (beginCompTest c s) := by
  cases hin : (s.comp c).faultInput.active
  case true =>
    rw [beginCompTest_input hin]
    exact (kept_faultComp _ c s).trans (compWork_endCompTest c _).kept
  case false =>
    have hproof := (compWork_enterProof c s).kept
    rcases beginCompTest_cases hin with ⟨e, -, he⟩ | ⟨-, he⟩ <;> rw [he]
    · exact hproof.trans (kept_faultComp _ c _)
    · exact hproof.trans (compWork_compAdvance c _).kept

theorem beginCompTests_spot {i : SpotNo} (h : (s.spot i).AtTest) : SpotRests i s (eachFittedComp beginCompTest s) := by
  unfold eachFittedComp eachComp
  refine List.foldlRecOn (motive := SpotRests i s) allComps _ (.refl i s) fun u r c _ => ?_
  dsimp only
  split
  · exact r.trans (beginCompTest_spotRests c (r.atTest h))
  · exact r

theorem allComps_nodup : allComps.Nodup := by decide
theorem mem_allComps (c : CompNo) : c ∈ allComps := by revert c; decide

/-- A fitted compressor has its turn once, and is left alone before and after. -/
theorem beginCompTests_turn (hc : s.fittedComp c = true) :
    ∃ u, CompRests c s u ∧ CompRests c (beginCompTest c u) (eachFittedComp beginCompTest s) := by
  have hstep (u : State) (d : CompNo) (hd : d ≠ c) : CompRests c u (if u.fittedComp d then beginCompTest d u else u) := by
    split
    · exact beginCompTest_compRests (Ne.symm hd)
    · exact .refl c u
  unfold eachFittedComp eachComp
  refine foldl_reaches_once (a := c) (p := CompRests c s) (q := fun t => ∃ u, CompRests c s u ∧ CompRests c (beginCompTest c u) t)
    (fun u d hd hu => hu.trans (hstep u d hd)) (fun u hu => ?_) (fun u d hd hu => ?_) allComps s allComps_nodup (mem_allComps c) (.refl c s)
  · rw [if_pos ((hu.kept.fittedComp_eq c).trans hc)]
    exact ⟨u, hu, .refl c _⟩
  · obtain ⟨w, h1, h2⟩ := hu
    exact ⟨w, h1, h2.trans (hstep u d hd)⟩

end Turns

/-! ## The arbiter while every compressor is under proof or FAULTED -/

/-- Every fitted compressor is under proof or FAULTED. -/
def State.allTested (s : State) : Prop := ∀ c, s.fittedComp c = true → (s.comp c).Tested

section Tested

variable {s : State}

theorem CompRests.tested {c : CompNo} {t : State} (r : CompRests c s t) (h : (s.comp c).Tested) : (t.comp c).Tested := by
  obtain ⟨x, hx⟩ := r.comp
  rw [hx]
  exact h

theorem beginCompTests_tested (s : State) : (eachFittedComp beginCompTest s).allTested := fun c hc => by
  have hkept : Kept s (eachFittedComp beginCompTest s) := .eachFittedComp kept_beginCompTest s
  obtain ⟨u, -, hu⟩ := beginCompTests_turn (c := c) (s := s) ((hkept.fittedComp_eq c).symm.trans hc)
  exact hu.tested (beginCompTest_tested c u)

theorem Comp.Tested.idle {k : Comp} (h : k.Tested) : k.state.working = false ∧ k.state ≠ .stopped ∧ k.state ≠ .running := by
  rcases h with e | e <;> rw [e] <;> exact ⟨rfl, nofun, nofun⟩

variable (h : s.allTested)

include h

theorem seatFor_tested (d : Direction) : s.seatFor d = none := by
  refine seatFor_none (fun k => ?_) fun k => ?_
  · unfold State.hasSeat
    cases hk : s.fittedComp k
    · simp
    · simp [(h k hk).idle.1]
  · unfold State.canStart
    cases hk : s.fittedComp k
    · simp
    · simp [(h k hk).idle.2.1]

theorem nextGrant_tested : s.nextGrant = none := by
  unfold State.nextGrant
  simp [seatFor_tested h]

theorem nextTurn_tested : s.nextTurn = none := by
  unfold State.nextTurn
  split
  · rfl
  next g _ _ =>
    have hno : allComps.filter (s.canTurn g.dir) = [] := by
      refine List.filter_eq_nil_iff.mpr fun k _ => ?_
      unfold State.canTurn
      cases hk : s.fittedComp k
      · simp
      · simp [(h k hk).idle.1]
    rw [hno]
    split <;> rfl

/-- No seat is granted and no compressor turned. -/
theorem due_tested {d : Due} (hd : s.due = some d) : (∃ i, d = .run i ∧ s.headReady i = true) ∨ d = .join := by
  have hd' := hd
  unfold State.due at hd
  rw [nextGrant_tested h, nextTurn_tested h] at hd
  split at hd
  next i _ =>
    cases hd
    exact .inl ⟨i, rfl, due_run_ready hd'⟩
  next =>
    split at hd
    · exact .inr (Option.some.inj hd).symm
    · split at hd <;> cases hd

/-- A head that runs is seated on no fitted compressor. -/
theorem headReady_unseated {i : SpotNo} (hr : s.headReady i = true) {c : CompNo} (hc : s.fittedComp c = true) : (s.spot i).seat ≠ some c := by
  intro e
  unfold State.headReady at hr
  dsimp only at hr
  split at hr
  next o k _ _ hk =>
    have hck : c = k := Option.some.inj (e.symm.trans hk)
    subst hck
    simp [(h c hc).idle.2.2] at hr
  next => cases hr

theorem performDue_compRests {d : Due} (hd : s.due = some d) {c : CompNo} (hc : s.fittedComp c = true) : CompRests c s (performDue d s) := by
  rcases due_tested h hd with ⟨i, rfl, hr⟩ | rfl
  · exact (spotWork_runHead i s).compRests (headReady_unseated h hr hc)
  · exact ⟨kept_joinGrants s, ⟨_, rfl⟩, id⟩

theorem performDue_spotRests {d : Due} (hd : s.due = some d) {i : SpotNo} (hi : (s.spot i).AtTest) : SpotRests i s (performDue d s) := by
  rcases due_tested h hd with ⟨j, rfl, -⟩ | rfl
  · exact (spotWork_runHead j s).spotRests fun e => hi.unstaged (e ▸ due_run hd)
  · exact ⟨kept_joinGrants s, ⟨_, rfl⟩, id⟩

omit h in
/-- What every step of the arbiter keeps, the arbiter keeps. -/
theorem settle_rests {R : State → State → Prop} (hrefl : ∀ u, R u u) (htrans : ∀ u v w, R u v → R v w → R u w)
    (hstep : ∀ u d, u.allTested → R s u → u.due = some d → R u (performDue d u)) (h : s.allTested) : R s (settle s) := by
  suffices hall : ∀ n u, u.allTested → R s u → R s (settleFor n u) from hall _ s h (hrefl s)
  intro n
  induction n with
  | zero => exact fun _ _ r => r
  | succ n ih =>
    intro u hu r
    unfold settleFor
    split
    next => exact r
    next d hd =>
      refine ih _ (fun c hc => ?_) (htrans s u _ r (hstep u d hu r hd))
      have hcu := ((kept_performDue d u).fittedComp_eq c).symm.trans hc
      exact (performDue_compRests hu hd hcu).tested (hu c hcu)

theorem settle_compRests {c : CompNo} (hc : s.fittedComp c = true) : CompRests c s (settle s) :=
  settle_rests (CompRests.refl c) (fun _ _ _ => .trans)
    (fun _ _ hu r hd => performDue_compRests hu hd ((r.kept.fittedComp_eq c).trans hc)) h

theorem settle_spotRests {i : SpotNo} (hi : (s.spot i).AtTest) : SpotRests i s (settle s) :=
  settle_rests (SpotRests.refl i) (fun _ _ _ => .trans) (fun _ _ hu r hd => performDue_spotRests hu hd (r.atTest hi)) h

end Tested

/-! ## The whole of COMMISSION's work -/

section Commission

variable (v : State)

/-- The siding with a test pending at every fitted spot and compressor. -/
def State.commissioned : State :=
  { v with siding := .commissioning, tests := { spots := allSpots.filter v.fittedSpot, comps := allComps.filter v.fittedComp } }

/-- Every test begun, before the arbiter. -/
def testsBegun : State := settleTests (eachFittedComp beginCompTest (eachFittedSpot beginSpotTest v.commissioned))

def commission : State := settle (testsBegun v)

theorem kept_settleTests (s : State) : Kept s (settleTests s) := .endTests (x := s.tests) (.of_eq rfl)

theorem settleTests_spotRests (i : SpotNo) (s : State) : SpotRests i s (settleTests s) := by
  have hk := kept_settleTests s
  obtain ⟨x, e⟩ := settleTests_rest s
  rw [e] at hk ⊢
  exact ⟨hk, ⟨_, rfl⟩, id⟩

theorem settleTests_compRests (c : CompNo) (s : State) : CompRests c s (settleTests s) := by
  have hk := kept_settleTests s
  obtain ⟨x, e⟩ := settleTests_rest s
  rw [e] at hk ⊢
  exact ⟨hk, ⟨_, rfl⟩, id⟩

theorem kept_begun : Kept v.commissioned (eachFittedComp beginCompTest (eachFittedSpot beginSpotTest v.commissioned)) :=
  (Kept.eachFittedSpot (fun i s => (spotWork_beginSpotTest i s).kept) _).trans (.eachFittedComp kept_beginCompTest _)

theorem kept_commission : Kept v.commissioned (commission v) :=
  ((kept_begun v).trans (kept_settleTests _)).trans (kept_settle _)

theorem testsBegun_tested : (testsBegun v).allTested := fun c hc => by
  have hk := kept_settleTests (eachFittedComp beginCompTest (eachFittedSpot beginSpotTest v.commissioned))
  exact (settleTests_compRests c _).tested (beginCompTests_tested _ c ((hk.fittedComp_eq c).symm.trans hc))

variable {v}

/-- A fitted spot's test begins at its turn; a spot left at rest or opening its vent valve then stays so. -/
theorem commission_spot {i : SpotNo} (hi : v.fittedSpot i = true) : ∃ u, SpotRests i v.commissioned u ∧ u.spot i = v.spot i ∧
    (((beginSpotTest i u).spot i).AtTest → SpotRests i (beginSpotTest i u) (commission v)) := by
  obtain ⟨u, h1, h2, h3⟩ := beginSpotTests_turn (s := v.commissioned) (i := i) hi
  refine ⟨u, h1, h2, fun h => ?_⟩
  have r := (h3.trans (beginCompTests_spot (h3.atTest h))).trans (settleTests_spotRests i _)
  exact r.trans (settle_spotRests (testsBegun_tested v) (r.atTest h))

/-- A fitted compressor's proof begins at its turn, and is left as it then stands. -/
theorem commission_comp {c : CompNo} (hc : v.fittedComp c = true) (ho : ∀ i, v.fittedSpot i = true → (v.spot i).orders = []) :
    ∃ u, CompRests c v.commissioned u ∧ CompRests c (beginCompTest c u) (commission v) := by
  have h1 := beginSpotTests_comps (s := v.commissioned) ho c
  obtain ⟨u, h2, h3⟩ := beginCompTests_turn ((h1.kept.fittedComp_eq c).trans hc)
  have r := h3.trans (settleTests_compRests c _)
  have hfit : (testsBegun v).fittedComp c = true :=
    ((((h1.trans h2).kept.trans (kept_beginCompTest c u)).trans r.kept).fittedComp_eq c).trans hc
  exact ⟨u, h1.trans h2, r.trans (settle_compRests (testsBegun_tested v) hfit)⟩

/-- The siding is COMMISSIONING while a test is pending, and else OPERATING (R180). -/
theorem commission_siding : (commission v).testless ∧ (commission v).siding = .operating ∨
    ¬ (commission v).testless ∧ (commission v).siding = .commissioning := by
  obtain ⟨w, hw⟩ : ∃ w, w = eachFittedComp beginCompTest (eachFittedSpot beginSpotTest v.commissioned) := ⟨_, rfl⟩
  have hbegun : (testsBegun v).testless ∧ (testsBegun v).siding = .operating ∨
      ¬ (testsBegun v).testless ∧ (testsBegun v).siding = .commissioning := by
    have hrun := (kept_begun v).run rfl
    unfold testsBegun settleTests
    rw [← hw] at hrun ⊢
    split
    next e => exact .inl ⟨e.2, rfl⟩
    next e =>
      rcases hrun with ⟨e', -⟩ | ⟨e', hno⟩
      · exact .inr ⟨fun hno => e ⟨e', hno⟩, e'⟩
      · exact .inl ⟨hno, e'⟩
  have hk := kept_settle (testsBegun v)
  rcases hbegun with ⟨hno, e⟩ | ⟨hyes, e⟩
  · exact .inl ⟨hk.tests.testless hno, (hk.siding (by rw [e]; exact nofun)).trans e⟩
  · exact (hk.run e).elim (fun h => .inr ⟨h.2 hyes, h.1⟩) fun h => .inl ⟨h.2, h.1⟩

end Commission

/-! ## COMMISSION -/

section Answer

variable {s : State}

theorem answerCommission_state (h : s.siding ≠ .configured) : answerCommission s = (s, .bare .state) := if_pos h

variable (h1 : s.siding = .configured)

include h1

theorem answerCommission_fieldOff (h : s.fe = false) : answerCommission s = (s, .bare .fieldOff) := by
  unfold answerCommission
  rw [if_neg (not_not.mpr h1), if_pos (by simp [h])]

variable (h2 : s.fe = true)

include h2

theorem answerCommission_notQuiet (h : s.quiet = false) : answerCommission s = (s, .bare .notQuiet) := by
  unfold answerCommission
  rw [if_neg (not_not.mpr h1), if_neg (by simp [h2]), if_pos (by simp [h])]

theorem answerCommission_done (h : s.quiet = true) : answerCommission s =
    (commission s, .ok ([Layout.sidingState (commission s).siding] ++ nat8 (commission s).tests.spots.length ++
      nat8 (commission s).tests.comps.length)) := by
  unfold answerCommission commission testsBegun State.commissioned
  simp only [h1, h2, h, ne_eq, not_true_eq_false, if_false, Bool.not_true, Bool.false_eq_true]

end Answer

end Sys2Proof.Machine
end

section
/-! PROOFS. COMMISSION: what each fitted spot and compressor shows at the end (R179). -/

namespace Sys2Proof.Machine

/-! ## Each spot and compressor at the end -/

section Ends

variable {v : State} {i : SpotNo} {c : CompNo}

theorem Comp.proves_fields {k j : Comp} {st : CompStep} {x : Option SpotNo} (h : k.bare = { j.proves st with turning := x }) :
    k.state = .proof ∧ k.step = some st ∧ k.dir = some .push ∧ k.startOn = false ∧ k.seated = [] ∧ k.startTimer = .stopped ∧
      k.runTimer = .stopped := by
  have e1 := congrArg Comp.state h
  have e2 := congrArg Comp.step h
  have e3 := congrArg Comp.dir h
  have e4 := congrArg Comp.startOn h
  have e5 := congrArg Comp.seated h
  have e6 := congrArg Comp.startTimer h
  have e7 := congrArg Comp.runTimer h
  exact ⟨e1, e2, e3, e4, e5, e6, e7⟩

theorem SpotRests.fields {s t : State} (r : SpotRests i s t) : (t.spot i).state = (s.spot i).state ∧ (t.spot i).fault = (s.spot i).fault ∧
    (t.spot i).step = (s.spot i).step ∧ (t.spot i).vent = (s.spot i).vent := by
  obtain ⟨x, hx⟩ := r.spot
  rw [hx]
  exact ⟨rfl, rfl, rfl, rfl⟩

section Spots

variable (hi : v.fittedSpot i = true)

include hi

theorem commission_pressure (ho : (v.spot i).orders = []) (h : (v.spot i).hose.active = true) :
    ((commission v).spot i).state = .faulted ∧ ((commission v).spot i).fault = some .pressure ∧ i ∉ (commission v).tests.spots := by
  obtain ⟨u, -, hu, hr⟩ := commission_spot hi
  obtain ⟨h1, h2, h3, h4⟩ := beginSpotTest_pressure (s := u) (i := i) (by rw [hu]; exact h)
  have r := hr (.inl ⟨.inr (.inr h1), by rw [h3, hu]; exact ho⟩)
  obtain ⟨e1, e2, -, -⟩ := r.fields
  exact ⟨e1.trans h1, e2.trans h2, r.kept.testGone.1 i h4⟩

theorem commission_occupied (hidle : (v.spot i).Idle) (h : (v.spot i).hose.active = false) (hc : (v.spot i).car ≠ none)
    (hf : (v.spot i).shutoff.isFault = true) :
    ((commission v).spot i).state = (v.spot i).state ∧ i ∉ (commission v).tests.spots := by
  obtain ⟨u, -, hu, hr⟩ := commission_spot hi
  obtain ⟨h1, h2⟩ := beginSpotTest_occupied (s := u) (i := i) (by rw [hu]; exact h) (by rw [hu]; exact hc) (by rw [hu]; exact hf)
  have r := hr (.inl (by rw [h1, hu]; exact hidle))
  obtain ⟨e1, -⟩ := r.fields
  exact ⟨by rw [e1, h1, hu], r.kept.testGone.1 i h2⟩

theorem commission_strokes (ho : (v.spot i).orders = []) (hfe : v.fe = true) (h : (v.spot i).hose.active = false)
    (hsup : (v.spot i).vent.supervised = true) (hvent : (v.spot i).vent.isShut = true)
    (hrest : ∀ n, n ≠ .vent → ((v.spot i).valve n).isFault = false) :
    ((commission v).spot i).state = .stroking ∧ ((commission v).spot i).step = some (.stroking .vent false) ∧
      i ∈ (commission v).tests.spots ∧
      ((commission v).spot i).vent = { (v.spot i).vent with command := .toOpen, state := some .movingOpen, timer := v.strokeOf .vent } := by
  obtain ⟨u, hv, hu, hr⟩ := commission_spot hi
  obtain ⟨w, hw⟩ : ∃ w, w = beginSpotTest i u := ⟨_, rfl⟩
  have hbegin : w = (u.touchSpot i).modSpot i (Spot.testBegun u.strokeOf u.fe) := by
    rw [hw]
    exact beginSpotTest_begins (by rw [hu]; exact ho) (hv.kept.fe_eq.trans hfe) (by rw [hu]; exact h) (by rw [hu]; exact hsup)
      (by rw [hu]; exact hvent) (by rw [hu]; exact hrest)
  have hwi : w.spot i = (v.spot i).testBegun u.strokeOf u.fe := by
    rw [hbegin, modSpot_spot_same, ← hu]
    rfl
  have hbare := Spot.testBegun_bare u.strokeOf u.fe (v.spot i)
  have hstate : (w.spot i).state = .stroking := by
    rw [hwi]
    exact congrArg Spot.state hbare
  have hstep : (w.spot i).step = some (.stroking .vent false) := by
    rw [hwi]
    exact congrArg Spot.step hbare
  have horders : (w.spot i).orders = [] := by
    rw [hwi]
    exact (congrArg Spot.orders hbare).trans ho
  have hopening : (w.spot i).vent = (v.spot i).vent.testOpening (u.strokeOf .vent) := by
    have hv := Spot.setValve_valve .vent .vent ((v.spot i).vent.testOpening (u.strokeOf .vent)) ((v.spot i).testTakenUp u.strokeOf u.fe)
    rw [if_pos rfl] at hv
    rw [hwi]
    exact hv
  have htest : i ∈ w.tests.spots := by
    have hm : i ∈ v.commissioned.tests.spots := List.mem_filter.mpr ⟨mem_allSpots i, hi⟩
    rw [hbegin]
    exact hv.test hm
  rw [← hw] at hr
  have r := hr (.inr ⟨hstate, horders, hstep, by rw [hopening]; rfl⟩)
  obtain ⟨e1, -, e3, e4⟩ := r.fields
  refine ⟨e1.trans hstate, e3.trans hstep, r.test htest, ?_⟩
  have hstroke : u.strokeOf .vent = v.strokeOf .vent := by
    have hp : u.profile = v.profile := hv.kept.profile_eq
    unfold State.strokeOf
    rw [hp]
  have hfault : (v.spot i).vent.isFault = false := by
    have hst : (v.spot i).vent.state = some .shut := by simpa [Valve.isShut] using hvent
    simp [Valve.isFault, hst]
  rw [e4, hopening, hstroke]
  unfold Valve.testOpening
  rw [hfault, Bool.or_false]

end Spots

section Comps

variable (hc : v.fittedComp c = true) (ho : ∀ i, v.fittedSpot i = true → (v.spot i).orders = [])

include hc ho

theorem commission_faultInput (h : (v.comp c).faultInput.active = true) :
    ((commission v).comp c).state = .faulted ∧ c ∉ (commission v).tests.comps := by
  obtain ⟨u, hv, r⟩ := commission_comp hc ho
  obtain ⟨x, hx⟩ := hv.comp
  obtain ⟨h1, h2⟩ := beginCompTest_faultInput (s := u) (c := c) (by rw [hx]; exact h)
  obtain ⟨y, hy⟩ := r.comp
  rw [hy]
  exact ⟨h1, r.kept.testGone.2 c h2⟩

theorem commission_valveFault {d : Direction} (h : (v.comp c).faultInput.active = false) (hf : ((v.comp c).valve d).isFault = true)
    (hs : ((v.comp c).valve d).shutLimit.active = true) (hopen : ((v.comp c).valve d).openLimit.active = true) :
    ((commission v).comp c).state = .faulted ∧ c ∉ (commission v).tests.comps := by
  obtain ⟨u, hv, r⟩ := commission_comp hc ho
  obtain ⟨x, hx⟩ := hv.comp
  have hvalve : (u.comp c).valve d = (v.comp c).valve d := by
    rw [hx]
    cases d <;> rfl
  obtain ⟨h1, h2⟩ := beginCompTest_valve (s := u) (c := c) (d := d) (by rw [hx]; exact h) (by rw [hvalve]; exact hf)
    (by rw [hvalve]; exact hs) (by rw [hvalve]; exact hopen)
  obtain ⟨y, hy⟩ := r.comp
  rw [hy]
  exact ⟨h1, r.kept.testGone.2 c h2⟩

theorem commission_begins (h : (v.comp c).faultInput.active = false) (hvalves : ∀ d, ((v.comp c).valve d).supervised = true ∧
    (((v.comp c).valve d).isShut = true ∨ ((v.comp c).valve d).isOpen = true ∨ ((v.comp c).valve d).state = some .movingShut)) :
    (∃ x, ((commission v).comp c).bare = { (v.comp c).proves (v.comp c).firstStep with turning := x }) ∧
      ((commission v).comp c).draw.command = .toShut ∧
      (((commission v).comp c).step = some .settling → ((commission v).comp c).push.command = .toShut) ∧
      c ∈ (commission v).tests.comps := by
  obtain ⟨u, hv, r⟩ := commission_comp hc ho
  obtain ⟨x, hx⟩ := hv.comp
  have hvalve (d : Direction) : (u.comp c).valve d = (v.comp c).valve d := by
    rw [hx]
    cases d <;> rfl
  obtain ⟨f, hf, hbare, hdraw, hpush⟩ := beginCompTest_begins (s := u) (c := c) (by rw [hx]; exact h) (by simpa only [hvalve] using hvalves)
  have hcomp : (beginCompTest c u).comp c = f (u.comp c) := by
    rw [hf, modComp_comp_same]
    rfl
  have htest : c ∈ (beginCompTest c u).tests.comps := by
    have hm : c ∈ v.commissioned.tests.comps := List.mem_filter.mpr ⟨mem_allComps c, hc⟩
    rw [hf]
    exact hv.test hm
  obtain ⟨y, hy⟩ := r.comp
  rw [hcomp, hx] at hy
  rw [hx] at hbare hdraw hpush
  refine ⟨⟨y, ?_⟩, by rw [hy]; exact hdraw, by rw [hy]; exact hpush, r.test htest⟩
  rw [hy]
  exact congrArg (fun b : Comp => ({ b with turning := y } : Comp)) hbare

end Comps

end Ends

theorem quiet_of_frame {s u : State} (h : u.frame = s.frame) : u.quiet = s.quiet := by
  have hp : u.profile = s.profile := congrArg Frame.profile h
  unfold State.quiet
  simp only [spot_of_frame h, comp_of_frame h, fittedSpot_of_profile hp, fittedComp_of_profile hp]

theorem State.quiet_spot {s : State} (h : s.quiet = true) {i : SpotNo} (hi : s.fittedSpot i = true) : (s.spot i).state.quiet = true := by
  unfold State.quiet at h
  have hall := List.all_eq_true.mp (Bool.and_eq_true_iff.mp h).1 i (mem_allSpots i)
  rwa [hi, Bool.not_true, Bool.false_or] at hall

/-- Settles O44: the refusals in order; each fitted spot and compressor has its test begun at its turn, and the turns of the others
and the arbiter, which grants no seat while every compressor is under proof or FAULTED, leave it so. -/
theorem commissionBeginsTheTests : Obligations.CommissionBeginsTheTests := by
  intro s via ht
  refine ⟨fun h => ?_, fun h1 h => ?_, fun h1 h2 h => ?_, fun h1 h2 h3 hq _ => ?_⟩
  · exact refuses_of (c := .commission via) ht rfl fun u hu => answerCommission_state (by rwa [siding_of_frame hu])
  · exact refuses_of (c := .commission via) ht rfl fun u hu =>
      answerCommission_fieldOff ((siding_of_frame hu).trans h1) ((fe_of_frame hu).trans h)
  · exact refuses_of (c := .commission via) ht rfl fun u hu =>
      answerCommission_notQuiet ((siding_of_frame hu).trans h1) ((fe_of_frame hu).trans h2) ((quiet_of_frame hu).trans h)
  · obtain ⟨v, t, hv, ha, hframe, -, -⟩ := answers_eventOf (c := .commission via) (s := s) ht rfl fun v hv =>
      answerCommission_done ((siding_of_frame hv).trans h1) ((fe_of_frame hv).trans h2) ((quiet_of_frame hv).trans h3)
    have hp : v.profile = s.profile := congrArg Frame.profile hv.frame
    have hspot (i : SpotNo) : v.spot i = s.spot i := spot_of_frame hv.frame (i := i)
    have hcomp (c : CompNo) : v.comp c = s.comp c := comp_of_frame hv.frame c
    have hfit (i : SpotNo) : s.fittedSpot i = true → v.fittedSpot i = true := (fittedSpot_of_profile hp i).trans
    have hfitc (c : CompNo) : s.fittedComp c = true → v.fittedComp c = true := (fittedComp_of_profile hp c).trans
    have hidle (i : SpotNo) (hi : s.fittedSpot i = true) : (v.spot i).Idle := by
      rw [hspot]
      have hquiet := State.quiet_spot h3 hi
      exact ⟨(SpotState.quiet_iff _).mp hquiet, (hq i).orders_nil hquiet⟩
    have horders (i : SpotNo) (hi : v.fittedSpot i = true) : (v.spot i).orders = [] :=
      (hidle i ((fittedSpot_of_profile hp i).symm.trans hi)).2
    have hfixed := (kept_commission v).fixed
    have hsiding := commission_siding (v := v)
    obtain ⟨w, hw⟩ : ∃ w, w = commission v := ⟨_, rfl⟩
    have hti (i : SpotNo) : t.spot i = (commission v).spot i := by rw [spot_of_frame hframe, closeEvent_spot]
    have htc (c : CompNo) : t.comp c = (commission v).comp c := by rw [comp_of_frame hframe, closeEvent_comp]
    rw [closeEvent_frame] at hframe
    have htests : t.tests = (commission v).tests := by
      rw [← hw] at hframe ⊢
      exact congrArg Frame.tests hframe
    have hside : t.siding = (commission v).siding := by
      rw [← hw] at hframe ⊢
      exact congrArg Frame.siding hframe
    have hpending (h : ¬ (commission v).testless) : t.siding = .commissioning := by
      rcases hsiding with ⟨hno, -⟩ | ⟨-, e⟩
      · exact absurd hno h
      · exact hside.trans e
    refine ⟨t, by rw [hside, htests]; exact ha, fun i hi hh => ?_, fun i hi hh hsup hshut hs hl hvap => ?_, fun c hc hin => ?_,
      fun i hi hh hcar hf => ?_, fun c hc hin hvalves => ?_, fun c d hc hin hf hs hopen => ?_, ?_, ?_⟩
    · rw [hti, htests]
      exact commission_pressure (hfit i hi) (horders i (hfit i hi)) (by rw [hspot]; exact hh)
    · have hrest : ∀ n, n ≠ .vent → ((v.spot i).valve n).isFault = false := fun n hn => by
        rw [hspot]
        cases n
        · exact hs
        · exact hl
        · exact hvap
        · exact absurd rfl hn
      obtain ⟨k1, k2, k3, k4⟩ := commission_strokes (hfit i hi) (horders i (hfit i hi)) ((fe_of_frame hv.frame).trans h2)
        (by rw [hspot]; exact hh) (by rw [hspot]; exact hsup) (by rw [hspot]; exact hshut) hrest
      rw [hspot, strokeOf_of_frame hv.frame] at k4
      rw [hti, htests]
      exact ⟨k1, k2, k3, k4, hpending fun hno => List.ne_nil_of_mem k3 hno.1⟩
    · rw [htc, htests]
      exact commission_faultInput (hfitc c hc) horders (by rw [hcomp]; exact hin)
    · obtain ⟨k1, k2⟩ := commission_occupied (hfit i hi) (hidle i hi) (by rw [hspot]; exact hh) (by rw [hspot]; exact hcar)
        (by rw [hspot]; exact hf)
      rw [hti, htests]
      exact ⟨by rw [k1, hspot], k2⟩
    · obtain ⟨⟨x, hbare⟩, k1, k2, k3⟩ := commission_begins (hfitc c hc) horders (by rw [hcomp]; exact hin)
        (by simp only [hcomp]; exact hvalves)
      obtain ⟨e1, hstep, e2, e3, e4, e5, e6⟩ := Comp.proves_fields hbare
      rw [htc, htests]
      refine ⟨e1, e2, e3, e4, e5, e6, ?_, k1, k2, k3, hpending fun hno => List.ne_nil_of_mem k3 hno.2⟩
      rw [hstep, hcomp]
      unfold Comp.firstStep
      split <;> rfl
    · rw [htc, htests]
      exact commission_valveFault (d := d) (hfitc c hc) horders (by rw [hcomp]; exact hin) (by rw [hcomp]; exact hf)
        (by rw [hcomp]; exact hs) (by rw [hcomp]; exact hopen)
    · rw [hside, htests]
      rcases hsiding with ⟨hno, e⟩ | ⟨hyes, e⟩
      · exact e.trans (if_pos hno).symm
      · exact e.trans (if_neg hyes).symm
    · rw [← hw] at hframe hfixed
      have hprofile : t.profile = w.profile := congrArg Frame.profile hframe
      have hstaged : t.staged = w.staged := congrArg Frame.staged hframe
      have hversion : t.stagedVersion = w.stagedVersion := congrArg Frame.stagedVersion hframe
      have hlock : t.lock = w.lock := congrArg Frame.lock hframe
      have hfe : t.fe = w.fe := congrArg Frame.fe hframe
      have e1 := congrArg Fixed.profile hfixed
      have e2 := congrArg Fixed.staged hfixed
      have e3 := congrArg Fixed.stagedVersion hfixed
      have e4 := congrArg Fixed.lock hfixed
      have e5 := congrArg Fixed.fe hfixed
      have hvf := hv.frame
      exact ⟨(hprofile.trans e1).trans hp, (hstaged.trans e2).trans (congrArg Frame.staged hvf),
        (hversion.trans e3).trans (congrArg Frame.stagedVersion hvf), (hlock.trans e4).trans (congrArg Frame.lock hvf),
        (hfe.trans e5).trans (congrArg Frame.fe hvf)⟩

end Sys2Proof.Machine
end

section
/-! PROOFS. O39 fails: where the newest reservation alone is lowered, its clause has the spot's flag set, and asks nothing of the
order's own vessel and target. An order that names another vessel and whose target is 0 shows READ SPOT nothing of the cut: neither
its target nor the remainder under its own vessel moves. Orders are placed with a target of 1 litre or more and their entry in the
vessel they name (R57, R92), so the state is none that a run reaches; the statement, which speaks of every state, does not hold there. -/

namespace Sys2Proof.Machine

/-- An order of 0 litres into vessel 1. -/
def strayOrder : Order :=
  { tag := 1, liquid := some { target := 0, vessel := 1, delivered := 0 }, closeAfter := false, state := .suspended, reason := none }

/-- Spot 0 HELD with the order, whose entry of 10 litres stands in the list of vessel 0. -/
def strayEntry : State :=
  { State.reset with
    siding := .operating
    profile := { State.reset.profile with
      site := some
        { spots := 1, vessels := 2, compressors := 0, seats := 1, overAllowance := 0, startTime := 1, runOnTime := 1, proofTime := 1
          bleedTime := 1, provingTime := 1 }
      vessels := some { data := Vector.replicate 6 { grade := .propane, capacity := 100 } } }
    spots := State.reset.spots.set 0 { Spot.reset with state := .held, orders := [strayOrder] }
    vessels := State.reset.vessels.set 0 { Vessel.reset with entries := [{ spot := 0, tag := 1, remainder := 10 }] } }

/-- GAUGE of vessel 0 with 5 litres free. -/
def strayGauge : Instr := .gauge .clocked 0 5 0

theorem strayEntry_spot : ∀ i, strayEntry.spot i = { Spot.reset with state := .held, orders := [strayOrder] } ∨
    strayEntry.spot i = Spot.reset := by decide +kernel

theorem strayEntry_legal (i : SpotNo) : (strayEntry.spot i).queueLegal := by
  rcases strayEntry_spot i with e | e <;> rw [e]
  · exact ⟨by decide, by decide, by decide, trivial⟩
  · exact ⟨by decide, by decide, by decide, rfl⟩

theorem strayEntry_steady : ∀ j, (strayEntry.spot j).steady ∧ (strayEntry.spot j).state ≠ .stroking := by
  unfold Spot.steady
  decide +kernel

/-- The vessel as the gauge leaves it before its cut: 10 litres reserved, 5 available. -/
def strayVessel : Vessel := { strayEntry.vessel 0 with gaugedFree := 5, stamp := 0 }

/-- The event lowers the entry and leaves the spot's flag down. -/
theorem strayGauge_flag : (match exec strayGauge strayEntry with
    | .next t => t.changes.spots.getLsbD 0
    | _ => true) = false := by decide +kernel

/-- Refutes O39: at an entry whose order names another vessel and has no litre left to take, no flag of the spot is set. -/
theorem not_cutsTakeTheNewestAndTheirOrders : ¬ Obligations.CutsTakeTheNewestAndTheirOrders := by
  intro holds
  obtain ⟨-, gauge, -⟩ := holds
  obtain ⟨-, lowers, -⟩ := gauge strayEntry .clocked 0 0 5 0 strayVessel strayGauge (by decide +kernel) (by decide +kernel)
    (by decide +kernel) (by decide +kernel) rfl rfl strayEntry_legal (by decide +kernel)
  obtain ⟨t, ht, -, hflag, -⟩ := lowers [] 0 1 10 strayOrder { target := 0, vessel := 1, delivered := 0 } (by decide +kernel)
    (by decide +kernel) (by decide +kernel) (by decide +kernel) rfl strayEntry_steady (by decide +kernel)
  have hdown := strayGauge_flag
  rw [ht] at hdown
  exact absurd (hflag.symm.trans hdown) (by decide)

end Sys2Proof.Machine
end

section
/-! PROOFS. The work of an event reserves nothing: every reservation list it leaves is a part of the one before (R71, R91, R94). -/

namespace Sys2Proof.Machine

/-- Every vessel's list is a part of the one before. -/
def Releases (s t : State) : Prop := ∀ v, ((t.vessel v).entries).Sublist (s.vessel v).entries

theorem Releases.refl (s : State) : Releases s s := fun _ => .refl _

theorem Releases.trans {s t u : State} (h : Releases s t) (k : Releases t u) : Releases s u := fun v => (k v).trans (h v)

theorem Releases.of_vessels {s t : State} (h : t.vessels = s.vessels) : Releases s t := fun v => by rw [vessel_of_vessels h]

theorem Releases.ite {p : Prop} [Decidable p] {s t u : State} (h : p → Releases s t) (k : ¬ p → Releases s u) :
    Releases s (if p then t else u) := by
  split
  next hp => exact h hp
  next hp => exact k hp

theorem Releases.foldl {α : Type} {f : State → α → State} (h : ∀ s a, Releases s (f s a)) : ∀ (l : List α) (s : State), Releases s (l.foldl f s)
  | [], s => .refl s
  | a :: l, s => (h s a).trans (Releases.foldl h l _)

section Ops

variable (i : SpotNo) (s : State)

theorem Releases.modSpot (f : Spot → Spot) : Releases s (s.modSpot i f) := .of_vessels rfl

theorem releases_commandSpot (n : ValveName) (c : Command) : Releases s (commandSpot i n c s) := .of_vessels rfl

theorem releases_shutAll : Releases s (shutAll i s) := .of_vessels rfl

theorem releases_leaveCompressors : Releases s (leaveCompressors i s) := by
  refine .of_vessels ((vessels_dropGrant i _).trans ?_)
  cases h : (s.spot i).seat with
  | none => rw [releaseSeat_unseated h]
  | some c =>
    rw [releaseSeat_seated h]
    exact (compWork_compOnEmpty c _).vessels

theorem releases_depart (o : Order) : Releases s (depart i o s) := fun v => by
  unfold depart
  dsimp only
  split
  next l _ =>
    show (((((s.touchSpot i).modSpot i _).touchVessel l.vessel).modVessel l.vessel (Vessel.unreserve i o.tag)).vessel v).entries.Sublist _
    by_cases e : v = l.vessel
    · rw [e, modVessel_vessel_same]
      exact List.filter_sublist
    · rw [modVessel_vessel_other _ _ _ _ e]
      exact .refl _
  next => exact .refl _

theorem releases_departs (f : Order → Order) (l : List Order) : Releases s (l.foldl (fun s o => depart i (f o) s) s) :=
  .foldl (fun s o => releases_depart i s (f o)) l s

theorem releases_addHold (r : HoldReason) : Releases s (addHold i r s) := by
  have esd (u : State) : Releases u (if r = .esd then commandSpot i .shutoff .toShut u else u) :=
    .ite (fun _ => releases_commandSpot i u _ _) fun _ => .refl u
  have held (u : State) (h : Releases s u) : Releases s (leaveCompressors i (if r = .esd then commandSpot i .shutoff .toShut u else u)) :=
    (h.trans (esd u)).trans (releases_leaveCompressors i _)
  unfold addHold
  dsimp only
  refine .ite (fun _ => .refl s) fun _ => ?_
  cases (s.spot i).state
  case connected => exact held _ (.of_vessels rfl)
  case staged => exact held _ (.of_vessels rfl)
  case transfer => exact held _ (.of_vessels rfl)
  case recovery => exact held _ (.of_vessels rfl)
  case held => exact (Releases.modSpot i s _).trans (esd _)
  all_goals exact .refl s

theorem releases_becomeHead : Releases s (becomeHead i s) := by
  unfold becomeHead
  dsimp only
  refine .ite (fun _ => .of_vessels rfl) fun _ => .ite (fun _ => ?_) fun _ => .of_vessels rfl
  refine .trans ?_ (releases_addHold i _ _)
  exact .of_vessels rfl

theorem releases_nextHead : Releases s (nextHead i s) := by
  have running : Releases s
      (if (s.spot i).orders.isEmpty then (s.modSpot i Spot.stopMeter).modSpot i fun sp => { sp with state := .connected, pulses := 0 }
       else becomeHead i (s.modSpot i Spot.stopMeter)) :=
    .ite (fun _ => .of_vessels rfl) fun _ => (Releases.modSpot i s _).trans (releases_becomeHead i _)
  unfold nextHead
  dsimp only
  cases (s.spot i).state
  case staged => exact running
  case transfer => exact running
  case recovery => exact running
  case held => exact .ite (fun _ => .of_vessels rfl) fun _ => releases_becomeHead i s
  all_goals exact .refl s

theorem releases_endQueue (a b : EndReason) : Releases s (endQueue a b i s) := by
  unfold endQueue
  split
  · exact .refl s
  · refine .trans ?_ (releases_departs i _ _ _)
    exact .ite (fun _ => .refl s) fun _ => .ite (fun _ => .of_vessels rfl) fun _ => releases_depart i s _

theorem releases_enterIsolating (a b : EndReason) (f : Option SpotFault) : Releases s (enterIsolating a b f i s) := by
  have hleave := (releases_endQueue i s a b).trans (releases_leaveCompressors i _)
  unfold enterIsolating
  dsimp only
  generalize leaveCompressors i (endQueue a b i s) = u at hleave
  rw [shutAll_eq]
  exact hleave.trans (.of_vessels rfl)

theorem releases_headGone (b : Bool) : Releases s (headGone i b s) :=
  .ite (fun _ => releases_enterIsolating i s _ _ _) fun _ => releases_nextHead i s

theorem releases_drainHead (r : EndReason) : Releases s (drainHead i r s) := by
  unfold drainHead
  refine .trans (.trans ?_ (releases_leaveCompressors i _)) (releases_commandSpot i _ _ _)
  exact .of_vessels rfl

theorem releases_headLeaves (h : Order) (r : EndReason) : Releases s (headLeaves i h r s) := by
  unfold headLeaves
  refine .trans (.trans (.trans ?_ (releases_leaveCompressors i _)) (releases_depart i _ _)) (releases_headGone i _ _)
  exact .ite (fun _ => .of_vessels rfl) fun _ => .refl s

theorem releases_endHead (r : EndReason) : Releases s (endHead i r s) := by
  unfold endHead
  split
  · exact .refl s
  · exact .ite (fun _ => releases_drainHead i s r) fun _ => releases_headLeaves i s _ r

theorem releases_onDrained : Releases s (onDrained i s) := by
  unfold onDrained
  split
  · exact .refl s
  · refine .ite (fun _ => ?_) fun _ => .refl s
    exact (((releases_commandSpot i s _ _).trans (releases_leaveCompressors i _)).trans (releases_depart i _ _)).trans
      (releases_headGone i _ _)

theorem releases_onVentShut : Releases s (onVentShut i s) := by
  unfold onVentShut State.modCarAt
  dsimp only
  refine .ite (fun _ => ?_) fun _ => .refl s
  split <;> exact .of_vessels rfl

theorem vessels_endSpotTest : (endSpotTest i s).vessels = s.vessels := congrArg Frame.vessels (endSpotTest_frame i s)

theorem releases_onStrokeShut : Releases s (onStrokeShut i s) := by
  unfold onStrokeShut passStroke
  dsimp only
  split
  · refine .ite (fun _ => ?_) fun _ => .refl s
    split
    · exact .of_vessels rfl
    · exact .of_vessels (vessels_endSpotTest i _)
  · exact .refl s

theorem releases_onStrokeOpen : Releases s (onStrokeOpen i s) := by
  unfold onStrokeOpen
  dsimp only
  split
  · exact .ite (fun _ => .of_vessels rfl) fun _ => .refl s
  · exact .refl s

theorem releases_onStrokeTurn : Releases s (onStrokeTurn i s) := by
  unfold onStrokeTurn
  dsimp only
  split
  · exact .ite (fun _ => .of_vessels rfl) fun _ => .refl s
  · exact .refl s

theorem releases_advanceSpot : Releases s (advanceSpot i s) := by
  have shutoff : Releases s (onShutoffOpen i s) := .ite (fun _ => .of_vessels rfl) fun _ => .refl s
  have liquid (u : State) : Releases u (onLiquidOpen i u) := .ite (fun _ => .of_vessels rfl) fun _ => .refl u
  have resumed (u : State) : Releases u (onResumed i u) := .ite (fun _ => .of_vessels rfl) fun _ => .refl u
  have lines (u : State) : Releases u (onLinesShut i u) := .ite (fun _ => .of_vessels rfl) fun _ => .refl u
  have vent (u : State) : Releases u (onVentOpen i u) := .ite (fun _ => .of_vessels rfl) fun _ => .refl u
  unfold advanceSpot
  exact ((((((((shutoff.trans (liquid _)).trans (releases_onDrained i _)).trans (resumed _)).trans (lines _)).trans (vent _)).trans
    (releases_onVentShut i _)).trans (releases_onStrokeOpen i _)).trans (releases_onStrokeShut i _)).trans (releases_onStrokeTurn i _)

theorem releases_sweepCut : Releases s (sweepCut i s) := by
  have leave (u : State) : Releases u (((u.spot i).orders.filter Order.isCut).foldl (fun s o => depart i o s) u) :=
    releases_departs i u id _
  unfold sweepCut
  split
  · exact .refl s
  · dsimp only
    refine .ite (fun _ => .ite (fun _ => ?_) fun _ => .ite (fun _ => releases_enterIsolating i s _ _ _) fun _ => ?_) fun _ => leave s
    · exact (releases_drainHead i s _).trans (leave _)
    · exact ((releases_leaveCompressors i s).trans (leave _)).trans (releases_nextHead i _)

theorem releases_runHead : Releases s (runHead i s) := by
  unfold runHead
  dsimp only
  split
  · exact .refl s
  · refine .ite (fun _ => .of_vessels rfl) fun _ => .ite (fun _ => ?_) fun _ => .of_vessels rfl
    exact (releases_endHead i s _).trans (releases_advanceSpot i _)

end Ops

theorem releases_performDue (d : Due) (s : State) : Releases s (performDue d s) := by
  cases d with
  | run i => exact releases_runHead i s
  | join => exact .of_vessels rfl
  | seat g c => exact .of_vessels (vessels_grantSeat c g s)
  | turn i c => exact .of_vessels (vessels_markTurning i c s)

theorem releases_settle (s : State) : Releases s (settle s) := by
  suffices h : ∀ n s, Releases s (settleFor n s) from h _ s
  intro n
  induction n with
  | zero => exact .refl
  | succ n ih =>
    intro s
    unfold settleFor
    split
    · exact .refl s
    · exact (releases_performDue _ s).trans (ih _)

/-- What the cut rule does to the orders releases what they held. -/
theorem releases_sweeps (s : State) : Releases s (eachSpot (fun i s => advanceSpot i (sweepCut i s)) s) :=
  .foldl (fun s i => (releases_sweepCut i s).trans (releases_advanceSpot i _)) _ s

theorem Releases.reserved {s t : State} (h : Releases s t) (v : VesselNo) : (t.vessel v).reserved ≤ (s.vessel v).reserved :=
  ((h v).map _).sum_le_sum fun _ _ => Nat.zero_le _

end Sys2Proof.Machine
end

section
/-! PROOFS. The cut rule in numbers (R89, R95, R96): the litres it takes, the reserved total it leaves and the orders whose end it
decides. -/

namespace Sys2Proof.Machine

/-! ## The walk over the entries -/

/-- The entry as it stood before the cut. -/
def CutEntry.before (t : CutEntry) : Entry := { t.entry with remainder := t.entry.remainder + t.taken }

theorem cutWalk_before : ∀ (x : Nat) (l : List Entry), (cutWalk x l).map CutEntry.before = l
  | _, [] => rfl
  | x, e :: l => by
    unfold cutWalk
    rw [List.map_cons, cutWalk_before]
    refine congrArg (· :: l) ?_
    unfold CutEntry.before
    have h : e.remainder - min x e.remainder + min x e.remainder = e.remainder := by omega
    rw [h]

theorem cutWalk_taken : ∀ (x : Nat) (l : List Entry), ((cutWalk x l).map (·.taken)).sum = min x (l.map (·.remainder)).sum
  | x, [] => by simp [cutWalk]
  | x, e :: l => by
    unfold cutWalk
    simp only [List.map_cons, List.sum_cons]
    rw [cutWalk_taken]
    omega

theorem cutWalk_left : ∀ (x : Nat) (l : List Entry), ((cutWalk x l).map (·.entry.remainder)).sum = (l.map (·.remainder)).sum - x
  | x, [] => by simp [cutWalk]
  | x, e :: l => by
    unfold cutWalk
    simp only [List.map_cons, List.sum_cons]
    rw [cutWalk_left]
    omega

section Vessel

variable (r : Vessel)

theorem Vessel.afterCuts_fits {r : Vessel} (h : r.reserved ≤ r.available) : r.afterCuts = r ∧ r.cuts = [] := ⟨if_pos h, if_pos h⟩

theorem Vessel.cuts_eq {r : Vessel} (h : ¬ r.reserved ≤ r.available) : r.cuts = cutWalk (r.reserved - r.available) r.entries.reverse := if_neg h

theorem Vessel.afterCuts_entries {r : Vessel} (h : ¬ r.reserved ≤ r.available) : r.afterCuts = { r with entries := (r.cuts.map (·.entry)).reverse } :=
  if_neg h

theorem Vessel.cuts_before {r : Vessel} (h : ¬ r.reserved ≤ r.available) : (r.cuts.map CutEntry.before).reverse = r.entries := by
  rw [cuts_eq h, cutWalk_before, List.reverse_reverse]

theorem Vessel.reverse_reserved : (r.entries.reverse.map (·.remainder)).sum = r.reserved := by
  rw [List.map_reverse, List.sum_reverse]
  rfl

theorem Vessel.afterCuts_available : r.afterCuts.available = r.available := by
  unfold Vessel.afterCuts
  split <;> rfl

/-- The litres of the cut are the excess. -/
theorem Vessel.cuts_taken : (r.cuts.map (·.taken)).sum = r.reserved - r.available := by
  by_cases h : r.reserved ≤ r.available
  · rw [(afterCuts_fits h).2]
    simp only [List.map_nil, List.sum_nil]
    omega
  · rw [cuts_eq h, cutWalk_taken, reverse_reserved]
    omega

/-- The cut leaves the smaller of the reserved total and the available ullage. -/
theorem Vessel.afterCuts_reserved : r.afterCuts.reserved = min r.reserved r.available := by
  by_cases h : r.reserved ≤ r.available
  · rw [(afterCuts_fits h).1]
    omega
  · rw [afterCuts_entries h]
    unfold Vessel.reserved
    dsimp only
    rw [List.map_reverse, List.sum_reverse, List.map_map]
    have hleft := cutWalk_left (r.reserved - r.available) r.entries.reverse
    rw [reverse_reserved, ← cuts_eq h] at hleft
    have e : ((r.cuts.map ((·.remainder) ∘ (·.entry))).sum : Nat) = (r.cuts.map (·.entry.remainder)).sum := rfl
    rw [e, hleft]
    unfold Vessel.reserved at *
    omega

/-- The entries of a list, each with what the cut makes of it. -/
theorem Vessel.cuts_zip {r : Vessel} (h : ¬ r.reserved ≤ r.available) :
    r.entries.zip r.afterCuts.entries = r.cuts.reverse.map fun t => (t.before, t.entry) := by
  rw [afterCuts_entries h]
  dsimp only
  conv => lhs; arg 1; rw [← cuts_before h]
  rw [← List.map_reverse, ← List.map_reverse, List.zip_map']

end Vessel

/-! ## The orders whose end the cut decides -/

/-- A LIQUID order that is not DRAINING: a cut to 0 decides its end (R96). -/
def Order.cuttable (o : Order) : Bool := o.liquid.isSome && o.state != .draining

theorem Order.cutBy_tag (n m : Nat) (o : Order) : (o.cutBy n m).tag = o.tag := (o.cutTo_cutBy n m).tag

theorem Order.cutBy_cuttable (n m : Nat) (o : Order) : (o.cutBy n m).cuttable = o.cuttable := by
  unfold Order.cutBy Order.cuttable
  cases h : o.liquid with
  | none => simp [h]
  | some l => simp

theorem Order.cutBy_isCut {o : Order} (n m : Nat) (h : o.isCut = false) : (o.cutBy n m).isCut = (m == 0 && o.cuttable) := by
  unfold Order.cutBy Order.cuttable
  cases hl : o.liquid with
  | none => simp [h]
  | some l =>
    unfold Order.isCut at *
    by_cases hm : m = 0 ∧ o.state ≠ .draining
    · simp [hm]
    · have hstays : (o.reason == some .cut && o.state != .draining) = false := h
      dsimp only
      rw [if_neg hm, hstays]
      by_cases h0 : m = 0
      · have hd : o.state = .draining := by
          by_contra hd
          exact hm ⟨h0, hd⟩
        simp [hd]
      · simp [h0]

theorem modOrder_unnamed {q : List Order} {tag : Word16} (f : Order → Order) (h : tag ∉ q.map Order.tag) :
    (q.map fun o => if o.tag = tag then f o else o) = q := by
  refine (List.map_congr_left fun o ho => if_neg fun e => h ?_).trans (List.map_id q)
  rw [← e]
  exact List.mem_map_of_mem ho

/-- The cut of one entry decides the end of one order at most. -/
theorem cut_count {tag : Word16} (n m : Nat) : ∀ {q : List Order}, (q.map Order.tag).Nodup → (∀ o ∈ q, o.tag = tag → o.isCut = false) →
    (q.map fun o => if o.tag = tag then o.cutBy n m else o).countP Order.isCut =
      q.countP Order.isCut + if (m == 0 && (q.find? fun o => o.tag == tag).any Order.cuttable) = true then 1 else 0
  | [], _, _ => by simp
  | o :: q, hn, h => by
    obtain ⟨ho, hn⟩ := List.nodup_cons.mp hn
    rw [List.map_cons, List.countP_cons, List.countP_cons]
    by_cases e : o.tag = tag
    · have hcut := h o List.mem_cons_self e
      rw [if_pos e, modOrder_unnamed _ (e ▸ ho), Order.cutBy_isCut n m hcut, hcut, List.find?_cons_of_pos (by simpa using e)]
      simp
    · rw [if_neg e, cut_count n m hn (fun p hp => h p (List.mem_cons_of_mem _ hp)), List.find?_cons_of_neg (by simpa using e)]
      omega

/-- The orders of the siding whose end a cut has decided and that have not left. -/
def State.cutOrders (s : State) : Nat := (allSpots.map fun i => ((s.spot i).orders.filter Order.isCut).length).sum

theorem sum_bumped {α : Type} {f g : α → Nat} {a : α} {k : Nat} (hother : ∀ b, b ≠ a → g b = f b) (hat : g a = f a + k) :
    ∀ {l : List α}, l.Nodup → a ∈ l → (l.map g).sum = (l.map f).sum + k
  | b :: l, hn, hm => by
    obtain ⟨hb, hn⟩ := List.nodup_cons.mp hn
    simp only [List.map_cons, List.sum_cons]
    by_cases e : b = a
    · subst e
      have hrest : l.map g = l.map f := List.map_congr_left fun c hc => hother c fun e => hb (e ▸ hc)
      rw [hrest, hat]
      omega
    · rw [hother b e, sum_bumped hother hat hn ((List.mem_cons.mp hm).resolve_left (Ne.symm e))]
      omega

/-- One entry's litres taken from its order (R96). -/
def cutStep (s : State) (t : CutEntry) : State :=
  s.modSpot t.entry.spot (Spot.modOrder t.entry.tag (Order.cutBy t.taken t.entry.remainder))

theorem applyCuts_eq (v : VesselNo) (s : State) : applyCuts v s =
    ((s.vessel v).cuts.filter fun t => t.taken ≠ 0).foldl cutStep (s.modVessel v Vessel.afterCuts) := rfl

/-- What a spot's order of a tag becomes. -/
theorem Spot.order_modOrder {tag : Word16} {f : Order → Order} (hf : ∀ o, (f o).tag = o.tag) (sp : Spot) (tag' : Word16) :
    (sp.modOrder tag f).order tag' = if tag' = tag then (sp.order tag').map f else sp.order tag' := by
  have hp : (fun o : Order => (if o.tag = tag then f o else o).tag == tag') = fun o => o.tag == tag' := by
    funext o
    split
    · rw [hf]
    · rfl
  have hfind : (sp.modOrder tag f).order tag' = (sp.order tag').map fun o => if o.tag = tag then f o else o := by
    unfold Spot.order Spot.modOrder
    dsimp only
    rw [List.find?_map]
    exact congrArg (fun p => Option.map (fun o : Order => if o.tag = tag then f o else o) (sp.orders.find? p)) hp
  rw [hfind]
  cases h : sp.order tag' with
  | none => simp
  | some o =>
    have ht := Spot.order_tag h
    simp only [Option.map_some, ht]
    split <;> rfl

section Count

/-- The entry comes to 0 and its order is not DRAINING: its end is decided. -/
def CutEntry.ends (s : State) (t : CutEntry) : Bool := t.entry.remainder == 0 && ((s.spot t.entry.spot).order t.entry.tag).any Order.cuttable

def CutEntry.key (t : CutEntry) : SpotNo × Word16 := (t.entry.spot, t.entry.tag)

theorem cutStep_order (s : State) (t : CutEntry) (i : SpotNo) (tag : Word16) : ((cutStep s t).spot i).order tag =
    if (i, tag) = t.key then ((s.spot i).order tag).map (Order.cutBy t.taken t.entry.remainder) else (s.spot i).order tag := by
  unfold cutStep CutEntry.key
  by_cases e : i = t.entry.spot
  · rw [e, modSpot_spot_same, Spot.order_modOrder (Order.cutBy_tag _ _)]
    simp
  · rw [modSpot_spot_other _ _ _ _ e, if_neg fun h => e (congrArg Prod.fst h)]

theorem cutStep_tags (s : State) (t : CutEntry) (i : SpotNo) : ((cutStep s t).spot i).orders.map Order.tag = (s.spot i).orders.map Order.tag := by
  unfold cutStep
  by_cases e : i = t.entry.spot
  · rw [e, modSpot_spot_same]
    unfold Spot.modOrder
    dsimp only
    rw [List.map_map]
    refine List.map_congr_left fun o _ => ?_
    show (if o.tag = t.entry.tag then o.cutBy _ _ else o).tag = o.tag
    split
    · exact Order.cutBy_tag _ _ o
    · rfl
  · rw [modSpot_spot_other _ _ _ _ e]

theorem cutStep_ends (s : State) (t u : CutEntry) : u.ends (cutStep s t) = u.ends s := by
  unfold CutEntry.ends
  rw [cutStep_order]
  split
  · cases (s.spot u.entry.spot).order u.entry.tag with
    | none => rfl
    | some o => simp [Order.cutBy_cuttable]
  · rfl

theorem cutStep_count {s : State} {t : CutEntry} (hn : ((s.spot t.entry.spot).orders.map Order.tag).Nodup)
    (h : ∀ o ∈ (s.spot t.entry.spot).orders, o.tag = t.entry.tag → o.isCut = false) :
    (cutStep s t).cutOrders = s.cutOrders + if t.ends s = true then 1 else 0 := by
  refine sum_bumped (fun j hj => ?_) ?_ allSpots_nodup (mem_allSpots t.entry.spot)
  · unfold cutStep
    rw [modSpot_spot_other _ _ _ _ hj]
  · have hc := cut_count t.taken t.entry.remainder hn h
    unfold cutStep
    rw [modSpot_spot_same, ← List.countP_eq_length_filter, ← List.countP_eq_length_filter]
    exact hc

/-- No order that the entries name is marked as cut. -/
def State.uncut (s : State) (l : List CutEntry) : Prop := ∀ t ∈ l, ∀ o ∈ (s.spot t.entry.spot).orders, o.tag = t.entry.tag → o.isCut = false

theorem cuts_count : ∀ (l : List CutEntry) (s : State), (l.map CutEntry.key).Nodup → (∀ i, ((s.spot i).orders.map Order.tag).Nodup) →
    s.uncut l → (l.foldl cutStep s).cutOrders = s.cutOrders + l.countP (CutEntry.ends s)
  | [], _, _, _, _ => rfl
  | t :: l, s, hk, hn, hu => by
    obtain ⟨ht, hk⟩ := List.nodup_cons.mp hk
    have hrest : (cutStep s t).uncut l := fun u hul o ho hot => by
      have hkey : u.key ≠ t.key := fun e => ht (e ▸ List.mem_map_of_mem hul)
      have hmem : ∃ p ∈ (s.spot u.entry.spot).orders, p.tag = u.entry.tag ∧ o = p := by
        unfold cutStep at ho
        by_cases e : u.entry.spot = t.entry.spot
        · rw [e, modSpot_spot_same] at ho
          obtain ⟨p, hp, rfl⟩ := List.mem_map.mp ho
          have hpt : p.tag ≠ t.entry.tag := fun hpt => by
            rw [if_pos hpt, Order.cutBy_tag] at hot
            exact hkey (Prod.ext e (hot.symm.trans hpt))
          rw [if_neg hpt] at hot ⊢
          exact ⟨p, e ▸ hp, hot, rfl⟩
        · rw [modSpot_spot_other _ _ _ _ e] at ho
          exact ⟨o, ho, hot, rfl⟩
      obtain ⟨p, hp, hpt, rfl⟩ := hmem
      exact hu u (List.mem_cons_of_mem _ hul) o hp hpt
    rw [List.foldl_cons, cuts_count l _ hk (fun i => by rw [cutStep_tags]; exact hn i) hrest,
      cutStep_count (hn _) (hu t List.mem_cons_self), List.countP_cons]
    have hends : l.countP (CutEntry.ends (cutStep s t)) = l.countP (CutEntry.ends s) := List.countP_congr fun u _ => by rw [cutStep_ends]
    rw [hends]
    omega

end Count

end Sys2Proof.Machine
end

section
/-! PROOFS. GAUGE (R88, R89, R95). -/

namespace Sys2Proof.Machine

/-! ## The cut rule's work -/

theorem spotWork_sweepCut (i : SpotNo) (s : State) : SpotWork i s (sweepCut i s) := by
  have leave (u : State) : SpotWork i u (((u.spot i).orders.filter Order.isCut).foldl (fun s o => depart i o s) u) :=
    spotWork_departs i u id _
  unfold sweepCut
  split
  · exact .refl i s
  · dsimp only
    refine .ite (fun _ => .ite (fun _ => ?_) fun _ => .ite (fun _ => spotWork_enterIsolating i s _ _ _) fun _ => ?_) fun _ => leave s
    · exact (spotWork_drainHead i s _).trans (leave _)
    · exact ((spotWork_leaveCompressors i s).trans (leave _)).trans (spotWork_nextHead i _)

theorem kept_cutStep (s : State) (t : CutEntry) : Kept s (cutStep s t) := .modSpot _ _ s

theorem kept_applyCuts (v : VesselNo) (s : State) : Kept s (applyCuts v s) := by
  rw [applyCuts_eq]
  exact (Kept.modVessel v _ s).trans (.foldl kept_cutStep _ _)

theorem kept_runCut (v : VesselNo) (s : State) : Kept s (runCut v s) := by
  unfold runCut
  split
  · exact .refl s
  · exact (kept_applyCuts v s).trans
      (.eachSpot (fun i s => (spotWork_sweepCut i s).kept.trans (spotWork_advanceSpot i _).kept) _)

theorem applyCuts_vessel (v : VesselNo) (s : State) : (applyCuts v s).vessel v = (s.vessel v).afterCuts := by
  rw [applyCuts_eq]
  refine (foldl_keeps (fun s : State => s.vessel v) cutStep (fun _ _ => rfl) _ _).trans ?_
  exact modVessel_vessel_same _ _ _

/-- The cut rule leaves at most the available ullage reserved. -/
theorem runCut_reserved (v : VesselNo) (s : State) : ((runCut v s).vessel v).reserved ≤ (s.vessel v).available := by
  unfold runCut
  split
  next h => exact h
  next h =>
    refine ((releases_sweeps (applyCuts v s)).reserved v).trans ?_
    rw [applyCuts_vessel, Vessel.afterCuts_reserved]
    exact Nat.min_le_right _ _

theorem runCut_fits {v : VesselNo} {s : State} (h : (s.vessel v).reserved ≤ (s.vessel v).available) : runCut v s = s := if_pos h

theorem Vessel.available_of_store {r r' : Vessel} (h : r'.store = r.store) : r'.available = r.available := by
  have h1 : r'.gaugedFree = r.gaugedFree := by
    have e := congrArg Vessel.gaugedFree h
    exact e
  have h2 : r'.counter = r.counter := by
    have e := congrArg Vessel.counter h
    exact e
  have h3 : r'.stamp = r.stamp := by
    have e := congrArg Vessel.stamp h
    exact e
  unfold Vessel.available
  rw [h1, h2, h3]

/-! ## What one run of the cut rule counts (R89) -/

theorem cutResult_litres (v : VesselNo) (s : State) : (cutResult v s).litres = (s.vessel v).reserved - (s.vessel v).available :=
  Vessel.cuts_taken _

theorem cutResult_reserved (v : VesselNo) (s : State) : (cutResult v s).reserved = min (s.vessel v).reserved (s.vessel v).available := by
  show ((applyCuts v s).vessel v).reserved = _
  rw [applyCuts_vessel, Vessel.afterCuts_reserved]

theorem cutOrders_legal {s : State} (hq : ∀ i, (s.spot i).queueLegal) : (∀ i, ∀ o ∈ (s.spot i).orders, o.isCut = false) ∧ s.cutOrders = 0 := by
  have huncut (i : SpotNo) : ∀ o ∈ (s.spot i).orders, o.isCut = false := fun o ho => by
    obtain ⟨-, hreason, -⟩ := hq i
    refine eq_false_of_ne_true fun hc => ?_
    obtain ⟨h1, h2⟩ := isCut_iff.mp hc
    exact h2 (hreason o ho (by rw [h1]; exact nofun))
  refine ⟨huncut, ?_⟩
  unfold State.cutOrders
  have hzero : (allSpots.map fun i => ((s.spot i).orders.filter Order.isCut).length) = allSpots.map fun _ => 0 :=
    List.map_congr_left fun i _ => by
      rw [List.filter_eq_nil_iff.mpr fun o ho => by rw [huncut i o ho]; exact Bool.false_ne_true]
      rfl
  rw [hzero]
  rfl

/-- The statement's count of the orders a cut ends: the entries that come to 0 with an order that is not DRAINING. -/
def Vessel.endedBy (s : State) (r : Vessel) : Nat :=
  ((r.entries.zip r.afterCuts.entries).filter fun p => p.1.remainder != 0 && p.2.remainder == 0 &&
    ((s.spot p.1.spot).order p.1.tag).any fun o => o.liquid.isSome && o.state != .draining).length

theorem cutResult_ended {v : VesselNo} {s : State} (hq : ∀ i, (s.spot i).queueLegal)
    (hn : ((s.vessel v).entries.map fun e => (e.spot, e.tag)).Nodup) : (cutResult v s).ended = (s.vessel v).endedBy s := by
  obtain ⟨huncut, hzero⟩ := cutOrders_legal hq
  show (applyCuts v s).cutOrders = _
  rw [applyCuts_eq]
  by_cases h : (s.vessel v).reserved ≤ (s.vessel v).available
  · obtain ⟨hafter, hcuts⟩ := Vessel.afterCuts_fits h
    have hnone : (s.vessel v).endedBy s = 0 := by
      have hzip : (s.vessel v).entries.zip (s.vessel v).entries = (s.vessel v).entries.map fun e => (e, e) := by
        have e := List.zip_map' (l := (s.vessel v).entries) (f := id) (g := id)
        rwa [List.map_id] at e
      unfold Vessel.endedBy
      rw [hafter, hzip, List.filter_map, List.length_map, List.length_eq_zero_iff, List.filter_eq_nil_iff]
      intro e _
      by_cases he : e.remainder = 0 <;> simp [he]
    rw [hcuts, hnone]
    exact hzero
  · have hkeys : ((s.vessel v).cuts.map CutEntry.key).Nodup := by
      have e : ((s.vessel v).cuts.map CutEntry.key) = ((s.vessel v).cuts.map CutEntry.before).map fun e => (e.spot, e.tag) := by
        rw [List.map_map]
        rfl
      rw [e, ← List.nodup_reverse, ← List.map_reverse, Vessel.cuts_before h]
      exact hn
    rw [cuts_count _ (s.modVessel v Vessel.afterCuts) (hkeys.sublist (List.filter_sublist.map _)) (fun i => (hq i).1) fun t _ o ho _ => huncut _ o ho]
    have hbase : (s.modVessel v Vessel.afterCuts).cutOrders = 0 := hzero
    rw [hbase, Nat.zero_add]
    unfold Vessel.endedBy
    rw [Vessel.cuts_zip h, List.filter_map, List.length_map, List.filter_reverse, List.length_reverse, ← List.countP_eq_length_filter,
      List.countP_filter]
    refine List.countP_congr fun t _ => ?_
    have hsame : t.ends (s.modVessel v Vessel.afterCuts) = t.ends s := rfl
    rw [hsame]
    unfold CutEntry.ends CutEntry.before Order.cuttable
    by_cases h0 : t.entry.remainder = 0
    · by_cases ht : t.taken = 0 <;> simp [h0, ht]
    · simp [h0]

end Sys2Proof.Machine
end

section
/-! PROOFS. GAUGE: its checks and its reply (R88, R89). -/

namespace Sys2Proof.Machine

def Vessel.gauge (free stamp : Word32) (r : Vessel) : Vessel := { r with gaugedFree := free.toNat, stamp := stamp }

/-- The records with the vessel's new reading, before the cut rule. -/
def State.gauged (s : State) (v : VesselNo) (free stamp : Word32) : State := (s.touchVessel v).modVessel v (Vessel.gauge free stamp)

theorem gauged_vessel (s : State) (v : VesselNo) (free stamp : Word32) : (s.gauged v free stamp).vessel v = (s.vessel v).gauge free stamp :=
  modVessel_vessel_same _ _ _

/-- The reply of an accepted GAUGE (R89). -/
def gaugeReply (s : State) (v : VesselNo) (free stamp : Word32) : List Byte :=
  nat32 (s.vessel v).gaugedFree ++ chars32 (s.vessel v).stamp ++ chars32 (s.vessel v).counter ++
    nat32 ((s.gauged v free stamp).vessel v).available ++ nat32 (cutResult v (s.gauged v free stamp)).reserved ++
    nat32 (cutResult v (s.gauged v free stamp)).litres ++ nat8 (cutResult v (s.gauged v free stamp)).ended

section Answer

variable {b : Byte} {s : State} {v : VesselNo} {free stamp : Word32} (hn : s.namedVessel b = .ok v)

include hn

theorem answerGauge_range (h : s.capacity v < free.toNat) :
    answerGauge b free stamp s = (s, { status := .range, body := chars32 (s.vessel v).counter }) := by
  unfold answerGauge
  rw [withVessel_ok _ hn]
  exact if_pos h

variable (h1 : free.toNat ≤ s.capacity v)

include h1

theorem answerGauge_badStamp (h : 1000000 < ((s.vessel v).counter - stamp).toNat) :
    answerGauge b free stamp s = (s, { status := .badStamp, body := chars32 (s.vessel v).counter }) := by
  unfold answerGauge
  rw [withVessel_ok _ hn]
  dsimp only
  rw [if_neg (by omega)]
  exact if_pos h

theorem answerGauge_done (h : ((s.vessel v).counter - stamp).toNat ≤ 1000000) :
    answerGauge b free stamp s = (settle (runCut v (s.gauged v free stamp)), .ok (gaugeReply s v free stamp)) := by
  unfold answerGauge
  rw [withVessel_ok _ hn]
  dsimp only
  rw [if_neg (by omega), if_neg (show ¬ Config.stampWindow < _ from Nat.not_lt.mpr h)]
  rfl

end Answer

theorem capacity_of_frame {s u : State} (h : u.frame = s.frame) (v : VesselNo) : u.capacity v = s.capacity v := by
  have hp : u.profile = s.profile := congrArg Frame.profile h
  unfold State.capacity State.vesselData
  rw [hp]

/-! ## The reply in the records before the request -/

section Reply

variable {s u : State} (hu : u.frame = s.frame) (v : VesselNo) (free stamp : Word32)

include hu

theorem gaugeReply_legal (hq : ∀ i, (s.spot i).queueLegal) {r : Vessel} (hr : r = (s.vessel v).gauge free stamp)
    (hnd : (r.entries.map fun e => (e.spot, e.tag)).Nodup) : gaugeReply u v free stamp =
      nat32 (s.vessel v).gaugedFree ++ chars32 (s.vessel v).stamp ++ chars32 r.counter ++ nat32 r.available ++
        nat32 (min r.reserved r.available) ++ nat32 (r.reserved - r.available) ++ nat8 (r.endedBy s) := by
  have hspot (i : SpotNo) : (u.gauged v free stamp).spot i = s.spot i := spot_of_frame hu (i := i)
  have hv : (u.gauged v free stamp).vessel v = r := by rw [gauged_vessel, vessel_of_frame hu, hr]
  have hended : (cutResult v (u.gauged v free stamp)).ended = r.endedBy s := by
    rw [cutResult_ended (fun i => by rw [hspot]; exact hq i) (by rw [hv]; exact hnd), hv]
    unfold Vessel.endedBy
    simp only [hspot]
  unfold gaugeReply
  rw [hended, cutResult_reserved, cutResult_litres, hv, vessel_of_frame hu, hr]
  rfl

/-- Where the reservations fit, the cut takes nothing. -/
theorem gaugeReply_fits (hq : ∀ i, (s.spot i).queueLegal)
    (hfit : ((s.vessel v).gauge free stamp).reserved ≤ ((s.vessel v).gauge free stamp).available) : gaugeReply u v free stamp =
      nat32 (s.vessel v).gaugedFree ++ chars32 (s.vessel v).stamp ++ chars32 (s.vessel v).counter ++
        nat32 ((s.vessel v).gauge free stamp).available ++ nat32 ((s.vessel v).gauge free stamp).reserved ++ [0, 0, 0, 0, 0] := by
  have hv : (u.gauged v free stamp).vessel v = (s.vessel v).gauge free stamp := by rw [gauged_vessel, vessel_of_frame hu]
  have hended : (cutResult v (u.gauged v free stamp)).ended = 0 := by
    have hnone : (applyCuts v (u.gauged v free stamp)).spots = s.spots := by
      rw [applyCuts_eq, hv, (Vessel.afterCuts_fits hfit).2]
      exact congrArg Frame.spots hu
    refine Eq.trans ?_ (cutOrders_legal hq).2
    show (applyCuts v (u.gauged v free stamp)).cutOrders = _
    unfold State.cutOrders
    simp only [spot_of_spots hnone]
  have hzero : nat32 0 ++ nat8 0 = [0, 0, 0, 0, 0] := by decide
  unfold gaugeReply
  rw [hended, cutResult_reserved, cutResult_litres, hv, vessel_of_frame hu, Nat.sub_eq_zero_of_le hfit, min_eq_left hfit, List.append_assoc,
    hzero]

end Reply

/-! ## A reading that fits -/

/-- What is due depends on the spots, the compressors, the grant queue, field enable and the profile. -/
theorem due_of_plant {s t : State} (hs : t.spots = s.spots) (hc : t.comps = s.comps) (hg : t.grants = s.grants) (hf : t.fe = s.fe)
    (hp : t.profile = s.profile) : t.due = s.due :=
  due_congr (funext fun i => headReady_congr (spot_of_spots hs i) hc) (funext fun i => mustJoin_congr (spot_of_spots hs i) hg) hg hc hf hp

/-- A reading into which the reservations fit changes the vessel alone. -/
theorem gauge_fits {s u : State} {v : VesselNo} {free stamp : Word32} (hu : u.frame = s.frame) (hx : u.scratch = .empty) (hdue : s.due = none)
    (hfit : ((s.vessel v).gauge free stamp).reserved ≤ ((s.vessel v).gauge free stamp).available) :
    (closeEvent u (settle (runCut v (u.gauged v free stamp)))).frame =
      { s.frame with vessels := s.vessels.set v ((s.vessel v).gauge free stamp) } := by
  have hvessel := vessel_of_frame hu v
  have hdue' : (u.gauged v free stamp).due = none := by
    rw [← hdue]
    exact due_of_plant (congrArg Frame.spots hu) (congrArg Frame.comps hu) (congrArg Frame.grants hu) (congrArg Frame.fe hu)
      (congrArg Frame.profile hu)
  have hvessels : u.vessels = s.vessels := congrArg Frame.vessels hu
  rw [runCut_fits (by rw [gauged_vessel, hvessel]; exact hfit), settle_none _ hdue',
    closeEvent_frame_quiet _ _ (by show u.scratch.departed = []; rw [hx]; rfl) (by show u.scratch.touched = 0; rw [hx]; rfl), ← hu,
    ← hvessels, ← hvessel]
  rfl

/-- Settles O38: the checks in order; the cut rule leaves no more reserved than is available, and what follows releases only; the
reply's numbers are those of the walk over the entries. -/
theorem gaugeSetsTheUllage : Obligations.GaugeSetsTheUllage := by
  intro s via b v free stamp ht hn
  have hname {u : State} (hu : u.frame = s.frame) : u.namedVessel b = .ok v := (namedVessel_of_frame hu b).trans hn
  refine ⟨fun h => ?_, fun h1 h => ?_, fun h1 h2 => ?_⟩
  · exact refuses_of (c := .gauge via b free stamp) ht rfl fun u hu => by
      rw [← vessel_of_frame hu]
      exact answerGauge_range (hname hu) (by rwa [capacity_of_frame hu])
  · exact refuses_of (c := .gauge via b free stamp) ht rfl fun u hu => by
      rw [← vessel_of_frame hu]
      exact answerGauge_badStamp (hname hu) (by rwa [capacity_of_frame hu]) (by rwa [vessel_of_frame hu])
  · obtain ⟨u, t, hu, ha, hframe, hch, -⟩ := answers_eventOf (c := .gauge via b free stamp) (s := s) ht rfl fun u hu =>
      answerGauge_done (free := free) (stamp := stamp) (hname hu) (by rwa [capacity_of_frame hu]) (by rwa [vessel_of_frame hu])
    have hstart : Kept u (u.gauged v free stamp) := (Kept.touchVessel v u).trans (.modVessel v _ _)
    have hcut : Kept (u.gauged v free stamp) (settle (runCut v (u.gauged v free stamp))) := (kept_runCut v _).trans (kept_settle _)
    have hflag : t.changes.vessels.getLsbD v = true := by
      rw [hch]
      refine vesselFlag_of_touched (hcut.vessels v ?_)
      simp [State.gauged, State.touchVessel]
    have hstore (x : VesselNo) : (t.vessel x).store = ((u.gauged v free stamp).vessel x).store := by
      rw [vessel_of_frame hframe, closeEvent_vessel]
      exact congrArg (fun g : Ground => g.stores x) ((ground_settle _).trans (ground_runCut v _))
    have hreserved : (t.vessel v).reserved ≤ (t.vessel v).available := by
      rw [Vessel.available_of_store (hstore v), vessel_of_frame hframe, closeEvent_vessel]
      exact ((releases_settle _).reserved v).trans (runCut_reserved v _)
    have hv := hstore v
    rw [gauged_vessel, vessel_of_frame hu.frame] at hv
    have hfree := congrArg Vessel.gaugedFree hv
    have hstamp := congrArg Vessel.stamp hv
    have hcounter := congrArg Vessel.counter hv
    refine ⟨⟨t, _, ha, hfree, hstamp, hcounter, hreserved, hflag, fun x hx => ?_, (hstart.trans hcut).sameStore hu.frame hframe⟩,
      fun hdue hq hfit => ?_, fun r hr hq hnd => ?_⟩
    · have h := hstore x
      have hother : (u.gauged v free stamp).vessel x = u.vessel x := modVessel_vessel_other (u.touchVessel v) _ _ _ hx
      rwa [hother, vessel_of_frame hu.frame] at h
    · have hfits : ((s.vessel v).gauge free stamp).reserved ≤ ((s.vessel v).gauge free stamp).available := hfit
      rw [gaugeReply_fits hu.frame v free stamp hq hfits] at ha
      exact ⟨t, ha, hframe.trans (gauge_fits hu.frame hu.scratch hdue hfits), hflag⟩
    · rw [gaugeReply_legal hu.frame v free stamp hq hr hnd] at ha
      exact ⟨t, ha⟩

end Sys2Proof.Machine
end

section
/-! PROOFS. What a compressor's work leaves of its direction valves: the limits, the supervision and a FAULT (R143, R144). A valve
taken up later stands the same (R142). -/

namespace Sys2Proof.Machine

/-! ## Valves that commands have moved -/

/-- A valve that commands have moved: its command, and its state and timer where it is not in FAULT. -/
def Valve.Moved (v w : Valve) : Prop :=
  ∃ c st tm, w = { v with command := c, state := st, timer := tm } ∧ w.isFault = v.isFault ∧ (v.isFault = true → st = v.state ∧ tm = v.timer)

theorem Valve.Moved.refl (v : Valve) : v.Moved v := ⟨v.command, v.state, v.timer, rfl, rfl, fun _ => ⟨rfl, rfl⟩⟩

theorem Valve.Moved.trans {v w x : Valve} (h : v.Moved w) (k : w.Moved x) : v.Moved x := by
  obtain ⟨c, st, tm, rfl, hf, hs⟩ := h
  obtain ⟨c', st', tm', rfl, kf, ks⟩ := k
  refine ⟨c', st', tm', rfl, kf.trans hf, fun h => ?_⟩
  obtain ⟨e1, e2⟩ := hs h
  obtain ⟨k1, k2⟩ := ks (hf.trans h)
  exact ⟨k1.trans e1, k2.trans e2⟩

theorem Valve.moved_pursue (stroke : Timer) (e : Bool) (v : Valve) : v.Moved (v.pursue stroke e) := by
  have hf := pursue_isFault stroke e v
  cases h : v.isFault
  case true =>
    rw [pursue_idle (by cases e <;> simp [h])]
    exact .refl v
  case false =>
    have hform : ∃ st tm, v.pursue stroke e = { v with state := st, timer := tm } := by
      unfold Valve.pursue
      repeat' split
      all_goals exact ⟨_, _, rfl⟩
    obtain ⟨st, tm, e⟩ := hform
    exact ⟨v.command, st, tm, e, hf, fun hv => absurd (h.symm.trans hv) Bool.false_ne_true⟩

theorem Valve.moved_command (c : Command) (v : Valve) : v.Moved { v with command := c } := ⟨c, v.state, v.timer, rfl, rfl, fun _ => ⟨rfl, rfl⟩⟩

theorem Valve.moved_told (stroke : Timer) (live : Bool) (c : Command) (v : Valve) : v.Moved (v.told stroke live c) :=
  (v.moved_command c).trans (moved_pursue _ _ _)

/-- The take-up forgets what commands have done. -/
theorem Valve.Moved.takeUp {v w : Valve} (h : v.Moved w) (stroke : Timer) : w.takeUp stroke = v.takeUp stroke := by
  obtain ⟨c, st, tm, rfl, hf, hs⟩ := h
  unfold Valve.takeUp
  dsimp only
  rw [hf]
  split
  next h =>
    obtain ⟨rfl, rfl⟩ := hs h
    rfl
  next =>
    unfold Valve.byLimits
    dsimp only
    split <;> rfl

/-- A valve taken up stands as a command SHUT leaves it. -/
theorem Valve.takeUp_told (stroke stroke' : Timer) (v : Valve) : (v.takeUp stroke).toldShut stroke' = v.takeUp stroke := by
  have hcommand : (v.takeUp stroke).command = .toShut := by
    unfold Valve.takeUp Valve.byLimits Valve.enterFault
    dsimp only
    repeat' split
    all_goals rfl
  have hstate : (v.takeUp stroke).isShut = true ∨ (v.takeUp stroke).state = some .movingShut ∨ (v.takeUp stroke).isFault = true := by
    unfold Valve.takeUp
    dsimp only
    split
    next h => exact .inr (.inr h)
    next =>
      unfold Valve.byLimits
      dsimp only
      split
      · exact .inl rfl
      · exact .inr (.inr rfl)
      · exact .inr (.inl rfl)
  have hsame : ({ v.takeUp stroke with command := .toShut } : Valve) = v.takeUp stroke := by rw [← hcommand]
  unfold Valve.toldShut
  rw [hsame]
  exact pursue_idle (.inl ⟨rfl, hstate⟩)

theorem Valve.release_told (stroke : Timer) (v : Valve) : v.release.toldShut stroke = v.release := pursue_idle (.inr (.inr rfl))

/-! ## A compressor outside its proof -/

/-- Work that keeps a compressor out of PROOF, where it was not in it, and moves its valves by commands alone. -/
def CompMoves (c : CompNo) (s t : State) : Prop :=
  (s.comp c).state ≠ .proof → (t.comp c).state ≠ .proof ∧ ∀ d, ((s.comp c).valve d).Moved ((t.comp c).valve d)

section Moves

variable {c : CompNo} {s t u : State}

theorem CompMoves.refl (c : CompNo) (s : State) : CompMoves c s s := fun h => ⟨h, fun _ => .refl _⟩

theorem CompMoves.trans (h : CompMoves c s t) (k : CompMoves c t u) : CompMoves c s u := fun hs => by
  obtain ⟨h1, h2⟩ := h hs
  obtain ⟨k1, k2⟩ := k h1
  exact ⟨k1, fun d => (h2 d).trans (k2 d)⟩

theorem CompRests.moves (r : CompRests c s t) : CompMoves c s t := fun h => by
  obtain ⟨x, hx⟩ := r.comp
  rw [hx]
  exact ⟨h, fun d => by cases d <;> exact .refl _⟩

/-- A change of a compressor beside its valves, to a state other than PROOF. -/
theorem CompMoves.mod {f : Comp → Comp} (hs : (s.comp c).state ≠ .proof → (f (s.comp c)).state ≠ .proof)
    (hv : ∀ d, (f (s.comp c)).valve d = (s.comp c).valve d) : CompMoves c s (s.modComp c f) := fun h => by
  rw [modComp_comp_same]
  exact ⟨hs h, fun d => by rw [hv]; exact .refl _⟩

theorem moves_commandDir (d : Direction) (x : Command) (c : CompNo) (s : State) : CompMoves c s (commandDir c d x s) := fun h => by
  rw [commandDir_eq, modComp_comp_same]
  refine ⟨by rw [Comp.state_of_bare (Comp.commanded_bare _ _ _ _ _)]; exact h, fun e => ?_⟩
  rw [Comp.commanded_valve]
  split
  next he =>
    rw [he]
    exact Valve.moved_told _ _ _ _
  next => exact .refl _

theorem moves_shutDirs (c : CompNo) (s : State) : CompMoves c s (shutDirs c s) := (moves_commandDir _ _ c s).trans (moves_commandDir _ _ c _)

theorem moves_stopComp (c : CompNo) (s : State) : CompMoves c s (stopComp c s) := by
  refine .trans (.mod ?_ ?_) (moves_shutDirs c _)
  · exact fun _ => nofun
  · exact fun d => by cases d <;> rfl

theorem moves_enterRunOn (c : CompNo) (s : State) : CompMoves c s (enterRunOn c s) := by
  unfold enterRunOn
  split
  · exact moves_stopComp c s
  · refine .mod ?_ ?_
    · exact fun _ => nofun
    · exact fun d => by cases d <;> rfl

theorem moves_compOnOpen (c : CompNo) (s : State) : CompMoves c s (compOnOpen c s) := fun h => by
  refine (?_ : CompMoves c s (compOnOpen c s)) h
  have wait : CompMoves c s (enterRunWait c s) := by
    refine .mod ?_ ?_
    · exact fun _ => nofun
    · exact fun d => by cases d <;> rfl
  unfold compOnOpen
  dsimp only
  split
  · split
    · split <;> [exact wait; exact .refl c s]
    · exact .refl c s
  · split
    · split <;> [exact wait; exact .refl c s]
    · exact .refl c s
  next e _ => exact absurd e h
  next e _ => exact absurd e h
  next e _ => exact absurd e h
  · exact .refl c s

theorem moves_compOnRun (c : CompNo) (s : State) : CompMoves c s (compOnRun c s) := fun h => by
  refine (?_ : CompMoves c s (compOnRun c s)) h
  unfold compOnRun
  dsimp only
  split
  · split
    · split
      · exact moves_enterRunOn c s
      · refine .mod ?_ ?_
        · exact fun _ => nofun
        · exact fun d => by cases d <;> rfl
    next e => exact absurd e h
    · exact .refl c s
  · exact .refl c s

theorem moves_compOnShut (c : CompNo) (s : State) : CompMoves c s (compOnShut c s) := fun h => by
  refine (?_ : CompMoves c s (compOnShut c s)) h
  unfold compOnShut
  dsimp only
  split
  · split
    · refine .mod ?_ ?_
      · exact id
      · exact fun d => by cases d <;> rfl
    · exact .refl c s
  next e _ => exact absurd e h
  next e _ => exact absurd e h
  next e _ => exact absurd e h
  next e _ => exact absurd e h
  · exact .refl c s

theorem moves_compOnGuard (c : CompNo) (s : State) : CompMoves c s (compOnGuard c s) := by
  unfold compOnGuard
  dsimp only
  split
  · split
    · refine .trans (.mod ?_ ?_) (moves_commandDir _ _ c _)
      · intro h
        split <;> exact h
      · intro d
        split <;> cases d <;> rfl
    · exact .refl c s
  · exact .refl c s

theorem moves_compPassGuard (c : CompNo) (s : State) : CompMoves c s (compPassGuard c s) :=
  ((moves_compOnGuard c s).trans (moves_compOnOpen c _)).trans (moves_compOnRun c _)

theorem moves_compAdvance (c : CompNo) (s : State) : CompMoves c s (compAdvance c s) :=
  (((moves_compOnOpen c s).trans (moves_compOnRun c _)).trans (moves_compOnShut c _)).trans (moves_compPassGuard c _)

theorem moves_enterReversing (c : CompNo) (d : Direction) (s : State) : CompMoves c s (enterReversing c d s) := by
  unfold enterReversing
  refine .trans (.trans ?_ (moves_shutDirs c _)) (moves_compAdvance c _)
  refine CompMoves.trans (t := s.touchComp c) (.refl c s) (.mod ?_ ?_)
  · exact fun _ => nofun
  · exact fun d => by cases d <;> rfl

theorem moves_compOnEmpty (c : CompNo) (s : State) : CompMoves c s (compOnEmpty c s) := by
  unfold compOnEmpty
  dsimp only
  split
  · split
    · split <;> [exact moves_enterReversing c _ s; exact .refl c s]
    · split <;> [exact moves_enterRunOn c s; exact .refl c s]
  · exact .refl c s

/-- The fault of the compressor itself. -/
theorem moves_faultComp (f : CompFault) (c : CompNo) (s : State) : CompMoves c s (faultComp f c s) := fun h => by
  refine ⟨by rw [faultComp_faulted]; exact nofun, fun d => ?_⟩
  have hbase : ((s.comp c).valve d).Moved (((faultedComp f c s).comp c).valve d) := by
    have hcomp : (faultedComp f c s).comp c = (s.comp c).faults s.strokeOfDirection s.fe f := modComp_comp_same _ _ _
    rw [hcomp]
    unfold Comp.faults
    dsimp only
    rw [if_neg h, Comp.shutBoth_valve]
    have hsame : ({ s.comp c with
        state := .faulted, step := none, seated := [], turning := none, fault := some f, startOn := false
        startTimer := .stopped, runTimer := .stopped, stroked := false } : Comp).valve d = (s.comp c).valve d := by cases d <;> rfl
    rw [hsame]
    exact (Valve.moved_command _ _).trans (Valve.moved_pursue _ _ _)
  have hfold : ((s.comp c).valve d).Moved ((((s.comp c).seated.foldl unseatHeld (faultedComp f c s)).comp c).valve d) := by
    obtain ⟨x, hx⟩ := (seated_compRests c (faultedComp f c s) (s.comp c).seated).comp
    rw [hx]
    cases d <;> exact hbase
  rcases faultComp_cases f c s with ⟨e, -⟩ | ⟨-, e | ⟨-, e⟩⟩ <;> rw [e]
  · exact .refl _
  · rw [endCompTest_comp]
    exact hfold
  · exact hfold

end Moves

end Sys2Proof.Machine
end

section
/-! PROOFS. A spot whose supervision begins or ends at a write (R142), and what a spot's fault leaves of the compressors. -/

namespace Sys2Proof.Machine

/-! ## A compressor that spots leave -/

/-- Work after which a compressor at rest has lost seats and marks alone, and one at work has moved its valves by commands alone. -/
structure Eased (c : CompNo) (s t : State) : Prop where
  moves : CompMoves c s t
  idle : (s.comp c).state.working = false → ∃ x y, t.comp c = { s.comp c with turning := x, seated := y }

section Eased

variable {c : CompNo} {s t u : State}

theorem Eased.trans (h : Eased c s t) (k : Eased c t u) : Eased c s u := by
  refine ⟨h.moves.trans k.moves, fun hs => ?_⟩
  obtain ⟨x, y, e⟩ := h.idle hs
  obtain ⟨x', y', e'⟩ := k.idle (by rw [e]; exact hs)
  exact ⟨x', y', by rw [e', e]⟩

theorem Eased.of_comp (h : t.comp c = s.comp c) : Eased c s t :=
  ⟨fun hs => by rw [h]; exact ⟨hs, fun _ => .refl _⟩, fun _ => ⟨(s.comp c).turning, (s.comp c).seated, h⟩⟩

theorem CompRests.eased (r : CompRests c s t) : Eased c s t := by
  refine ⟨r.moves, fun _ => ?_⟩
  obtain ⟨x, hx⟩ := r.comp
  exact ⟨x, (s.comp c).seated, hx⟩

theorem compOnEmpty_idle (h : (s.comp c).state.working = false) : compOnEmpty c s = s := by
  unfold compOnEmpty
  dsimp only
  split
  · split
    next => exact if_neg (by rw [h]; exact Bool.false_ne_true)
    next =>
      refine if_neg fun e => ?_
      rw [e] at h
      cases h
  · rfl

theorem eased_releaseSeat (i : SpotNo) (c : CompNo) (s : State) : Eased c s (releaseSeat i s) := by
  cases h : (s.spot i).seat with
  | none =>
    rw [releaseSeat_unseated h]
    exact .of_comp rfl
  | some k =>
    rw [releaseSeat_seated h]
    by_cases e : c = k
    · subst e
      have hcomp : (unseat i c s).comp c = { s.comp c with seated := (s.comp c).seated.filter (· ≠ i) } := by rw [unseat_comp, if_pos rfl]
      have hun : Eased c s (unseat i c s) :=
        ⟨fun hs => by rw [hcomp]; exact ⟨hs, fun d => by cases d <;> exact .refl _⟩, fun _ => ⟨_, _, hcomp⟩⟩
      refine hun.trans ⟨moves_compOnEmpty c _, fun hi => ?_⟩
      rw [compOnEmpty_idle hi]
      exact ⟨_, _, rfl⟩
    · refine .of_comp (((compWork_compOnEmpty k _).others c e).trans ?_)
      rw [unseat_comp, if_neg e]

theorem eased_leaveCompressors (i : SpotNo) (c : CompNo) (s : State) : Eased c s (leaveCompressors i s) := by
  refine (eased_releaseSeat i c s).trans ((spotWork_dropGrant i _).compRests ?_).eased
  rw [releaseSeat_spot]
  exact nofun

/-- The fault of a spot without orders. -/
theorem eased_faultSpot {i : SpotNo} (f : SpotFault) (c : CompNo) (ho : (s.spot i).orders = []) : Eased c s (faultSpot f i s) := by
  have hserve (u : State) : (serveUnloading i u).comps = u.comps := by
    unfold serveUnloading
    repeat' split
    all_goals rfl
  refine (eased_leaveCompressors i c s).trans (.of_comp ?_)
  unfold faultSpot
  dsimp only
  rw [ho, List.foldl_nil]
  generalize leaveCompressors i s = u
  exact comp_of_comps ((hserve _).trans rfl) c

end Eased

/-! ## The take-up of a spot -/

/-- A spot with its valves taken up. -/
def Spot.takenOver (stroke : ValveName → Timer) (sp : Spot) : Spot :=
  { sp with
    shutoff := sp.shutoff.takeUp (stroke .shutoff), liquid := sp.liquid.takeUp (stroke .liquid)
    vapour := sp.vapour.takeUp (stroke .vapour), vent := sp.vent.takeUp (stroke .vent) }

theorem Spot.takenOver_valve (stroke : ValveName → Timer) (sp : Spot) (n : ValveName) :
    (sp.takenOver stroke).valve n = (sp.valve n).takeUp (stroke n) := by cases n <;> rfl

/-- The faults that the take-up of a spot reports. -/
def reportTakeUp (s1 s : State) (i : SpotNo) (u : State) (n : ValveName) : State :=
  if ((s1.spot i).valve n).isFault && !((s.spot i).valve n).isFault then spotValveFault i n u else u

theorem takeUpSpot_eq (i : SpotNo) (s : State) : takeUpSpot i s =
    allValveNames.foldl (reportTakeUp (s.modSpot i (Spot.takenOver s.strokeOf)) s i) (s.modSpot i (Spot.takenOver s.strokeOf)) := by
  have hbase : allValveNames.foldl (fun s n => s.modSpot i fun sp => sp.setValve n ((sp.valve n).takeUp (s.strokeOf n))) s =
      s.modSpot i (Spot.takenOver s.strokeOf) := by
    unfold allValveNames
    simp only [List.foldl_cons, List.foldl_nil]
    rw [modSpot_modSpot, modSpot_modSpot, modSpot_modSpot]
    rfl
  unfold takeUpSpot
  dsimp only
  rw [hbase]
  rfl

/-- What the reports of a take-up leave of a spot at rest: its valves, and a FAULTED spot FAULTED. -/
structure TakeUpKept (i : SpotNo) (s t : State) : Prop where
  work : SpotWork i s t
  idle : (t.spot i).Idle
  valves : ∀ n, (t.spot i).valve n = (s.spot i).valve n
  pulses : (t.spot i).pulses = (s.spot i).pulses
  eased : ∀ c, Eased c s t

section TakeUp

variable {i : SpotNo} {s t u : State}

theorem TakeUpKept.refl (h : (s.spot i).Idle) : TakeUpKept i s s := ⟨.refl i s, h, fun _ => rfl, rfl, fun _ => .of_comp rfl⟩

theorem TakeUpKept.trans (h : TakeUpKept i s t) (k : TakeUpKept i t u) : TakeUpKept i s u :=
  ⟨h.work.trans k.work, k.idle, fun n => (k.valves n).trans (h.valves n), k.pulses.trans h.pulses, fun c => (h.eased c).trans (k.eased c)⟩

/-- A valve's fault reported to a spot at rest. -/
theorem spotValveFault_kept (n : ValveName) (hidle : (s.spot i).Idle) (htold : ∀ m stroke, ((s.spot i).valve m).toldShut stroke = (s.spot i).valve m) :
    TakeUpKept i s (spotValveFault i n s) ∧ ((spotValveFault i n s).spot i).state = .faulted := by
  by_cases hf : (s.spot i).state = .faulted
  · have e : spotValveFault i n s = s.touchSpot i := by
      unfold spotValveFault
      rw [hf]
    rw [e]
    exact ⟨⟨.touchSpot i i s, hidle, fun _ => rfl, rfl, fun _ => .of_comp rfl⟩, hf⟩
  · rw [spotValveFault_faults hf (hidle.ne (by decide))]
    obtain ⟨-, hspot⟩ := faultSpot_done (.valve n) i s
    refine ⟨⟨spotWork_faultSpot i s _, ?_, fun m => ?_, ?_, fun c => eased_faultSpot _ c hidle.2⟩, ?_⟩
    · rw [hspot]
      exact ⟨.inr (.inr rfl), rfl⟩
    · rw [hspot, Spot.faults_valve]
      exact htold m _
    · rw [hspot]
      rfl
    · rw [hspot]
      rfl

/-- What a take-up makes of a spot at rest (R142, R146). -/
structure TakenUp (i : SpotNo) (s t : State) : Prop where
  work : SpotWork i s t
  idle : (t.spot i).Idle
  valves : ∀ n, (t.spot i).valve n = ((s.spot i).valve n).takeUp (s.strokeOf n)
  pulses : (t.spot i).pulses = (s.spot i).pulses
  eased : ∀ c, Eased c s t
  faults : ∀ n, ((s.spot i).valve n).isFault = false → (((s.spot i).valve n).takeUp (s.strokeOf n)).isFault = true →
    (t.spot i).state = .faulted

theorem takeUpSpot_takes (hidle : (s.spot i).Idle) : TakenUp i s (takeUpSpot i s) := by
  obtain ⟨b, hb⟩ : ∃ b, b = s.modSpot i (Spot.takenOver s.strokeOf) := ⟨_, rfl⟩
  have hbi : b.spot i = (s.spot i).takenOver s.strokeOf := by rw [hb, modSpot_spot_same]
  have hbase : SpotWork i s b := by
    rw [hb]
    exact .mod (by intro; rfl) (by intro; rfl) s
  have hbcomp (c : CompNo) : Eased c s b := by
    rw [hb]
    exact .of_comp rfl
  have hvalve (n : ValveName) : (b.spot i).valve n = ((s.spot i).valve n).takeUp (s.strokeOf n) := by rw [hbi, Spot.takenOver_valve]
  have hstart : TakeUpKept i b b := .refl (by rw [hbi]; exact hidle)
  have htold {u : State} (hu : TakeUpKept i b u) (m : ValveName) (stroke : Timer) :
      ((u.spot i).valve m).toldShut stroke = (u.spot i).valve m := by
    rw [hu.valves, hvalve]
    exact Valve.takeUp_told _ _ _
  have hstep (u : State) (n : ValveName) (hu : TakeUpKept i b u) : TakeUpKept i b (reportTakeUp b s i u n) := by
    unfold reportTakeUp
    split
    · exact hu.trans (spotValveFault_kept n hu.idle (htold hu)).1
    · exact hu
  have hstays (u : State) (n : ValveName) (hu : TakeUpKept i b u ∧ (u.spot i).state = .faulted) :
      TakeUpKept i b (reportTakeUp b s i u n) ∧ ((reportTakeUp b s i u n).spot i).state = .faulted := by
    refine ⟨hstep u n hu.1, ?_⟩
    unfold reportTakeUp
    split
    · exact (spotValveFault_kept n hu.1.idle (htold hu.1)).2
    · exact hu.2
  have hall : TakeUpKept i b (takeUpSpot i s) := by
    rw [takeUpSpot_eq, ← hb]
    exact foldl_preserves (p := TakeUpKept i b) hstep _ _ hstart
  refine ⟨hbase.trans hall.work, hall.idle, fun n => (hall.valves n).trans (hvalve n), ?_, fun c => (hbcomp c).trans (hall.eased c),
    fun n hn hf => ?_⟩
  · rw [hall.pulses, hbi]
    rfl
  · have hreach : TakeUpKept i b (takeUpSpot i s) ∧ ((takeUpSpot i s).spot i).state = .faulted := by
      rw [takeUpSpot_eq, ← hb]
      refine foldl_reaches (a := n) (p := TakeUpKept i b) (q := fun u => TakeUpKept i b u ∧ (u.spot i).state = .faulted) hstep
        (fun u hu => ?_) hstays allValveNames b (by cases n <;> decide) hstart
      refine ⟨hstep u n hu, ?_⟩
      unfold reportTakeUp
      rw [if_pos (by rw [hvalve, hf, hn]; rfl)]
      exact (spotValveFault_kept n hu.idle (htold hu)).2
    exact hreach.2

/-- Supervision begins, ends or stands. -/
theorem superviseSpot_work (before : State) (hidle : (s.spot i).Idle) : SpotWork i s (superviseSpot before i s) ∧
    ((superviseSpot before i s).spot i).Idle ∧ ((superviseSpot before i s).spot i).pulses = (s.spot i).pulses ∧
    ∀ c, Eased c s (superviseSpot before i s) := by
  unfold superviseSpot
  split
  · have h := takeUpSpot_takes hidle
    exact ⟨h.work, h.idle, h.pulses, h.eased⟩
  · refine ⟨.mod (by intro; rfl) (by intro; rfl) s, ?_, ?_, fun c => .of_comp rfl⟩
    · rw [modSpot_spot_same]
      exact hidle
    · rw [modSpot_spot_same]
      rfl
  · exact ⟨.refl i s, hidle, rfl, fun c => .of_comp rfl⟩

end TakeUp

end Sys2Proof.Machine
end

section
/-! PROOFS. Each compressor and each spot at its own turn of a write, and the direction valves taken up there (R142, R147). -/

namespace Sys2Proof.Machine

/-! ## Spots at rest -/

/-- Every spot stands at rest. -/
def State.atRest (s : State) : Prop := ∀ i, (s.spot i).Idle

theorem SpotRests.idle {i : SpotNo} {s t : State} (r : SpotRests i s t) (h : (s.spot i).Idle) : (t.spot i).Idle := by
  obtain ⟨x, hx⟩ := r.spot
  exact h.of_eq (by rw [hx]) (by rw [hx])

/-- With every spot at rest and no grant queued, the arbiter has nothing to do. -/
theorem State.atRest.settled {s t : State} (h : t.atRest) (hg : s.grants = []) (k : GrantsShrink s t) : settle t = t := by
  refine settle_quietly ⟨fun j => Spot.not_waits ((h j).ne (by decide)), List.eq_nil_iff_forall_not_mem.mpr fun g hm => ?_⟩
  have := k g hm
  rw [hg] at this
  exact nomatch this

/-! ## Each spot at its turn -/

/-- The turn of spot `i` in a walk over the spots at rest. -/
structure SpotTurn (i : SpotNo) (s t : State) : Prop where
  work : SpotWork i s t
  idle : (t.spot i).Idle
  eased : ∀ c, Eased c s t

theorem SpotTurn.atRest {i : SpotNo} {s t : State} (h : SpotTurn i s t) (hs : s.atRest) : t.atRest := fun j => by
  by_cases e : j = i
  · exact e ▸ h.idle
  · rw [h.work.others j e]
    exact hs j

section Spots

variable {f : SpotNo → State → State} {s : State} (hf : ∀ i u, u.atRest → SpotTurn i u (f i u)) (h : s.atRest)

include hf h

theorem eachSpot_atRest : (eachSpot f s).atRest ∧ GrantsShrink s (eachSpot f s) ∧ ∀ c, Eased c s (eachSpot f s) := by
  refine foldl_preserves (f := fun u i => f i u) (p := fun u => u.atRest ∧ GrantsShrink s u ∧ ∀ c, Eased c s u) (fun u i hu => ?_) allSpots s
    ⟨h, .refl s, fun c => .of_comp rfl⟩
  obtain ⟨h1, h2, h3⟩ := hu
  have ht := hf i u h1
  exact ⟨ht.atRest h1, h2.trans ht.work.grants, fun c => (h3 c).trans (ht.eased c)⟩

theorem eachSpot_restTurn (i : SpotNo) : ∃ u, u.atRest ∧ SpotRests i s u ∧ SpotRests i (f i u) (eachSpot f s) := by
  have hturn := foldl_reaches_once (f := fun u i => f i u) (a := i) (p := fun u => u.atRest ∧ SpotRests i s u)
    (q := fun t => t.atRest ∧ ∃ u, u.atRest ∧ SpotRests i s u ∧ SpotRests i (f i u) t) (fun u j hj hu => ?_) (fun u hu => ?_)
    (fun t j hj ht => ?_) allSpots s allSpots_nodup (mem_allSpots i) ⟨h, .refl i s⟩
  · exact hturn.2
  · have ht := hf j u hu.1
    exact ⟨ht.atRest hu.1, hu.2.trans (ht.work.spotRests (Ne.symm hj))⟩
  · exact ⟨(hf i u hu.1).atRest hu.1, u, hu.1, hu.2, .refl i _⟩
  · obtain ⟨h1, u, h2, h3, h4⟩ := ht
    have hj' := hf j t h1
    exact ⟨hj'.atRest h1, u, h2, h3, h4.trans (hj'.work.spotRests (Ne.symm hj))⟩

end Spots

/-! ## Each compressor at its turn -/

/-- The turn of compressor `d` in a walk over the compressors, every spot at rest. -/
structure CompTurn (d : CompNo) (s t : State) : Prop where
  spots : ∀ i, SpotRests i s t
  comps : ∀ c, c ≠ d → CompRests c s t
  grants : GrantsShrink s t

theorem CompTurn.refl (d : CompNo) (s : State) : CompTurn d s s := ⟨fun i => .refl i s, fun c _ => .refl c s, .refl s⟩

theorem CompTurn.trans {d : CompNo} {s t u : State} (h : CompTurn d s t) (k : CompTurn d t u) : CompTurn d s u :=
  ⟨fun i => (h.spots i).trans (k.spots i), fun c hc => (h.comps c hc).trans (k.comps c hc), h.grants.trans k.grants⟩

theorem CompWork.turn {d : CompNo} {s t : State} (h : CompWork d s t) : CompTurn d s t :=
  ⟨h.spotRests, fun _ => h.compRests, .of_eq h.grants⟩

theorem CompTurn.atRest {d : CompNo} {s t : State} (h : CompTurn d s t) (hs : s.atRest) : t.atRest := fun i => (h.spots i).idle (hs i)

section Comps

variable {f : CompNo → State → State} {s : State} (hf : ∀ d u, u.atRest → CompTurn d u (f d u)) (h : s.atRest)

include hf h

theorem eachComp_atRest : (eachComp f s).atRest ∧ GrantsShrink s (eachComp f s) ∧ ∀ i, SpotRests i s (eachComp f s) := by
  refine foldl_preserves (f := fun u d => f d u) (p := fun u => u.atRest ∧ GrantsShrink s u ∧ ∀ i, SpotRests i s u) (fun u d hu => ?_) allComps s
    ⟨h, .refl s, fun i => .refl i s⟩
  obtain ⟨h1, h2, h3⟩ := hu
  have ht := hf d u h1
  exact ⟨ht.atRest h1, h2.trans ht.grants, fun i => (h3 i).trans (ht.spots i)⟩

theorem eachComp_restTurn (c : CompNo) : ∃ u, u.atRest ∧ CompRests c s u ∧ CompRests c (f c u) (eachComp f s) := by
  have hturn := foldl_reaches_once (f := fun u d => f d u) (a := c) (p := fun u => u.atRest ∧ CompRests c s u)
    (q := fun t => t.atRest ∧ ∃ u, u.atRest ∧ CompRests c s u ∧ CompRests c (f c u) t) (fun u d hd hu => ?_) (fun u hu => ?_)
    (fun t d hd ht => ?_) allComps s allComps_nodup (mem_allComps c) ⟨h, .refl c s⟩
  · exact hturn.2
  · have ht := hf d u hu.1
    exact ⟨ht.atRest hu.1, hu.2.trans (ht.comps c (Ne.symm hd))⟩
  · exact ⟨(hf c u hu.1).atRest hu.1, u, hu.1, hu.2, .refl c _⟩
  · obtain ⟨h1, u, h2, h3, h4⟩ := ht
    have ht := hf d t h1
    exact ⟨ht.atRest h1, u, h2, h3, h4.trans (ht.comps c (Ne.symm hd))⟩

end Comps

/-! ## A compressor's fault among spots at rest -/

theorem turn_faultComp (f : CompFault) (d : CompNo) {s : State} (h : s.atRest) : CompTurn d s (faultComp f d s) := by
  refine ⟨fun i => faultComp_spotRests f d s (.inl (h i)), fun c hc => faultComp_compRests f d s hc, ?_⟩
  have hfold : GrantsShrink s ((s.comp d).seated.foldl unseatHeld (faultedComp f d s)) :=
    List.foldlRecOn (motive := fun u => GrantsShrink s u) _ unseatHeld (.of_eq rfl) fun u r j _ => r.trans (spotWork_unseatHeld u j).grants
  rcases faultComp_cases f d s with ⟨e, -⟩ | ⟨-, e | ⟨-, e⟩⟩ <;> rw [e]
  · exact .refl s
  · exact hfold.trans (.of_eq (grants_endCompTest _ _))
  · exact hfold

/-! ## Valves and marks that a fault leaves -/

theorem Comp.putValve_mark_keep {d : Direction} {v : Valve} {k : Comp} (h : v.isShut = (k.valve d).isShut) (e : Direction) :
    (k.putValve d v).mark e = k.mark e := by
  unfold Comp.putValve
  dsimp only
  rw [h]
  cases d <;> cases e <;> simp [Comp.mark]

theorem Comp.commanded_mark {stroke : Timer} {fe : Bool} {d : Direction} {x : Command} {k : Comp}
    (h : ((k.commanded stroke fe d x).valve d).isShut = (k.valve d).isShut) (e : Direction) : (k.commanded stroke fe d x).mark e = k.mark e := by
  have hfirst : ({ k.valve d with command := x } : Valve).isShut = (k.valve d).isShut := rfl
  unfold Comp.commanded at h ⊢
  dsimp only at h ⊢
  rw [putValve_same] at h
  rw [putValve_mark_keep (by rw [h, putValve_same]; rfl), putValve_mark_keep hfirst]

/-- Valves that a command SHUT leaves keep their marks. -/
theorem Comp.shutBoth_mark {stroke : Timer} {fe : Bool} {k : Comp} (h : ∀ d, (k.valve d).toldShut stroke = k.valve d) (e : Direction) :
    (k.shutBoth stroke fe).mark e = k.mark e := by
  have htold (d : Direction) (live : Bool) : (k.valve d).told stroke live .toShut = k.valve d := h d
  have hpush (d : Direction) : (k.commanded stroke fe .push .toShut).valve d = k.valve d := by
    rw [commanded_valve]
    split
    next hd => rw [hd, htold]
    next => rfl
  unfold Comp.shutBoth
  rw [commanded_mark (by rw [commanded_valve, if_pos rfl, hpush, htold]), commanded_mark (by rw [hpush])]

theorem faultComp_stands {c : CompNo} {s : State} (f : CompFault) (hp : (s.comp c).state ≠ .proof)
    (h : ∀ d stroke, ((s.comp c).valve d).toldShut stroke = (s.comp c).valve d) (d : Direction) :
    ((faultComp f c s).comp c).valve d = (s.comp c).valve d ∧ ((faultComp f c s).comp c).mark d = (s.comp c).mark d := by
  obtain ⟨k, hk⟩ : ∃ k : Comp, k = { s.comp c with
      state := .faulted, step := none, seated := [], turning := none, fault := some f, startOn := false
      startTimer := .stopped, runTimer := .stopped, stroked := false } := ⟨_, rfl⟩
  have hv (e : Direction) : k.valve e = (s.comp c).valve e := by
    rw [hk]
    cases e <;> rfl
  have hm (e : Direction) : k.mark e = (s.comp c).mark e := by
    rw [hk]
    cases e <;> rfl
  have hbase : (faultedComp f c s).comp c = k.shutBoth s.strokeOfDirection s.fe := by
    have hcomp : (faultedComp f c s).comp c = (s.comp c).faults s.strokeOfDirection s.fe f := modComp_comp_same _ _ _
    rw [hcomp]
    unfold Comp.faults
    dsimp only
    rw [if_neg hp, ← hk]
  have hfold : (((s.comp c).seated.foldl unseatHeld (faultedComp f c s)).comp c).valve d = (s.comp c).valve d ∧
      (((s.comp c).seated.foldl unseatHeld (faultedComp f c s)).comp c).mark d = (s.comp c).mark d := by
    obtain ⟨x, hx⟩ := (seated_compRests c (faultedComp f c s) (s.comp c).seated).comp
    rw [hx, hbase]
    have h1 := (Comp.shutBoth_valve s.strokeOfDirection s.fe k d).trans ((congrArg (Valve.toldShut s.strokeOfDirection) (hv d)).trans (h d _))
    have h2 := (Comp.shutBoth_mark (stroke := s.strokeOfDirection) (fe := s.fe) (fun e => by rw [hv, h]) d).trans (hm d)
    cases d
    · exact ⟨h1, h2⟩
    · exact ⟨h1, h2⟩
  rcases faultComp_cases f c s with ⟨e, -⟩ | ⟨-, e | ⟨-, e⟩⟩ <;> rw [e]
  · exact ⟨rfl, rfl⟩
  · rw [endCompTest_comp]
    exact hfold
  · exact hfold

/-! ## The take-up of a compressor -/

/-- A compressor with its direction valves taken up and marked. -/
def Comp.takenOver (stroke : Timer) (k : Comp) : Comp := ((k.mapValves (Valve.takeUp stroke)).markTakenUp .push).markTakenUp .draw

theorem Comp.takenOver_bare (stroke : Timer) (k : Comp) : (k.takenOver stroke).bare = k.bare := Comp.mapValves_bare (Valve.takeUp stroke) k

theorem Comp.takenOver_valve (stroke : Timer) (k : Comp) (d : Direction) : (k.takenOver stroke).valve d = (k.valve d).takeUp stroke := by
  rw [← Comp.mapValves_valve (Valve.takeUp stroke)]
  cases d <;> rfl

theorem Comp.takenOver_mark (stroke : Timer) (k : Comp) (d : Direction) :
    (k.takenOver stroke).mark d = if ((k.valve d).takeUp stroke).isShut then some 0 else none := by
  rw [← Comp.mapValves_valve (Valve.takeUp stroke)]
  cases d <;> rfl

/-- The faults that the take-up of a compressor reports. -/
def reportDirTakeUp (s1 s : State) (c : CompNo) (u : State) (d : Direction) : State :=
  if ((s1.comp c).valve d).isFault && !((s.comp c).valve d).isFault then faultComp (.valve d) c u else u

theorem takeUpComp_eq (c : CompNo) (s : State) : takeUpComp c s =
    allDirections.foldl (reportDirTakeUp (s.modComp c (Comp.takenOver s.strokeOfDirection)) s c) (s.modComp c (Comp.takenOver s.strokeOfDirection)) := rfl

theorem kept_takeUpComp (c : CompNo) (s : State) : Kept s (takeUpComp c s) := by
  rw [takeUpComp_eq]
  refine (Kept.modComp c _ s).trans (.foldl (fun u d => ?_) _ _)
  unfold reportDirTakeUp
  split
  · exact kept_faultComp _ c u
  · exact .refl u

theorem turn_takeUpComp (c : CompNo) {s : State} (h : s.atRest) : CompTurn c s (takeUpComp c s) := by
  rw [takeUpComp_eq]
  have hbase : CompTurn c s (s.modComp c (Comp.takenOver s.strokeOfDirection)) :=
    (CompWork.mod (f := Comp.takenOver s.strokeOfDirection) (Comp.mapValves_turning (Valve.takeUp s.strokeOfDirection)) s).turn
  refine List.foldlRecOn (motive := CompTurn c s) _ _ hbase fun u r d _ => ?_
  unfold reportDirTakeUp
  split
  · exact r.trans (turn_faultComp _ c (r.atRest h))
  · exact r

section TakeUp

variable {c : CompNo} {s : State}

theorem takeUpComp_faulted (h : (s.comp c).state = .faulted) : takeUpComp c s = s.modComp c (Comp.takenOver s.strokeOfDirection) := by
  obtain ⟨b, hb⟩ : ∃ b, b = s.modComp c (Comp.takenOver s.strokeOfDirection) := ⟨_, rfl⟩
  have hstate : (b.comp c).state = .faulted := by
    rw [hb, modComp_comp_same, Comp.state_of_bare (Comp.takenOver_bare _ _)]
    exact h
  rw [takeUpComp_eq, ← hb]
  refine foldl_preserves (p := fun u => u = b) (fun u d hu => ?_) allDirections b rfl
  subst hu
  unfold reportDirTakeUp
  split
  · exact if_pos hstate
  · rfl

/-- What a take-up makes of a compressor outside its proof (R142, R147). -/
structure CompTakenUp (c : CompNo) (s t : State) : Prop where
  valves : ∀ d, (t.comp c).valve d = ((s.comp c).valve d).takeUp s.strokeOfDirection
  marks : ∀ d, (t.comp c).mark d = if (((s.comp c).valve d).takeUp s.strokeOfDirection).isShut then some 0 else none
  faults : ∀ d, ((s.comp c).valve d).isFault = false → (((s.comp c).valve d).takeUp s.strokeOfDirection).isFault = true →
    (t.comp c).state = .faulted

theorem takeUpComp_takes (hp : (s.comp c).state ≠ .proof) : CompTakenUp c s (takeUpComp c s) := by
  obtain ⟨b, hb⟩ : ∃ b, b = s.modComp c (Comp.takenOver s.strokeOfDirection) := ⟨_, rfl⟩
  have hbc : b.comp c = (s.comp c).takenOver s.strokeOfDirection := by rw [hb, modComp_comp_same]
  have hvalve (d : Direction) : (b.comp c).valve d = ((s.comp c).valve d).takeUp s.strokeOfDirection := by rw [hbc, Comp.takenOver_valve]
  have hbproof : (b.comp c).state ≠ .proof := by
    rw [hbc, Comp.state_of_bare (Comp.takenOver_bare _ _)]
    exact hp
  obtain ⟨P, hP⟩ : ∃ P : State → Prop, P = fun u => (u.comp c).state ≠ .proof ∧
      ∀ d, (u.comp c).valve d = (b.comp c).valve d ∧ (u.comp c).mark d = (b.comp c).mark d := ⟨_, rfl⟩
  have hfault (u : State) (d : Direction) (hu : P u) : P (faultComp (.valve d) c u) ∧ ((faultComp (.valve d) c u).comp c).state = .faulted := by
    rw [hP] at hu ⊢
    obtain ⟨h1, h2⟩ := hu
    have hstands := faultComp_stands (.valve d) h1 fun e stroke => by rw [(h2 e).1, hvalve, Valve.takeUp_told]
    refine ⟨⟨by rw [faultComp_faulted]; exact nofun, fun e => ?_⟩, faultComp_faulted _ c u⟩
    exact ⟨(hstands e).1.trans (h2 e).1, (hstands e).2.trans (h2 e).2⟩
  have hstep (u : State) (d : Direction) (hu : P u) : P (reportDirTakeUp b s c u d) := by
    unfold reportDirTakeUp
    split
    · exact (hfault u d hu).1
    · exact hu
  have hstart : P b := by
    rw [hP]
    exact ⟨hbproof, fun d => ⟨rfl, rfl⟩⟩
  have hall : P (takeUpComp c s) := by
    rw [takeUpComp_eq, ← hb]
    exact foldl_preserves hstep _ _ hstart
  rw [hP] at hall
  refine ⟨fun d => (hall.2 d).1.trans (hvalve d), fun d => ?_, fun d hn hf => ?_⟩
  · rw [(hall.2 d).2, hbc, Comp.takenOver_mark]
  · rw [takeUpComp_eq, ← hb]
    have hreach := foldl_reaches (f := reportDirTakeUp b s c) (a := d) (p := P) (q := fun u => P u ∧ (u.comp c).state = .faulted) hstep
      (fun u hu => ?_) (fun u e hu => ?_) allDirections b (by cases d <;> decide) hstart
    · exact hreach.2
    · unfold reportDirTakeUp
      rw [if_pos (by rw [hvalve, hf, hn]; rfl)]
      exact hfault u d hu
    · unfold reportDirTakeUp
      split
      · exact hfault u e hu.1
      · exact hu

end TakeUp

end Sys2Proof.Machine
end

section
/-! PROOFS. What the supervision of a write makes of each spot and each compressor, every spot at rest (R142). -/

namespace Sys2Proof.Machine

theorem supervisesSpot_of_profile {s t : State} (h : t.profile = s.profile) (i : SpotNo) : t.supervisesSpot i = s.supervisesSpot i := by
  unfold State.supervisesSpot
  rw [fittedSpot_of_profile h, h]

theorem supervisesComp_of_profile {s t : State} (h : t.profile = s.profile) (c : CompNo) : t.supervisesComp c = s.supervisesComp c := by
  unfold State.supervisesComp
  rw [fittedComp_of_profile h, h]

theorem Kept.strokeOf_eq {s t : State} (h : Kept s t) (n : ValveName) : t.strokeOf n = s.strokeOf n := by
  unfold State.strokeOf
  rw [h.profile_eq]

theorem Spot.mapValves_valve (f : Valve → Valve) (sp : Spot) (n : ValveName) : (sp.mapValves f).valve n = f (sp.valve n) := by
  cases n <;> rfl

/-! ## One turn -/

theorem kept_superviseSpot (before : State) (i : SpotNo) (s : State) : Kept s (superviseSpot before i s) := by
  unfold superviseSpot
  split
  · rw [takeUpSpot_eq]
    refine (Kept.modSpot i _ s).trans (.foldl (fun u n => ?_) _ _)
    unfold reportTakeUp
    split
    · exact (spotWork_spotValveFault i u n).kept
    · exact .refl u
  · exact .modSpot i _ s
  · exact .refl s

theorem kept_superviseComp (before : State) (c : CompNo) (s : State) : Kept s (superviseComp before c s) := by
  unfold superviseComp
  split
  · exact kept_takeUpComp c s
  · exact .refl s

theorem turn_superviseSpot (before : State) (i : SpotNo) (s : State) (h : s.atRest) : SpotTurn i s (superviseSpot before i s) := by
  obtain ⟨h1, h2, -, h4⟩ := superviseSpot_work before (h i)
  exact ⟨h1, h2, h4⟩

theorem turn_superviseComp (before : State) (c : CompNo) (s : State) (h : s.atRest) : CompTurn c s (superviseComp before c s) := by
  unfold superviseComp
  split
  · exact turn_takeUpComp c h
  · exact .refl c s

/-! ## All the turns -/

/-- The supervision that a write begins and ends. -/
def superviseAll (before s : State) : State := eachComp (superviseComp before) (eachSpot (superviseSpot before) s)

theorem kept_superviseAll (before s : State) : Kept s (superviseAll before s) :=
  (Kept.eachSpot (kept_superviseSpot before) s).trans (.eachComp (kept_superviseComp before) _)

section All

variable {before s : State} (h : s.atRest)

include h

theorem superviseAll_atRest : (superviseAll before s).atRest ∧ GrantsShrink s (superviseAll before s) := by
  obtain ⟨h1, h2, -⟩ := eachSpot_atRest (turn_superviseSpot before) h
  obtain ⟨k1, k2, -⟩ := eachComp_atRest (turn_superviseComp before) h1
  exact ⟨k1, h2.trans k2⟩

theorem superviseAll_spotTurn (i : SpotNo) : ∃ u, u.atRest ∧ SpotRests i s u ∧ SpotRests i (superviseSpot before i u) (superviseAll before s) := by
  obtain ⟨h1, -, -⟩ := eachSpot_atRest (turn_superviseSpot before) h
  obtain ⟨-, -, hcomps⟩ := eachComp_atRest (turn_superviseComp before) h1
  obtain ⟨u, hu, hr, ht⟩ := eachSpot_restTurn (turn_superviseSpot before) h i
  exact ⟨u, hu, hr, ht.trans (hcomps i)⟩

theorem superviseAll_pulses (i : SpotNo) : ((superviseAll before s).spot i).pulses = (s.spot i).pulses := by
  obtain ⟨u, hu, hr, ht⟩ := superviseAll_spotTurn (before := before) h i
  obtain ⟨-, -, hp, -⟩ := superviseSpot_work before (hu i)
  obtain ⟨x, hx⟩ := hr.spot
  obtain ⟨y, hy⟩ := ht.spot
  rw [hy, hp, hx]

/-- The take-up of a spot. -/
theorem superviseAll_takesSpot {i : SpotNo} (hb : before.supervisesSpot i = false) (hs : s.supervisesSpot i = true) (n : ValveName) :
    ((superviseAll before s).spot i).valve n = ((s.spot i).valve n).takeUp (s.strokeOf n) ∧
    (((s.spot i).valve n).isFault = false → (((s.spot i).valve n).takeUp (s.strokeOf n)).isFault = true →
      ((superviseAll before s).spot i).state = .faulted) := by
  obtain ⟨u, hu, hr, ht⟩ := superviseAll_spotTurn (before := before) h i
  have htakes := takeUpSpot_takes (hu i)
  have hsup : superviseSpot before i u = takeUpSpot i u := by
    unfold superviseSpot
    rw [hb, (supervisesSpot_of_profile hr.kept.profile_eq i).trans hs]
  obtain ⟨x, hx⟩ := hr.spot
  obtain ⟨y, hy⟩ := ht.spot
  have hv : (u.spot i).valve n = (s.spot i).valve n := by
    rw [hx]
    cases n <;> rfl
  have hv' : ((superviseAll before s).spot i).valve n = ((takeUpSpot i u).spot i).valve n := by
    rw [hy, hsup]
    cases n <;> rfl
  have h1 := htakes.valves n
  have h2 := htakes.faults n
  rw [hv, hr.kept.strokeOf_eq] at h1 h2
  refine ⟨hv'.trans h1, fun hn hf => ?_⟩
  rw [hy, hsup]
  exact h2 hn hf

theorem superviseAll_releasesSpot {i : SpotNo} (hb : before.supervisesSpot i = true) (hs : s.supervisesSpot i = false) (n : ValveName) :
    ((superviseAll before s).spot i).valve n = ((s.spot i).valve n).release := by
  obtain ⟨u, hu, hr, ht⟩ := superviseAll_spotTurn (before := before) h i
  have hsup : superviseSpot before i u = u.modSpot i (Spot.mapValves Valve.release) := by
    unfold superviseSpot
    rw [hb, (supervisesSpot_of_profile hr.kept.profile_eq i).trans hs]
  obtain ⟨x, hx⟩ := hr.spot
  obtain ⟨y, hy⟩ := ht.spot
  rw [hy, hsup, modSpot_spot_same, hx]
  cases n <;> rfl

/-- The state at a compressor's own turn, and what follows it. -/
theorem superviseAll_compTurn (c : CompNo) : ∃ u, Kept s u ∧ Eased c s u ∧ CompRests c (superviseComp before c u) (superviseAll before s) := by
  obtain ⟨h1, -, heased⟩ := eachSpot_atRest (turn_superviseSpot before) h
  obtain ⟨u, -, hr, ht⟩ := eachComp_restTurn (turn_superviseComp before) h1 c
  exact ⟨u, (Kept.eachSpot (kept_superviseSpot before) s).trans hr.kept, (heased c).trans hr.eased, ht⟩

/-- The take-up of a compressor outside its proof. -/
theorem superviseAll_takesComp {c : CompNo} (hb : before.supervisesComp c = false) (hs : s.supervisesComp c = true)
    (hp : (s.comp c).state ≠ .proof) (d : Direction) :
    ((superviseAll before s).comp c).valve d = ((s.comp c).valve d).takeUp s.strokeOfDirection ∧
    ((superviseAll before s).comp c).mark d = (if (((s.comp c).valve d).takeUp s.strokeOfDirection).isShut then some 0 else none) ∧
    (((s.comp c).valve d).isFault = false → (((s.comp c).valve d).takeUp s.strokeOfDirection).isFault = true →
      ((superviseAll before s).comp c).state = .faulted) := by
  obtain ⟨u, hk, he, ht⟩ := superviseAll_compTurn (before := before) h c
  have hsup : superviseComp before c u = takeUpComp c u := by
    unfold superviseComp
    rw [hb, (supervisesComp_of_profile hk.profile_eq c).trans hs]
    rfl
  obtain ⟨hpu, hmoved⟩ := he.moves hp
  obtain ⟨h1, h2, h3⟩ := takeUpComp_takes hpu
  have hstroke := hk.strokeOfDirection_eq
  have htake : ((u.comp c).valve d).takeUp s.strokeOfDirection = ((s.comp c).valve d).takeUp s.strokeOfDirection := (hmoved d).takeUp _
  have hfault : ((u.comp c).valve d).isFault = ((s.comp c).valve d).isFault := by
    obtain ⟨-, -, -, -, hf, -⟩ := hmoved d
    exact hf
  rw [hsup] at ht
  obtain ⟨y, hy⟩ := ht.comp
  have e1 := h1 d
  have e2 := h2 d
  have e3 := h3 d
  rw [hstroke, htake] at e1 e2 e3
  rw [hfault] at e3
  rw [hy]
  cases d <;> exact ⟨e1, e2, e3⟩

/-- A compressor at rest whose supervision does not begin loses seats and marks alone. -/
theorem superviseAll_leavesComp {c : CompNo} (hs : (!before.supervisesComp c && s.supervisesComp c) = false)
    (hw : (s.comp c).state.working = false) : ∃ x y, (superviseAll before s).comp c = { s.comp c with turning := x, seated := y } := by
  obtain ⟨u, hk, he, ht⟩ := superviseAll_compTurn (before := before) h c
  have hsup : superviseComp before c u = u := by
    unfold superviseComp
    rw [supervisesComp_of_profile hk.profile_eq, hs]
    rfl
  rw [hsup] at ht
  obtain ⟨x, y, hu⟩ := he.idle hw
  obtain ⟨z, hz⟩ := ht.comp
  exact ⟨z, y, by rw [hz, hu]⟩

/-- A FAULTED compressor keeps its state and its fault. -/
theorem superviseAll_faultedComp {c : CompNo} (hf : (s.comp c).state = .faulted) :
    ((superviseAll before s).comp c).state = .faulted ∧ ((superviseAll before s).comp c).fault = (s.comp c).fault ∧
    ((superviseAll before s).comp c).startOn = (s.comp c).startOn := by
  obtain ⟨u, -, he, ht⟩ := superviseAll_compTurn (before := before) h c
  obtain ⟨x, y, hu⟩ := he.idle (by rw [hf]; rfl)
  have hfu : (u.comp c).state = .faulted := by rw [hu]; exact hf
  have hown : ((superviseComp before c u).comp c).bare = (u.comp c).bare := by
    unfold superviseComp
    split
    · rw [takeUpComp_faulted hfu, modComp_comp_same, Comp.takenOver_bare]
    · rfl
  obtain ⟨z, hz⟩ := ht.comp
  have e1 := congrArg Comp.state hown
  have e2 := congrArg Comp.fault hown
  have e3 := congrArg Comp.startOn hown
  rw [hz]
  exact ⟨e1.trans hfu, e2.trans (by rw [hu]; rfl), e3.trans (by rw [hu]; rfl)⟩

end All

end Sys2Proof.Machine
end

section
/-! PROOFS. The compressors that a SITE write removes and fits (R120, R142), every spot at rest. -/

namespace Sys2Proof.Machine

/-! ## One turn -/

theorem Comp.mapValves_mark_keep {f : Valve → Valve} (h : ∀ v, (f v).isShut = v.isShut) (k : Comp) (e : Direction) :
    (k.mapValves f).mark e = k.mark e := by
  unfold Comp.mapValves
  exact (putValve_mark_keep (h _) e).trans (putValve_mark_keep (h k.push) e)

/-- Valves that a command SHUT leaves, and their marks, stand while their compressor stops. -/
theorem Comp.stops_mark {stroke : Timer} {fe : Bool} {k : Comp} (h : ∀ d, (k.valve d).toldShut stroke = k.valve d) (e : Direction) :
    (k.stops stroke fe).mark e = k.mark e := by
  unfold Comp.stops
  rw [shutBoth_mark fun d => by
    have hd := h d
    cases d <;> exact hd]
  cases e <;> rfl

theorem faultComp_names {c : CompNo} {s : State} (f : CompFault) (h : (s.comp c).state ≠ .faulted) :
    ((faultComp f c s).comp c).fault = some f ∧ ((faultComp f c s).comp c).startOn = false := by
  have hfold : (((s.comp c).seated.foldl unseatHeld (faultedComp f c s)).comp c).fault = some f ∧
      (((s.comp c).seated.foldl unseatHeld (faultedComp f c s)).comp c).startOn = false := by
    obtain ⟨x, hx⟩ := (seated_compRests c (faultedComp f c s) (s.comp c).seated).comp
    have hcomp : (faultedComp f c s).comp c = (s.comp c).faults s.strokeOfDirection s.fe f := modComp_comp_same _ _ _
    have hbare := Comp.faults_bare s.strokeOfDirection s.fe f (s.comp c)
    have h1 := congrArg Comp.fault hbare
    have h2 := congrArg Comp.startOn hbare
    rw [hx, hcomp]
    exact ⟨h1, h2⟩
  rcases faultComp_cases f c s with ⟨-, e⟩ | ⟨-, e | ⟨-, e⟩⟩
  · exact absurd e h
  · rw [e, endCompTest_comp]
    exact hfold
  · rw [e]
    exact hfold

theorem kept_releaseComp (before : State) (c : CompNo) (s : State) : Kept s (releaseComp before c s) := by
  unfold releaseComp
  split
  · exact .modComp c _ s
  · exact .refl s

theorem kept_refitComp (before : State) (c : CompNo) (s : State) : Kept s (refitComp before c s) := by
  unfold refitComp
  split
  · exact (compWork_stopComp c s).kept
  · exact .refl s

theorem kept_greetComp (before : State) (c : CompNo) (s : State) : Kept s (greetComp before c s) := by
  unfold greetComp
  split
  · exact kept_faultComp _ c s
  · exact .refl s

theorem turn_releaseComp (before : State) (c : CompNo) (s : State) : CompTurn c s (releaseComp before c s) := by
  unfold releaseComp
  split
  · exact (CompWork.mod (Comp.mapValves_turning _) s).turn
  · exact .refl c s

theorem turn_refitComp (before : State) (c : CompNo) (s : State) : CompTurn c s (refitComp before c s) := by
  unfold refitComp
  split
  · exact (compWork_stopComp c s).turn
  · exact .refl c s

theorem turn_greetComp (before : State) (c : CompNo) (s : State) (h : s.atRest) : CompTurn c s (greetComp before c s) := by
  unfold greetComp
  split
  · exact turn_faultComp _ c h
  · exact .refl c s

theorem refitComp_removed {before v : State} {c : CompNo} (hb : before.fittedComp c = true) (hv : v.fittedComp c = false) (hf : (v.comp c).state ≠ .faulted) :
    refitComp before c v = v.modComp c (Comp.stops v.strokeOfDirection v.fe) := by
  rw [← stopComp_eq]
  unfold refitComp
  rw [hb, hv]
  exact if_pos (by simpa using hf)

/-! ## All the turns -/

/-- The compressors that a SITE write releases, removes and fits. -/
def fitComps (before s : State) : State := eachComp (greetComp before) (eachComp (refitComp before) (eachComp (releaseComp before) s))

theorem kept_fitComps (before s : State) : Kept s (fitComps before s) :=
  ((Kept.eachComp (kept_releaseComp before) s).trans (.eachComp (kept_refitComp before) _)).trans (.eachComp (kept_greetComp before) _)

section Fit

variable {before s : State} (h : s.atRest)

include h

theorem fitComps_atRest : (fitComps before s).atRest ∧ GrantsShrink s (fitComps before s) ∧ ∀ i, SpotRests i s (fitComps before s) := by
  obtain ⟨h1, h2, h3⟩ := eachComp_atRest (fun d u _ => turn_releaseComp before d u) h
  obtain ⟨k1, k2, k3⟩ := eachComp_atRest (fun d u _ => turn_refitComp before d u) h1
  obtain ⟨l1, l2, l3⟩ := eachComp_atRest (turn_greetComp before) k1
  exact ⟨l1, (h2.trans k2).trans l2, fun i => ((h3 i).trans (k3 i)).trans (l3 i)⟩

/-- The three turns of a compressor. -/
theorem fitComps_turns (c : CompNo) : ∃ u v w, CompRests c s u ∧ CompRests c (releaseComp before c u) v ∧
    CompRests c (refitComp before c v) w ∧ CompRests c (greetComp before c w) (fitComps before s) := by
  obtain ⟨h1, -, -⟩ := eachComp_atRest (fun d u _ => turn_releaseComp before d u) h
  obtain ⟨k1, -, -⟩ := eachComp_atRest (fun d u _ => turn_refitComp before d u) h1
  obtain ⟨u, -, hu, hu'⟩ := eachComp_restTurn (fun d u _ => turn_releaseComp before d u) h c
  obtain ⟨v, -, hv, hv'⟩ := eachComp_restTurn (fun d u _ => turn_refitComp before d u) h1 c
  obtain ⟨w, -, hw, hw'⟩ := eachComp_restTurn (turn_greetComp before) k1 c
  exact ⟨u, v, w, hu, hu'.trans hv, hv'.trans hw, hw'⟩

section Turns

variable {c : CompNo}

/-- A compressor that was not supervised and is fitted comes to its greeting as it stood. -/
theorem fitComps_greets (hb : before.supervisesComp c = false) (hs : s.fittedComp c = true) :
    ∃ w, CompRests c s w ∧ CompRests c (greetComp before c w) (fitComps before s) := by
  obtain ⟨u, v, w, hu, hv, hw, ht⟩ := fitComps_turns (before := before) h c
  have e1 : releaseComp before c u = u := by
    unfold releaseComp
    rw [hb]
    rfl
  rw [e1] at hv
  have e2 : refitComp before c v = v := by
    unfold refitComp
    rw [((hu.kept.trans hv.kept).fittedComp_eq c).trans hs]
    simp
  rw [e2] at hw
  exact ⟨w, (hu.trans hv).trans hw, ht⟩

theorem fitComps_moves (hb : before.supervisesComp c = false) (hs : s.fittedComp c = true) : CompMoves c s (fitComps before s) := by
  obtain ⟨w, hw, ht⟩ := fitComps_greets (before := before) h hb hs
  refine (hw.moves.trans ?_).trans ht.moves
  unfold greetComp
  split
  · exact moves_faultComp _ c w
  · exact .refl c w

/-- A compressor fitted with its fault input active. -/
theorem fitComps_faults (hb : before.fittedComp c = false) (hs : s.fittedComp c = true) (hf : (s.comp c).state ≠ .faulted)
    (hi : (s.comp c).faultInput.active = true) :
    ((fitComps before s).comp c).state = .faulted ∧ ((fitComps before s).comp c).fault = some .faultInput ∧
    ((fitComps before s).comp c).startOn = false := by
  obtain ⟨w, hw, ht⟩ := fitComps_greets (before := before) h (by unfold State.supervisesComp; rw [hb]; rfl) hs
  obtain ⟨x, hx⟩ := hw.comp
  have e : greetComp before c w = faultComp .faultInput c w := by
    unfold greetComp
    rw [hb, (hw.kept.fittedComp_eq c).trans hs, hx]
    exact if_pos hi
  rw [e] at ht
  obtain ⟨y, hy⟩ := ht.comp
  obtain ⟨h1, h2⟩ := faultComp_names (c := c) (s := w) .faultInput (by rw [hx]; exact hf)
  rw [hy]
  exact ⟨faultComp_faulted _ c w, h1, h2⟩

/-- A compressor that is not fitted is not greeted. -/
theorem fitComps_removes (hs : s.fittedComp c = false) :
    ∃ u v, CompRests c s u ∧ CompRests c (releaseComp before c u) v ∧ CompRests c (refitComp before c v) (fitComps before s) := by
  obtain ⟨u, v, w, hu, hv, hw, ht⟩ := fitComps_turns (before := before) h c
  have hk := ((hu.kept.trans (kept_releaseComp before c u)).trans hv.kept).trans ((kept_refitComp before c v).trans hw.kept)
  have e : greetComp before c w = w := by
    unfold greetComp
    rw [(hk.fittedComp_eq c).trans hs]
    simp
  rw [e] at ht
  exact ⟨u, v, hu, hv, hw.trans ht⟩

/-- A removed compressor stops. -/
theorem fitComps_stops (hb : before.fittedComp c = true) (hs : s.fittedComp c = false) (hf : (s.comp c).state ≠ .faulted) :
    ((fitComps before s).comp c).state = .stopped ∧ ((fitComps before s).comp c).dir = none ∧
    ((fitComps before s).comp c).startOn = false ∧ ((fitComps before s).comp c).startTimer = .stopped ∧
    ((fitComps before s).comp c).runTimer = .stopped := by
  obtain ⟨u, v, hu, hv, ht⟩ := fitComps_removes (before := before) h hs
  have hk := (hu.kept.trans (kept_releaseComp before c u)).trans hv.kept
  have hbare : ((releaseComp before c u).comp c).bare = (u.comp c).bare := by
    unfold releaseComp
    split
    · rw [modComp_comp_same, Comp.mapValves_bare]
    · rfl
  obtain ⟨x, hx⟩ := hu.comp
  obtain ⟨y, hy⟩ := hv.comp
  have hvf : (v.comp c).state ≠ .faulted := by
    have e := Comp.state_of_bare hbare
    rw [hx] at e
    rw [hy]
    exact fun hfault => hf (e.symm.trans hfault)
  obtain ⟨z, hz⟩ := ht.comp
  rw [refitComp_removed hb ((hk.fittedComp_eq c).trans hs) hvf, modComp_comp_same] at hz
  have e := Comp.stops_bare v.strokeOfDirection v.fe (v.comp c)
  have e1 := congrArg Comp.state e
  have e2 := congrArg Comp.dir e
  have e3 := congrArg Comp.startOn e
  have e4 := congrArg Comp.startTimer e
  have e5 := congrArg Comp.runTimer e
  rw [hz]
  exact ⟨e1, e2, e3, e4, e5⟩

/-- A compressor whose supervision ends is removed: its valves are released, its marks stand, and it works no more. -/
theorem fitComps_releases (hb : before.supervisesComp c = true) (hs : s.fittedComp c = false) (d : Direction) :
    ((fitComps before s).comp c).valve d = ((s.comp c).valve d).release ∧ ((fitComps before s).comp c).mark d = (s.comp c).mark d ∧
    ((fitComps before s).comp c).state.working = false := by
  obtain ⟨u, v, hu, hv, ht⟩ := fitComps_removes (before := before) h hs
  have hbf : before.fittedComp c = true := (Bool.and_eq_true_iff.mp hb).1
  have hkv := (hu.kept.trans (kept_releaseComp before c u)).trans hv.kept
  have hrelease : releaseComp before c u = u.modComp c (Comp.mapValves Valve.release) := by
    have hus : u.supervisesComp c = false := by
      unfold State.supervisesComp
      rw [(hu.kept.fittedComp_eq c).trans hs]
      rfl
    unfold releaseComp
    rw [hb, hus]
    rfl
  obtain ⟨x, hx⟩ := hu.comp
  obtain ⟨y, hy⟩ := hv.comp
  rw [hrelease, modComp_comp_same] at hy
  have hvalve (e : Direction) : (v.comp c).valve e = ((s.comp c).valve e).release := by
    have hmap := Comp.mapValves_valve Valve.release (u.comp c) e
    rw [hy]
    rw [hx] at hmap ⊢
    cases e <;> exact hmap
  have hmark (e : Direction) : (v.comp c).mark e = (s.comp c).mark e := by
    have hmap := Comp.mapValves_mark_keep (f := Valve.release) (fun _ => rfl) (u.comp c) e
    rw [hy]
    rw [hx] at hmap ⊢
    cases e <;> exact hmap
  obtain ⟨z, hz⟩ := ht.comp
  by_cases hf : (v.comp c).state = .faulted
  · have e : refitComp before c v = v := by
      unfold refitComp
      rw [hf]
      simp
    rw [e] at hz
    have h1 := hvalve d
    have h2 := hmark d
    rw [hz]
    refine ⟨?_, ?_, ?_⟩
    · cases d <;> exact h1
    · cases d <;> exact h2
    · show (v.comp c).state.working = false
      rw [hf]
      rfl
  · rw [refitComp_removed hbf ((hkv.fittedComp_eq c).trans hs) hf, modComp_comp_same] at hz
    have htold (e : Direction) : ((v.comp c).valve e).toldShut v.strokeOfDirection = (v.comp c).valve e := by
      rw [hvalve]
      exact Valve.release_told _ _
    have h1 := ((Comp.stops_valve v.strokeOfDirection v.fe (v.comp c) d).trans (htold d)).trans (hvalve d)
    have h2 := (Comp.stops_mark (fe := v.fe) htold d).trans (hmark d)
    have h3 := congrArg Comp.state (Comp.stops_bare v.strokeOfDirection v.fe (v.comp c))
    rw [hz]
    refine ⟨?_, ?_, ?_⟩
    · cases d <;> exact h1
    · cases d <;> exact h2
    · exact (congrArg CompState.working h3 : _)

end Turns

end Fit

end Sys2Proof.Machine
end

section
/-! PROOFS. What every accepted write stores and keeps (R167, R171, R174), and the ESD input judged afresh (R156, R170). -/

namespace Sys2Proof.Machine

/-! ## The section stored -/

/-- The profile with one section written. -/
def Profile.stores (p : Profile) : Section → Profile
  | .site x => { p with site := some x }
  | .spots x => { p with spots := some x }
  | .vessels x => { p with vessels := some x }
  | .protection x => { p with protection := some x }

/-- The section stored and the siding's state changed with it. -/
def State.written (w : Section) (s : State) : State := sidingAfterWrite w (storeSection w s)

theorem written_rest (w : Section) (s : State) : ∃ x, s.written w = { s with profile := s.profile.stores w, siding := x } := by
  have hstore : storeSection w s = { s with profile := s.profile.stores w } := by cases w <;> rfl
  unfold State.written
  rw [hstore]
  unfold sidingAfterWrite
  repeat' split
  all_goals exact ⟨_, rfl⟩

section Written

variable (w : Section) (s : State)

theorem written_profile : (s.written w).profile = s.profile.stores w := by
  obtain ⟨x, e⟩ := written_rest w s
  rw [e]

theorem written_fixed : (s.written w).fixed = { s.fixed with profile := s.profile.stores w } := by
  obtain ⟨x, e⟩ := written_rest w s
  rw [e]
  rfl

theorem written_spot (i : SpotNo) : (s.written w).spot i = s.spot i := by
  obtain ⟨x, e⟩ := written_rest w s
  rw [e]
  rfl

theorem written_comp (c : CompNo) : (s.written w).comp c = s.comp c := by
  obtain ⟨x, e⟩ := written_rest w s
  rw [e]
  rfl

theorem written_vessel (v : VesselNo) : (s.written w).vessel v = s.vessel v := by
  obtain ⟨x, e⟩ := written_rest w s
  rw [e]
  rfl

theorem written_grants : (s.written w).grants = s.grants := by
  obtain ⟨x, e⟩ := written_rest w s
  rw [e]

/-- The siding's state after a write, where no test is under way (R167, R171, R174). -/
theorem written_siding : (s.siding = .unconfigured →
      (s.written w).siding = if (s.profile.stores w).complete then .configured else .unconfigured) ∧
    (s.siding = .operating → w.isQuietClass = true → (s.written w).siding = .configured) ∧
    (s.siding = .configured → (s.written w).siding = .configured) := by
  have hstore : storeSection w s = { s with profile := s.profile.stores w } := by cases w <;> rfl
  unfold State.written
  rw [hstore]
  unfold sidingAfterWrite
  refine ⟨fun h => ?_, fun h hw => ?_, fun h => ?_⟩
  · simp only [h]
    split <;> rfl
  · simp only [h, hw]
    rfl
  · simp only [h]

end Written

/-! ## What the section brings with it -/

theorem kept_clearRemainder (before : State) (i : SpotNo) (s : State) : Kept s (clearRemainder before i s) := by
  unfold clearRemainder
  split
  · exact .refl s
  · exact .modSpot i _ s

theorem kept_loseGauge (before : State) (v : VesselNo) (s : State) : Kept s (loseGauge before v s) := by
  unfold loseGauge
  split
  · exact .refl s
  · exact .modVessel v _ s

/-- A write of the quiet class keeps what all the plant's work keeps. -/
theorem kept_takeSection {w : Section} (hw : w.isQuietClass = true) (before s : State) : Kept s (takeSection before w s) := by
  cases w with
  | site p => exact (kept_fitComps before s).trans (kept_superviseAll before _)
  | spots p => exact (Kept.eachSpot (kept_clearRemainder before) s).trans (kept_superviseAll before _)
  | vessels p => exact .foldl (fun u v => kept_loseGauge before v u) allVessels s
  | protection p => cases hw

theorem kept_passGuards (s : State) : Kept s (eachFittedComp compPassGuard s) := .eachFittedComp (fun c u => (compWork_compPassGuard c u).kept) s

/-- The ESD input judged active turns a field enable that is on off; nothing else does. -/
theorem rejudge_cases (before s : State) : (s.fe = true ∧ s.esdActive = true ∧ Kept (disabled s) (rejudge before s)) ∨
    ((s.fe = false ∨ s.esdActive = false) ∧ Kept s (rejudge before s) ∧
      rejudge before s = if s.protection.deadTime = before.protection.deadTime then s else eachFittedComp compPassGuard s) := by
  unfold rejudge
  dsimp only
  cases ha : s.esdActive with
  | false =>
    refine .inr ⟨.inr rfl, ?_, rfl⟩
    rw [if_neg Bool.false_ne_true]
    split
    · exact .refl s
    · exact kept_passGuards s
  | true =>
    rw [if_pos rfl]
    unfold esdBecomesActive
    cases hf : s.fe with
    | false =>
      refine .inr ⟨.inl rfl, ?_, rfl⟩
      rw [if_neg Bool.false_ne_true]
      split
      · exact .refl s
      · exact kept_passGuards s
    | true =>
      refine .inl ⟨rfl, rfl, ?_⟩
      rw [if_pos rfl]
      have hoff := (kept_enableOff s).trans (kept_settle _)
      split
      · exact hoff
      · exact hoff.trans (kept_passGuards _)

theorem disabled_siding_idle {s : State} (h : s.siding ≠ .commissioning) : (disabled s).siding = s.siding :=
  (disabled_siding s).trans (if_neg h)

/-! ## What every accepted write keeps -/

/-- What an accepted write has stored, what it leaves, and the siding's state. -/
structure WriteKept (w : Section) (s t : State) : Prop where
  profile : t.profile = s.profile.stores w
  staged : t.staged = s.staged ∧ t.stagedVersion = s.stagedVersion ∧ t.setpointHold = s.setpointHold
  lock : t.lock = s.lock ∧ t.lockTaken = s.lockTaken
  esdHigh : t.esdHigh = s.esdHigh
  flag : t.changes.siding = true
  siding : (s.written w).siding ≠ .commissioning → t.siding = (s.written w).siding
  enable : (t.fe = s.fe ∧ t.rearmRun = s.rearmRun) ∨ (t.fe = false ∧ t.rearmRun = 0)

theorem esdActive_of_fixed {s t : State} (hp : t.profile = s.profile) (hh : t.esdHigh = s.esdHigh) : t.esdActive = s.esdActive := by
  unfold State.esdActive State.judgedActive
  rw [hp, hh]

theorem acceptWrite_eq (w : Section) (s : State) : acceptWrite w s = settle (takeSection s w (s.written w)).flagSiding := rfl

theorem writeKept_of_fixed {w : Section} {s u : State} (hf : ∃ x y, u.fixed = { (s.written w).fixed with fe := x, rearmRun := y } ∧
      ((x = s.fe ∧ y = s.rearmRun) ∨ (x = false ∧ y = 0)))
    (hs : (s.written w).siding ≠ .commissioning → u.siding = (s.written w).siding) : WriteKept w s (settle u.flagSiding) := by
  obtain ⟨x, y, hu, hxy⟩ := hf
  have hk := kept_settle u.flagSiding
  have hfix := hk.fixed
  have hflag : u.flagSiding.fixed = { u.fixed with changes := { u.changes with siding := true } } := rfl
  rw [hflag, hu, written_fixed] at hfix
  refine ⟨congrArg Fixed.profile hfix, ⟨congrArg Fixed.staged hfix, congrArg Fixed.stagedVersion hfix, congrArg Fixed.setpointHold hfix⟩,
    ⟨congrArg Fixed.lock hfix, congrArg Fixed.lockTaken hfix⟩, congrArg Fixed.esdHigh hfix,
    congrArg (fun f : Fixed => f.changes.siding) hfix, fun h => ?_, ?_⟩
  · have e := hs h
    exact (hk.siding (by show u.siding ≠ _; rw [e]; exact h)).trans e
  · have e1 := congrArg Fixed.fe hfix
    have e2 := congrArg Fixed.rearmRun hfix
    rcases hxy with ⟨rfl, rfl⟩ | ⟨rfl, rfl⟩
    · exact .inl ⟨e1, e2⟩
    · exact .inr ⟨e1, e2⟩

theorem acceptWrite_kept (w : Section) (s : State) : WriteKept w s (acceptWrite w s) := by
  have hsame {u : State} (hk : Kept (s.written w) u) : WriteKept w s (settle u.flagSiding) := by
    refine writeKept_of_fixed ⟨s.fe, s.rearmRun, ?_, .inl ⟨rfl, rfl⟩⟩ hk.siding
    rw [hk.fixed, written_fixed]
    rfl
  rw [acceptWrite_eq]
  by_cases hw : w.isQuietClass = true
  · exact hsame (kept_takeSection hw s _)
  · cases w with
    | protection p =>
      rcases rejudge_cases s (s.written (.protection p)) with ⟨-, -, hk⟩ | ⟨-, hk, -⟩
      · refine writeKept_of_fixed ⟨false, 0, ?_, .inr ⟨rfl, rfl⟩⟩ fun h => ?_
        · exact hk.fixed.trans (disabled_fixed _)
        · exact (hk.siding (by rw [disabled_siding_idle h]; exact h)).trans (disabled_siding_idle h)
      · exact hsame hk
    | _ => exact absurd rfl hw

end Sys2Proof.Machine
end

section
/-! PROOFS. What each section's write brings with it: gauges lost (R84), guards judged afresh (R122, R170), and supervision (R142). -/

namespace Sys2Proof.Machine

/-! ## VESSELS -/

section Vessels

variable {s : State} {p : VesselsSection} {v : VesselNo}

theorem written_vesselData : (s.written (.vessels p)).vesselData v = some p.data[v] := by
  unfold State.vesselData
  rw [written_profile]
  rfl

/-- A vessel whose grade or capacity changes loses its gauge. -/
theorem acceptWrite_losesGauge (h : s.vesselData v ≠ some p.data[v]) :
    ((acceptWrite (.vessels p) s).vessel v).gaugedFree = 0 ∧ ((acceptWrite (.vessels p) s).vessel v).stamp = (s.vessel v).counter := by
  obtain ⟨b, hb⟩ : ∃ b, b = s.written (.vessels p) := ⟨_, rfl⟩
  have hbv : b.vessel v = s.vessel v := by rw [hb, written_vessel]
  have hother (u : State) (x : VesselNo) (hx : x ≠ v) : (loseGauge s x u).vessel v = u.vessel v := by
    unfold loseGauge
    split
    · rfl
    · exact modVessel_vessel_other u _ _ _ (Ne.symm hx)
  have htaken : (((allVessels.foldl (fun u x => loseGauge s x u) b).vessel v).gaugedFree = 0 ∧
      ((allVessels.foldl (fun u x => loseGauge s x u) b).vessel v).stamp = (s.vessel v).counter) := by
    refine foldl_reaches_once (f := fun u x => loseGauge s x u) (a := v) (p := fun u => u.profile = b.profile ∧ u.vessel v = s.vessel v)
      (q := fun u => (u.vessel v).gaugedFree = 0 ∧ (u.vessel v).stamp = (s.vessel v).counter) (fun u x hx hu => ?_) (fun u hu => ?_)
      (fun u x hx hu => ?_) allVessels b (by decide) (mem_allVessels v) ⟨rfl, hbv⟩
    · exact ⟨(kept_loseGauge s x u).profile_eq.trans hu.1, (hother u x hx).trans hu.2⟩
    · have hdata : u.vesselData v ≠ s.vesselData v := by
        have e : u.vesselData v = some p.data[v] := by
          rw [← written_vesselData (s := s), ← hb]
          unfold State.vesselData
          rw [hu.1]
        rw [e]
        exact Ne.symm h
      unfold loseGauge
      rw [if_neg hdata, modVessel_vessel_same, hu.2]
      exact ⟨rfl, rfl⟩
    · rw [hother u x hx]
      exact hu
  obtain ⟨u, hu⟩ : ∃ u, u = allVessels.foldl (fun u x => loseGauge s x u) b := ⟨_, rfl⟩
  have hstore : ((settle u.flagSiding).vessel v).store = (u.vessel v).store :=
    congrArg (fun g : Ground => g.stores v) (ground_settle u.flagSiding)
  have e1 := congrArg Vessel.gaugedFree hstore
  have e2 := congrArg Vessel.stamp hstore
  rw [acceptWrite_eq, ← hb]
  rw [← hu] at htaken
  show ((settle (allVessels.foldl (fun u x => loseGauge s x u) b).flagSiding).vessel v).gaugedFree = 0 ∧
    ((settle (allVessels.foldl (fun u x => loseGauge s x u) b).flagSiding).vessel v).stamp = (s.vessel v).counter
  rw [← hu]
  exact ⟨e1.trans htaken.1, e2.trans htaken.2⟩

end Vessels

/-! ## PROTECTION -/

section Protection

variable {s : State} {p : Protection}

theorem written_protection : (s.written (.protection p)).protection = p := by
  unfold State.protection
  rw [written_profile]
  rfl

theorem written_fe (w : Section) : (s.written w).fe = s.fe := congrArg Fixed.fe (written_fixed w s)

theorem acceptWrite_esdActive (w : Section) : (acceptWrite w s).esdActive = (s.written w).esdActive := by
  have hk := acceptWrite_kept w s
  exact esdActive_of_fixed (hk.profile.trans (written_profile w s).symm)
    (hk.esdHigh.trans (congrArg Fixed.esdHigh (written_fixed w s)).symm)

/-- Field enable after a PROTECTION write (R158, R170). -/
theorem acceptWrite_enable : (s.fe = true → (acceptWrite (.protection p) s).esdActive = true →
      (acceptWrite (.protection p) s).fe = false ∧ (acceptWrite (.protection p) s).rearmRun = 0) ∧
    (s.fe = false ∨ (acceptWrite (.protection p) s).esdActive = false →
      (acceptWrite (.protection p) s).fe = s.fe ∧ (acceptWrite (.protection p) s).rearmRun = s.rearmRun) := by
  have hfix {u : State} (hk : Kept u (rejudge s (s.written (.protection p)))) :
      (acceptWrite (.protection p) s).fe = u.fe ∧ (acceptWrite (.protection p) s).rearmRun = u.rearmRun := by
    rw [acceptWrite_eq]
    have h1 := (kept_settle (takeSection s (.protection p) (s.written (.protection p))).flagSiding).fixed
    have h2 := hk.fixed
    exact ⟨(congrArg Fixed.fe h1).trans (congrArg Fixed.fe h2), (congrArg Fixed.rearmRun h1).trans (congrArg Fixed.rearmRun h2)⟩
  rw [acceptWrite_esdActive, ← written_fe (.protection p)]
  rcases rejudge_cases s (s.written (.protection p)) with ⟨hf, ha, hk⟩ | ⟨hno, hk, -⟩
  · obtain ⟨h1, h2⟩ := hfix hk
    have hd := disabled_fixed (s.written (.protection p))
    refine ⟨fun _ _ => ⟨h1.trans (disabled_fe _), h2.trans (congrArg Fixed.rearmRun hd)⟩, fun h => ?_⟩
    rw [hf, ha] at h
    rcases h with h | h <;> cases h
  · refine ⟨fun hf ha => ?_, fun _ => ?_⟩
    · rw [hf, ha] at hno
      rcases hno with h | h <;> cases h
    · obtain ⟨h1, h2⟩ := hfix hk
      exact ⟨h1, h2.trans (congrArg Fixed.rearmRun (written_fixed _ s))⟩

theorem takeSection_protection (h : s.fe = false ∨ (acceptWrite (.protection p) s).esdActive = false) :
    takeSection s (.protection p) (s.written (.protection p)) =
      if p.deadTime = s.protection.deadTime then s.written (.protection p) else eachFittedComp compPassGuard (s.written (.protection p)) := by
  rw [acceptWrite_esdActive, ← written_fe (.protection p)] at h
  rcases rejudge_cases s (s.written (.protection p)) with ⟨hf, ha, -⟩ | ⟨-, -, e⟩
  · rw [hf, ha] at h
    rcases h with h | h <;> cases h
  · rw [written_protection] at e
    exact e

theorem due_written : (s.written (.protection p)).flagSiding.due = s.due := by
  obtain ⟨x, e⟩ := written_rest (.protection p) s
  obtain ⟨t, ht⟩ : ∃ t, t = (s.written (.protection p)).flagSiding := ⟨_, rfl⟩
  have hform : t = { s with
      profile := s.profile.stores (.protection p), siding := x, changes := { s.changes with siding := true } } := by
    rw [ht, e]
    rfl
  have hcomp : t.comp = s.comp := by rw [hform]; rfl
  have hgrant : t.nextGrant = s.nextGrant := by rw [hform]; rfl
  have hcan : t.canTurn = s.canTurn := by rw [hform]; rfl
  have hgrants : t.grants = s.grants := by rw [hform]
  have hready : t.headReady = s.headReady := by rw [hform]; rfl
  have hjoin : t.mustJoin = s.mustJoin := by rw [hform]; rfl
  have hfe : t.fe = s.fe := by rw [hform]
  have hturn : t.nextTurn = s.nextTurn := by
    unfold State.nextTurn
    rw [hgrants, hcomp]
    simp only [hcan, fewestSeats_congr hcomp]
  rw [← ht]
  unfold State.due
  rw [hready, hjoin, hfe, hgrant, hturn]

/-- A write that leaves the dead-time and field enable leaves the plant. -/
theorem acceptWrite_plant (hd : p.deadTime = s.protection.deadTime) (h : s.fe = false ∨ (acceptWrite (.protection p) s).esdActive = false)
    (hdue : s.due = none) : (acceptWrite (.protection p) s).comps = s.comps ∧ (acceptWrite (.protection p) s).spots = s.spots ∧
    (acceptWrite (.protection p) s).grants = s.grants := by
  have hsame : acceptWrite (.protection p) s = (s.written (.protection p)).flagSiding := by
    rw [acceptWrite_eq, takeSection_protection h, if_pos hd]
    exact settle_none _ (due_written.trans hdue)
  obtain ⟨x, e⟩ := written_rest (.protection p) s
  rw [hsame, e]
  exact ⟨rfl, rfl, rfl⟩

/-- A STARTING compressor whose partner is proven shut by the new dead-time opens its valve. -/
theorem acceptWrite_passesGuard {c : CompNo} {d : Direction} {age : Nat} (hd : p.deadTime ≠ s.protection.deadTime) (hfe : s.fe = true)
    (ha : (acceptWrite (.protection p) s).esdActive = false) (hc : s.fittedComp c = true) (hst : (s.comp c).state = .starting)
    (hstep : (s.comp c).step = some .deadTime) (hdir : (s.comp c).dir = some d) (hpartner : ((s.comp c).valve d.other).isShut = true)
    (hmark : (s.comp c).mark d.other = some age) (hage : p.deadTime * 100 ≤ age) (hsh : ((s.comp c).valve d).isShut = true)
    (hsup : ((s.comp c).valve d).supervised = true) (hwait : s.waitsNowhere) :
    ((acceptWrite (.protection p) s).comp c).step = some .valveOpening ∧
    ((acceptWrite (.protection p) s).comp c).valve d = ((s.comp c).valve d).opening s.strokeOfDirection := by
  obtain ⟨b, hb⟩ : ∃ b, b = s.written (.protection p) := ⟨_, rfl⟩
  have hbc : b.comp c = s.comp c := by rw [hb, written_comp]
  have hbfit : b.fittedComp c = true := by
    rw [← hc, hb]
    unfold State.fittedComp State.site
    rw [written_profile]
    rfl
  have hbstroke : b.strokeOfDirection = s.strokeOfDirection := by
    rw [hb]
    unfold State.strokeOfDirection
    rw [written_profile]
    rfl
  obtain ⟨u, hu⟩ : ∃ u, u = eachFittedComp compPassGuard b := ⟨_, rfl⟩
  have hrest (x : State) (k : CompNo) : CompWork k x (if x.fittedComp k then compPassGuard k x else x) := by
    split
    · exact compWork_compPassGuard k x
    · exact .refl k x
  have hcomp : u.comp c = (s.comp c).opens s.strokeOfDirection d .valveOpening := by
    rw [hu]
    refine foldl_reaches_once (f := fun x k => if x.fittedComp k then compPassGuard k x else x) (a := c)
      (p := fun x => Kept b x ∧ x.comp c = s.comp c) (q := fun x => x.comp c = (s.comp c).opens s.strokeOfDirection d .valveOpening)
      (fun x k hk hx => ?_) (fun x hx => ?_) (fun x k hk hx => ?_) allComps b allComps_nodup (mem_allComps c) ⟨.refl b, hbc⟩
    · exact ⟨hx.1.trans (hrest x k).kept, ((hrest x k).others c (Ne.symm hk)).trans hx.2⟩
    · have hxfe : x.fe = true := by rw [hx.1.fe_eq, hb, written_fe, hfe]
      have hxdead : x.protection.deadTime * 100 ≤ age := by rw [hx.1.protection_eq, hb, written_protection]; exact hage
      have hpass := compPassGuard_opens (u := x) (c := c) (d := d) (st := .valveOpening) (age := age)
        (by rw [hx.2]; exact .inl ⟨hst, hstep, hdir, rfl⟩) hxfe (by rw [hx.2]; exact hpartner) (by rw [hx.2]; exact hmark) hxdead
        (by rw [hx.2]; exact hsh) (by rw [hx.2]; exact hsup)
      rw [if_pos ((hx.1.fittedComp_eq c).trans hbfit), hpass, modComp_comp_same, hx.2, hx.1.strokeOfDirection_eq, hbstroke]
    · exact ((hrest x k).others c (Ne.symm hk)).trans hx
  have hplant : u.spots = b.spots ∧ u.grants = b.grants := by
    rw [hu]
    refine foldl_preserves (f := fun x k => if x.fittedComp k then compPassGuard k x else x)
      (p := fun x => x.spots = b.spots ∧ x.grants = b.grants) (fun x k hx => ?_) allComps b ⟨rfl, rfl⟩
    exact ⟨(hrest x k).spots.trans hx.1, (hrest x k).grants.trans hx.2⟩
  have hsettle : settle u.flagSiding = u.flagSiding := by
    refine settle_quietly ⟨fun j => ?_, ?_⟩
    · have e : u.flagSiding.spot j = s.spot j := (spot_of_spots hplant.1 j).trans (by rw [hb, written_spot])
      rw [e]
      exact hwait.1 j
    · exact hplant.2.trans (by rw [hb, written_grants]; exact hwait.2)
  have hfinal : acceptWrite (.protection p) s = u.flagSiding := by
    rw [acceptWrite_eq, takeSection_protection (.inr ha), if_neg hd, ← hb, ← hu]
    exact hsettle
  have e : (acceptWrite (.protection p) s).comp c = (s.comp c).opens s.strokeOfDirection d .valveOpening := by
    rw [hfinal]
    exact hcomp
  have hval := Comp.opens_valve s.strokeOfDirection d .valveOpening (s.comp c)
  rw [e]
  exact ⟨rfl, hval⟩

end Protection

end Sys2Proof.Machine
end

section
/-! PROOFS. The SITE and SPOTS writes of a quiet siding: supervision, removal and fitting (R107, R120, R142). -/

namespace Sys2Proof.Machine

/-! ## The take-up by the limits -/

section TakeUp

variable (stroke : Timer) {v : Valve}

theorem Valve.takeUp_fault (h : v.isFault = true) : v.takeUp stroke = { v with command := .toShut, supervised := true } := if_pos h

theorem Valve.takeUp_byLimits (h : v.isFault = false) : v.takeUp stroke = { v with command := .toShut, supervised := true }.byLimits stroke :=
  if_neg (by rw [h]; exact Bool.false_ne_true)

theorem Valve.takeUp_shut (h : v.isFault = false) (hs : v.shutLimit.active = true) (ho : v.openLimit.active = false) :
    v.takeUp stroke = { v with command := .toShut, supervised := true, state := some .shut, timer := .stopped } := by
  rw [takeUp_byLimits stroke h]
  unfold Valve.byLimits
  simp only [hs, ho]

theorem Valve.takeUp_moving (h : v.isFault = false) (hs : v.shutLimit.active = false) :
    v.takeUp stroke = { v with command := .toShut, supervised := true, state := some .movingShut, timer := stroke } := by
  rw [takeUp_byLimits stroke h]
  unfold Valve.byLimits
  simp only [hs]

theorem Valve.takeUp_both (h : v.isFault = false) (hs : v.shutLimit.active = true) (ho : v.openLimit.active = true) :
    v.takeUp stroke = { v with command := .toShut, supervised := true, state := some .fault, timer := .stopped } := by
  rw [takeUp_byLimits stroke h]
  unfold Valve.byLimits
  simp only [hs, ho]
  rfl

end TakeUp

/-! ## Before the supervision -/

/-- The state in which a write comes to its supervision. -/
structure Prepared (before s t : State) : Prop where
  kept : Kept s t
  atRest : t.atRest
  grants : GrantsShrink s t
  valves : ∀ i n, (t.spot i).valve n = (s.spot i).valve n
  moves : ∀ c, before.supervisesComp c = false → s.supervisesComp c = true → CompMoves c s t

/-- Only the pulse remainder changes, where the divisor does. -/
theorem clearRemainder_spot (before : State) (i j : SpotNo) (u : State) : ∃ x, (clearRemainder before i u).spot j = { u.spot j with pulses := x } := by
  unfold clearRemainder
  split
  · exact ⟨_, rfl⟩
  · by_cases e : j = i
    · subst e
      exact ⟨0, modSpot_spot_same _ _ _⟩
    · exact ⟨(u.spot j).pulses, modSpot_spot_other u i j _ e⟩

theorem turn_clearRemainder (before : State) (i : SpotNo) (u : State) (hu : u.atRest) : SpotTurn i u (clearRemainder before i u) := by
  have hidle : ((clearRemainder before i u).spot i).Idle := by
    obtain ⟨x, hx⟩ := clearRemainder_spot before i i u
    rw [hx]
    exact hu i
  unfold clearRemainder at hidle ⊢
  split
  · exact ⟨.refl i u, hu i, fun c => .of_comp rfl⟩
  next hne =>
    rw [if_neg hne] at hidle
    exact ⟨.mod (by intro; rfl) (by intro; rfl) u, hidle, fun c => .of_comp rfl⟩

section Prepared

variable {before s : State} (h : s.atRest)

include h

theorem prepared_fit : Prepared before s (fitComps before s) := by
  obtain ⟨h1, h2, h3⟩ := fitComps_atRest (before := before) h
  refine ⟨kept_fitComps before s, h1, h2, fun i n => ?_, fun c hb hs => fitComps_moves h hb (Bool.and_eq_true_iff.mp hs).1⟩
  obtain ⟨x, hx⟩ := (h3 i).spot
  rw [hx]
  cases n <;> rfl

theorem prepared_clear : Prepared before s (eachSpot (clearRemainder before) s) := by
  obtain ⟨h1, h2, h3⟩ := eachSpot_atRest (turn_clearRemainder before) h
  refine ⟨Kept.eachSpot (kept_clearRemainder before) s, h1, h2, fun i n => ?_, fun c _ _ => (h3 c).moves⟩
  refine foldl_preserves (f := fun u j => clearRemainder before j u) (p := fun u => (u.spot i).valve n = (s.spot i).valve n)
    (fun u j hu => ?_) allSpots s rfl
  obtain ⟨x, hx⟩ := clearRemainder_spot before j i u
  rw [← hu, hx]
  cases n <;> rfl

theorem clearRemainder_pulses (i : SpotNo) : ((eachSpot (clearRemainder before) s).spot i).pulses =
    if s.divisor i = before.divisor i then (s.spot i).pulses else 0 := by
  obtain ⟨u, -, hr, ht⟩ := eachSpot_restTurn (turn_clearRemainder before) h i
  obtain ⟨x, hx⟩ := hr.spot
  obtain ⟨y, hy⟩ := ht.spot
  have hd : u.divisor i = s.divisor i := by
    unfold State.divisor
    rw [hr.kept.profile_eq]
  have hown : ((clearRemainder before i u).spot i).pulses = if s.divisor i = before.divisor i then (s.spot i).pulses else 0 := by
    unfold clearRemainder
    rw [hd]
    split
    · rw [hx]
    · rw [modSpot_spot_same]
  rw [hy]
  exact hown

end Prepared

/-! ## After the supervision -/

/-- What a write makes of the valves whose supervision begins or ends. -/
structure Supervised (before s t : State) : Prop where
  takesSpot : ∀ i n, before.supervisesSpot i = false → s.supervisesSpot i = true →
    (t.spot i).valve n = ((s.spot i).valve n).takeUp (s.strokeOf n) ∧
    (((s.spot i).valve n).isFault = false → (((s.spot i).valve n).takeUp (s.strokeOf n)).isFault = true → (t.spot i).state = .faulted)
  releasesSpot : ∀ i n, before.supervisesSpot i = true → s.supervisesSpot i = false → (t.spot i).valve n = ((s.spot i).valve n).release
  takesComp : ∀ c d, before.supervisesComp c = false → s.supervisesComp c = true → (s.comp c).state ≠ .proof →
    (t.comp c).valve d = ((s.comp c).valve d).takeUp s.strokeOfDirection ∧
    (t.comp c).mark d = (if (((s.comp c).valve d).takeUp s.strokeOfDirection).isShut then some 0 else none) ∧
    (((s.comp c).valve d).isFault = false → (((s.comp c).valve d).takeUp s.strokeOfDirection).isFault = true → (t.comp c).state = .faulted)

theorem Prepared.supervised {before s x : State} (h : Prepared before s x) : Supervised before s (superviseAll before x) := by
  have hprofile := h.kept.profile_eq
  refine ⟨fun i n hb hs => ?_, fun i n hb hs => ?_, fun c d hb hs hp => ?_⟩
  · have ht := superviseAll_takesSpot h.atRest hb ((supervisesSpot_of_profile hprofile i).trans hs) n
    rwa [h.valves, h.kept.strokeOf_eq] at ht
  · have ht := superviseAll_releasesSpot h.atRest hb ((supervisesSpot_of_profile hprofile i).trans hs) n
    rwa [h.valves] at ht
  · obtain ⟨hpx, hmoved⟩ := h.moves c hb hs hp
    have ht := superviseAll_takesComp h.atRest hb ((supervisesComp_of_profile hprofile c).trans hs) hpx d
    have hfault : ((x.comp c).valve d).isFault = ((s.comp c).valve d).isFault := by
      obtain ⟨-, -, -, -, hf, -⟩ := hmoved d
      exact hf
    rwa [h.kept.strokeOfDirection_eq, (hmoved d).takeUp, hfault] at ht

/-- What a write makes of the compressors that it removes and fits. -/
structure Fitted (before s t : State) : Prop where
  releases : ∀ c d, before.supervisesComp c = true → s.supervisesComp c = false →
    (t.comp c).valve d = ((s.comp c).valve d).release ∧ (t.comp c).mark d = (s.comp c).mark d
  stops : ∀ c, before.fittedComp c = true → s.fittedComp c = false → (s.comp c).state ≠ .faulted →
    (t.comp c).state = .stopped ∧ (t.comp c).dir = none ∧ (t.comp c).startOn = false ∧
    (t.comp c).startTimer = .stopped ∧ (t.comp c).runTimer = .stopped
  greets : ∀ c, before.fittedComp c = false → s.fittedComp c = true → (s.comp c).state ≠ .faulted → (s.comp c).faultInput.active = true →
    (t.comp c).state = .faulted ∧ (t.comp c).fault = some .faultInput ∧ (t.comp c).startOn = false

/-- A SITE write, which leaves the SPOTS section. -/
theorem fitted_site {before s : State} (h : s.atRest) (hp : s.profile.spots = before.profile.spots) :
    Fitted before s (superviseAll before (fitComps before s)) := by
  obtain ⟨hx, -, -⟩ := fitComps_atRest (before := before) h
  have hk := kept_fitComps before s
  have hunfit {c : CompNo} (hs : s.fittedComp c = false) : (!before.supervisesComp c && (fitComps before s).supervisesComp c) = false := by
    unfold State.supervisesComp
    rw [(hk.fittedComp_eq c).trans hs]
    simp
  refine ⟨fun c d hb hs => ?_, fun c hb hs hf => ?_, fun c hb hs hf hi => ?_⟩
  · have hs' : s.fittedComp c = false := by
      unfold State.supervisesComp at hb hs
      rw [hp, (Bool.and_eq_true_iff.mp hb).2, Bool.and_true] at hs
      exact hs
    obtain ⟨h1, h2, h3⟩ := fitComps_releases h hb hs' d
    obtain ⟨x, y, e⟩ := superviseAll_leavesComp hx (hunfit hs') h3
    rw [e]
    cases d <;> exact ⟨h1, h2⟩
  · have hstops := fitComps_stops h hb hs hf
    obtain ⟨x, y, e⟩ := superviseAll_leavesComp hx (hunfit hs) (by rw [hstops.1]; rfl)
    rw [e]
    exact hstops
  · obtain ⟨h1, h2, h3⟩ := fitComps_faults h hb hs hf hi
    obtain ⟨k1, k2, k3⟩ := superviseAll_faultedComp (before := before) hx h1
    exact ⟨k1, k2.trans h2, k3.trans h3⟩

theorem fittedComp_of_site {s t : State} (h : t.profile.site = s.profile.site) (c : CompNo) : t.fittedComp c = s.fittedComp c := by
  unfold State.fittedComp State.site
  rw [h]

theorem fittedSpot_of_site {s t : State} (h : t.profile.site = s.profile.site) (i : SpotNo) : t.fittedSpot i = s.fittedSpot i := by
  unfold State.fittedSpot State.site
  rw [h]

/-- A write that leaves the SITE section and takes no SPOTS section away fits and removes nothing. -/
theorem fitted_unmoved {before s : State} (h : s.profile.site = before.profile.site)
    (hp : before.profile.spots.isSome = true → s.profile.spots.isSome = true) (t : State) : Fitted before s t := by
  have hfit := fittedComp_of_site h
  refine ⟨fun c d hb hs => ?_, fun c hb hs => ?_, fun c hb hs => ?_⟩
  · unfold State.supervisesComp at hb hs
    obtain ⟨h1, h2⟩ := Bool.and_eq_true_iff.mp hb
    rw [hfit, h1, hp h2] at hs
    cases hs
  · rw [hfit, hb] at hs
    cases hs
  · rw [hfit, hb] at hs
    cases hs

/-- A write that leaves the SITE and SPOTS sections begins and ends no supervision. -/
theorem supervised_unmoved {before s : State} (h : s.profile.site = before.profile.site) (hp : s.profile.spots = before.profile.spots)
    (t : State) : Supervised before s t := by
  have hspot (i : SpotNo) : s.supervisesSpot i = before.supervisesSpot i := by
    unfold State.supervisesSpot
    rw [fittedSpot_of_site h, hp]
  have hcomp (c : CompNo) : s.supervisesComp c = before.supervisesComp c := by
    unfold State.supervisesComp
    rw [fittedComp_of_site h, hp]
  refine ⟨fun i n hb hs => ?_, fun i n hb hs => ?_, fun c d hb hs => ?_⟩
  · rw [hspot, hb] at hs
    cases hs
  · rw [hspot, hb] at hs
    cases hs
  · rw [hcomp, hb] at hs
    cases hs

/-! ## The whole write -/

theorem Prepared.settles {s x : State} {w : Section} (hg : s.grants = []) (hx : Prepared s (s.written w) x)
    (ht : takeSection s w (s.written w) = superviseAll s x) : acceptWrite w s = (superviseAll s x).flagSiding := by
  obtain ⟨h1, h2⟩ := superviseAll_atRest (before := s) hx.atRest
  rw [acceptWrite_eq, ht]
  exact State.atRest.settled (s := s.written w) h1 ((written_grants w s).trans hg) (hx.grants.trans h2)

section Write

variable {s : State} (h : s.atRest) (hg : s.grants = [])

include h

theorem written_atRest (w : Section) : (s.written w).atRest := fun i => by
  rw [written_spot]
  exact h i

include hg

theorem acceptWrite_supervises {w : Section} (hw : w.isQuietClass = true) :
    Supervised s (s.written w) (acceptWrite w s) ∧ Fitted s (s.written w) (acceptWrite w s) := by
  have hrest := written_atRest h w
  have hprofile := written_profile w s
  cases w with
  | site p =>
    have hx := prepared_fit (before := s) hrest
    rw [hx.settles hg rfl]
    obtain ⟨k1, k2, k3⟩ := hx.supervised
    obtain ⟨l1, l2, l3⟩ := fitted_site (before := s) hrest (by rw [hprofile]; rfl)
    exact ⟨⟨k1, k2, k3⟩, ⟨l1, l2, l3⟩⟩
  | spots p =>
    have hx := prepared_clear (before := s) hrest
    rw [hx.settles hg rfl]
    obtain ⟨k1, k2, k3⟩ := hx.supervised
    exact ⟨⟨k1, k2, k3⟩, fitted_unmoved (by rw [hprofile]; rfl) (fun _ => by rw [hprofile]; rfl) _⟩
  | vessels p =>
    exact ⟨supervised_unmoved (by rw [hprofile]; rfl) (by rw [hprofile]; rfl) _,
      fitted_unmoved (by rw [hprofile]; rfl) (fun hs => by rw [hprofile]; exact hs) _⟩
  | protection p => cases hw

/-- A SPOTS write clears the pulse remainder of each spot whose divisor changes. -/
theorem acceptWrite_pulses (p : SpotsSection) (i : SpotNo) :
    ((acceptWrite (.spots p) s).spot i).pulses = if s.divisor i = some p.divisors[i] then (s.spot i).pulses else 0 := by
  have hrest := written_atRest h (.spots p)
  have hx := prepared_clear (before := s) hrest
  have hd : (s.written (.spots p)).divisor i = some p.divisors[i] := by
    unfold State.divisor
    rw [written_profile]
    rfl
  have hp := (superviseAll_pulses (before := s) hx.atRest i).trans (clearRemainder_pulses hrest i)
  rw [hx.settles hg rfl]
  rw [hd, written_spot] at hp
  refine hp.trans ?_
  simp only [eq_comm]

end Write

end Sys2Proof.Machine
end

section
/-! PROOFS. WRITE PROFILE (R171): the refusals, the stored section, and what it brings with it. -/

namespace Sys2Proof.Machine

/-! ## The answers -/

section Answers

variable {sec : Byte} {fields : List Byte} {s : State} {w : Section}

theorem answerWriteProfile_range (h : sectionOf sec fields = none) : answerWriteProfile sec fields s = (s, .bare .range) := by
  unfold answerWriteProfile
  rw [h]

variable (hw : sectionOf sec fields = some w)

include hw

theorem answerWriteProfile_locked (h : s.lockAllows w = false) : answerWriteProfile sec fields s = (s, .bare .locked) := by
  unfold answerWriteProfile
  rw [hw]
  simp [h]

variable (h1 : s.lockAllows w = true)

include h1

theorem answerWriteProfile_notQuiet (h2 : w.isQuietClass = true) (h3 : s.quiet = false) :
    answerWriteProfile sec fields s = (s, .bare .notQuiet) := by
  unfold answerWriteProfile
  rw [hw]
  simp [h1, h2, h3]

variable (h2 : w.isQuietClass = true → s.quiet = true)

include h2

theorem answerWriteProfile_occupied (h3 : s.strands w = true) : answerWriteProfile sec fields s = (s, .bare .occupied) := by
  have hq : (w.isQuietClass && !s.quiet) = false := by
    cases hc : w.isQuietClass
    · rfl
    · rw [h2 hc]
      rfl
  unfold answerWriteProfile
  rw [hw]
  simp [h1, hq, h3]

theorem answerWriteProfile_done (h3 : s.strands w = false) : answerWriteProfile sec fields s =
    (acceptWrite w s, .ok [boolByte (s.sectionValid w), Layout.sidingState (acceptWrite w s).siding]) := by
  have hq : (w.isQuietClass && !s.quiet) = false := by
    cases hc : w.isQuietClass
    · rfl
    · rw [h2 hc]
      rfl
  unfold answerWriteProfile
  rw [hw]
  simp [h1, hq, h3]

end Answers

section Frames

variable {s u : State} (h : u.frame = s.frame) (w : Section)

include h

theorem lockAllows_of_frame : u.lockAllows w = s.lockAllows w := by
  have hp : u.profile = s.profile := congrArg Frame.profile h
  have hl : u.lock = s.lock := congrArg Frame.lock h
  unfold State.lockAllows
  rw [hp, hl]

theorem strands_of_frame : u.strands w = s.strands w := by
  unfold State.strands
  simp only [spot_of_frame h]

theorem sectionValid_of_frame : u.sectionValid w = s.sectionValid w := by
  have hp : u.profile = s.profile := congrArg Frame.profile h
  unfold State.sectionValid
  rw [hp]

end Frames

/-- In a quiet siding whose queues are legal every spot stands at rest. -/
theorem atRest_of_quiet {s : State} (hq : s.quiet = true) (h : ∀ i, s.unfittedQuiet i ∧ (s.spot i).queueLegal) : s.atRest := fun i => by
  obtain ⟨hun, hlegal⟩ := h i
  have hquiet : (s.spot i).state.quiet = true := by
    cases hfit : s.fittedSpot i
    · exact hun hfit
    · exact State.quiet_spot hq hfit
  exact ⟨(SpotState.quiet_iff _).mp hquiet, hlegal.orders_nil hquiet⟩

theorem strokeOf_of_profile {s t : State} (h : t.profile = s.profile) (n : ValveName) : t.strokeOf n = s.strokeOf n := by
  unfold State.strokeOf
  rw [h]

theorem strokeOfDirection_of_profile {s t : State} (h : t.profile = s.profile) : t.strokeOfDirection = s.strokeOfDirection := by
  unfold State.strokeOfDirection
  rw [h]

theorem atRest_of_frame {s u : State} (h : u.frame = s.frame) (hs : s.atRest) : u.atRest := fun i => by
  rw [spot_of_frame h]
  exact hs i

/-- A valve taken up, by its limits, with the fault that two active ones make. -/
theorem Valve.taken_limits {stroke : Timer} {v x : Valve} {faulted : Prop} (h : x = v.takeUp stroke)
    (hfault : v.isFault = false → (v.takeUp stroke).isFault = true → faulted) :
    (v.isFault = true → x = { v with command := .toShut, supervised := true }) ∧
    (v.isFault = false →
      (v.shutLimit.active = true → v.openLimit.active = false →
        x = { v with command := .toShut, supervised := true, state := some .shut, timer := .stopped }) ∧
      (v.shutLimit.active = false → x = { v with command := .toShut, supervised := true, state := some .movingShut, timer := stroke }) ∧
      (v.shutLimit.active = true → v.openLimit.active = true →
        x = { v with command := .toShut, supervised := true, state := some .fault, timer := .stopped } ∧ faulted)) := by
  refine ⟨fun hf => h.trans (takeUp_fault _ hf), fun hf => ⟨fun hsh ho => h.trans (takeUp_shut _ hf hsh ho),
    fun hsh => h.trans (takeUp_moving _ hf hsh), fun hsh ho => ?_⟩⟩
  have htake := takeUp_both stroke hf hsh ho
  exact ⟨h.trans htake, hfault hf (by rw [htake]; rfl)⟩

/-- Settles O43: the refusals in order; the stored section and what every write keeps; the gauges, field enable and guards of
VESSELS and PROTECTION; and, every spot at rest, each spot's and each compressor's own turn of a SITE or SPOTS write. -/
theorem writeProfileStoresASection : Obligations.WriteProfileStoresASection := by
  intro s via sec fields ht
  refine ⟨fun h => ?_, fun w hw => ⟨fun h => ?_, fun h1 h2 h3 => ?_, fun h1 h2 h3 => ?_, fun h1 h2 h3 => ?_⟩⟩
  · exact refuses_of (c := .writeProfile via sec fields) ht rfl fun u _ => answerWriteProfile_range h
  · exact refuses_of (c := .writeProfile via sec fields) ht rfl fun u hu =>
      answerWriteProfile_locked hw ((lockAllows_of_frame hu w).trans h)
  · exact refuses_of (c := .writeProfile via sec fields) ht rfl fun u hu =>
      answerWriteProfile_notQuiet hw ((lockAllows_of_frame hu w).trans h1) h2 ((quiet_of_frame hu).trans h3)
  · exact refuses_of (c := .writeProfile via sec fields) ht rfl fun u hu =>
      answerWriteProfile_occupied hw ((lockAllows_of_frame hu w).trans h1) (fun hc => (quiet_of_frame hu).trans (h2 hc))
        ((strands_of_frame hu w).trans h3)
  · obtain ⟨u, t, hu, ha, hframe, hch, -⟩ := answers_eventOf (c := .writeProfile via sec fields) (s := s) ht rfl fun u hu =>
      answerWriteProfile_done hw ((lockAllows_of_frame hu w).trans h1) (fun hc => (quiet_of_frame hu).trans (h2 hc))
        ((strands_of_frame hu w).trans h3)
    have hp : u.profile = s.profile := congrArg Frame.profile hu.frame
    have hspot (i : SpotNo) : u.spot i = s.spot i := spot_of_frame hu.frame (i := i)
    have hcomp (c : CompNo) : u.comp c = s.comp c := comp_of_frame hu.frame c
    have hti (i : SpotNo) : t.spot i = (acceptWrite w u).spot i := by rw [spot_of_frame hframe, closeEvent_spot]
    have htc (c : CompNo) : t.comp c = (acceptWrite w u).comp c := by rw [comp_of_frame hframe, closeEvent_comp]
    have htv (v : VesselNo) : t.vessel v = (acceptWrite w u).vessel v := by rw [vessel_of_frame hframe, closeEvent_vessel]
    have hflag : t.changes.siding = true := by
      rw [hch, closeEvent_sidingFlag, (acceptWrite_kept w u).flag]
      rfl
    obtain ⟨a, hadef⟩ : ∃ a, a = acceptWrite w u := ⟨_, rfl⟩
    have hk := acceptWrite_kept w u
    rw [closeEvent_frame] at hframe
    rw [← hadef] at hframe ha hk
    simp only [← hadef] at hti htc htv
    have hprofile : t.profile = u.profile.stores w := (congrArg Frame.profile hframe).trans hk.profile
    have hside : t.siding = a.siding := congrArg Frame.siding hframe
    have hfe : t.fe = a.fe := congrArg Frame.fe hframe
    have hrun : t.rearmRun = a.rearmRun := congrArg Frame.rearmRun hframe
    have hesd : t.esdActive = a.esdActive := esdActive_of_fixed (congrArg Frame.profile hframe) (congrArg Frame.esdHigh hframe)
    have hfeu : u.fe = s.fe := fe_of_frame hu.frame
    have hprotection : u.protection = s.protection := by
      unfold State.protection
      rw [hp]
    have hstrokeD : u.strokeOfDirection = s.strokeOfDirection := strokeOfDirection_of_profile hp
    have hsiding {x : SidingState} (hx : x ≠ .commissioning) (e : (u.written w).siding = x) : t.siding = x := by
      rw [hside, hk.siding (by rw [e]; exact hx), e]
    obtain ⟨hw1, hw2, hw3⟩ := written_siding w u
    rw [siding_of_frame hu.frame] at hw1 hw2 hw3
    refine ⟨t, ?_, ?_, hflag, fun h => ?_, fun h hc => hsiding nofun (hw2 h hc), fun h => hsiding nofun (hw3 h), fun p v e hne => ?_,
      ?_, ?_, ?_, ?_, ?_, ?_, fun p e => ?_, fun hc hg hquiet => ?_⟩
    · rw [sectionValid_of_frame hu.frame] at ha
      rw [hside]
      exact ha
    · rw [hprofile, hp]
      cases w <;> rfl
    · rw [hprofile]
      refine hsiding ?_ (hw1 h)
      split <;> exact nofun
    · subst e
      rw [htv, hadef, ← vessel_of_frame hu.frame]
      refine acceptWrite_losesGauge fun e => hne ?_
      rw [← e]
      unfold State.vesselData
      rw [hp]
    · exact (congrArg Frame.staged hframe).trans (hk.staged.1.trans (congrArg Frame.staged hu.frame))
    · exact (congrArg Frame.stagedVersion hframe).trans (hk.staged.2.1.trans (congrArg Frame.stagedVersion hu.frame))
    · exact (congrArg Frame.setpointHold hframe).trans (hk.staged.2.2.trans (congrArg Frame.setpointHold hu.frame))
    · exact (congrArg Frame.lock hframe).trans (hk.lock.1.trans (congrArg Frame.lock hu.frame))
    · exact (congrArg Frame.lockTaken hframe).trans (hk.lock.2.trans (congrArg Frame.lockTaken hu.frame))
    · exact (congrArg Frame.esdHigh hframe).trans (hk.esdHigh.trans (congrArg Frame.esdHigh hu.frame))
    · subst e
      obtain ⟨e1, e2⟩ := acceptWrite_enable (s := u) (p := p)
      rw [← hadef, hfeu] at e1 e2
      have hrunu : u.rearmRun = s.rearmRun := congrArg Frame.rearmRun hu.frame
      refine ⟨fun hf he => ?_, fun he => ?_, fun hd he hdue => ?_, fun c d age hd hf he hc hst hstep hdir hpartner hmark hage hsh hsup hwait => ?_⟩
      · rw [hfe, hrun]
        exact e1 hf (hesd.symm.trans he)
      · rw [hfe, hrun, ← hrunu]
        exact e2 (by rwa [hesd] at he)
      · have hdueu : u.due = none := by
          rw [← hdue]
          exact due_of_plant (congrArg Frame.spots hu.frame) (congrArg Frame.comps hu.frame) (congrArg Frame.grants hu.frame)
            (congrArg Frame.fe hu.frame) (congrArg Frame.profile hu.frame)
        obtain ⟨k1, k2, k3⟩ := acceptWrite_plant (s := u) (p := p) (by rw [hprotection]; exact hd)
          (by rw [← hadef, hfeu, ← hesd]; exact he) hdueu
        rw [← hadef] at k1 k2 k3
        exact ⟨(congrArg Frame.comps hframe).trans (k1.trans (congrArg Frame.comps hu.frame)),
          (congrArg Frame.spots hframe).trans (k2.trans (congrArg Frame.spots hu.frame)),
          (congrArg Frame.grants hframe).trans (k3.trans (congrArg Frame.grants hu.frame))⟩
      · rw [← hcomp] at hst hstep hdir hpartner hmark hsh hsup
        have hpass := acceptWrite_passesGuard (s := u) (p := p) (c := c) (d := d) (age := age) (by rw [hprotection]; exact hd) (hfeu.trans hf)
          (by rw [← hadef, ← hesd]; exact he) ((fittedComp_of_profile hp c).trans hc) hst hstep hdir hpartner hmark hage hsh hsup
          (waitsNowhere_of_frame hu.frame hwait)
        rw [← hadef, hcomp, hstrokeD] at hpass
        rw [htc]
        exact hpass
    · have hrest : u.atRest := atRest_of_frame hu.frame (atRest_of_quiet (h2 hc) hquiet)
      have hgrants : u.grants = [] := (congrArg Frame.grants hu.frame).trans hg
      have hwp : t.profile = (u.written w).profile := hprofile.trans (written_profile w u).symm
      obtain ⟨⟨k1, k2, k3⟩, l1, l2, l3⟩ := acceptWrite_supervises hrest hgrants hc
      simp only [← hadef, written_spot, written_comp, hspot, hcomp, supervisesSpot_of_profile hp, supervisesComp_of_profile hp,
        fittedComp_of_profile hp, ← supervisesSpot_of_profile hwp, ← supervisesComp_of_profile hwp, ← fittedComp_of_profile hwp,
        ← strokeOf_of_profile hwp, ← strokeOfDirection_of_profile hwp, ← hti, ← htc] at k1 k2 k3 l1 l2 l3
      refine ⟨fun i n hb hs => ?_, fun i n hb hs => k2 i n hb hs, fun c d hb hs hproof => ?_, fun c d hb hs => l1 c d hb hs,
        fun c hb hs hf => l2 c hb hs hf, fun c hb hs hf hi => l3 c hb hs hf hi, fun p i e => ?_⟩
      · obtain ⟨hv, hfault⟩ := k1 i n hb hs
        exact Valve.taken_limits hv hfault
      · obtain ⟨hv, hmark, hfault⟩ := k3 c d hb hs hproof
        rw [← hv] at hmark
        obtain ⟨e1, e2⟩ := Valve.taken_limits hv hfault
        refine ⟨e1, fun hf => ?_⟩
        obtain ⟨m1, m2, m3⟩ := e2 hf
        refine ⟨fun hsh ho => ⟨m1 hsh ho, ?_⟩, fun hsh => ⟨m2 hsh, ?_⟩, fun hsh ho => ⟨?_, (m3 hsh ho).2⟩⟩
        · rw [hmark, m1 hsh ho]
          rfl
        · rw [hmark, m2 hsh]
          rfl
        · rw [(m3 hsh ho).1]
          rfl
      · subst e
        have hpulses := acceptWrite_pulses hrest hgrants p i
        have hdivisor : u.divisor i = s.divisor i := by
          unfold State.divisor
          rw [hp]
        rwa [← hadef, ← hti, hspot, hdivisor] at hpulses

end Sys2Proof.Machine
end
